-- ==== Sys2Proof/Word.lean ====
section
/-! DEFINITION. The word types of the block and the plain map type that State is built from. -/

namespace Sys2Proof

/-- A byte. -/
abbrev Byte := BitVec 8

/-- A register word (R6). -/
abbrev Word := BitVec 32

/-- A finite map with Nat keys, kept as a list with strictly rising keys. -/
abbrev AMap (α : Type) := List (Nat × α)

end Sys2Proof
end

