-- ==== Sys2Proof/Syntax.lean ====
section
/-! DEFINITION. The commands of the block: one constructor for each row of spec/opcode_table.json.
The table gives its rows no operands; the operands here are what the rules of each row read from outside the block
(log entry 2). A command that reports an internal event names the unit it happens in. -/

namespace Sys2Proof

/-- One lane's result of initial training, a recalibration round or a lane move (R298, R303, R306).
`rx1 rx2 tx1 tx2` are the centres of the two sweeps; training and lane moves use `rx1` and `tx1`, and the failing taps `rxBad` and
`txBad` of its two delay lines (R296). -/
structure LaneObs where
  ch : Nat
  pc : Nat
  lane : Nat
  rx1 : Nat
  rx2 : Nat
  rxEye : Nat
  rxBad : Nat
  tx1 : Nat
  tx2 : Nat
  txEye : Nat
  txBad : Nat
  deriving DecidableEq, Repr

/-- The read sweep of a pseudo-channel at one Vref code (step 5 of R298): the centre and the eye that it finds on each lane. -/
structure VrefObs where
  ch : Nat
  pc : Nat
  code : Nat
  lanes : List (Nat × Nat × Nat)
  deriving DecidableEq, Repr

/-- The outcome of a cell self-test (R161): failing physical lanes and the parts that failed. -/
structure CellTest where
  lanes : List Nat
  storeOk : Bool
  slotsOk : Bool
  checkOk : Bool
  deriving DecidableEq, Repr

/-- What a keeper meets while it trains its hive (R298 to R302): the identity read over IEEE 1500, the stack's timings and, where
it asks for refresh management, its two limits (R280), the first step that fails twice with its pseudo-channels (channel,
pseudo-channel), the read sweeps, the lane results, the cell self-tests that do not pass throughout (by cell, 32 for CELL[n.U]) and
the staging banks that fail. -/
structure TrainObs where
  answers : Bool
  gen : Nat
  nsid : Nat
  rowBits : Nat
  timing : List Nat
  rfm : Option (Nat × Nat)
  failStep : Nat
  failPcs : List (Nat × Nat)
  vref : List VrefObs
  lanes : List LaneObs
  cellTests : List (Nat × CellTest)
  stageFail : List Nat
  deriving DecidableEq, Repr

/-- The raw readings of one housekeeping round (R411): for each of the 144 sites the counts of its primary and spare
oscillator, the 48 supply monitors in mV, and each hive's stack temperature in degrees if the keeper read one. -/
structure RoundObs where
  osc : List (Nat × Nat)
  mon : List Nat
  stack : List (Option Int)
  deriving DecidableEq, Repr

/-- What falls when a function reset happens (R507). -/
inductive FlrCause where
  | functionLevel | hotReset | linkDown
  deriving DecidableEq, Repr

/-- The request kinds that HP answers as unsupported (R61). -/
inductive UrKind where
  | message | io | atomic | tlpPrefix | barAccess
  deriving DecidableEq, Repr

/-- How the programming of OTP words goes (R469): to its end; or, after some words, the window of R423 is left, or a word reads
back wrong. -/
inductive OtpRun where
  | whole | temp (words : Nat) | fail (words : Nat)
  deriving DecidableEq, Repr

/-- Where a parity error strikes while a job or an instruction runs (R218, R259, R362): nowhere, in the program store, on a
crossbar path, in the cue sequencer, in a result buffer, the KV-stream state or the gather tree, or in the stage manager. -/
inductive Parity where
  | clean | store | crossbar | sequencer | results | stage
  deriving DecidableEq, Repr

/-- The commands, in the order of the table. -/
inductive Instr where
  | reset (porst : Bool)
  | romBoot (flashFails : Bool)
  | coreRelease
  | domainSequence
  | hiveTraining (n : Nat) (obs : TrainObs)
  | checkerSelfTest (fails : List (Nat × Bool × Nat × Nat))
  | fill
  | portOpening (cpLinks : BitVec 16) (ppLink : Bool)
  | heldEventFlush
  | housekeepingRound (obs : RoundObs)
  | throttleLevelStep (g : Nat)
  | shutdownRecordWrite
  | shutdownRecordClear
  | orderlyShutdown
  | shutdown
  | pwrAckRise (d : Nat)
  | pwrAckFall (d : Nat)
  | pwrAckTimeout (d : Nat)
  | domainLoss (d : Nat)
  | pdCIdlePowerDown (n : Nat)
  | pdCWake (n : Nat)
  | cpLinkDown (k : Nat)
  | cpPortReopen (k : Nat)
  | cpHeaderFlit (k : Nat) (flit : BitVec 2048) (par : BitVec 256)
  | cpRd (k : Nat)
  | cpWr (k : Nat) (parityError : Bool)
  | cpActPush (k : Nat) (parityError : Bool)
  | cpDataFlit (k : Nat) (flit : BitVec 2048) (par : BitVec 256)
  | cpRspCreditReturn (k : Nat) (hdr data : Nat)
  | responseSend (k : Nat)
  | regulationCheck (urg : BitVec 32)
  | curtainComplete (n k : Nat) (parityError : Bool)
  | curtainWatchdogExpiry (k : Nat)
  | gateDraw (n : Nat) (urg : BitVec 32)
  | backoffExpiry (n m : Nat)
  | curtainCommit (n : Nat)
  | chcCommandIssue (n c p : Nat) (errs : List (Nat × Byte)) (parityError : Bool)
  | refreshInterval (n c p : Nat)
  | neighbourRefreshMandatory (n c p : Nat)
  | rowCloseIdle (n c p bank : Nat)
  | powerDownEntry (n c p : Nat)
  | selfRefreshEntry (n c p : Nat)
  | pseudoChannelWake (n c p : Nat)
  | checkCacheParityError (n c p i : Nat)
  | chcCommit (n : Nat)
  | modeRegisterRead (n : Nat) (known : Bool) (value : Byte)
  | modeRegisterWrite (n : Nat) (known : Bool)
  | reread (n c p : Nat) (errs : List (Nat × Byte))
  | readModifyWrite (n c p : Nat) (errs : List (Nat × Byte))
  | ceLeak (n : Nat)
  | laneErasure (n c p lane : Nat)
  | remapInstall (n c p sid bank row : Nat) (errs : List (Nat × List (Nat × Byte)))
  | install (n : Nat) (errs : List (Nat × List (Nat × Byte)))
  | repair (n : Nat) (stackOk : Bool) (errs : List (Nat × List (Nat × Byte)))
  | remapMove (n c i : Nat) (errs : List (Nat × List (Nat × Byte)))
  | scrubGo
  | scrubStop
  | scrubRead (errs : List (Nat × Byte))
  | scrubRunEnd
  | recalRound (n : Nat) (obs : List LaneObs)
  | recalNow (n : Nat)
  | recalDeadline (n c p : Nat)
  | laneMove (n c p lane : Nat) (obs : LaneObs)
  | dlyRampStep (n c p : Nat)
  | hpMemRead (bar : Nat) (off : BitVec 64) (len tag : Nat)
  | hpMemWrite (bar : Nat) (off : BitVec 64) (data : List Byte) (poisoned parityError : Bool)
  | hpConfigRead (off be tag : Nat)
  | hpConfigWrite (off be : Nat) (value : BitVec 32) (tag : Nat) (poisoned : Bool)
  | hpUnsupportedRequest (kind : UrKind) (tag : Nat)
  | hpCompletion (tag : Nat) (ok poisoned last : Bool) (data : List Byte)
  | hpCompletionTimeout (tag : Nat)
  | tagQuarantineExpiry (pp : Bool) (tag : Nat)
  | functionReset (cause : FlrCause)
  | msixPendingRelease (v : Nat)
  | descTail (x : Nat) (value : BitVec 32)
  | cplHead (x : Nat) (value : BitVec 32)
  | heartbeat (x : Nat) (gen : BitVec 16)
  | heartbeatTimeout (hs : Nat)
  | ctxHbCfgWrite (hs : Nat) (value : BitVec 32)
  | ackDrain (hs : Nat) (gen : BitVec 16)
  | ackDiscard (hs : Nat) (gen : BitVec 16)
  | drainComplete (hs : Nat)
  | ctxOpen
  | ctxClose
  | closeComplete (x : Nat)
  | ctxResume
  | ctxResumeDiscard
  | resumeCommit (x : Nat)
  | ctxRead
  | ctxModify
  | descriptorFetch (x : Nat)
  | jobStart (x : Nat)
  | jobNop (j : Nat) (parity : Parity)
  | copy (j : Nat) (parity : Parity)
  | fillRange (j : Nat) (parity : Parity)
  | runCue (j : Nat) (parity : Parity)
  | attnStream (j : Nat) (parity : Parity)
  | peerReduceSend (j : Nat) (parity : Parity)
  | peerReduceGather (j : Nat) (parity : Parity)
  | broadcast (j : Nat) (parity : Parity)
  | jobBeginOnHive (n : Nat)
  | jobDoneReport (j : Nat)
  | jobTimeout (j elapsedUs : Nat)
  | completionRecordWrite (j : Nat)
  | auditBatchClose
  | cueNop (n : Nat) (parity : Parity)
  | cueEnd (n : Nat) (parity : Parity)
  | cueWait (n : Nat) (parity : Parity)
  | cueLset (n : Nat) (parity : Parity)
  | cueLoop (n : Nat) (parity : Parity)
  | cueAset (n : Nat) (parity : Parity)
  | cueAmov (n : Nat) (parity : Parity)
  | cueAadd (n : Nat) (parity : Parity)
  | cueAmad (n : Nat) (parity : Parity)
  | cueMode (n : Nat) (parity : Parity)
  | cueScale (n : Nat) (parity : Parity)
  | cueLdact (n : Nat) (parity : Parity)
  | cueClrc (n : Nat) (parity : Parity)
  | cuePass (n : Nat) (parity : Parity)
  | cueZrb (n : Nat) (parity : Parity)
  | cueRed (n : Nat) (parity : Parity)
  | cueGather (n : Nat) (parity : Parity)
  | cueEmit (n : Nat) (parity : Parity)
  | cueKstream (n : Nat) (parity : Parity)
  | cueVstream (n : Nat) (parity : Parity)
  | smaxStageMax (n : Nat) (parity : Parity)
  | smaxStageExp (n : Nat) (parity : Parity)
  | smaxStageClose (n : Nat) (parity : Parity)
  | spanSyncComplete (j : Nat) (parity : Parity)
  | activationWriteRelease (n : Nat)
  | residueFault (n cell group column : Nat)
  | laneTestComplete (n cell : Nat) (failed : List Nat)
  | cellTakeover (n cell : Nat) (copyParity : Option Nat)
  | cellParityError (n cell kind column : Nat)
  | cellRetire (n cell : Nat)
  | testStart (n cell : Nat)
  | cellSelfTest (n cell : Nat) (test : CellTest)
  | glbCommit
  | arbCommit
  | qosTokenReset (mask : BitVec 32)
  | guarFactorRecompute (n : Nat)
  | qosMissWindow (n : Nat)
  | winCommit
  | peerTimeoutWrite (value : BitVec 32)
  | ppLinkDown
  | ppReadyRise
  | peerOutboundRequest (m : Nat)
  | ppInRd (slot : BitVec 256) (par : BitVec 32)
  | ppInWr (slot : BitVec 256) (par : BitVec 32) (data : List Byte) (dpar : List Bool) (parityError : Bool)
  | ppInRed (slot : BitVec 256) (par : BitVec 32) (data : List Byte) (dpar : List Bool)
  | ppInBcast (slot : BitVec 256) (par : BitVec 32) (data : List Byte) (dpar : List Bool) (parityError : Bool)
  | ppInRelay (slot : BitVec 256) (par : BitVec 32) (data : List Byte) (dpar : List Bool)
  | ppInNop (slot : BitVec 256) (par : BitVec 32)
  | ppRspIn (slot : BitVec 256) (par : BitVec 32) (data : List Byte) (dpar : List Bool)
  | peerRequestTimeout (tag : Nat)
  | gatherApply (j : Nat) (parity : Parity)
  | orphanExpiry (round : Nat)
  | bcastAck (uid : Nat)
  | relayForward
  | relayResend (tag : Nat)
  | statusReq (msg : List Byte)
  | updateBegin (msg : List Byte)
  | updateChunk (msg : List Byte)
  | updateEnd (msg : List Byte)
  | updateCheckDone
  | updateApplyDone (flashError : Bool)
  | updateVerifyDone (flashError : Bool)
  | updateLoadDone
  | handover (safe stageSafe : Bool) (ready : List Nat)
  | bootRecordWrite
  | deferralTimeout
  | debugChallengeReq (msg : List Byte)
  | debugResponse (msg : List Byte)
  | auditFetch (msg : List Byte)
  | mbxReqTailWrite (value : BitVec 32)
  | mbxStatus
  | settingsRead
  | settingsWrite (flashError : Bool)
  | coreRestart (core reason : Nat)
  | coreWatchdogExpiry (core : Nat)
  | coreRestartDelayExpiry (core : Nat)
  | updActivate
  | updAbort
  | eventRead
  | intMaskWrite (value : BitVec 32)
  | advance (target : Nat) (run : OtpRun)
  | lcsResume (run : OtpRun)
  | raiseFloor (run : OtpRun)
  | dbgClose
  | revoke (slot : Nat) (run : OtpRun)
  | pmcClear
  | pmcCountUpdate
  | bwWindowEnd
  | pmcBwCfgWrite (value : BitVec 32)
  | pmcSmpEnable (n : Nat) (value : BitVec 32)
  | sampleRecordWrite (n : Nat)
  | registerWrite (off : Nat) (value : BitVec 32)
  | ppCreditReturn (reqHdr reqData rspHdr rspData : Nat)
  | mbxEvtHeadWrite (value : BitVec 32)
  | jtgAccess (ir : BitVec 8) (tdi : BitVec 32)
  deriving DecidableEq, Repr

end Sys2Proof
end

