-- ==== Sys2Proof/Decode.lean ====
section
/-! DEFINITION. The words of the opcode table: its rows give the commands no bits, so no word spells a command. -/

namespace Sys2Proof

/-- The command that a word spells by the bits of spec/opcode_table.json. No row of the table has bits. -/
def decodeTableWord (_nbits _w : Nat) : Option Instr := none

end Sys2Proof
end

