-- ==== Sys2Proof/Config.lean ====
section
/-! DEFINITION. The free values: what the spec leaves open, as constants with no body.
Each is applied to State's counter of fresh draws, so that no proof can see a value. -/

namespace Sys2Proof

/-- 256 fresh bits of the true random number generator (R472, R474, R478). -/
opaque Config.trng : Nat → BitVec 256

/-- The 96 bytes of an ECDSA P-384 signature that the box office makes (R478). -/
opaque Config.signature : Nat → BitVec 768

/-- The 97-byte audit public key derived from ID_SEED (R479). -/
opaque Config.auditKey : BitVec 256 → BitVec 776

/-- Data bits that the spec leaves undefined, one draw each. -/
opaque Config.freeData : Nat → BitVec 512

/-- The flash parameter header is valid (R72): the spec gives its place and no layout. -/
opaque Config.flashHeader : Nat → Bool

/-- What the bits of a scan through DBG_ACCESS ask for (R74): the spec gives the data register no layout. -/
opaque Config.debugAccess : BitVec 32 → BitVec 128

/-- The hive whose keeper takes the bits of a scan through STACK_1500 (R66, R74): the spec gives no layout. -/
opaque Config.stackRelay : BitVec 32 → BitVec 4

/-- The CODE word of an event of a class (R448): the spec gives the word and no codes. -/
opaque Config.eventCode : Nat → Nat → BitVec 32

/-- Straps and static inputs that the integrator sets (R65, R75, R499, R500). -/
opaque Config.ppRetryBound : BitVec 16
opaque Config.idcodeMfr : BitVec 11
opaque Config.vendorId : BitVec 16
opaque Config.deviceId : BitVec 16
opaque Config.subsysVid : BitVec 16
opaque Config.subsysId : BitVec 16

/-- The response data flits that a port's egress buffer holds: R54 gives no figure. -/
opaque Config.egressCap : Nat

end Sys2Proof
end

