-- ==== Sys2Proof/Machine/Fld.lean ====
section
/-! DEFINITION. Plain helpers: maps with Nat keys, bit fields of numbers, and the description of a register field. -/

namespace Sys2Proof.Machine

/-- The value at a key. -/
def mfind {α : Type} : AMap α → Nat → Option α
  | [], _ => none
  | (j, v) :: m, k => if j = k then some v else mfind m k

/-- Set the value at a key, keeping the keys rising. -/
def mset {α : Type} : AMap α → Nat → α → AMap α
  | [], k, v => [(k, v)]
  | (j, w) :: m, k, v =>
    if k < j then (k, v) :: (j, w) :: m else if k = j then (k, v) :: m else (j, w) :: mset m k v

/-- Drop a key. -/
def mdel {α : Type} : AMap α → Nat → AMap α
  | [], _ => []
  | (j, w) :: m, k => if j = k then m else (j, w) :: mdel m k

/-- The value at a key, or a default. -/
def mgetD {α : Type} (m : AMap α) (k : Nat) (d : α) : α := (mfind m k).getD d

/-- Keep the entries whose key satisfies a test. -/
def mkeep {α : Type} (m : AMap α) (p : Nat → Bool) : AMap α := m.filter fun x => p x.1

/-- Change every value. -/
def mmap {α : Type} (f : Nat → α → α) (m : AMap α) : AMap α := m.map fun x => (x.1, f x.1 x.2)

/-- The keys rise strictly. -/
def keysRise {α : Type} : AMap α → Bool
  | [] => true
  | [_] => true
  | (j, _) :: (k, w) :: m => decide (j < k) && keysRise ((k, w) :: m)

/-- Bits [lo + n - 1 : lo] of a number. -/
def bits (v lo n : Nat) : Nat := (v >>> lo) % 2 ^ n

/-- A Bool as a bit. -/
def b2n (b : Bool) : Nat := if b then 1 else 0

/-- A number with bit i set. -/
def setBit (v i : Nat) : Nat := v ||| 2 ^ i

/-- A number with bit i cleared. -/
def clrBit (v i : Nat) : Nat := if v.testBit i then v - 2 ^ i else v

/-- Addition that stops at a maximum (saturating counters). -/
def satAdd (a b top : Nat) : Nat := min (a + b) top

/-- A w-bit number read as two's complement. -/
def toSigned (w v : Nat) : Int := if v % 2 ^ w < 2 ^ (w - 1) then Int.ofNat (v % 2 ^ w) else Int.ofNat (v % 2 ^ w) - Int.ofNat (2 ^ w)

/-- The low w bits of an integer, two's complement. -/
def ofSigned (w : Nat) (i : Int) : Nat := (i % Int.ofNat (2 ^ w)).toNat

/-- The parity of the low n bits. -/
def parity : Nat → Nat → Bool
  | 0, _ => false
  | n + 1, v => xor (v.testBit n) (parity n v)

/-- The number of ones in the low n bits. -/
def popCount : Nat → Nat → Nat
  | 0, _ => 0
  | n + 1, v => b2n (v.testBit n) + popCount n v

/-- The indexes below n of the ones of a number, rising. -/
def onesBelow (n v : Nat) : List Nat := (List.range n).filter fun i => v.testBit i

/-- A number from its little-endian bytes. -/
def leNat : List Byte → Nat
  | [] => 0
  | b :: bs => b.toNat + 256 * leNat bs

/-- The little-endian bytes of a number. -/
def leBytes : Nat → Nat → List Byte
  | 0, _ => []
  | n + 1, v => BitVec.ofNat 8 v :: leBytes n (v / 256)

/-- The big-endian bytes of a number. -/
def beBytes (n v : Nat) : List Byte := (leBytes n v).reverse

/-- A number from its big-endian bytes. -/
def beNat (bs : List Byte) : Nat := leNat bs.reverse

/-- n bytes of zero. -/
def zeros (n : Nat) : List Byte := List.replicate n 0

/-- A list cut or padded with zero bytes to n. -/
def padTo (n : Nat) (bs : List Byte) : List Byte := (bs ++ zeros (n - bs.length)).take n

/-- n bytes from a byte offset. -/
def slice (bs : List Byte) (o n : Nat) : List Byte := (bs.drop o).take n

/-- The little-endian number in n bytes at a byte offset. -/
def leAt (bs : List Byte) (o n : Nat) : Nat := leNat (slice bs o n)

/-- The least n with v ≤ 2^n, up to a limit. -/
def log2Up (v : Nat) : Nat := if v ≤ 1 then 0 else Nat.log2 (v - 1) + 1

/-- Set position i of a list. -/
def lset {α : Type} (l : List α) (i : Nat) (v : α) : List α := l.set i v

/-- Access types of register fields (R9). -/
inductive Acc where
  | rw | ro | wo | w1c | rws | rwl
  deriving DecidableEq, Repr

/-- A register field: the BAR_0 offset of its register, its lowest bit, its width, its reset value and its access type. -/
structure Fld where
  off : Nat
  lo : Nat
  w : Nat
  rst : Nat
  acc : Acc
  deriving DecidableEq, Repr

/-- The key of a field in the register maps. -/
def Fld.key (f : Fld) : Nat := 8 * f.off + f.lo

end Sys2Proof.Machine
end

