-- ==== Sys2Proof/Machine/State.lean ====
section
/-! DEFINITION. The state of the block as plain data, the reasons a command can stop, and the state right after reset. -/

namespace Sys2Proof.Machine

/-- Reasons the machine stops. -/
inductive Fault where
  /-- Raised by PWR_ACK_RISE when the hub raises an acknowledge that answers no request: R82 says it must not, and R15 calls
  the behaviour undefined. Safe: the model stops where the block's behaviour is undefined. -/
  | hubBrokeHandshake
  deriving DecidableEq, Repr

/-- Reasons a command has no meaning. -/
inductive Refusal where
  /-- A command whose meaning has not been written. Safe: nothing can be proved of it. -/
  | notModelled (mnemonic : String)
  deriving DecidableEq, Repr

/-- The variants of R3. -/
inductive Variant where
  | mls1600 | mls1600s | mls0800
  deriving DecidableEq, Repr

/-- What stands outside the block and persists across its resets: the variant, the straps, the static inputs. -/
structure Env where
  variant : Variant
  ppRetryBound : Nat
  idcodeMfr : Nat
  vendorId : Nat
  deviceId : Nat
  subsysVid : Nat
  subsysId : Nat
  /-- Response data flits that the egress buffer of a port holds; the spec gives no figure (R54). -/
  egressCap : Nat
  deriving DecidableEq, Repr

/-- A 64-byte beat, byte 0 in the lowest bits. -/
abbrev Beat := BitVec 512

/-! ### Ports -/

/-- The areas of the firmware reserve that the model's firmware reads and writes (R87, R446): the context table, the request and event
rings of the mailbox, the spill area, the reduction staging area, the audit ledger and the staged package. -/
inductive FwArea where
  | contexts
  | requests
  | events
  | spill
  | staging
  | ledger
  | package
  deriving DecidableEq, Repr

/-- An access of the firmware cores that has not entered the crossbar (R28): its area, its offset there, its length, and the bytes of a
write. -/
structure FwAcc where
  area : FwArea
  off : Nat
  write : Bool
  len : Nat
  data : List Byte
  deriving DecidableEq, Repr

/-- What a unit asked a device-memory access for, which takes its answer: the two sides of a COPY, the argument block and the
program image of a cue job, an LDACT or an EMIT of a hive, the local reads of a PEER_REDUCE SEND or BROADCAST, the two sides of a
GATHER, a descriptor fetch, a completion record with its message, and the firmware. Positions are byte positions of the answer
in what was asked for. -/
inductive AccFor where
  | copyRead (pos : Nat)
  | jobWrite
  | cueArgs
  | cueImage (pos : Nat)
  | ldact (n pc pos : Nat)
  | emit (n : Nat)
  | sendRead (pos : Nat)
  | castRead (pos : Nat)
  | gatherRead (pos : Nat)
  | gatherWrite
  | fetch (index count id : Nat)
  | record (job : Nat) (irq : Option Nat)
  | firmware (area : FwArea)
  deriving DecidableEq, Repr

/-- An access of a job, of a ring or of the firmware (R27, R28, R172): its job, or its context for a ring access; what it is for;
and for one into the peer range its opcode, the low word of its header and its HOPS (R386). -/
structure UnitAcc where
  owner : Nat
  dest : AccFor
  opcode : Nat
  low : Nat
  hops : Nat
  deriving DecidableEq, Repr

/-- The access is one of the firmware. -/
def UnitAcc.isFirmware (u : UnitAcc) : Bool :=
  match u.dest with
  | .firmware _ => true
  | _ => false

/-- Where a request came from. -/
inductive Src where
  | cp (k : Nat)
  | hp (tag first len : Nat)
  | pp (slot : BitVec 256)
  | unit (a : UnitAcc)
  deriving DecidableEq, Repr

/-- What a request does. -/
inductive Op where
  | rd | wr | push | bad
  deriving DecidableEq, Repr

/-- A request from its header to its final response (R42, R317). `need` is the number of its data beats not yet received. -/
structure Req where
  uid : Nat
  m : Nat
  src : Src
  op : Op
  tag : Nat
  beats : Nat
  curt : Nat
  ctx : Nat
  addr : Nat
  byteEn : Nat
  resv : Bool
  data : List Beat
  need : Nat
  parityBad : Bool
  cls : Nat
  level : Nat
  excess : Bool
  domain : Nat
  curtUid : Nat
  since : Nat
  deriving DecidableEq, Repr

/-- The data flits that a write or push header still awaits; `none` for a discarded header (R55) and for one that the port has
answered, whose data credits have then gone back already (`early`, R52). -/
structure Owed where
  owner : Option Nat
  beats : Nat
  early : Bool
  deriving DecidableEq, Repr

/-- The curtain of a port (R46). -/
inductive Curt where
  | closed
  | opened (uid hive beats reqs maxBeats maxReqs : Nat) (closing : Bool)
  | torn
  deriving DecidableEq, Repr

/-- What waits in an egress buffer: a response header (R47) or a response data flit. -/
inductive Egr where
  | hdr (rtype tag len hive : Nat) (info : Nat) (final : Bool)
  | data (tag beat : Nat) (d : List Beat)
  deriving DecidableEq, Repr

/-- A compute port (index 0 to 15), the ingress of HP (16), or the request and response channels of PP that the hub's requests use
(17). `reqHdr` and `reqData` are the request credits that the other side holds, `hdue` and `ddue` those that are to go back to it
(R52). -/
structure Port where
  linkUp : Bool
  ready : Bool
  parityClosed : Bool
  drain : Bool
  reqHdr : Nat
  reqData : Nat
  hdue : Nat
  ddue : Nat
  rspHdr : Nat
  rspData : Nat
  tags : List Nat
  rx : List Req
  ing : List Req
  owed : List Owed
  egress : List Egr
  tornNext : Bool
  curt : Curt
  deriving DecidableEq, Repr

/-- A port at reset. -/
def Port.init : Port := ⟨false, false, false, false, 0, 0, 0, 0, 0, 0, [], [], [], [], [], false, .closed⟩

/-! ### Hive gates -/

/-- One beat of a part: its index in the request, and the channel, pseudo-channel and channel-local offset it maps to. -/
structure PBeat where
  i : Nat
  c : Nat
  p : Nat
  off : Nat
  deriving DecidableEq, Repr

/-- The part of a request at one hive (R318). -/
structure Part where
  uid : Nat
  n : Nat
  m : Nat
  own : Bool
  op : Op
  beats : List PBeat
  level : Nat
  excess : Bool
  regrant : Bool
  wasRevoked : Bool
  losses : Nat
  sampled : Option Nat
  curtUid : Nat
  deriving DecidableEq, Repr

/-- A granted part: the rank and level of its grant. -/
structure Grant where
  part : Part
  rank : Nat
  urgent : Bool
  deriving DecidableEq, Repr

/-- The staging bank of a port at a gate while it holds a curtain (R335). -/
structure Stage where
  uid : Nat
  parts : List Part
  complete : Bool
  deriving DecidableEq, Repr

/-- A locked sequence (R336): the beats still to move, and the write beats moved, which become visible together. -/
structure Lock where
  k : Nat
  uid : Nat
  moves : List (Nat × Bool × PBeat)
  pcs : List (Nat × Nat)
  acks : List Nat
  deriving DecidableEq, Repr

/-- A hive gate. `backoff m` is the count of a running back-off, `loss m` the count L (R330), `guar m` the guarantee count
of R341 in units of 1/(512·B_T) byte, `banks` the spare staging bank of a port whose own is among `retired` (R339). -/
structure Gate where
  parts : List Part
  chosen : List Grant
  flying : List Grant
  skip : Bool
  lfsr : BitVec 32
  loss : AMap Nat
  backoff : AMap Nat
  guar : AMap Int
  stage : AMap Stage
  banks : AMap Nat
  retired : List Nat
  lock : Option Lock
  winBytes : AMap Nat
  winBusy : AMap Nat
  deriving DecidableEq, Repr

/-- A request past ingress: the write beats not yet performed, the read beats that have returned (`none` for a poisoned
one), the number of beats delivered to the egress buffer, whether a write met an uncorrectable block, and whether the final
response has been given. -/
structure Live where
  req : Req
  parts : List Part
  left : Nat
  got : AMap (Option Beat)
  sent : Nat
  failed : Bool
  answered : Bool
  deriving DecidableEq, Repr

/-- How an access of a unit ended: performed; refused at an address (R96, R392); poisoned at the node that was asked; or without an
answer of a node. -/
inductive Verdict where
  | done
  | access (addr : Nat)
  | window (addr : Nat)
  | poisoned (addr : Nat)
  | silent (node : Nat)
  deriving DecidableEq, Repr

/-- An access of a unit that has ended (R27): the beats of a read (`none` for a poisoned one), whether a write met an uncorrectable
block, and how it ended. -/
structure Arrival where
  req : Req
  got : AMap (Option Beat)
  failed : Bool
  verdict : Verdict
  deriving DecidableEq, Repr

/-! ### Channels -/

/-- The states of a pseudo-channel (R292). -/
inductive PcState where
  | off | active | powerDown | selfRefresh | quiesced
  deriving DecidableEq, Repr

/-- An entry of a read, write or stream queue (R269). `data` of a read is what it returns once captured; `data` of a write is
what it writes, and `applied` says that memory already holds it. `seq` is the order of entry. `mask` names the bytes of a write of
part of its block until they are merged, and `asked` says that the column command of its read has issued (R359). -/
structure QEnt where
  seq : Nat
  uid : Nat
  beat : Nat
  part : Nat
  off : Nat
  urgent : Bool
  data : Option Beat
  applied : Bool
  mask : Option Nat
  asked : Bool
  deriving DecidableEq, Repr

/-- An entry of a whole block that is read, or of a whole block that is written. -/
def QEnt.plain (seq uid beat part off : Nat) (urgent : Bool) (data : Option Beat) : QEnt :=
  ⟨seq, uid, beat, part, off, urgent, data, false, none, false⟩

/-- The kinds of maintenance work (R269). `row` and `sid`, `bank` name a DRAM row; a scrub read has its order of entry, a sweep of
a recalibration round the probe bursts that it has left (R307). -/
inductive Maint where
  | neighbour (sid bank row : Nat) (stage : Nat) (mandatory : Bool)
  | scrub (seq off addr : Nat)
  | probe (left : Nat)
  deriving DecidableEq, Repr

/-- A bank: its open row, the command counts that R274 uses, its rolling activate count (R280) and the cycles from which the
next activate, precharge, read and write may issue. -/
structure Bank where
  openRow : Option Nat
  hits : Nat
  lastHit : Nat
  raa : Nat
  actAt : Nat
  preAt : Nat
  rdAt : Nat
  wrAt : Nat
  deriving DecidableEq, Repr

/-- A closed bank. -/
def Bank.init : Bank := ⟨none, 0, 0, 0, 0, 0, 0, 0⟩

/-- An entry of the check cache (R267), most recently used first in the list that holds it. `fill` and `wb` count the blocks that
its fill has still to read and its write-back to write. -/
structure CheckRow where
  sid : Nat
  bank : Nat
  row : Nat
  dirty : Bool
  fill : Nat
  wb : Nat
  deriving DecidableEq, Repr

/-- A block being re-read (R355): the queue entry, the source code of R361, the re-reads issued, whether one of them is in flight,
and the CCLK of the first uncorrectable decode. -/
structure Retry where
  ent : QEnt
  src : Nat
  tries : Nat
  asked : Bool
  since : Nat
  deriving DecidableEq, Repr

/-- A pseudo-channel. `refWake` says that it woke from power-down for a refresh alone (R284) and `hold` is the CCLK before which it
issues nothing. `stage` are the writes that wait in the hive gate's staging for an earlier write of their block (R276), `drains` the
blocks whose write has issued with the CCLK at which it has drained (R275). `colAt` and `wrCol` are the last column command and the
last write of each bank group, `wrAt` the CCLK from which a write may follow the last read, `scrubAt` that from which a scrub read
may issue. `scrubs` are blocks whose scrub read has issued, `laneCnt` and `rowCe` the corrections of this round by lane and row,
`ueRows` the rows that call for a remap entry (R365). -/
structure Pc where
  st : PcState
  refWake : Bool
  cclk : Nat
  banks : AMap Bank
  rdq : List QEnt
  wrq : List QEnt
  strq : List QEnt
  maint : List Maint
  owed : Int
  roundDone : List Nat
  forced : Bool
  deficit : Int
  acts : List (Nat × Nat)
  hold : Nat
  colAt : AMap Nat
  wrCol : AMap Nat
  wrAt : Nat
  drains : List (Nat × Nat)
  stage : List QEnt
  scrubAt : Nat
  cache : List CheckRow
  retries : List Retry
  scrubs : List Nat
  laneCnt : AMap Nat
  rowCe : AMap Nat
  ueRows : List Nat
  deriving DecidableEq, Repr

/-- A pseudo-channel at reset. -/
def Pc.init : Pc :=
  ⟨.off, false, 0, [], [], [], [], [], 0, [], false, 0, [], 0, [], [], 0, [], [], 0, [], [], [], [], [], []⟩

/-- A lane of the PHY (R295, R303): its live and target delay codes, eyes and how often its result was rejected in a row. -/
structure Lane where
  rxLive : Nat
  rxTgt : Nat
  rxEye : Nat
  txLive : Nat
  txTgt : Nat
  txEye : Nat
  inUse : Bool
  failed : Bool
  rejects : Nat
  deriving DecidableEq, Repr

/-- A lane at reset. -/
def Lane.init : Lane := ⟨0, 0, 0, 0, 0, 0, false, false, 0⟩

/-! ### Contexts and jobs -/

/-- The states of a context (R173). -/
inductive CtxState where
  | free | opened | halted | closing
  deriving DecidableEq, Repr

/-- A descriptor that has been fetched and not yet started: its ring index and its sixteen words (R182). -/
structure Fetched where
  index : Nat
  words : List Nat
  deriving DecidableEq, Repr

/-- An entry of the context table with its indexes (R171, R180). `waiting` is a RESUME that waits for jobs in flight, `fetching`
the identity of the descriptor fetch in flight that counts. -/
structure Ctx where
  state : CtxState
  words : List Nat
  head : Nat
  tail : Nat
  cplTail : Nat
  cplHead : Nat
  halt : Option (Nat × Nat)
  waiting : Bool
  fetched : List Fetched
  fetching : Option Nat
  deriving DecidableEq, Repr

/-- A free context. -/
def Ctx.init : Ctx := ⟨.free, [], 0, 0, 0, 0, none, false, [], none⟩

/-- A job in flight. `waitRecord` says that its units have finished their work and report it; `image` and `argv` are the program and the argument block of a cue job (R210), `entry` the context entry that it was issued
under (R175), `running` the hives of its
span that have not completed END. `status`, `info` and `aflags` are what its record will carry; `stopped` says that its accesses are
refused (R197), `done` that every unit has reported, `timedOut` that the timer event was taken first (R198); `hives` is its span
in logical order, `bytes` what a COPY or a GATHER has collected or a program read so far, `recording` that its record is being
written to device memory, `since` the FCLK of its start and `banks` the column banks that its PASS instructions read (R204). -/
structure Job where
  ctx : Nat
  index : Nat
  words : List Nat
  home : Nat
  cls : Nat
  domain : Nat
  status : Nat
  info : Nat
  aflags : Nat
  started : Bool
  stopped : Bool
  done : Bool
  timedOut : Bool
  hives : List Nat
  args : List Byte
  bytes : List Byte
  recording : Bool
  pos : Nat
  outstanding : Nat
  waitRecord : Bool
  image : List Nat
  argv : List Nat
  entry : List Nat
  running : List Nat
  since : Nat
  banks : AMap (List Byte)
  deriving DecidableEq, Repr

/-- A job of a context at its start: its ring index, descriptor words, context entry, home, class, domain and start time. -/
def Job.start (ctx index : Nat) (words entry : List Nat) (home cls domain since : Nat) : Job :=
  { ctx := ctx, index := index, words := words, home := home, cls := cls, domain := domain, status := 0, info := 0, aflags := 0,
    started := true, stopped := false, done := false, timedOut := false, hives := [], args := [], bytes := [], recording := false, pos := 0,
    outstanding := 0, waitRecord := false, image := [], argv := [], entry := entry, running := [], since := since, banks := [] }

/-- What is held in the spill area (R202): host-bound bytes of a job, or a completion record. -/
inductive Spill where
  | bytes (hset job addr : Nat) (d : List Byte)
  | record (hset ctx : Nat) (words : List Nat) (irq : Option Nat)
  deriving DecidableEq, Repr

/-- A heartbeat set's accepted ACK command that waits for its jobs (R203). -/
structure AckWait where
  gen : Nat
  discard : Bool
  deriving DecidableEq, Repr

/-! ### The host endpoint -/

/-- Who waits for a bus-master read. -/
inductive ReadFor where
  | descriptor (ctx index count id : Nat)
  | copy (job pos : Nat)
  | mailbox (index : Nat)
  deriving DecidableEq, Repr

/-- A bus-master read: outstanding under a tag, or waiting for one. -/
structure HpRead where
  addr : Nat
  len : Nat
  dest : ReadFor
  got : List Byte
  deriving DecidableEq, Repr

/-- What the block sends through HP. A completion names the bytes that remain from it on and the low seven bits of its first
address. -/
inductive HpTlp where
  | memRead (tag addr len : Nat)
  | memWrite (addr : Nat) (d : List Byte)
  | message (vector addr data : Nat)
  | completion (tag remaining lower : Nat) (d : List Byte) (poisoned : Bool)
  | abort (tag : Nat)
  | unsupported (tag : Nat)
  | cfgCompletion (tag value : Nat)
  | cfgRetry (tag : Nat)
  deriving DecidableEq, Repr

/-- The host endpoint: configuration dwords that differ from reset, the MSI-X table and its pending bits, reads. -/
structure HostPort where
  cfg : AMap Nat
  msix : AMap Nat
  pba : Nat
  reads : AMap HpRead
  quarantine : List Nat
  waiting : List HpRead
  writes : List (Nat × Nat × List Byte)
  ready : Bool
  deriving DecidableEq, Repr

/-! ### The peer port -/

/-- What an outbound peer request serves. -/
inductive PeerFor where
  | port (uid : Nat)
  | unit (r : Req)
  | bcast (uid : Nat)
  | relay
  deriving DecidableEq, Repr

/-- An outbound peer request (R385): waiting in the egress queue or outstanding under a tag. -/
structure PeerReq where
  dest : PeerFor
  source : Nat
  opcode : Nat
  link : Nat
  node : Nat
  offset : Nat
  beats : Nat
  byteEn : Nat
  hops : Nat
  low : Nat
  genChk : Bool
  wgen : Nat
  gen : Nat
  data : List Byte
  got : List Byte
  resent : Nat
  deriving DecidableEq, Repr

/-- A gather slot (R400). -/
structure GatherSlot where
  job : Nat
  round : Nat
  dst : Nat
  len : Nat
  op : Nat
  etype : Nat
  count : Nat
  deriving DecidableEq, Repr

/-- Staged bytes of a reduction contribution (R401): their local device address and source node, and the round in which they came (R403). -/
structure Contribution where
  round : Nat
  node : Nat
  addr : Nat
  rop : Nat
  etype : Nat
  orphan : Bool
  data : List Byte
  since : Nat
  deriving DecidableEq, Repr

/-- A broadcast packet received here whose acknowledgement is pending (R405). -/
structure BcastWait where
  uid : Nat
  slot : BitVec 256
  gen : Nat
  wrote : Bool
  left : Nat
  failed : Option (Nat × Nat × Nat)
  deriving DecidableEq, Repr

/-- A package being received or forwarded by the swarm relay (R459 to R461). -/
structure Relay where
  len : Nat
  bytes : AMap Byte
  sent : Nat
  forwarding : Bool
  package : List Byte
  deriving DecidableEq, Repr

/-- A response to a received peer request (R387): the slot that it answers, and what its own slot says. -/
structure PpRsp where
  slot : BitVec 256
  rtype : Nat
  len : Nat
  info : Nat
  freason : Nat
  node : Nat
  gen : Nat
  data : List Byte
  deriving DecidableEq, Repr

/-- What the block sends on PP: a header slot on PP_REQ_OUT (R385) or PP_RSP_OUT (R387), and its data, with odd parity (R39, R63). -/
inductive PpOut where
  | request (slot : BitVec 256) (par : BitVec 32) (d : List Byte) (dpar : List Bool)
  | response (slot : BitVec 256) (par : BitVec 32) (d : List Byte) (dpar : List Bool)
  deriving DecidableEq, Repr

/-- What the windows made of a local request into the peer range (R388, R392). -/
inductive PeerHit where
  | fault (window : Bool)
  | ok (r : PeerReq)
  deriving DecidableEq, Repr

/-- The peer port. `inbox` holds local requests that have left ingress and been matched, and have not entered the egress queue
(R392); `rspInHdr` and `rspInData` are the PP_RSP_IN credits that the hub holds, `rspDueHdr` and `rspDueData` those that are to go
back to it (R383). -/
structure Peer where
  inbox : List (Req × PeerHit)
  rspInHdr : Nat
  rspInData : Nat
  rspDueHdr : Nat
  rspDueData : Nat
  queue : List PeerReq
  fwd : List PeerReq
  reqs : AMap PeerReq
  quarantine : List Nat
  hdrCredit : Nat
  dataCredit : Nat
  inGen : AMap Nat
  slots : List GatherSlot
  staged : List Contribution
  bcasts : List BcastWait
  relay : Relay
  egress : List PpRsp
  deriving DecidableEq, Repr

/-! ### Firmware, events, counters -/

/-- An event (R448). The HCLK count and the sequence number are those it received when it arose. -/
structure Event where
  cls : Nat
  source : Nat
  code : Nat
  hclk : Nat
  seq : Nat
  detail : List Nat
  deriving DecidableEq, Repr

/-- Occurrences of a counted event that no counter has taken yet (R483): hive, requester, class and channel where known. -/
structure Occ where
  event : Nat
  count : Nat
  hive : Option Nat
  src : Option Nat
  cls : Option Nat
  ch : Option Nat
  deriving DecidableEq, Repr

/-- A response flit of a compute port (R38): its kind (1 header, 2 data), its bits with their parity, and for a data flit its tag
and first beat. -/
structure CpOut where
  port : Nat
  kind : Nat
  flit : BitVec 2048
  par : BitVec 256
  tag : Nat
  beat : Nat
  deriving DecidableEq, Repr

/-- What the block has sent out of itself, oldest first. `crd` are the request credits that a port has returned in one cycle:
header, then data (R38, R52); index 18 stands for PP_RSP_IN. `stack` are the bits that a keeper's relay has passed to the IEEE 1500 port
of its hive's stack (R66). -/
structure Out where
  cp : List CpOut
  crd : List (Nat × Nat × Nat)
  hp : List HpTlp
  pp : List PpOut
  svc : List (List Byte)
  jtg : List Nat
  stack : List (Nat × Nat)
  deriving DecidableEq, Repr

/-! ### Hives: the cue sequencer and the cells -/

/-- The MODE in force (R225). -/
structure Mode where
  wf : Nat
  af : Nat
  ws : Nat
  as : Nat
  cseg : Nat
  deriving DecidableEq, Repr

/-- The value of one column of a result-buffer entry: an exact accumulator in units of 2^-80 with its sticky flags (R121), or
FP32 bits; `ovf` is its OVF flag (R130). -/
inductive EVal where
  | exact (a : Int) (nan pinf ninf ovf : Bool)
  | fp32 (bits : Nat) (ovf : Bool)
  deriving DecidableEq, Repr

/-- A result-buffer entry that is not zero (R231): its columns (NCOL of them), the elements accumulated, the MODE it was
written under, whether it is of FP32 kind (R250), its scales and its MASKED flag (R248). -/
structure Entry where
  vals : List EVal
  count : Nat
  mode : Option Mode
  kind32 : Bool
  wScale : Option Nat
  aScales : List Nat
  masked : Bool
  deriving DecidableEq, Repr

/-- The state of KV-stream mode (R240), twenty columns each: M, L, RL and RO as FP32 bits with their OVF flags (R130). -/
structure Kv where
  m : List (Nat × Bool)
  l : List (Nat × Bool)
  rl : List (Nat × Bool)
  ro : List (Nat × Bool)
  knext : Nat
  kbase : Nat
  deriving DecidableEq, Repr

/-- A row slot of a cell (R136): the row, the bytes of it that have been taken, and once they are complete the values of its columns,
each in fold order (R150, R231), with the bits of its weight ROW scale and of the ROW scales of its columns. -/
structure Slot where
  row : Nat
  bytes : List Byte
  done : Option (List (List EVal) × Option Nat × List Nat)
  deriving DecidableEq, Repr

/-- The place of a logical cell in a stream: the identity of its run and the row that the run began at, the row and block that it
asks its channel for next, its stream buffer (row, block and data, none for an uncorrectable block), the ROW scales that it has taken
last, the first row whose result has not passed, its row slots, and whether the run is a replay (R136, R141, R150, R154). -/
structure Taker where
  run : Nat
  start : Nat
  askRow : Nat
  askBlk : Nat
  buffer : List (Nat × Nat × Option Beat)
  scales : List Byte
  row : Nat
  slots : List Slot
  replay : Bool
  deriving DecidableEq, Repr

/-- A stream instruction that has issued and not ended: VSTREAM or not, the fields that it issued with, the MODE and M in force, the
sequence length and first position of a KSTREAM that masks (R248), a VSTREAM's masked tokens by cell, its tokens that are not masked
and the columns where the conversion of a probability overflowed (R258),
the row values and ROW scales that its cells have passed (R257), each logical cell's place, and per cell the replays (R155). -/
structure Stream where
  v : Bool
  mode : Mode
  mul : Nat
  acc : Bool
  rb : Nat
  rbase : Nat
  addr : Nat
  rows : Nat
  k : Nat
  ncol : Nat
  split : Bool
  bank : Nat
  keep : Bool
  seq : Option (Nat × Nat)
  hide : AMap (List Bool)
  more : Nat
  ovfCols : List Bool
  sums : AMap (List EVal)
  scales : AMap Nat
  takers : AMap Taker
  replays : AMap Nat
  deriving DecidableEq, Repr

/-- A job running in a cue sequencer (R213). `atSync` says that the hive has contributed at the synchronisation point at
`pc`; `passes` counts the PASS instructions executed, `loads` and `writes` the accesses of an LDACT that runs and of EMIT
instructions that have not been answered (R222). -/
structure Cue where
  job : Nat
  base : Nat
  pc : Nat
  areg : List Nat
  lc : List Nat
  mode : Option Mode
  mul : Nat
  ents : AMap Entry
  kv : Option Kv
  streams : List Stream
  atSync : Bool
  passes : Nat
  loads : Nat
  writes : Nat
  deriving DecidableEq, Repr

/-- PHY_LIMIT and PHY_RECAL_CFG as training or the last recalibration round took them at its start (R303, R315). -/
structure PhyCfg where
  eyeMin : Nat
  driftMax : Nat
  skewMax : Nat
  period : Nat
  tempStep : Nat
  rejLimit : Nat
  deriving DecidableEq, Repr

/-- The settings of a hive that has not trained. -/
def PhyCfg.init : PhyCfg := ⟨1, 0, 0, 0, 0, 0⟩

/-- A hive's cue sequencer and cells: the program store, the placed jobs in order, the running job, the job loaded in the other
half, the column and column scale stores (key: cell, store, column, byte; unlisted bytes are zero), held activation writes
(R146), the cells whose self-test is requested (R161), whether those of a power-on have not ended (R165), the cells under a lane test
with the group and column of their fault (R151, R152), those that await a takeover (R158), the reading of the
stack at the end of the last recalibration round that was accepted (R306), and the limits and settings of the PHY in force (R315). -/
structure Hive where
  store : AMap Nat
  placed : List Nat
  cue : Option Cue
  preload : Option Nat
  cols : AMap Byte
  held : List Part
  tests : List Nat
  wake : Bool
  faults : AMap (Nat × Nat)
  takeover : List Nat
  recalTemp : Option Int
  phy : PhyCfg
  deriving DecidableEq, Repr

/-- A hive at reset. -/
def Hive.init : Hive := ⟨[], [], none, none, [], [], [], false, [], [], none, PhyCfg.init⟩

/-! ### Power and temperature -/

/-- An orderly shutdown that has started (R427, R428): whether heat caused it, whether the ports had opened before it, the last
step that has run and the round in which step 5 began. -/
structure Shut where
  thermal : Bool
  opened : Bool
  step : Nat
  since : Nat
  deriving DecidableEq, Repr

/-- The domain handshakes (R80 to R82), one bit a domain: 0 to 15 PD_H_n, 16 to 31 PD_C_n, 32 PD_FAB. `timed` are domains that
gave no answer, `lost` those whose acknowledge fell while the request was high and that have not been asked for since, `again` the
domains that are to come back on once their request has been answered low, `gone` those that are not requested again before reset;
`todo` is the rest of the domain sequence (R421). -/
structure Power where
  req : Nat
  ack : Nat
  timed : Nat
  lost : Nat
  again : Nat
  gone : Nat
  todo : List Nat
  started : Bool
  shdnReq : Bool
  shut : Option Shut
  deriving DecidableEq, Repr

/-- A shutdown record that waits to be programmed (R424): group, reading and rise. -/
structure ShutRec where
  g : Nat
  t : Int
  rise : Int
  deriving DecidableEq, Repr

/-- What the housekeeping rounds carry over: each group's valid readings of the last rounds (newest first), the rate
conditions and the rounds in which they last held, the monitors outside their limits in the last round, the open emergencies
with their sign, the clean rounds, the shutdown record that is due and the rounds that count towards its clearing (R424), the
hottest reading of the round before, the hives' last stack readings, the number of records written, and the round in which
each group entered its state or its level last stepped (R416). -/
structure Thermal where
  hist : AMap (List Int)
  rate : Nat
  rateRound : AMap Nat
  badMon : Nat
  openMon : List (Nat × Bool)
  clean : Nat
  due : Option ShutRec
  recClean : Nat
  prevHot : Option Int
  stack : AMap Int
  recSeq : Nat
  stepAt : AMap Nat
  deriving DecidableEq, Repr

/-! ### PHY -/

/-- A recalibration round that runs (R306 to R311): the pseudo-channels that have not finished and its counts. -/
structure Recal where
  waiting : List Nat
  ran : Nat
  skipped : Nat
  shift : Nat
  rejects : Nat
  deriving DecidableEq, Repr

/-! ### Firmware, life cycle and audit -/

/-- A core (R432, R433): its active bank, whether it restarts or waits out a restart delay, the round of its last restart, the
delay in ms that its next failure would meet, whether it is retired, and the round in which a delay that runs ends. -/
structure Core where
  bank : Nat
  restarting : Bool
  waiting : Bool
  last : Option Nat
  delay : Nat
  retired : Bool
  ends : Nat
  deriving DecidableEq, Repr

/-- A core at reset. -/
def Core.init : Core := ⟨0, false, false, none, 10, false, 0⟩

/-- One-time-programmable memory (R463), words of three copies as triples. Sensor trims stand in the trim registers. -/
structure Otp where
  lc : Nat × Nat × Nat
  kill : Nat × Nat × Nat
  floor : Nat × Nat × Nat
  revoke : Nat × Nat × Nat
  encReq : Nat × Nat × Nat
  encRoot : Nat
  idSeed : Nat
  digests : List Nat
  serial : Nat
  deriving DecidableEq, Repr

/-- The firmware complex: how far the start has come (0 ROM, 1 verified, 2 released, 3 stopped), the key slot that verified
the running image, the settings items in force, whether their defaults are still to be written back (R443), whether port
opening has begun (R517), the staged package and what was asked of it (R451 to R457), the round in which deferral began, failed
handover attempts, mailbox requests fetched and not served, the live challenge of R472 (bytes 0 to 27), whether a session was
opened in this start (R473), its START_NONCE (R478), the inline-encryption keys (R474) and whether the flash runs 8D-8D-8D (R72). -/
structure Fw where
  stage : Nat
  keySlot : Nat
  items : AMap (List Byte)
  setOwed : Bool
  opening : Bool
  pkg : AMap Byte
  pkgLen : Nat
  full : Bool
  activate : Bool
  bookBad : Bool
  deferred : Option Nat
  tries : Nat
  mbxReq : List (List Nat)
  mbxFetched : Nat
  nonce : Option (List Byte)
  debugOpened : Bool
  startNonce : Nat
  encKeys : Option (Nat × Nat)
  octal : Bool
  deriving DecidableEq, Repr

/-- The audit ledger (R476 to R479): entries not signed with their SEQ, signed batches with their number, first and last SEQ
and bytes, the digest of the last batch, entries dropped since it, and the round of the first waiting entry. -/
structure Audit where
  entries : List (Nat × List Byte)
  batches : List (Nat × Nat × Nat × List Byte)
  digest : List Byte
  dropped : Nat
  firstRound : Nat
  released : Nat
  deriving DecidableEq, Repr


/-- An item that a sampler has taken (R492): the words of its record known so far and whether it has completed. -/
structure Sample where
  uid : Nat
  words : List Nat
  since : Nat
  done : Bool
  deriving DecidableEq, Repr

/-- A hive's sampler (R492 to R494): its countdown, next sample number, records written since EN rose, the items in progress
and the slots of its buffer. -/
structure Sampler where
  count : Nat
  seq : Nat
  written : Nat
  items : List Sample
  slots : AMap (List Nat)
  deriving DecidableEq, Repr

/-- A sampler at reset. -/
def Sampler.init : Sampler := ⟨0, 0, 0, [], []⟩

/-- The state of the block. -/
structure State where
  pending : List Instr
  env : Env
  regs : AMap Nat
  shadow : AMap Nat
  force : AMap Nat
  loHeld : AMap Nat
  hiCap : AMap Nat
  free : Nat
  rounds : Nat
  fclk : Nat
  nextUid : Nat
  mem : List Host.Cell
  marked : List Nat
  ports : AMap Port
  rotation : Nat
  tokens : AMap Int
  gates : AMap Gate
  live : AMap Live
  /-- Accesses of units that have ended and whose answers the units have not taken. -/
  arrived : List Arrival
  /-- Accesses of the firmware that have not entered the crossbar, oldest first (R28). -/
  fwAccs : List FwAcc
  pcs : AMap Pc
  chanLfsr : AMap (BitVec 32)
  ceLeaks : Nat
  lanes : AMap Lane
  hives : AMap Hive
  ctxs : AMap Ctx
  /-- A context command that waits for the stage manager: its code, its context and the descriptor tail at its acceptance (R174, R434,
  R515). -/
  ctxHeld : Option (Nat × Nat × Nat)
  jobs : AMap Job
  nextJob : Nat
  /-- Jobs whose timer event was taken, with the reports of their units that are still to come (R198). -/
  lateJobs : AMap Nat
  /-- Jobs that have finished and whose records are not written, in the order in which they finished (R194). -/
  finished : List Nat
  /-- The round in which the timer of each host context set last started (R201). -/
  hbStart : AMap Nat
  auditSeq : Nat
  spill : List Spill
  acks : AMap AckWait
  host : HostPort
  peer : Peer
  held : List Event
  ring : List Event
  eventSeq : Nat
  logWait : List Event
  evLog : List Event
  occ : List Occ
  samplers : AMap Sampler
  overruns : List Nat
  power : Power
  thermal : Thermal
  recal : AMap Recal
  recalNext : AMap (List Nat)
  cores : AMap Core
  otp : Otp
  flash : AMap Byte
  fw : Fw
  audit : Audit
  /-- The scrub run: its first block, the block it reads next and its last. -/
  scrubRun : Option (Nat × Nat × Nat)
  /-- The remap records that the flash holds (R368, R437), and those of the entries now installed. -/
  remapLog : List (List Nat)
  remapWant : List (List Nat)
  /-- Answers to the SVC message that is still being processed (R70). -/
  svcWait : List (List Byte)
  /-- The instruction register of the test access port (R74). -/
  jtgIr : Nat
  bwBytes : AMap Nat
  out : Out
  deriving DecidableEq, Repr

/-- The straps and static inputs of the MLS-1600 that the model runs; the integrator's values are open.
(DESIGN CHOICE, log entry 6.) -/
def Env.init : Env :=
  ⟨.mls1600, Config.ppRetryBound.toNat, Config.idcodeMfr.toNat, Config.vendorId.toNat, Config.deviceId.toNat,
    Config.subsysVid.toNat, Config.subsysId.toNat, Config.egressCap⟩

/-- OTP as made: nothing programmed. -/
def Otp.init : Otp := ⟨(0, 0, 0), (0, 0, 0), (0, 0, 0), (0, 0, 0), (0, 0, 0), 0, 0, [], 0⟩

/-- The reset value of PEER_TIMEOUT.US: 1,000 µs, or one more than PP_RETRY_BOUND if that is larger; a bound of 0 is 65,535
(R65, R398). -/
def resetTimeout (env : Env) : Nat := max 1000 ((if env.ppRetryBound = 0 then 65535 else env.ppRetryBound) + 1)

/-- The state right after a reset of a block under an environment, with OTP and flash blank. A register that the maps do not
list has the reset value of its field; PEER_TIMEOUT.US, at offset 0x50008, depends on a strap. -/
def State.blank (env : Env) : State :=
  { pending := [], env := env, regs := [(8 * 0x50008, resetTimeout env)], shadow := [], force := [], loHeld := [], hiCap := [], free := 0, rounds := 0, fclk := 0,
    nextUid := 1, mem := [], marked := [], ports := [], rotation := 0, tokens := [], gates := [], live := [], arrived := [], fwAccs := [], pcs := [],
    chanLfsr := [], ceLeaks := 0, lanes := [], hives := [], ctxs := [], ctxHeld := none, jobs := [], nextJob := 0, lateJobs := [], finished := [], hbStart := [],
    auditSeq := 1, spill := [], acks := [],
    host := ⟨[], [], 0, [], [], [], [], false⟩,
    peer := ⟨[], 0, 0, 0, 0, [], [], [], [], 0, 0, [], [], [], [], ⟨0, [], 0, false, []⟩, []⟩,
    held := [], ring := [], eventSeq := 1, logWait := [], evLog := [], occ := [], samplers := [], overruns := [],
    power := ⟨0, 0, 0, 0, 0, 0, [], false, false, none⟩,
    thermal := ⟨[], 0, [], 0, [], 0, none, 0, none, [], 0, []⟩,
    recal := [], recalNext := [], cores := [], otp := Otp.init, flash := [],
    fw := ⟨0, 0, [], false, false, [], 0, false, false, false, none, 0, [], 0, none, false, 0, none, false⟩,
    audit := ⟨[], [], [], 0, 0, 0⟩,
    scrubRun := none, remapLog := [], remapWant := [], svcWait := [], jtgIr := 1, bwBytes := [], out := ⟨[], [], [], [], [], [], []⟩ }

/-- The machine right after power-on reset. -/
def State.reset : State := State.blank Env.init

end Sys2Proof.Machine
end

