-- ==== Sys2Proof/Machine/Flags.lean ====
section
/-! DEFINITION. Number formats, exact arithmetic, the points of rounding and the arithmetic flags (R105 to R132, R244, R245,
R250, R251, R255, R256). -/

namespace Sys2Proof.Machine

/-- A number: NaN, an infinity, or the finite value m × 2^e. The sign of zero is never observable (R108, R117). -/
inductive Num where
  | nan
  | inf (neg : Bool)
  | fin (m e : Int)
  deriving DecidableEq, Repr

def Num.zero : Num := .fin 0 0

/-! ### Formats (R105 to R107) -/

/-- Width of an element in bits. -/
def fmtWidth : Nat → Nat
  | 0 => 2 | 1 => 4 | 2 => 8 | 3 => 4 | 4 => 6 | 5 => 6 | 6 => 8 | 7 => 8 | 8 => 16 | 9 => 16 | 10 => 32 | _ => 8

/-- Formats that an activation may have. -/
def fmtAct (f : Nat) : Bool := [2, 6, 7, 8, 9, 10].contains f

/-- A floating format: exponent bits, mantissa bits, bias, and the codes of its greatest finite magnitude, infinity (if any)
and canonical NaN (R107, R117). -/
structure FpFmt where
  eb : Nat
  mb : Nat
  bias : Nat
  top : Nat
  infCode : Option Nat
  nanCode : Nat
  deriving DecidableEq, Repr

def fpFmt : Nat → FpFmt
  | 3 => ⟨2, 1, 1, 0x7, none, 0⟩
  | 4 => ⟨2, 3, 1, 0x1F, none, 0⟩
  | 5 => ⟨3, 2, 3, 0x1F, none, 0⟩
  | 6 => ⟨4, 3, 7, 0x7E, none, 0x7F⟩
  | 7 => ⟨5, 2, 15, 0x7B, some 0x7C, 0x7E⟩
  | 8 => ⟨5, 10, 15, 0x7BFF, some 0x7C00, 0x7E00⟩
  | 9 => ⟨8, 7, 127, 0x7F7F, some 0x7F80, 0x7FC0⟩
  | _ => ⟨8, 23, 127, 0x7F7FFFFF, some 0x7F800000, 0x7FC00000⟩

/-- The value of a code in a floating format (R107). -/
def fpValue (f : FpFmt) (code : Nat) : Num :=
  let mag := code % 2 ^ (f.eb + f.mb)
  let neg := code.testBit (f.eb + f.mb)
  if f.top < mag then (if f.infCode = some mag then .inf neg else .nan)
  else
    let e := mag >>> f.mb
    let m := mag % 2 ^ f.mb
    let v : Nat := if e = 0 then m else 2 ^ f.mb + m
    .fin (if neg then -Int.ofNat v else Int.ofNat v) (Int.ofNat (max e 1) - Int.ofNat f.bias - Int.ofNat f.mb)

/-- The value of an element code (R106, R107). -/
def elemValue (fmt code : Nat) : Num :=
  if fmt ≤ 2 then .fin (toSigned (fmtWidth fmt) code) 0 else fpValue (fpFmt fmt) code

/-- The value of FP32 bits. -/
def f32 (b : Nat) : Num := fpValue (fpFmt 10) b

/-- K elements from packed bytes (R110). -/
def unpack (fmt : Nat) : Nat → Nat → List Num
  | 0, _ => []
  | k + 1, v => elemValue fmt (v % 2 ^ fmtWidth fmt) :: unpack fmt k (v / 2 ^ fmtWidth fmt)

/-- The exponent of an E8M0 scale; none for NaN (R112). -/
def e8m0 (x : Nat) : Option Int := if x = 0xFF then none else some (Int.ofNat x - 127)

/-! ### Exact arithmetic -/

/-- Bring a value to a lower exponent. -/
def shl (m : Int) (n : Nat) : Int := m * Int.ofNat (2 ^ n)

def Num.neg : Num → Bool
  | .fin m _ => decide (m < 0)
  | .inf n => n
  | .nan => false

def Num.isZero : Num → Bool
  | .fin m _ => m == 0
  | _ => false

/-- Exact product under IEEE 754 rules for NaN, infinity and zero (R122, R125). -/
def Num.mul (a b : Num) : Num :=
  match a, b with
  | .nan, _ => .nan
  | _, .nan => .nan
  | .fin m e, .fin n f => .fin (m * n) (e + f)
  | x, y => if x.isZero || y.isZero then .nan else .inf (xor x.neg y.neg)

/-- Exact sum. -/
def Num.add (a b : Num) : Num :=
  match a, b with
  | .nan, _ => .nan
  | _, .nan => .nan
  | .inf x, .inf y => if x = y then .inf x else .nan
  | .inf x, .fin _ _ => .inf x
  | .fin _ _, .inf y => .inf y
  | .fin m e, .fin n f =>
    let g := min e f
    .fin (shl m (e - g).toNat + shl n (f - g).toNat) g

def Num.negate : Num → Num
  | .fin m e => .fin (-m) e
  | .inf n => .inf (!n)
  | .nan => .nan

/-- a < b for numbers that are not NaN. -/
def Num.lt (a b : Num) : Bool :=
  match a, b with
  | .nan, _ => false
  | _, .nan => false
  | .inf true, .inf true => false
  | .inf true, _ => true
  | .inf false, _ => false
  | .fin _ _, .inf n => !n
  | .fin m e, .fin n f =>
    let g := min e f
    decide (shl m (e - g).toNat < shl n (f - g).toNat)

/-- A quotient with at least 27 significant bits and a sticky bit, so that one rounding of it is the rounding of the exact
quotient. -/
def Num.div (a b : Num) : Num :=
  match a, b with
  | .nan, _ => .nan
  | _, .nan => .nan
  | .inf _, .inf _ => .nan
  | .inf x, y => .inf (xor x y.neg)
  | .fin _ _, .inf _ => .zero
  | .fin m e, .fin n f =>
    if n = 0 then (if m = 0 then .nan else .inf (decide (m < 0)))
    else if m = 0 then .zero
    else
      let s := Nat.log2 n.natAbs + 30
      let x := m.natAbs * 2 ^ s
      let q := 2 * (x / n.natAbs) + b2n (x % n.natAbs != 0)
      .fin (if decide (m < 0) = decide (n < 0) then Int.ofNat q else -Int.ofNat q) (e - f - Int.ofNat s - 1)

/-! ### Rounding (R115, R116) -/

/-- A magnitude divided by 2^n, to nearest with ties to even. -/
def rne (a n : Nat) : Nat :=
  let q := a >>> n
  let r := a % 2 ^ n
  let half := if n = 0 then 1 else 2 ^ (n - 1)
  if n = 0 || r < half then q else if r = half then q + q % 2 else q + 1

/-- Round m × 2^e to an integer, to nearest with ties to even. -/
def roundInt (m e : Int) : Int :=
  if 0 ≤ e then shl m e.toNat
  else
    let r := rne m.natAbs (-e).toNat
    if m < 0 then -Int.ofNat r else Int.ofNat r

/-- Round a number once to a floating format: its code, and whether a finite value overflowed. NaN is canonical and zero is
+0 (R117). -/
def roundFp (f : FpFmt) (x : Num) : Nat × Bool :=
  let sgn := fun (n : Bool) (v : Nat) => if n then v + 2 ^ (f.eb + f.mb) else v
  match x with
  | .nan => (f.nanCode, false)
  | .inf n => (match f.infCode with | some c => sgn n c | none => f.nanCode, false)
  | .fin m e =>
    if m = 0 then (0, false)
    else
      let a := m.natAbs
      let low : Int := 1 - Int.ofNat f.bias - Int.ofNat f.mb
      let q := max (e + Int.ofNat (Nat.log2 a) - Int.ofNat f.mb) low
      let n := if q ≤ e then a * 2 ^ (e - q).toNat else rne a (q - e).toNat
      let mag := (q - low).toNat * 2 ^ f.mb + n
      if f.top < mag then (match f.infCode with | some c => sgn (decide (m < 0)) c | none => f.nanCode, true)
      else if mag = 0 then (0, false)
      else (sgn (decide (m < 0)) mag, false)

/-- round32 of R127: FP32 bits and overflow. -/
def round32 (x : Num) : Nat × Bool := roundFp (fpFmt 10) x

/-- round32 as a number. -/
def r32 (x : Num) : Num := f32 (round32 x).1

/-! ### Legal combinations (R111, R114, R118) -/

/-- The exact accumulation class. -/
def exactClass (m : Mode) : Bool := decide (m.wf ≤ 7) && (m.af == 2 || m.af == 6 || m.af == 7)

/-- The first row of R118, the only one with INT32 output. -/
def firstRow (m : Mode) : Bool := decide (m.wf ≤ 2) && m.af == 2 && m.ws == 0 && m.as == 0

/-- Fields of MODE that the reserved codes and R105 permit. -/
def modeCodesOk (m : Mode) : Bool := decide (m.wf ≤ 10) && fmtAct m.af && decide (m.ws ≤ 2) && decide (m.as ≤ 2)

/-- MODE forms a row of R118 for some output type. -/
def modeLegal (m : Mode) : Bool :=
  (m.ws != 2 || decide (m.wf ≤ 7)) && (m.as != 2 || m.af == 2 || m.af == 6 || m.af == 7)

/-! ### Accumulation (R121 to R128) -/

/-- An empty accumulator. -/
def EVal.zeroExact : EVal := .exact 0 false false false false

/-- Add a finite contribution or a special product to an exact accumulator (R122, R123). -/
def accNum (v : EVal) (x : Num) : EVal :=
  match v with
  | .exact a n p q o =>
    match x with
    | .nan => .exact a true p q o
    | .inf true => .exact a n p true o
    | .inf false => .exact a n true q o
    | .fin m e => .exact (a + roundInt m (e + 80)) n p q o
  | w => w

/-- Elements of a list in groups of n. -/
def groups {α : Type} (n : Nat) : Nat → List α → List (List α)
  | 0, _ => []
  | k + 1, l => if l.isEmpty then [] else l.take n :: groups n k (l.drop n)

/-- The combined exponent of a shared block: none if a scale is NaN (R124). -/
def blockExp (ws as : List Nat) (b : Nat) : Option Int :=
  let one := fun (l : List Nat) => if l.isEmpty then some 0 else e8m0 (l.getD b 0xFF)
  match one ws, one as with
  | some x, some y => some (x + y)
  | _, _ => none

/-- The exact accumulator of a row (R121 to R124). -/
def dotExact (pairs : List (Num × Num)) (ws as : List Nat) : EVal :=
  if ws.isEmpty && as.isEmpty then pairs.foldl (fun v p => accNum v (p.1.mul p.2)) .zeroExact
  else
    let blocks := groups 32 pairs.length pairs
    (blocks.zipIdx).foldl (fun v bi =>
      let ps := bi.1.map fun p => p.1.mul p.2
      let v := ps.foldl (fun v x => match x with | .fin _ _ => v | y => accNum v y) v
      let beta := ps.foldl (fun t x => match x with | .fin _ _ => t.add x | _ => t) Num.zero
      match blockExp ws as bi.2, beta, v with
      | none, _, .exact a _ p q o => .exact a true p q o
      | some e, .fin m f, .exact a n p q o =>
        let c := roundInt m (f + e + 80)
        if c.natAbs < 2 ^ 152 then .exact (a + c) n p q o
        else if c < 0 then .exact a n p true true else .exact a n true q true
      | _, _, w => w) .zeroExact

/-- The segment values P_j with their overflow (R127 step 1). -/
def segments (pairs : List (Num × Num)) (ws as : List Nat) : List (Nat × Bool) :=
  ((groups 8 pairs.length pairs).zipIdx).map fun sj =>
    match blockExp ws as (sj.2 / 4) with
    | none => (0x7FC00000, false)
    | some e => round32 ((sj.1.foldl (fun t p => t.add (p.1.mul p.2)) Num.zero).mul (.fin 1 e))

/-- The chain values of a row (R127 step 2, R225), with overflow; a row of no elements has one chain of +0. -/
def chains (pairs : List (Num × Num)) (ws as : List Nat) (cseg : Nat) : List (Nat × Bool) :=
  let segs := segments pairs ws as
  if segs.isEmpty then [(0, false)]
  else
    (groups (if cseg = 0 then segs.length else cseg) segs.length segs).map fun g =>
      g.foldl (fun a p => let r := round32 ((f32 a.1).add (f32 p.1)); (r.1, a.2 || p.2 || r.2)) (0, false)

/-- round32(a + b) of two FP32 values with overflow. -/
def fold32 (a b : Nat × Bool) : Nat × Bool :=
  let r := round32 ((f32 a.1).add (f32 b.1))
  (r.1, a.2 || b.2 || r.2)

/-- The ⊕ of R245 by class: exact addition with the flags ORed, or round32(a + b). An exact sum is an unbounded integer: the spec calls 176
bits enough and says nothing of a sum beyond them (R121). (DESIGN CHOICE, log entry 102.) -/
def EVal.plus (a b : EVal) : EVal :=
  match a, b with
  | .exact x n p q o, .exact y n' p' q' o' => .exact (x + y) (n || n') (p || p') (q || q') (o || o')
  | .fp32 x o, .fp32 y o' => let r := fold32 (x, o) (y, o'); .fp32 r.1 r.2
  | w, _ => w

/-- The value of a column before scaling (R125 steps 1 to 3). -/
def EVal.value : EVal → Num
  | .exact a n p q _ => if n || (p && q) then .nan else if p then .inf false else if q then .inf true else .fin a (-80)
  | .fp32 b _ => f32 b

def EVal.ovf : EVal → Bool
  | .exact _ _ _ _ o => o
  | .fp32 _ o => o

/-! ### Pairwise trees (R244) -/

/-- One level: adjacent operands combine, the lower index on the left. -/
def pairLevel {α : Type} (f : α → α → α) : List α → List α
  | a :: b :: l => f a b :: pairLevel f l
  | l => l

/-- The pairwise tree over a list whose length is a power of two, n levels deep. -/
def pairTree {α : Type} (f : α → α → α) : Nat → List α → List α
  | 0, l => l
  | n + 1, l => pairTree f n (pairLevel f l)

/-- Pad with the identity to a power of two and combine. -/
def treeFold {α : Type} (f : α → α → α) (e : α) (l : List α) : α :=
  let n := log2Up l.length
  (pairTree f n (l ++ List.replicate (2 ^ n - l.length) e)).headD e

/-! ### Flags of a written element (R115, R130) -/

/-- The bits of the four flags in a job's AFLAGS: NAN, INF, OVF, SAT. -/
def flagBits (nan inf ovf sat : Bool) : Nat := b2n nan + 2 * b2n inf + 4 * b2n ovf + 8 * b2n sat

/-- Convert a scaled value to output type `ot`: its bits and flags; `ovf` arose before (R115, R117, R130). -/
def emitValue (ot : Nat) (x : Num) (ovf : Bool) : Nat × Nat :=
  match ot with
  | 0 =>
    match x with
    | .nan => (0, flagBits true false ovf false)
    | .inf n => (if n then 0x80000000 else 0x7FFFFFFF, flagBits false true ovf true)
    | .fin m e =>
      let v := roundInt m e
      if v < -2147483648 then (0x80000000, flagBits false false ovf true)
      else if 2147483647 < v then (0x7FFFFFFF, flagBits false false ovf true)
      else (ofSigned 32 v, flagBits false false ovf false)
  | t =>
    let f := fpFmt (if t = 1 then 10 else 9)
    let r := roundFp f x
    (r.1, flagBits (r.1 == f.nanCode) (r.1 % 2 ^ (f.eb + f.mb) == f.top + 1) (ovf || r.2) false)

/-! ### The exponential (R255, R256) -/

/-- The greatest n below 2^b + base, counting bits down, with n^256 ≤ top. -/
def rootBits (top : Nat) : Nat → Nat → Nat
  | 0, r => r
  | b + 1, r => rootBits top b (if (r + 2 ^ b) ^ 256 ≤ top then r + 2 ^ b else r)

/-- EXPT[i]: 2^(i/256) rounded to FP32 (R256). -/
def expt (i : Nat) : Num :=
  let n := rootBits (2 ^ (i + 23 * 256)) 24 0
  .fin (Int.ofNat (if (2 * n + 1) ^ 256 < 2 ^ (i + 24 * 256) then n + 1 else n)) (-23)

/-- exp of an FP32 value, and whether a finite value became +Inf (R255, R130). -/
def expF (x : Nat) : Nat × Bool :=
  match f32 x with
  | .nan => (0x7FC00000, false)
  | .inf true => (0, false)
  | .inf false => (0x7F800000, false)
  | .fin m e =>
    if m = 0 then (0x3F800000, false)
    else
      match r32 ((Num.fin m e).mul (f32 0x3FB8AA3B)) with
      | .fin tm te =>
        let t := Num.fin tm te
        if t.lt (.fin (-150) 0) then (0, false)
        else if !t.lt (.fin 128 0) then (0x7F800000, true)
        else
          let n : Int := if 0 ≤ te then shl tm te.toNat else tm / Int.ofNat (2 ^ (-te).toNat)
          let f := t.add (.fin (-n) 0)
          let i : Int := match f.mul (.fin 256 0) with
            | .fin a b => if 0 ≤ b then shl a b.toNat else a / Int.ofNat (2 ^ (-b).toNat)
            | _ => 0
          let r := f.add (.fin (-i) (-8))
          let q := r32 ((Num.fin 1 0).add (r32 (r.mul (r32 ((f32 0x3F317218).add (r32 (r.mul (f32 0x3E75FDF0))))))))
          let y := r32 ((expt i.toNat).mul q)
          round32 (y.mul (.fin 1 n))
      | .inf true => (0, false)
      | _ => (0x7F800000, true)

/-- d(a, b) = round32(a − b) (R251), with the OVF flags of both and its own. -/
def diff32 (a b : Nat × Bool) : Nat × Bool :=
  let r := round32 ((f32 a.1).add (f32 b.1).negate)
  (r.1, a.2 || b.2 || r.2)

/-- exp(d(a, b)) with the flags of what it comes from. -/
def expDiff (a b : Nat × Bool) : Nat × Bool :=
  let d := diff32 a b
  let e := expF d.1
  (e.1, d.2 || e.2)

/-- Bring a value from reference r to reference m (R251). -/
def bring (x r m : Nat × Bool) : Nat × Bool :=
  if r.1 = m.1 then x
  else
    let e := expDiff r m
    let v := round32 ((f32 x.1).mul (f32 e.1))
    (v.1, x.2 || e.2 || v.2)

/-- MAX of R132 on FP32 values. -/
def max32 (a b : Nat) : Nat :=
  match f32 a, f32 b with
  | .nan, _ => 0x7FC00000
  | _, .nan => 0x7FC00000
  | x, y => (round32 (if x.lt y then y else x)).1

/-- MAX with the OVF flags of both operands. -/
def maxFlag (a b : Nat × Bool) : Nat × Bool := (max32 a.1 b.1, a.2 || b.2)

/-! ### Remote operations (R132) -/

/-- Combine two elements of a reduction: operation 0 SUM, 1 MAX; type 0 INT32, 1 FP32, 2 BF16. Result bits and flags. -/
def reduceElem (rop etype a b : Nat) : Nat × Nat :=
  match etype with
  | 0 =>
    let x := toSigned 32 a
    let y := toSigned 32 b
    if rop = 0 then emitValue 0 (.fin (x + y) 0) false else (ofSigned 32 (max x y), 0)
  | t =>
    let v := fun c => fpValue (fpFmt (if t = 1 then 10 else 9)) c
    if rop = 0 then emitValue t ((v a).add (v b)) false
    else
      match v a, v b with
      | .nan, _ => emitValue t .nan false
      | _, .nan => emitValue t .nan false
      | x, y => emitValue t (if x.lt y then y else x) false

end Sys2Proof.Machine
end

