-- ==== Sys2Proof/Machine/Fields.lean ====
section
/-! DEFINITION. The register fields of BAR_0: name, offset, place, width, reset value and access type of each,
as the register tables of the chapters give them (R9, R103, R168, R205, R239, R291 to R294, R314, R315, R348, R379 to
R381, R407, R429 to R431, R462, R480, R496, R497). A field of a 64-bit pair stands at the pair's _LO offset (R7). -/

namespace Sys2Proof.Machine.Reg

/-- Reset value of GLB_HASH_j: bit i is set where i mod 9 = j (R104). -/
def hashReset (j : Nat) : Nat := (List.range 32).foldl (fun a i => if i % 9 = j then a + 2 ^ i else a) 0

/-- Reset value of CHC_BXOR_j (R294). -/
def bxorReset (j : Nat) : Nat := (List.range 32).foldl (fun a i => if i % 5 = j then a + 2 ^ i else a) 0

/-- Reset limits UV and OV of monitor i in mV (R420). -/
def monLim (i : Nat) : Nat × Nat := if i < 40 then (680, 820) else if i < 44 then (720, 880) else (300, 1200)


/-! ### GLB_ -/

def GLB_ID.PART : Fld := ⟨0x0, 0, 16, 0x1600, .ro⟩
def GLB_ID.REV : Fld := ⟨0x0, 16, 4, 1, .ro⟩
def GLB_ID.MARK : Fld := ⟨0x0, 20, 12, 0x5d4, .ro⟩
def GLB_STATUS.PHASE : Fld := ⟨0x4, 0, 4, 0, .ro⟩
def GLB_STATUS.PORTS_OPEN : Fld := ⟨0x4, 4, 1, 0, .ro⟩
def GLB_STATUS.MAP_WR_IGNORED : Fld := ⟨0x4, 5, 1, 0, .w1c⟩
def GLB_STATUS.SETS_REJECTED : Fld := ⟨0x4, 6, 1, 0, .ro⟩
def GLB_STATUS.HIVES_UNUSED : Fld := ⟨0x4, 7, 5, 0, .ro⟩
def GLB_CAP.HIVE_PRESENT : Fld := ⟨0x8, 0, 16, 0xffff, .ro⟩
def GLB_CAP.PEER_PRESENT : Fld := ⟨0x8, 16, 1, 1, .ro⟩
def GLB_CAP.ENC_PRESENT : Fld := ⟨0x8, 17, 1, 1, .ro⟩
def GLB_CAP.VARIANT : Fld := ⟨0x8, 24, 4, 1, .ro⟩
def GLB_RESET_CAUSE.PORST : Fld := ⟨0xc, 0, 1, 1, .ro⟩
def GLB_RESET_CAUSE.HUB_RST : Fld := ⟨0xc, 1, 1, 0, .ro⟩
def GLB_RESET_CAUSE.THERMAL : Fld := ⟨0xc, 2, 1, 0, .ro⟩
def GLB_MEM_TOP.TOP : Fld := ⟨0x10, 0, 23, 0, .ro⟩
def GLB_FW_RESERVE.SIZE : Fld := ⟨0x14, 0, 16, 0x800, .rw⟩
def GLB_BAR4_BASE.BASE : Fld := ⟨0x18, 0, 23, 0, .rw⟩
def GLB_ISET.HIVES (s : Nat) : Fld := ⟨0x20 + 0x4 * s, 0, 16, 0, .rw⟩
def GLB_ISET.GRAN (s : Nat) : Fld := ⟨0x20 + 0x4 * s, 16, 3, 0, .rw⟩
def GLB_ISET.VALID (s : Nat) : Fld := ⟨0x20 + 0x4 * s, 31, 1, 0, .rw⟩
def GLB_ISET_BASE.BASE (s : Nat) : Fld := ⟨0x40 + 0x4 * s, 0, 23, 0, .ro⟩
def GLB_ISET_SIZE.SIZE (s : Nat) : Fld := ⟨0x60 + 0x4 * s, 0, 23, 0, .ro⟩
def GLB_HASH.MASK (j : Nat) : Fld := ⟨0x80 + 0x4 * j, 0, 32, (hashReset j), .rw⟩
def GLB_HIVE_CAP.CAP (n : Nat) : Fld := ⟨0xc0 + 0x4 * n, 0, 18, 0, .ro⟩
def GLB_HIVE_CAP.GEN (n : Nat) : Fld := ⟨0xc0 + 0x4 * n, 18, 2, 0, .ro⟩
def GLB_COMMIT.GO : Fld := ⟨0x100, 0, 1, 0, .wo⟩
def GLB_HOST_DOMAIN.DOMAIN : Fld := ⟨0x104, 0, 8, 1, .rws⟩
def GLB_FAULT_INFO.CTX : Fld := ⟨0x110, 0, 16, 0, .ro⟩
def GLB_FAULT_INFO.SRC : Fld := ⟨0x110, 16, 5, 0, .ro⟩
def GLB_FAULT_INFO.WRITE : Fld := ⟨0x110, 21, 1, 0, .ro⟩
def GLB_FAULT_INFO.WINDOW : Fld := ⟨0x110, 22, 1, 0, .ro⟩
def GLB_FAULT_INFO.OVERFLOW : Fld := ⟨0x110, 30, 1, 0, .w1c⟩
def GLB_FAULT_INFO.VALID : Fld := ⟨0x110, 31, 1, 0, .w1c⟩
def GLB_FAULT_ADDR.ADDR : Fld := ⟨0x114, 0, 64, 0, .ro⟩
def GLB_RGN_BASE.BASE (r : Nat) : Fld := ⟨0x1000 + 0x10 * r, 0, 23, 0, .rws⟩
def GLB_RGN_LIMIT.LIMIT (r : Nat) : Fld := ⟨0x1004 + 0x10 * r, 0, 23, 0, .rws⟩
def GLB_RGN_ATTR.DOMAIN (r : Nat) : Fld := ⟨0x1008 + 0x10 * r, 0, 8, 0, .rws⟩
def GLB_RGN_ATTR.ALL (r : Nat) : Fld := ⟨0x1008 + 0x10 * r, 8, 1, 0, .rws⟩
def GLB_RGN_ATTR.RD (r : Nat) : Fld := ⟨0x1008 + 0x10 * r, 9, 1, 0, .rws⟩
def GLB_RGN_ATTR.WR (r : Nat) : Fld := ⟨0x1008 + 0x10 * r, 10, 1, 0, .rws⟩
def GLB_RGN_ATTR.VALID (r : Nat) : Fld := ⟨0x1008 + 0x10 * r, 31, 1, 0, .rws⟩

/-! ### ARB_ -/

def ARB_COMMIT.GO : Fld := ⟨0x10000, 0, 1, 0, .wo⟩
def ARB_COMMIT.STATUS : Fld := ⟨0x10000, 1, 3, 0, .ro⟩
def ARB_COMMIT.BUSY : Fld := ⟨0x10000, 30, 1, 0, .ro⟩
def ARB_COMMIT.VALID : Fld := ⟨0x10000, 31, 1, 0, .ro⟩
def ARB_BACKOFF.MIN : Fld := ⟨0x10004, 0, 16, 0x10, .rws⟩
def ARB_BACKOFF.CAP : Fld := ⟨0x10004, 16, 16, 0x400, .rws⟩
def ARB_LFSR_SEED.SEED : Fld := ⟨0x10008, 0, 32, 0x6c8e9cf5, .rw⟩
def ARB_CURT_CFG.WDOG_NS : Fld := ⟨0x1000c, 0, 16, 0x7d0, .rws⟩
def ARB_CURT_CFG.MAX_BEATS : Fld := ⟨0x1000c, 16, 7, 0x40, .rws⟩
def ARB_CURT_CFG.MAX_REQS : Fld := ⟨0x1000c, 23, 5, 0x10, .rws⟩
def ARB_CURT_EN.PORTS : Fld := ⟨0x10010, 0, 16, 0xffff, .rws⟩

/-! ### QOS_ -/

def QOS_CFG.OVERHEAD : Fld := ⟨0x10014, 0, 8, 0x10, .rws⟩
def QOS_CFG.HOST_CLASS : Fld := ⟨0x10014, 8, 5, 0, .rws⟩
def QOS_CFG.PEER_CLASS : Fld := ⟨0x10014, 13, 5, 0, .rws⟩
def QOS_DERATE.NORM : Fld := ⟨0x10018, 0, 8, 0xe6, .rws⟩
def QOS_DERATE.DBL : Fld := ⟨0x10018, 8, 8, 0xda, .rws⟩
def QOS_TOKEN_RESET.CLASSES : Fld := ⟨0x1001c, 0, 32, 0, .wo⟩
def QOS_DEGRADE_STATUS.HIVES : Fld := ⟨0x10020, 0, 16, 0, .ro⟩
def QOS_DEGRADE_STATUS.GUAR_DEGRADED : Fld := ⟨0x10020, 16, 1, 0, .w1c⟩
def QOS_MISS_CFG.WIN_LOG : Fld := ⟨0x10024, 0, 5, 0xa, .rw⟩
def QOS_MISS_CFG.TOL : Fld := ⟨0x10024, 5, 5, 0xe, .rw⟩
def QOS_MISS_CFG.EN : Fld := ⟨0x10024, 10, 1, 0, .rw⟩
def QOS_MISS_STATUS.MASTER : Fld := ⟨0x10028, 0, 5, 0, .ro⟩
def QOS_MISS_STATUS.HIVE : Fld := ⟨0x10028, 5, 4, 0, .ro⟩
def QOS_MISS_STATUS.OVERFLOW : Fld := ⟨0x10028, 30, 1, 0, .w1c⟩
def QOS_MISS_STATUS.VALID : Fld := ⟨0x10028, 31, 1, 0, .w1c⟩

/-! ### ARB_ -/

def ARB_TKT.TICKETS (m : Nat) : Fld := ⟨0x10100 + 0x4 * m, 0, 8, 0x10, .rws⟩

/-! ### QOS_ -/

def QOS_GUAR.GBPS (m : Nat) : Fld := ⟨0x10180 + 0x4 * m, 0, 16, 0, .rws⟩

/-! ### ARB_ -/

def ARB_PORT_ERR.NOCREDIT (m : Nat) : Fld := ⟨0x10200 + 0x4 * m, 0, 8, 0, .ro⟩
def ARB_PORT_ERR.TAG_DUP (m : Nat) : Fld := ⟨0x10200 + 0x4 * m, 8, 8, 0, .ro⟩
def ARB_PORT_ERR.NOT_READY (m : Nat) : Fld := ⟨0x10200 + 0x4 * m, 16, 8, 0, .ro⟩
def ARB_PORT_ERR.HDR_PARITY (m : Nat) : Fld := ⟨0x10200 + 0x4 * m, 24, 1, 0, .w1c⟩
def ARB_PORT_ERR.DATA_PARITY (m : Nat) : Fld := ⟨0x10200 + 0x4 * m, 25, 1, 0, .w1c⟩
def ARB_PORT_ERR.CURT_TORN (m : Nat) : Fld := ⟨0x10200 + 0x4 * m, 26, 1, 0, .w1c⟩

/-! ### QOS_ -/

def QOS_MISS_CNT.COUNT (m : Nat) : Fld := ⟨0x10280 + 0x4 * m, 0, 32, 0, .ro⟩
def QOS_CIR.RATE (c : Nat) : Fld := ⟨0x11000 + 0x10 * c, 0, 20, 0, .rws⟩
def QOS_CIR.EN (c : Nat) : Fld := ⟨0x11000 + 0x10 * c, 31, 1, 0, .rws⟩
def QOS_CBS.SIZE (c : Nat) : Fld := ⟨0x11004 + 0x10 * c, 0, 16, 0x100, .rws⟩
def QOS_PIR.RATE (c : Nat) : Fld := ⟨0x11008 + 0x10 * c, 0, 20, 0, .rws⟩
def QOS_PIR.EN (c : Nat) : Fld := ⟨0x11008 + 0x10 * c, 31, 1, 0, .rws⟩
def QOS_PBS.SIZE (c : Nat) : Fld := ⟨0x1100c + 0x10 * c, 0, 16, 0x100, .rws⟩
def QOS_CTOK.COUNT (c : Nat) : Fld := ⟨0x11400 + 0x8 * c, 0, 32, 0x4000, .ro⟩
def QOS_PTOK.COUNT (c : Nat) : Fld := ⟨0x11404 + 0x8 * c, 0, 32, 0x4000, .ro⟩

/-! ### ARB_ -/

def ARB_HIVE_STATUS.SPARES_FREE (n : Nat) : Fld := ⟨0x12000 + 0x8 * n, 0, 2, 2, .ro⟩
def ARB_HIVE_STATUS.NO_STAGE (n : Nat) : Fld := ⟨0x12000 + 0x8 * n, 2, 1, 0, .ro⟩
def ARB_HIVE_STATUS.PREEMPTS (n : Nat) : Fld := ⟨0x12000 + 0x8 * n, 8, 16, 0, .ro⟩
def ARB_GUAR_FACTOR.FACTOR (n : Nat) : Fld := ⟨0x12004 + 0x8 * n, 0, 9, 0x100, .ro⟩

/-! ### THM_ -/

def THM_STATE.BLOCK : Fld := ⟨0x20000, 0, 2, 0, .ro⟩
def THM_STATE.SHARED : Fld := ⟨0x20000, 2, 2, 0, .ro⟩
def THM_STATE.SHR_LEVEL : Fld := ⟨0x20000, 4, 3, 0, .ro⟩
def THM_STATE.PENDING : Fld := ⟨0x20000, 7, 1, 0, .ro⟩
def THM_STATE.HOTTEST : Fld := ⟨0x20000, 8, 11, 0, .ro⟩
def THM_STATE.HOT_GROUP : Fld := ⟨0x20000, 19, 5, 0, .ro⟩
def THM_CFG.GATE : Fld := ⟨0x20004, 0, 10, 0xc8, .rw⟩
def THM_CFG.PAIR_TOL : Fld := ⟨0x20004, 10, 4, 3, .rw⟩
def THM_CFG.STACK_LIM : Fld := ⟨0x20004, 14, 8, 0x69, .rw⟩
def THM_CFG.STEP_MS : Fld := ⟨0x20004, 22, 7, 0xa, .rw⟩
def THM_CFG.SHR_FLOOR : Fld := ⟨0x20004, 29, 3, 0, .rw⟩
def THM_EVENT.WARN : Fld := ⟨0x20008, 0, 1, 0, .w1c⟩
def THM_EVENT.THROTTLE : Fld := ⟨0x20008, 1, 1, 0, .w1c⟩
def THM_EVENT.RATE : Fld := ⟨0x20008, 2, 1, 0, .w1c⟩
def THM_EVENT.SENSOR : Fld := ⟨0x20008, 3, 1, 0, .w1c⟩
def THM_EVENT.PENDING : Fld := ⟨0x20008, 4, 1, 0, .w1c⟩
def THM_EVENT.CLEARED : Fld := ⟨0x20008, 5, 1, 0, .w1c⟩
def THM_EVENT.EMERG : Fld := ⟨0x20008, 6, 1, 0, .w1c⟩
def THM_EVENT.DOMAIN : Fld := ⟨0x20008, 7, 1, 0, .w1c⟩
def THM_THR.WARN (g : Nat) : Fld := ⟨0x20010 + 0x4 * g, 0, 8, 0x5f, .rw⟩
def THM_THR.THROT (g : Nat) : Fld := ⟨0x20010 + 0x4 * g, 8, 8, 0x69, .rw⟩
def THM_THR.SHDN (g : Nat) : Fld := ⟨0x20010 + 0x4 * g, 16, 8, 0x73, .ro⟩
def THM_SHR.TEMP (s : Nat) : Fld := ⟨0x20080 + 0x4 * s, 0, 11, 0, .ro⟩
def THM_SHR.VALID (s : Nat) : Fld := ⟨0x20080 + 0x4 * s, 11, 1, 0, .ro⟩
def THM_SHR.P_OK (s : Nat) : Fld := ⟨0x20080 + 0x4 * s, 12, 1, 0, .ro⟩
def THM_SHR.S_OK (s : Nat) : Fld := ⟨0x20080 + 0x4 * s, 13, 1, 0, .ro⟩
def THM_SHR.DISAGREE (s : Nat) : Fld := ⟨0x20080 + 0x4 * s, 14, 1, 0, .ro⟩
def THM_SHR.COUNT (s : Nat) : Fld := ⟨0x20080 + 0x4 * s, 16, 16, 0, .ro⟩

/-! ### PWR_ -/

def PWR_DOM_0.H_ON : Fld := ⟨0x20100, 0, 16, 0, .ro⟩
def PWR_DOM_0.C_ON : Fld := ⟨0x20100, 16, 16, 0, .ro⟩
def PWR_DOM_1.FAB_ON : Fld := ⟨0x20104, 0, 1, 0, .ro⟩
def PWR_DOMAIN_ERR.DOMAIN : Fld := ⟨0x20108, 0, 6, 0, .ro⟩
def PWR_DOMAIN_ERR.KIND : Fld := ⟨0x20108, 6, 2, 0, .ro⟩
def PWR_DOMAIN_ERR.OVERFLOW : Fld := ⟨0x20108, 30, 1, 0, .w1c⟩
def PWR_DOMAIN_ERR.VALID : Fld := ⟨0x20108, 31, 1, 0, .w1c⟩
def PWR_EMERG.OPEN : Fld := ⟨0x2010c, 0, 1, 0, .ro⟩
def PWR_EMERG.MONITOR : Fld := ⟨0x2010c, 1, 6, 0, .ro⟩
def PWR_EMERG.OVER : Fld := ⟨0x2010c, 7, 1, 0, .ro⟩
def PWR_EMERG.COUNT : Fld := ⟨0x2010c, 8, 8, 0, .ro⟩
def PWR_CTL.SHUTDOWN : Fld := ⟨0x20110, 0, 1, 0, .wo⟩
def PWR_MON.MV (i : Nat) : Fld := ⟨0x20200 + 0x4 * i, 0, 14, 0, .ro⟩
def PWR_MON.VALID (i : Nat) : Fld := ⟨0x20200 + 0x4 * i, 14, 1, 0, .ro⟩
def PWR_MON_LIM.UV (i : Nat) : Fld := ⟨0x20300 + 0x4 * i, 0, 14, (monLim i).1, .rw⟩
def PWR_MON_LIM.OV (i : Nat) : Fld := ⟨0x20300 + 0x4 * i, 16, 14, (monLim i).2, .rw⟩

/-! ### THM_ -/

def THM_SHRTRIM_P.N0 (s : Nat) : Fld := ⟨0x20400 + 0x8 * s, 0, 16, 0, .ro⟩
def THM_SHRTRIM_P.SLOPE (s : Nat) : Fld := ⟨0x20400 + 0x8 * s, 16, 16, 0, .ro⟩
def THM_SHRTRIM_S.N0 (s : Nat) : Fld := ⟨0x20404 + 0x8 * s, 0, 16, 0, .ro⟩
def THM_SHRTRIM_S.SLOPE (s : Nat) : Fld := ⟨0x20404 + 0x8 * s, 16, 16, 0, .ro⟩

/-! ### ECC_ -/

def ECC_FILL_PROGRESS.PROGRESS : Fld := ⟨0x30000, 0, 32, 0, .ro⟩
def ECC_HIVE_EVENT.CE_OVF : Fld := ⟨0x30008, 0, 16, 0, .w1c⟩
def ECC_HIVE_EVENT.UE : Fld := ⟨0x30008, 16, 16, 0, .w1c⟩
def ECC_SCRUB_BASE.ADDR : Fld := ⟨0x30010, 0, 64, 0, .rw⟩
def ECC_SCRUB_LIMIT.ADDR : Fld := ⟨0x30018, 0, 64, 0, .rw⟩
def ECC_SCRUB_CTRL.GO : Fld := ⟨0x30020, 0, 1, 0, .wo⟩
def ECC_SCRUB_CTRL.STOP : Fld := ⟨0x30020, 1, 1, 0, .wo⟩
def ECC_SCRUB_CTRL.GAP : Fld := ⟨0x30020, 8, 8, 0, .rw⟩
def ECC_SCRUB_CTRL.BUSY : Fld := ⟨0x30020, 31, 1, 0, .ro⟩
def ECC_SCRUB_PROGRESS.PROGRESS : Fld := ⟨0x30024, 0, 32, 0, .ro⟩
def ECC_SCRUB_SUMMARY.CORRECTED : Fld := ⟨0x30028, 0, 24, 0, .ro⟩
def ECC_SCRUB_SUMMARY.RESULT : Fld := ⟨0x30028, 24, 3, 0, .ro⟩
def ECC_SCRUB_SUMMARY.VALID : Fld := ⟨0x30028, 31, 1, 0, .ro⟩
def ECC_SCRUB_UE.COUNT : Fld := ⟨0x3002c, 0, 24, 0, .ro⟩
def ECC_SCRUB_UE_ADDR.ADDR : Fld := ⟨0x30030, 0, 64, 0, .ro⟩
def ECC_HP_CTO.US : Fld := ⟨0x30040, 0, 16, 0x2710, .rw⟩
def ECC_LATE_CNT.HP : Fld := ⟨0x30044, 0, 16, 0, .ro⟩
def ECC_LATE_CNT.PP : Fld := ⟨0x30044, 16, 16, 0, .ro⟩
def ECC_QUAR.HP : Fld := ⟨0x30048, 0, 10, 0, .ro⟩
def ECC_QUAR.PP : Fld := ⟨0x30048, 16, 12, 0, .ro⟩

/-! ### PMC_ -/

def PMC_CTL.FREEZE : Fld := ⟨0x40000, 0, 1, 0, .rw⟩
def PMC_CTL.FRZ_ON_OVF : Fld := ⟨0x40000, 1, 1, 0, .rw⟩
def PMC_CTL.CLEAR : Fld := ⟨0x40000, 2, 1, 0, .wo⟩
def PMC_USER_EN.BLK_LO : Fld := ⟨0x40004, 0, 1, 0, .rw⟩
def PMC_USER_EN.BLK_HI : Fld := ⟨0x40004, 1, 1, 0, .rw⟩
def PMC_USER_EN.HIVE : Fld := ⟨0x40004, 2, 1, 0, .rw⟩
def PMC_USER_EN.TIME : Fld := ⟨0x40004, 3, 1, 0, .rw⟩
def PMC_OVF_B.OVF (i : Nat) : Fld := ⟨0x40008 + 0x4 * i, 0, 32, 0, .w1c⟩
def PMC_TIME.TIME : Fld := ⟨0x40010, 0, 48, 0, .ro⟩
def PMC_BW_CFG.WIN_US : Fld := ⟨0x40020, 0, 20, 0, .rw⟩
def PMC_BW_SEQ.SEQ : Fld := ⟨0x40024, 0, 32, 0, .ro⟩
def PMC_BW_RD.UNITS (m : Nat) : Fld := ⟨0x40100 + 0x8 * m, 0, 32, 0, .ro⟩
def PMC_BW_WR.UNITS (m : Nat) : Fld := ⟨0x40104 + 0x8 * m, 0, 32, 0, .ro⟩
def PMC_BCNT.COUNT (i : Nat) : Fld := ⟨0x41000 + 0x8 * i, 0, 48, 0, .rw⟩
def PMC_BSEL.EVENT (i : Nat) : Fld := ⟨0x41200 + 0x4 * i, 0, 12, 0, .rw⟩
def PMC_BSEL.EN (i : Nat) : Fld := ⟨0x41200 + 0x4 * i, 12, 1, 0, .rw⟩
def PMC_BSEL.SRC (i : Nat) : Fld := ⟨0x41200 + 0x4 * i, 13, 5, 0, .rw⟩
def PMC_BSEL.SRC_EN (i : Nat) : Fld := ⟨0x41200 + 0x4 * i, 18, 1, 0, .rw⟩
def PMC_BSEL.CLASS (i : Nat) : Fld := ⟨0x41200 + 0x4 * i, 19, 5, 0, .rw⟩
def PMC_BSEL.CLASS_EN (i : Nat) : Fld := ⟨0x41200 + 0x4 * i, 24, 1, 0, .rw⟩
def PMC_BSEL.HIVE (i : Nat) : Fld := ⟨0x41200 + 0x4 * i, 25, 4, 0, .rw⟩
def PMC_BSEL.HIVE_EN (i : Nat) : Fld := ⟨0x41200 + 0x4 * i, 30, 1, 0, .rw⟩

/-! ### PEER_ -/

def PEER_NODE_ID.NODE : Fld := ⟨0x50000, 0, 20, 0, .rws⟩
def PEER_NODE_ID.VALID : Fld := ⟨0x50000, 31, 1, 0, .rws⟩
def PEER_CFG.SRC_MAX : Fld := ⟨0x50004, 0, 12, 0xfff, .rw⟩
def PEER_CFG.RELAY_EN : Fld := ⟨0x50004, 12, 1, 0, .rw⟩
def PEER_TIMEOUT.US : Fld := ⟨0x50008, 0, 20, 0x3e8, .rw⟩
def PEER_STATUS.READY : Fld := ⟨0x5000c, 0, 1, 0, .ro⟩
def PEER_STATUS.TMO_REFUSED : Fld := ⟨0x5000c, 1, 1, 0, .w1c⟩
def PEER_STATUS.OUTSTANDING : Fld := ⟨0x5000c, 2, 12, 0, .ro⟩
def PEER_STATUS.BACKOFF_RX : Fld := ⟨0x5000c, 14, 8, 0, .ro⟩
def PEER_RED_CFG.STAGE_MIB : Fld := ⟨0x50010, 0, 16, 0x100, .rw⟩
def PEER_RED_CFG.ORPHAN_MS : Fld := ⟨0x50010, 16, 16, 0x3e8, .rw⟩
def PEER_RED_STAT.ORPHANS : Fld := ⟨0x50014, 0, 16, 0, .ro⟩
def PEER_RED_STAT.REFUSED : Fld := ⟨0x50014, 16, 16, 0, .ro⟩
def PEER_RED_USED.KIB : Fld := ⟨0x50018, 0, 24, 0, .ro⟩
def PEER_RED_USED.SLOTS : Fld := ⟨0x50018, 24, 5, 0, .ro⟩
def PEER_TMO_CNT.COUNT : Fld := ⟨0x5001c, 0, 32, 0, .ro⟩

/-! ### WIN_ -/

def WIN_COMMIT.GO : Fld := ⟨0x50040, 0, 1, 0, .wo⟩
def WIN_COMMIT.STATUS : Fld := ⟨0x50040, 1, 3, 0, .ro⟩
def WIN_COMMIT.ENTRY : Fld := ⟨0x50040, 4, 8, 0, .ro⟩
def WIN_COMMIT.TREE : Fld := ⟨0x50040, 12, 1, 0, .ro⟩
def WIN_COMMIT.BUSY : Fld := ⟨0x50040, 30, 1, 0, .ro⟩
def WIN_COMMIT.VALID : Fld := ⟨0x50040, 31, 1, 0, .ro⟩
def WIN_GEN.GEN : Fld := ⟨0x50044, 0, 16, 1, .ro⟩
def WIN_STATUS.OLD_INFLIGHT : Fld := ⟨0x50048, 0, 16, 0, .ro⟩
def WIN_STATUS.FAULTS_IN : Fld := ⟨0x50048, 16, 16, 0, .ro⟩

/-! ### PEER_ -/

def PEER_TREE_CFG.NCHILD (t : Nat) : Fld := ⟨0x50400 + 0x40 * t, 0, 4, 0, .rws⟩
def PEER_TREE_CFG.DEPTH (t : Nat) : Fld := ⟨0x50400 + 0x40 * t, 4, 4, 0, .rws⟩
def PEER_TREE_CHILD.NODE (t i : Nat) : Fld := ⟨0x50404 + 0x40 * t + 0x4 * i, 0, 20, 0, .rws⟩

/-! ### WIN_ -/

def WIN_CTL.VALID (w : Nat) : Fld := ⟨0x51000 + 0x20 * w, 0, 1, 0, .rws⟩
def WIN_CTL.DIR (w : Nat) : Fld := ⟨0x51000 + 0x20 * w, 1, 1, 0, .rws⟩
def WIN_CTL.RD (w : Nat) : Fld := ⟨0x51000 + 0x20 * w, 2, 1, 0, .rws⟩
def WIN_CTL.WR (w : Nat) : Fld := ⟨0x51000 + 0x20 * w, 3, 1, 0, .rws⟩
def WIN_CTL.RED (w : Nat) : Fld := ⟨0x51000 + 0x20 * w, 4, 1, 0, .rws⟩
def WIN_CTL.BCAST (w : Nat) : Fld := ⟨0x51000 + 0x20 * w, 5, 1, 0, .rws⟩
def WIN_CTL.GEN_CHK (w : Nat) : Fld := ⟨0x51000 + 0x20 * w, 6, 1, 0, .rws⟩
def WIN_CTL.ALL (w : Nat) : Fld := ⟨0x51000 + 0x20 * w, 7, 1, 0, .rws⟩
def WIN_CTL.DOMAIN (w : Nat) : Fld := ⟨0x51000 + 0x20 * w, 8, 8, 0, .rws⟩
def WIN_CTL.LINK (w : Nat) : Fld := ⟨0x51000 + 0x20 * w, 16, 6, 0, .rws⟩
def WIN_NODE.NODE_BASE (w : Nat) : Fld := ⟨0x51004 + 0x20 * w, 0, 20, 0, .rws⟩
def WIN_NODE.NODE_LOG2 (w : Nat) : Fld := ⟨0x51004 + 0x20 * w, 20, 5, 0, .rws⟩
def WIN_OFF_BASE.BASE (w : Nat) : Fld := ⟨0x51008 + 0x20 * w, 0, 22, 0, .rws⟩
def WIN_OFF_LIMIT.LIMIT (w : Nat) : Fld := ⟨0x5100c + 0x20 * w, 0, 22, 0, .rws⟩
def WIN_XLAT.LOCAL_BASE (w : Nat) : Fld := ⟨0x51010 + 0x20 * w, 0, 23, 0, .rws⟩
def WIN_RGEN.RGEN (w : Nat) : Fld := ⟨0x51014 + 0x20 * w, 0, 16, 0, .rws⟩

/-! ### LCS_ -/

def LCS_STATE.STATE : Fld := ⟨0x60000, 0, 3, 0, .ro⟩
def LCS_STATE.TRANSITION_PENDING : Fld := ⟨0x60000, 3, 1, 0, .ro⟩
def LCS_STATE.TARGET : Fld := ⟨0x60000, 4, 3, 0, .ro⟩
def LCS_STATE.DBG_OPEN : Fld := ⟨0x60000, 8, 1, 0, .ro⟩
def LCS_STATE.DBG_SCOPE : Fld := ⟨0x60000, 9, 3, 0, .ro⟩
def LCS_STATE.KEY_DEAD : Fld := ⟨0x60000, 12, 1, 0, .ro⟩
def LCS_STATE.KEYS_SET : Fld := ⟨0x60000, 13, 1, 0, .ro⟩
def LCS_STATE.SEC_FLOOR : Fld := ⟨0x60000, 14, 7, 0, .ro⟩
def LCS_CMD.CMD : Fld := ⟨0x60004, 0, 3, 0, .wo⟩
def LCS_CMD.TARGET : Fld := ⟨0x60004, 4, 3, 0, .wo⟩
def LCS_CMD.SLOT : Fld := ⟨0x60004, 7, 3, 0, .wo⟩
def LCS_CMD.BUSY : Fld := ⟨0x60004, 31, 1, 0, .ro⟩
def LCS_CMD_STATUS.RESULT : Fld := ⟨0x60008, 0, 4, 0, .ro⟩
def LCS_CMD_STATUS.VALID : Fld := ⟨0x60008, 31, 1, 0, .ro⟩
def LCS_SERIAL.SERIAL : Fld := ⟨0x60010, 0, 64, 0, .ro⟩
def LCS_KEY_SLOTS.VALID : Fld := ⟨0x60018, 0, 6, 0, .ro⟩
def LCS_KEY_SLOTS.REVOKED : Fld := ⟨0x60018, 8, 6, 0, .ro⟩
def LCS_DBG_STATUS.CHALLENGES : Fld := ⟨0x6001c, 0, 8, 0, .ro⟩
def LCS_DBG_STATUS.FAILS : Fld := ⟨0x6001c, 8, 2, 0, .ro⟩
def LCS_DBG_STATUS.LOCKOUT : Fld := ⟨0x6001c, 10, 1, 0, .ro⟩
def LCS_DBG_STATUS.NONCE_LIVE : Fld := ⟨0x6001c, 11, 1, 0, .ro⟩
def LCS_ENC_CFG.EN : Fld := ⟨0x60020, 0, 1, 0, .rwl⟩
def LCS_ENC_CFG.REQUIRED : Fld := ⟨0x60020, 1, 1, 0, .ro⟩
def LCS_ENC_STATUS.ACTIVE : Fld := ⟨0x60024, 0, 1, 0, .ro⟩
def LCS_ENC_STATUS.KEY_READY : Fld := ⟨0x60024, 1, 1, 0, .ro⟩
def LCS_AUDIT_CFG.BATCH_MAX : Fld := ⟨0x60030, 0, 14, 0x2000, .rw⟩
def LCS_AUDIT_CFG.BATCH_MS : Fld := ⟨0x60030, 16, 8, 0x64, .rw⟩
def LCS_AUDIT_CFG.FULL_POLICY : Fld := ⟨0x60030, 24, 1, 0, .rw⟩
def LCS_AUDIT_STATUS.PENDING : Fld := ⟨0x60034, 0, 21, 0, .ro⟩
def LCS_AUDIT_STATUS.HELD : Fld := ⟨0x60034, 21, 1, 0, .ro⟩
def LCS_AUDIT_DROPPED.COUNT : Fld := ⟨0x60038, 0, 32, 0, .ro⟩
def LCS_AUDIT_BATCH.BATCH_NO : Fld := ⟨0x6003c, 0, 32, 0, .ro⟩

/-! ### FWM_ -/

def FWM_STATUS.RUN_SLOT : Fld := ⟨0x70000, 0, 1, 0, .ro⟩
def FWM_STATUS.FALLBACK : Fld := ⟨0x70000, 1, 1, 0, .ro⟩
def FWM_STATUS.RECOVERY : Fld := ⟨0x70000, 2, 1, 0, .ro⟩
def FWM_STATUS.SETTINGS_RESET : Fld := ⟨0x70000, 3, 1, 0, .w1c⟩
def FWM_CORE_READY.CORES : Fld := ⟨0x70004, 0, 21, 0, .ro⟩
def FWM_CORE_CLASS.CLASS : Fld := ⟨0x70008, 0, 5, 0, .rw⟩
def FWM_CORE_CFG.WDOG_MS : Fld := ⟨0x7000c, 0, 8, 0x64, .rw⟩
def FWM_KPR_MAP.TARGET_0 : Fld := ⟨0x70010, 0, 4, 0, .ro⟩
def FWM_KPR_MAP.ACTIVE_0 : Fld := ⟨0x70010, 4, 1, 0, .ro⟩
def FWM_KPR_MAP.TARGET_1 : Fld := ⟨0x70010, 8, 4, 0, .ro⟩
def FWM_KPR_MAP.ACTIVE_1 : Fld := ⟨0x70010, 12, 1, 0, .ro⟩
def FWM_KPR_MAP.RETIRED : Fld := ⟨0x70010, 16, 16, 0, .ro⟩
def FWM_CORE_ERR.CORE : Fld := ⟨0x70014, 0, 5, 0, .ro⟩
def FWM_CORE_ERR.REASON : Fld := ⟨0x70014, 5, 3, 0, .ro⟩
def FWM_CORE_ERR.COUNT : Fld := ⟨0x70014, 8, 16, 0, .ro⟩
def FWM_CORE_ERR.VALID : Fld := ⟨0x70014, 31, 1, 0, .w1c⟩
def FWM_IMG_VER.VER : Fld := ⟨0x70018, 0, 64, 0, .ro⟩
def FWM_ALT_VER.VER : Fld := ⟨0x70020, 0, 64, 0, .ro⟩
def FWM_UPD_CFG.SRC : Fld := ⟨0x70030, 0, 1, 0, .rw⟩
def FWM_UPD_CFG.AUTO_ACT : Fld := ⟨0x70030, 1, 1, 0, .rw⟩
def FWM_UPD_CFG.SAFE_MS : Fld := ⟨0x70030, 2, 8, 0x32, .rw⟩
def FWM_UPD_STATUS.STATE : Fld := ⟨0x70034, 0, 4, 0, .ro⟩
def FWM_UPD_STATUS.RESULT : Fld := ⟨0x70034, 8, 5, 0, .ro⟩
def FWM_UPD_STATUS.VALID : Fld := ⟨0x70034, 31, 1, 0, .ro⟩
def FWM_UPD_PROGRESS.PROGRESS : Fld := ⟨0x70038, 0, 32, 0, .ro⟩
def FWM_RELAY_CFG.FWD : Fld := ⟨0x7003c, 0, 1, 0, .rw⟩
def FWM_RELAY_CFG.LINK : Fld := ⟨0x7003c, 1, 6, 0, .rw⟩
def FWM_RELAY_CFG.NEXT : Fld := ⟨0x7003c, 8, 20, 0, .rw⟩
def FWM_RELAY_STATUS.RESULT : Fld := ⟨0x70040, 0, 3, 0, .ro⟩
def FWM_RELAY_STATUS.BUSY : Fld := ⟨0x70040, 3, 1, 0, .ro⟩
def FWM_RELAY_STATUS.DISCARDED : Fld := ⟨0x70040, 8, 8, 0, .ro⟩
def FWM_RELAY_STATUS.VALID : Fld := ⟨0x70040, 31, 1, 0, .ro⟩
def FWM_RELAY_PROGRESS.PROGRESS : Fld := ⟨0x70044, 0, 32, 0, .ro⟩
def FWM_MBX_REQ_BASE.ADDR : Fld := ⟨0x70080, 0, 64, 0, .rw⟩
def FWM_MBX_REQ_CFG.LOG2 : Fld := ⟨0x70088, 0, 4, 4, .rw⟩
def FWM_MBX_REQ_CFG.HSET : Fld := ⟨0x70088, 4, 6, 0, .rw⟩
def FWM_MBX_REQ_CFG.EN : Fld := ⟨0x70088, 31, 1, 0, .rw⟩
def FWM_MBX_REQ_TAIL.TAIL : Fld := ⟨0x7008c, 0, 13, 0, .rw⟩
def FWM_MBX_EVT_BASE.ADDR : Fld := ⟨0x70090, 0, 64, 0, .rw⟩
def FWM_MBX_EVT_CFG.LOG2 : Fld := ⟨0x70098, 0, 4, 4, .rw⟩
def FWM_MBX_EVT_CFG.EN : Fld := ⟨0x70098, 31, 1, 0, .rw⟩
def FWM_MBX_EVT_HEAD.HEAD : Fld := ⟨0x7009c, 0, 13, 0, .rw⟩
def FWM_MBX_STATUS.REQ_HEAD : Fld := ⟨0x700a0, 0, 13, 0, .ro⟩
def FWM_MBX_STATUS.EVT_TAIL : Fld := ⟨0x700a0, 16, 13, 0, .ro⟩
def FWM_MBX_LOST.COUNT : Fld := ⟨0x700a4, 0, 32, 0, .ro⟩

/-! ### INT_ -/

def INT_STATUS.EVENT : Fld := ⟨0x70100, 0, 1, 0, .w1c⟩
def INT_STATUS.PORT_ERR : Fld := ⟨0x70100, 1, 1, 0, .w1c⟩
def INT_STATUS.GUARANTEE : Fld := ⟨0x70100, 2, 1, 0, .w1c⟩
def INT_STATUS.INTEGRITY : Fld := ⟨0x70100, 3, 1, 0, .w1c⟩
def INT_STATUS.THERMAL : Fld := ⟨0x70100, 4, 1, 0, .w1c⟩
def INT_MASK.MASK : Fld := ⟨0x70104, 0, 5, 0, .rw⟩

/-! ### CTX_ -/

def CTX_SEL.CTX : Fld := ⟨0x80000, 0, 16, 0, .rw⟩
def CTX_CMD.CMD : Fld := ⟨0x80004, 0, 3, 0, .wo⟩
def CTX_CMD.BUSY : Fld := ⟨0x80004, 31, 1, 0, .ro⟩
def CTX_CMD_STATUS.RESULT : Fld := ⟨0x80008, 0, 3, 0, .ro⟩
def CTX_CMD_STATUS.WORD : Fld := ⟨0x80008, 8, 4, 0, .ro⟩
def CTX_CMD_STATUS.VALID : Fld := ⟨0x80008, 31, 1, 0, .ro⟩
def CTX_DB_ERR.BAD_INDEX : Fld := ⟨0x8000c, 0, 16, 0, .ro⟩
def CTX_DB_ERR.BAD_STATE : Fld := ⟨0x8000c, 16, 16, 0, .ro⟩
def CTX_DB_BASE.BASE : Fld := ⟨0x80010, 0, 20, 0, .rw⟩
def CTX_DB_BASE.EN : Fld := ⟨0x80010, 31, 1, 0, .rw⟩
def CTX_SPILL_CFG.SIZE_MIB : Fld := ⟨0x80014, 0, 16, 0x100, .rw⟩
def CTX_SPILL_USED.KIB : Fld := ⟨0x80018, 0, 24, 0, .ro⟩
def CTX_LATE_CNT.COUNT : Fld := ⟨0x8001c, 0, 32, 0, .ro⟩
def CTX_ENTRY.WORD (w : Nat) : Fld := ⟨0x80040 + 0x4 * w, 0, 32, 0, .rw⟩
def CTX_STATUS_0.STATE : Fld := ⟨0x80080, 0, 2, 0, .ro⟩
def CTX_STATUS_0.INFLIGHT : Fld := ⟨0x80080, 2, 4, 0, .ro⟩
def CTX_STATUS_1.DESC_HEAD : Fld := ⟨0x80084, 0, 17, 0, .ro⟩
def CTX_STATUS_2.CPL_TAIL : Fld := ⟨0x80088, 0, 17, 0, .ro⟩
def CTX_STATUS_3.HALT_INDEX : Fld := ⟨0x8008c, 0, 17, 0, .ro⟩
def CTX_STATUS_3.HALT_STATUS : Fld := ⟨0x8008c, 24, 8, 0, .ro⟩
def CTX_HB_CFG.TIMEOUT_MS (s : Nat) : Fld := ⟨0x81000 + 0x10 * s, 0, 16, 0, .rw⟩
def CTX_HB_CTRL.GEN (s : Nat) : Fld := ⟨0x81004 + 0x10 * s, 0, 16, 0, .wo⟩
def CTX_HB_CTRL.CMD (s : Nat) : Fld := ⟨0x81004 + 0x10 * s, 16, 2, 0, .wo⟩
def CTX_HB_STATUS.STATE (s : Nat) : Fld := ⟨0x81008 + 0x10 * s, 0, 2, 0, .ro⟩
def CTX_HB_STATUS.ACK_REJECTED (s : Nat) : Fld := ⟨0x81008 + 0x10 * s, 2, 1, 0, .w1c⟩
def CTX_HB_STATUS.STALE (s : Nat) : Fld := ⟨0x81008 + 0x10 * s, 3, 8, 0, .ro⟩
def CTX_HB_STATUS.GEN (s : Nat) : Fld := ⟨0x81008 + 0x10 * s, 16, 16, 0, .ro⟩

/-! ### HIV_ -/

def HIV_THM_STATE.STATE (n : Nat) : Fld := ⟨0x100000 + 0x40000 * n, 0, 2, 0, .ro⟩
def HIV_THM_STATE.RATE (n : Nat) : Fld := ⟨0x100000 + 0x40000 * n, 2, 1, 0, .ro⟩
def HIV_THM_STATE.STACK_HIGH (n : Nat) : Fld := ⟨0x100000 + 0x40000 * n, 3, 1, 0, .ro⟩
def HIV_THM_STATE.LEVEL (n : Nat) : Fld := ⟨0x100000 + 0x40000 * n, 4, 3, 0, .ro⟩
def HIV_THM_STATE.TEMP (n : Nat) : Fld := ⟨0x100000 + 0x40000 * n, 7, 11, 0, .ro⟩
def HIV_THM_STATE.SITES (n : Nat) : Fld := ⟨0x100000 + 0x40000 * n, 18, 4, 0, .ro⟩
def HIV_THROT_CFG.FLOOR (n : Nat) : Fld := ⟨0x100004 + 0x40000 * n, 0, 3, 0, .rw⟩
def HIV_THROT_CFG.ACT_BASE (n : Nat) : Fld := ⟨0x100004 + 0x40000 * n, 8, 8, 0x40, .rw⟩

/-! ### THM_ -/

def THM_SITE.TEMP (n k : Nat) : Fld := ⟨0x101000 + 0x40000 * n + 0x4 * k, 0, 11, 0, .ro⟩
def THM_SITE.VALID (n k : Nat) : Fld := ⟨0x101000 + 0x40000 * n + 0x4 * k, 11, 1, 0, .ro⟩
def THM_SITE.P_OK (n k : Nat) : Fld := ⟨0x101000 + 0x40000 * n + 0x4 * k, 12, 1, 0, .ro⟩
def THM_SITE.S_OK (n k : Nat) : Fld := ⟨0x101000 + 0x40000 * n + 0x4 * k, 13, 1, 0, .ro⟩
def THM_SITE.DISAGREE (n k : Nat) : Fld := ⟨0x101000 + 0x40000 * n + 0x4 * k, 14, 1, 0, .ro⟩
def THM_SITE.COUNT (n k : Nat) : Fld := ⟨0x101000 + 0x40000 * n + 0x4 * k, 16, 16, 0, .ro⟩
def THM_TRIM_P.N0 (n k : Nat) : Fld := ⟨0x101040 + 0x40000 * n + 0x8 * k, 0, 16, 0, .ro⟩
def THM_TRIM_P.SLOPE (n k : Nat) : Fld := ⟨0x101040 + 0x40000 * n + 0x8 * k, 16, 16, 0, .ro⟩
def THM_TRIM_S.N0 (n k : Nat) : Fld := ⟨0x101044 + 0x40000 * n + 0x8 * k, 0, 16, 0, .ro⟩
def THM_TRIM_S.SLOPE (n k : Nat) : Fld := ⟨0x101044 + 0x40000 * n + 0x8 * k, 16, 16, 0, .ro⟩

/-! ### PMC_ -/

def PMC_CNT.COUNT (n i : Nat) : Fld := ⟨0x102000 + 0x40000 * n + 0x8 * i, 0, 48, 0, .rw⟩
def PMC_SEL.EVENT (n i : Nat) : Fld := ⟨0x102100 + 0x40000 * n + 0x4 * i, 0, 12, 0, .rw⟩
def PMC_SEL.EN (n i : Nat) : Fld := ⟨0x102100 + 0x40000 * n + 0x4 * i, 12, 1, 0, .rw⟩
def PMC_SEL.SRC (n i : Nat) : Fld := ⟨0x102100 + 0x40000 * n + 0x4 * i, 13, 5, 0, .rw⟩
def PMC_SEL.SRC_EN (n i : Nat) : Fld := ⟨0x102100 + 0x40000 * n + 0x4 * i, 18, 1, 0, .rw⟩
def PMC_SEL.CLASS (n i : Nat) : Fld := ⟨0x102100 + 0x40000 * n + 0x4 * i, 19, 5, 0, .rw⟩
def PMC_SEL.CLASS_EN (n i : Nat) : Fld := ⟨0x102100 + 0x40000 * n + 0x4 * i, 24, 1, 0, .rw⟩
def PMC_SEL.CH (n i : Nat) : Fld := ⟨0x102100 + 0x40000 * n + 0x4 * i, 25, 5, 0, .rw⟩
def PMC_SEL.CH_EN (n i : Nat) : Fld := ⟨0x102100 + 0x40000 * n + 0x4 * i, 30, 1, 0, .rw⟩
def PMC_OVF.OVF (n : Nat) : Fld := ⟨0x102180 + 0x40000 * n, 0, 32, 0, .w1c⟩
def PMC_SMP_CFG.EN (n : Nat) : Fld := ⟨0x102190 + 0x40000 * n, 0, 1, 0, .rw⟩
def PMC_SMP_CFG.KIND (n : Nat) : Fld := ⟨0x102190 + 0x40000 * n, 1, 1, 0, .rw⟩
def PMC_SMP_CFG.WRAP (n : Nat) : Fld := ⟨0x102190 + 0x40000 * n, 2, 1, 0, .rw⟩
def PMC_SMP_CFG.N (n : Nat) : Fld := ⟨0x102190 + 0x40000 * n, 3, 20, 0x400, .rw⟩
def PMC_SMP_FILT.SRC (n : Nat) : Fld := ⟨0x102194 + 0x40000 * n, 0, 5, 0, .rw⟩
def PMC_SMP_FILT.SRC_EN (n : Nat) : Fld := ⟨0x102194 + 0x40000 * n, 5, 1, 0, .rw⟩
def PMC_SMP_FILT.CLASS (n : Nat) : Fld := ⟨0x102194 + 0x40000 * n, 6, 5, 0, .rw⟩
def PMC_SMP_FILT.CLASS_EN (n : Nat) : Fld := ⟨0x102194 + 0x40000 * n, 11, 1, 0, .rw⟩
def PMC_SMP_STATUS.WPTR (n : Nat) : Fld := ⟨0x102198 + 0x40000 * n, 0, 12, 0, .ro⟩
def PMC_SMP_STATUS.COUNT (n : Nat) : Fld := ⟨0x102198 + 0x40000 * n, 12, 13, 0, .ro⟩
def PMC_SMP_STATUS.FULL (n : Nat) : Fld := ⟨0x102198 + 0x40000 * n, 25, 1, 0, .ro⟩
def PMC_SMP_PAGE.PAGE (n : Nat) : Fld := ⟨0x10219c + 0x40000 * n, 0, 5, 0, .rw⟩
def PMC_SMP_DROP.COUNT (n : Nat) : Fld := ⟨0x1021a0 + 0x40000 * n, 0, 32, 0, .ro⟩

/-! ### CUE_ -/

def CUE_STATUS.STATE (n : Nat) : Fld := ⟨0x104000 + 0x40000 * n, 0, 2, 0, .ro⟩
def CUE_STATUS.PRELOADED (n : Nat) : Fld := ⟨0x104000 + 0x40000 * n, 2, 1, 0, .ro⟩
def CUE_STATUS.HALF (n : Nat) : Fld := ⟨0x104000 + 0x40000 * n, 3, 1, 0, .ro⟩
def CUE_STATUS.PC (n : Nat) : Fld := ⟨0x104000 + 0x40000 * n, 4, 10, 0, .ro⟩
def CUE_STATUS.CTX (n : Nat) : Fld := ⟨0x104000 + 0x40000 * n, 16, 16, 0, .ro⟩
def CUE_OWNER.DOMAIN (n : Nat) : Fld := ⟨0x104004 + 0x40000 * n, 0, 8, 0, .rw⟩
def CUE_REFUSE.WORD (n : Nat) : Fld := ⟨0x104008 + 0x40000 * n, 0, 11, 0, .ro⟩
def CUE_REFUSE.REASON (n : Nat) : Fld := ⟨0x104008 + 0x40000 * n, 16, 8, 0, .ro⟩
def CUE_REFUSE.VALID (n : Nat) : Fld := ⟨0x104008 + 0x40000 * n, 31, 1, 0, .w1c⟩
def CUE_PERR.COUNT (n : Nat) : Fld := ⟨0x10400c + 0x40000 * n, 0, 16, 0, .ro⟩

/-! ### CEL_ -/

def CEL_STATUS.STATE (n c : Nat) : Fld := ⟨0x108000 + 0x40000 * n + 0x400 * c, 0, 3, 0, .ro⟩
def CEL_STATUS.SPARES_USED (n c : Nat) : Fld := ⟨0x108000 + 0x40000 * n + 0x400 * c, 8, 3, 0, .ro⟩
def CEL_CTRL.RETIRE (n c : Nat) : Fld := ⟨0x108004 + 0x40000 * n + 0x400 * c, 0, 1, 0, .rw⟩
def CEL_CTRL.TEST_START (n c : Nat) : Fld := ⟨0x108004 + 0x40000 * n + 0x400 * c, 1, 1, 0, .wo⟩
def CEL_LANE_MAP_0.LANE_A (n c : Nat) : Fld := ⟨0x108008 + 0x40000 * n + 0x400 * c, 0, 9, 0, .ro⟩
def CEL_LANE_MAP_0.USED_A (n c : Nat) : Fld := ⟨0x108008 + 0x40000 * n + 0x400 * c, 9, 1, 0, .ro⟩
def CEL_LANE_MAP_0.LANE_B (n c : Nat) : Fld := ⟨0x108008 + 0x40000 * n + 0x400 * c, 16, 9, 0, .ro⟩
def CEL_LANE_MAP_0.USED_B (n c : Nat) : Fld := ⟨0x108008 + 0x40000 * n + 0x400 * c, 25, 1, 0, .ro⟩
def CEL_LANE_MAP_1.LANE_A (n c : Nat) : Fld := ⟨0x10800c + 0x40000 * n + 0x400 * c, 0, 9, 0, .ro⟩
def CEL_LANE_MAP_1.USED_A (n c : Nat) : Fld := ⟨0x10800c + 0x40000 * n + 0x400 * c, 9, 1, 0, .ro⟩
def CEL_LANE_MAP_1.LANE_B (n c : Nat) : Fld := ⟨0x10800c + 0x40000 * n + 0x400 * c, 16, 9, 0, .ro⟩
def CEL_LANE_MAP_1.USED_B (n c : Nat) : Fld := ⟨0x10800c + 0x40000 * n + 0x400 * c, 25, 1, 0, .ro⟩
def CEL_ERR_CNT.REPLAYS (n c : Nat) : Fld := ⟨0x108010 + 0x40000 * n + 0x400 * c, 0, 16, 0, .ro⟩
def CEL_ERR_CNT.TRANSIENTS (n c : Nat) : Fld := ⟨0x108010 + 0x40000 * n + 0x400 * c, 16, 16, 0, .ro⟩
def CEL_FAULT_INFO.COLUMN (n c : Nat) : Fld := ⟨0x108014 + 0x40000 * n + 0x400 * c, 0, 5, 0, .ro⟩
def CEL_FAULT_INFO.GROUP (n c : Nat) : Fld := ⟨0x108014 + 0x40000 * n + 0x400 * c, 5, 6, 0, .ro⟩
def CEL_FAULT_INFO.KIND (n c : Nat) : Fld := ⟨0x108014 + 0x40000 * n + 0x400 * c, 11, 3, 0, .ro⟩
def CEL_FAULT_INFO.VALID (n c : Nat) : Fld := ⟨0x108014 + 0x40000 * n + 0x400 * c, 31, 1, 0, .w1c⟩
def CEL_TEST_SUMMARY.LANES_FAILED (n c : Nat) : Fld := ⟨0x108018 + 0x40000 * n + 0x400 * c, 0, 3, 0, .ro⟩
def CEL_TEST_SUMMARY.STORE_OK (n c : Nat) : Fld := ⟨0x108018 + 0x40000 * n + 0x400 * c, 3, 1, 0, .ro⟩
def CEL_TEST_SUMMARY.SLOTS_OK (n c : Nat) : Fld := ⟨0x108018 + 0x40000 * n + 0x400 * c, 4, 1, 0, .ro⟩
def CEL_TEST_SUMMARY.CHECK_OK (n c : Nat) : Fld := ⟨0x108018 + 0x40000 * n + 0x400 * c, 5, 1, 0, .ro⟩
def CEL_TEST_SUMMARY.CELL_OK (n c : Nat) : Fld := ⟨0x108018 + 0x40000 * n + 0x400 * c, 6, 1, 0, .ro⟩
def CEL_TEST_SUMMARY.VALID (n c : Nat) : Fld := ⟨0x108018 + 0x40000 * n + 0x400 * c, 31, 1, 0, .ro⟩
def CEL_HIVE_CFG.IDLE_US (n : Nat) : Fld := ⟨0x110200 + 0x40000 * n, 0, 16, 0x2710, .rw⟩
def CEL_HIVE_CFG.GATE_EN (n : Nat) : Fld := ⟨0x110200 + 0x40000 * n, 16, 1, 1, .rw⟩
def CEL_US_STATUS.TARGET (n : Nat) : Fld := ⟨0x110204 + 0x40000 * n, 0, 5, 0, .ro⟩
def CEL_US_STATUS.ACTIVE (n : Nat) : Fld := ⟨0x110204 + 0x40000 * n, 5, 1, 0, .ro⟩
def CEL_US_STATUS.USABLE (n : Nat) : Fld := ⟨0x110204 + 0x40000 * n, 6, 1, 0, .ro⟩
def CEL_HIVE_FAILED.CELLS (n : Nat) : Fld := ⟨0x110208 + 0x40000 * n, 0, 32, 0, .ro⟩

/-! ### ECC_ -/

def ECC_LOCAL_CFG.AUTO_REMAP (n : Nat) : Fld := ⟨0x110400 + 0x40000 * n, 0, 1, 1, .rw⟩
def ECC_LOCAL_CFG.ROW_CE_THR (n : Nat) : Fld := ⟨0x110400 + 0x40000 * n, 8, 8, 0x10, .rw⟩
def ECC_LOCAL_CFG.ERASE_THR (n : Nat) : Fld := ⟨0x110400 + 0x40000 * n, 16, 8, 0x40, .rw⟩
def ECC_CE_BUCKET.LEVEL (n : Nat) : Fld := ⟨0x110404 + 0x40000 * n, 0, 16, 0, .ro⟩
def ECC_CE_BUCKET.SIZE (n : Nat) : Fld := ⟨0x110404 + 0x40000 * n, 16, 16, 0x100, .rw⟩
def ECC_CE_LEAK.LEAK_US (n : Nat) : Fld := ⟨0x110408 + 0x40000 * n, 0, 16, 0x3e8, .rw⟩
def ECC_CE_CNT.BLOCKS (n : Nat) : Fld := ⟨0x11040c + 0x40000 * n, 0, 32, 0, .ro⟩
def ECC_CE_ERASED.BLOCKS (n : Nat) : Fld := ⟨0x110410 + 0x40000 * n, 0, 32, 0, .ro⟩
def ECC_UE_INFO_LO.ROW (n : Nat) : Fld := ⟨0x110414 + 0x40000 * n, 0, 18, 0, .ro⟩
def ECC_UE_INFO_LO.BANK (n : Nat) : Fld := ⟨0x110414 + 0x40000 * n, 18, 4, 0, .ro⟩
def ECC_UE_INFO_LO.SID (n : Nat) : Fld := ⟨0x110414 + 0x40000 * n, 22, 2, 0, .ro⟩
def ECC_UE_INFO_LO.PC (n : Nat) : Fld := ⟨0x110414 + 0x40000 * n, 24, 1, 0, .ro⟩
def ECC_UE_INFO_LO.CH (n : Nat) : Fld := ⟨0x110414 + 0x40000 * n, 25, 5, 0, .ro⟩
def ECC_UE_INFO_HI.SRC (n : Nat) : Fld := ⟨0x110418 + 0x40000 * n, 0, 3, 0, .ro⟩
def ECC_UE_INFO_HI.OVERFLOW (n : Nat) : Fld := ⟨0x110418 + 0x40000 * n, 30, 1, 0, .w1c⟩
def ECC_UE_INFO_HI.VALID (n : Nat) : Fld := ⟨0x110418 + 0x40000 * n, 31, 1, 0, .w1c⟩
def ECC_UE_CNT.COUNT (n : Nat) : Fld := ⟨0x11041c + 0x40000 * n, 0, 16, 0, .ro⟩
def ECC_UE_CNT.MARKED (n : Nat) : Fld := ⟨0x11041c + 0x40000 * n, 16, 16, 0, .ro⟩
def ECC_RETRY_CNT.ISSUED (n : Nat) : Fld := ⟨0x110420 + 0x40000 * n, 0, 16, 0, .ro⟩
def ECC_RETRY_CNT.RECOVERED (n : Nat) : Fld := ⟨0x110420 + 0x40000 * n, 16, 16, 0, .ro⟩
def ECC_ST_SUMMARY.ENC_OK (n : Nat) : Fld := ⟨0x110424 + 0x40000 * n, 0, 1, 0, .ro⟩
def ECC_ST_SUMMARY.DEC_OK (n : Nat) : Fld := ⟨0x110424 + 0x40000 * n, 1, 1, 0, .ro⟩
def ECC_ST_SUMMARY.FAIL_CH (n : Nat) : Fld := ⟨0x110424 + 0x40000 * n, 2, 5, 0, .ro⟩
def ECC_ST_SUMMARY.FAIL_PC (n : Nat) : Fld := ⟨0x110424 + 0x40000 * n, 7, 1, 0, .ro⟩
def ECC_ST_SUMMARY.VALID (n : Nat) : Fld := ⟨0x110424 + 0x40000 * n, 31, 1, 0, .ro⟩
def ECC_RMP_ADDR.ROW (n : Nat) : Fld := ⟨0x110428 + 0x40000 * n, 0, 18, 0, .rw⟩
def ECC_RMP_ADDR.BANK (n : Nat) : Fld := ⟨0x110428 + 0x40000 * n, 18, 4, 0, .rw⟩
def ECC_RMP_ADDR.SID (n : Nat) : Fld := ⟨0x110428 + 0x40000 * n, 22, 2, 0, .rw⟩
def ECC_RMP_ADDR.PC (n : Nat) : Fld := ⟨0x110428 + 0x40000 * n, 24, 1, 0, .rw⟩
def ECC_RMP_ADDR.CH (n : Nat) : Fld := ⟨0x110428 + 0x40000 * n, 25, 5, 0, .rw⟩
def ECC_RMP_CMD.OP (n : Nat) : Fld := ⟨0x11042c + 0x40000 * n, 0, 2, 0, .rw⟩
def ECC_RMP_CMD.GO (n : Nat) : Fld := ⟨0x11042c + 0x40000 * n, 2, 1, 0, .wo⟩
def ECC_RMP_CMD.ENTRY (n : Nat) : Fld := ⟨0x11042c + 0x40000 * n, 8, 5, 0, .ro⟩
def ECC_RMP_CMD.RESULT (n : Nat) : Fld := ⟨0x11042c + 0x40000 * n, 13, 3, 0, .ro⟩
def ECC_RMP_CMD.BUSY (n : Nat) : Fld := ⟨0x11042c + 0x40000 * n, 30, 1, 0, .ro⟩
def ECC_RMP_CMD.VALID (n : Nat) : Fld := ⟨0x11042c + 0x40000 * n, 31, 1, 0, .ro⟩
def ECC_ERASE.LANE_0 (n c p : Nat) : Fld := ⟨0x110800 + 0x40000 * n + 0x8 * c + 0x4 * p, 0, 6, 0, .ro⟩
def ECC_ERASE.EN_0 (n c p : Nat) : Fld := ⟨0x110800 + 0x40000 * n + 0x8 * c + 0x4 * p, 6, 1, 0, .ro⟩
def ECC_ERASE.LANE_1 (n c p : Nat) : Fld := ⟨0x110800 + 0x40000 * n + 0x8 * c + 0x4 * p, 8, 6, 0, .ro⟩
def ECC_ERASE.EN_1 (n c p : Nat) : Fld := ⟨0x110800 + 0x40000 * n + 0x8 * c + 0x4 * p, 14, 1, 0, .ro⟩
def ECC_ERASE.LANE_2 (n c p : Nat) : Fld := ⟨0x110800 + 0x40000 * n + 0x8 * c + 0x4 * p, 16, 6, 0, .ro⟩
def ECC_ERASE.EN_2 (n c p : Nat) : Fld := ⟨0x110800 + 0x40000 * n + 0x8 * c + 0x4 * p, 22, 1, 0, .ro⟩
def ECC_ERASE.LANE_3 (n c p : Nat) : Fld := ⟨0x110800 + 0x40000 * n + 0x8 * c + 0x4 * p, 24, 6, 0, .ro⟩
def ECC_ERASE.EN_3 (n c p : Nat) : Fld := ⟨0x110800 + 0x40000 * n + 0x8 * c + 0x4 * p, 30, 1, 0, .ro⟩
def ECC_RMP_ROW.ROW (n c i : Nat) : Fld := ⟨0x112000 + 0x40000 * n + 0x100 * c + 0x8 * i, 0, 18, 0, .ro⟩
def ECC_RMP_ROW.BANK (n c i : Nat) : Fld := ⟨0x112000 + 0x40000 * n + 0x100 * c + 0x8 * i, 18, 4, 0, .ro⟩
def ECC_RMP_ROW.SID (n c i : Nat) : Fld := ⟨0x112000 + 0x40000 * n + 0x100 * c + 0x8 * i, 22, 2, 0, .ro⟩
def ECC_RMP_ROW.PC (n c i : Nat) : Fld := ⟨0x112000 + 0x40000 * n + 0x100 * c + 0x8 * i, 24, 1, 0, .ro⟩
def ECC_RMP_ROW.VALID (n c i : Nat) : Fld := ⟨0x112000 + 0x40000 * n + 0x100 * c + 0x8 * i, 31, 1, 0, .ro⟩
def ECC_RMP_STAT.SOURCE (n c i : Nat) : Fld := ⟨0x112004 + 0x40000 * n + 0x100 * c + 0x8 * i, 0, 2, 0, .ro⟩
def ECC_RMP_STAT.RETIRED (n c i : Nat) : Fld := ⟨0x112004 + 0x40000 * n + 0x100 * c + 0x8 * i, 2, 1, 0, .ro⟩

/-! ### CHC_ -/

def CHC_STATUS.PC0_STATE (n c : Nat) : Fld := ⟨0x120000 + 0x40000 * n + 0x800 * c, 0, 3, 0, .ro⟩
def CHC_STATUS.PC1_STATE (n c : Nat) : Fld := ⟨0x120000 + 0x40000 * n + 0x800 * c, 3, 3, 0, .ro⟩
def CHC_QUEUE.RDQ_0 (n c : Nat) : Fld := ⟨0x120004 + 0x40000 * n + 0x800 * c, 0, 7, 0, .ro⟩
def CHC_QUEUE.WRQ_0 (n c : Nat) : Fld := ⟨0x120004 + 0x40000 * n + 0x800 * c, 7, 6, 0, .ro⟩
def CHC_QUEUE.RDQ_1 (n c : Nat) : Fld := ⟨0x120004 + 0x40000 * n + 0x800 * c, 16, 7, 0, .ro⟩
def CHC_QUEUE.WRQ_1 (n c : Nat) : Fld := ⟨0x120004 + 0x40000 * n + 0x800 * c, 23, 6, 0, .ro⟩
def CHC_REF_STATUS.OWED_0 (n c : Nat) : Fld := ⟨0x120008 + 0x40000 * n + 0x800 * c, 0, 5, 0, .ro⟩
def CHC_REF_STATUS.OWED_1 (n c : Nat) : Fld := ⟨0x120008 + 0x40000 * n + 0x800 * c, 5, 5, 0, .ro⟩
def CHC_REF_STATUS.MANDATORY (n c : Nat) : Fld := ⟨0x120008 + 0x40000 * n + 0x800 * c, 16, 16, 0, .ro⟩
def CHC_NR_STAT.ISSUED (n c : Nat) : Fld := ⟨0x12000c + 0x40000 * n + 0x800 * c, 0, 16, 0, .ro⟩
def CHC_NR_STAT.DROPPED (n c : Nat) : Fld := ⟨0x12000c + 0x40000 * n + 0x800 * c, 16, 16, 0, .ro⟩
def CHC_CC_STAT.REBUILDS (n c : Nat) : Fld := ⟨0x120010 + 0x40000 * n + 0x800 * c, 0, 16, 0, .ro⟩
def CHC_HIVE_CFG.GEN (n : Nat) : Fld := ⟨0x120400 + 0x40000 * n, 0, 2, 0, .ro⟩
def CHC_HIVE_CFG.NSID (n : Nat) : Fld := ⟨0x120400 + 0x40000 * n, 2, 2, 0, .ro⟩
def CHC_HIVE_CFG.ROWBITS (n : Nat) : Fld := ⟨0x120400 + 0x40000 * n, 4, 5, 0, .ro⟩
def CHC_HIVE_STATUS.REF_2X (n : Nat) : Fld := ⟨0x120404 + 0x40000 * n, 0, 1, 1, .ro⟩
def CHC_HIVE_STATUS.STACK_TEMP (n : Nat) : Fld := ⟨0x120404 + 0x40000 * n, 1, 8, 0, .ro⟩
def CHC_HIVE_STATUS.TEMP_VALID (n : Nat) : Fld := ⟨0x120404 + 0x40000 * n, 9, 1, 0, .ro⟩
def CHC_HIVE_STATUS.COMMIT_PENDING (n : Nat) : Fld := ⟨0x120404 + 0x40000 * n, 10, 1, 0, .ro⟩
def CHC_COMMIT.GO (n : Nat) : Fld := ⟨0x120408 + 0x40000 * n, 0, 1, 0, .wo⟩
def CHC_BXOR.MASK (n j : Nat) : Fld := ⟨0x120410 + 0x40000 * n + 0x4 * j, 0, 32, (bxorReset j), .rw⟩
def CHC_T_0.tRCD (n : Nat) : Fld := ⟨0x120430 + 0x40000 * n, 0, 8, 0x10, .rws⟩
def CHC_T_0.tRP (n : Nat) : Fld := ⟨0x120430 + 0x40000 * n, 8, 8, 0x10, .rws⟩
def CHC_T_0.tRAS (n : Nat) : Fld := ⟨0x120430 + 0x40000 * n, 16, 8, 0x21, .rws⟩
def CHC_T_0.tRC (n : Nat) : Fld := ⟨0x120430 + 0x40000 * n, 24, 8, 0x31, .rws⟩
def CHC_T_1.tRRD_S (n : Nat) : Fld := ⟨0x120434 + 0x40000 * n, 0, 4, 2, .rws⟩
def CHC_T_1.tRRD_L (n : Nat) : Fld := ⟨0x120434 + 0x40000 * n, 4, 4, 4, .rws⟩
def CHC_T_1.tFAW (n : Nat) : Fld := ⟨0x120434 + 0x40000 * n, 8, 8, 0x10, .rws⟩
def CHC_T_1.tCCD_S (n : Nat) : Fld := ⟨0x120434 + 0x40000 * n, 16, 4, 1, .rws⟩
def CHC_T_1.tCCD_L (n : Nat) : Fld := ⟨0x120434 + 0x40000 * n, 20, 4, 2, .rws⟩
def CHC_T_1.tRTP (n : Nat) : Fld := ⟨0x120434 + 0x40000 * n, 24, 8, 4, .rws⟩
def CHC_T_2.tRL (n : Nat) : Fld := ⟨0x120438 + 0x40000 * n, 0, 8, 0x1e, .rws⟩
def CHC_T_2.tWL (n : Nat) : Fld := ⟨0x120438 + 0x40000 * n, 8, 8, 0xc, .rws⟩
def CHC_T_2.tWR (n : Nat) : Fld := ⟨0x120438 + 0x40000 * n, 16, 8, 0x10, .rws⟩
def CHC_T_2.tRTW (n : Nat) : Fld := ⟨0x120438 + 0x40000 * n, 24, 8, 0x15, .rws⟩
def CHC_T_3.tWTR_S (n : Nat) : Fld := ⟨0x12043c + 0x40000 * n, 0, 8, 4, .rws⟩
def CHC_T_3.tWTR_L (n : Nat) : Fld := ⟨0x12043c + 0x40000 * n, 8, 8, 7, .rws⟩
def CHC_T_3.tMOD (n : Nat) : Fld := ⟨0x12043c + 0x40000 * n, 16, 8, 0x10, .rws⟩
def CHC_T_3.tXP (n : Nat) : Fld := ⟨0x12043c + 0x40000 * n, 24, 8, 8, .rws⟩
def CHC_T_4.tRFCpb (n : Nat) : Fld := ⟨0x120440 + 0x40000 * n, 0, 16, 0x19a, .rws⟩
def CHC_T_4.tXS (n : Nat) : Fld := ⟨0x120440 + 0x40000 * n, 16, 16, 0x26c, .rws⟩
def CHC_T_5.tRREFD (n : Nat) : Fld := ⟨0x120444 + 0x40000 * n, 0, 8, 8, .rws⟩
def CHC_T_5.CMD_LAT (n : Nat) : Fld := ⟨0x120444 + 0x40000 * n, 8, 8, 4, .ro⟩
def CHC_REF_CFG.INTERVAL (n : Nat) : Fld := ⟨0x120450 + 0x40000 * n, 0, 12, 0x51, .rws⟩
def CHC_REF_CFG.POSTPONE (n : Nat) : Fld := ⟨0x120450 + 0x40000 * n, 12, 4, 8, .rws⟩
def CHC_NR_CFG.K (n : Nat) : Fld := ⟨0x120454 + 0x40000 * n, 0, 5, 0xa, .rw⟩
def CHC_NR_SEED.SEED (n : Nat) : Fld := ⟨0x120458 + 0x40000 * n, 0, 32, 0x1a2b3c4d, .rw⟩
def CHC_RFM.EN (n : Nat) : Fld := ⟨0x12045c + 0x40000 * n, 0, 1, 0, .rws⟩
def CHC_RFM.RAAIMT (n : Nat) : Fld := ⟨0x12045c + 0x40000 * n, 1, 10, 0x40, .rws⟩
def CHC_RFM.RAAMMT (n : Nat) : Fld := ⟨0x12045c + 0x40000 * n, 11, 10, 0xc0, .rws⟩
def CHC_ARB.STREAM_SHARE (n : Nat) : Fld := ⟨0x120460 + 0x40000 * n, 0, 5, 0xc, .rws⟩
def CHC_ARB.HIT_CAP (n : Nat) : Fld := ⟨0x120460 + 0x40000 * n, 5, 8, 0x10, .rws⟩
def CHC_ARB.CLOSE_IDLE (n : Nat) : Fld := ⟨0x120460 + 0x40000 * n, 16, 8, 0x40, .rws⟩
def CHC_WRQ.HI (n : Nat) : Fld := ⟨0x120464 + 0x40000 * n, 0, 6, 0x18, .rws⟩
def CHC_WRQ.LO (n : Nat) : Fld := ⟨0x120464 + 0x40000 * n, 8, 6, 8, .rws⟩
def CHC_PD_TIMER.CCLK (n : Nat) : Fld := ⟨0x120468 + 0x40000 * n, 0, 16, 0x100, .rw⟩
def CHC_SR_TIMER.US (n : Nat) : Fld := ⟨0x12046c + 0x40000 * n, 0, 16, 0x3e8, .rw⟩
def CHC_MR_CMD.MR (n : Nat) : Fld := ⟨0x120470 + 0x40000 * n, 0, 6, 0, .rw⟩
def CHC_MR_CMD.WRITE (n : Nat) : Fld := ⟨0x120470 + 0x40000 * n, 6, 1, 0, .rw⟩
def CHC_MR_CMD.CH (n : Nat) : Fld := ⟨0x120470 + 0x40000 * n, 7, 5, 0, .rw⟩
def CHC_MR_CMD.ALLCH (n : Nat) : Fld := ⟨0x120470 + 0x40000 * n, 12, 1, 0, .rw⟩
def CHC_MR_CMD.GO (n : Nat) : Fld := ⟨0x120470 + 0x40000 * n, 13, 1, 0, .wo⟩
def CHC_MR_CMD.BUSY (n : Nat) : Fld := ⟨0x120470 + 0x40000 * n, 31, 1, 0, .ro⟩
def CHC_MR_DATA.DATA (n : Nat) : Fld := ⟨0x120474 + 0x40000 * n, 0, 8, 0, .rw⟩
def CHC_MR_DATA.RESULT (n : Nat) : Fld := ⟨0x120474 + 0x40000 * n, 24, 3, 0, .ro⟩
def CHC_MR_DATA.VALID (n : Nat) : Fld := ⟨0x120474 + 0x40000 * n, 31, 1, 0, .ro⟩

/-! ### PHY_ -/

def PHY_CFG.RATE (n : Nat) : Fld := ⟨0x130000 + 0x40000 * n, 0, 8, 0, .ro⟩
def PHY_CFG.TARGET (n : Nat) : Fld := ⟨0x130000 + 0x40000 * n, 8, 8, 0, .ro⟩
def PHY_CTRL.RECAL_NOW (n : Nat) : Fld := ⟨0x130004 + 0x40000 * n, 0, 1, 0, .wo⟩
def PHY_CTRL.RECAL_EN (n : Nat) : Fld := ⟨0x130004 + 0x40000 * n, 1, 1, 1, .rw⟩
def PHY_TRAIN_PROGRESS.PROGRESS (n : Nat) : Fld := ⟨0x130008 + 0x40000 * n, 0, 32, 0, .ro⟩
def PHY_TRAIN_SUMMARY.RESULT (n : Nat) : Fld := ⟨0x13000c + 0x40000 * n, 0, 4, 0, .ro⟩
def PHY_TRAIN_SUMMARY.FAIL_CH (n : Nat) : Fld := ⟨0x13000c + 0x40000 * n, 4, 5, 0, .ro⟩
def PHY_TRAIN_SUMMARY.FAIL_PC (n : Nat) : Fld := ⟨0x13000c + 0x40000 * n, 9, 1, 0, .ro⟩
def PHY_TRAIN_SUMMARY.SPARE_LANES (n : Nat) : Fld := ⟨0x13000c + 0x40000 * n, 10, 7, 0, .ro⟩
def PHY_TRAIN_SUMMARY.WORST_EYE (n : Nat) : Fld := ⟨0x13000c + 0x40000 * n, 17, 7, 0, .ro⟩
def PHY_TRAIN_SUMMARY.TAPS_SPARED (n : Nat) : Fld := ⟨0x13000c + 0x40000 * n, 24, 7, 0, .ro⟩
def PHY_TRAIN_SUMMARY.VALID (n : Nat) : Fld := ⟨0x13000c + 0x40000 * n, 31, 1, 0, .ro⟩
def PHY_LIMIT.EYE_MIN (n : Nat) : Fld := ⟨0x130010 + 0x40000 * n, 0, 7, 0x14, .rw⟩
def PHY_LIMIT.DRIFT_MAX (n : Nat) : Fld := ⟨0x130010 + 0x40000 * n, 8, 6, 8, .rw⟩
def PHY_LIMIT.SKEW_MAX (n : Nat) : Fld := ⟨0x130010 + 0x40000 * n, 16, 9, 0x60, .rw⟩
def PHY_RECAL_CFG.PERIOD_MS (n : Nat) : Fld := ⟨0x130014 + 0x40000 * n, 0, 12, 0x64, .rw⟩
def PHY_RECAL_CFG.TEMP_STEP (n : Nat) : Fld := ⟨0x130014 + 0x40000 * n, 12, 4, 5, .rw⟩
def PHY_RECAL_CFG.DEADLINE_MS (n : Nat) : Fld := ⟨0x130014 + 0x40000 * n, 16, 8, 0xa, .rw⟩
def PHY_RECAL_CFG.REJ_LIMIT (n : Nat) : Fld := ⟨0x130014 + 0x40000 * n, 24, 4, 3, .rw⟩
def PHY_CAL_SUMMARY.PCS_DONE (n : Nat) : Fld := ⟨0x130018 + 0x40000 * n, 0, 8, 0, .ro⟩
def PHY_CAL_SUMMARY.PCS_SKIPPED (n : Nat) : Fld := ⟨0x130018 + 0x40000 * n, 8, 8, 0, .ro⟩
def PHY_CAL_SUMMARY.MAX_SHIFT (n : Nat) : Fld := ⟨0x130018 + 0x40000 * n, 16, 7, 0, .ro⟩
def PHY_CAL_SUMMARY.REJECTS (n : Nat) : Fld := ⟨0x130018 + 0x40000 * n, 23, 8, 0, .ro⟩
def PHY_CAL_SUMMARY.VALID (n : Nat) : Fld := ⟨0x130018 + 0x40000 * n, 31, 1, 0, .ro⟩
def PHY_CAL_STAT.CAL_REJECT (n : Nat) : Fld := ⟨0x13001c + 0x40000 * n, 0, 16, 0, .ro⟩
def PHY_CAL_STAT.ABANDONED (n : Nat) : Fld := ⟨0x13001c + 0x40000 * n, 16, 16, 0, .ro⟩
def PHY_LANE_SEL.LANE (n : Nat) : Fld := ⟨0x130020 + 0x40000 * n, 0, 6, 0, .rw⟩
def PHY_LANE_SEL.PC (n : Nat) : Fld := ⟨0x130020 + 0x40000 * n, 6, 1, 0, .rw⟩
def PHY_LANE_SEL.CH (n : Nat) : Fld := ⟨0x130020 + 0x40000 * n, 7, 5, 0, .rw⟩
def PHY_LANE_RX.LIVE (n : Nat) : Fld := ⟨0x130024 + 0x40000 * n, 0, 9, 0, .ro⟩
def PHY_LANE_RX.EYE (n : Nat) : Fld := ⟨0x130024 + 0x40000 * n, 9, 7, 0, .ro⟩
def PHY_LANE_RX.TARGET (n : Nat) : Fld := ⟨0x130024 + 0x40000 * n, 16, 9, 0, .ro⟩
def PHY_LANE_RX.IN_USE (n : Nat) : Fld := ⟨0x130024 + 0x40000 * n, 25, 1, 0, .ro⟩
def PHY_LANE_RX.FAILED (n : Nat) : Fld := ⟨0x130024 + 0x40000 * n, 26, 1, 0, .ro⟩
def PHY_LANE_RX.RAMPING (n : Nat) : Fld := ⟨0x130024 + 0x40000 * n, 27, 1, 0, .ro⟩
def PHY_LANE_TX.LIVE (n : Nat) : Fld := ⟨0x130028 + 0x40000 * n, 0, 9, 0, .ro⟩
def PHY_LANE_TX.EYE (n : Nat) : Fld := ⟨0x130028 + 0x40000 * n, 9, 7, 0, .ro⟩
def PHY_LANE_TX.TARGET (n : Nat) : Fld := ⟨0x130028 + 0x40000 * n, 16, 9, 0, .ro⟩
def PHY_VREF.VREF_0 (n c : Nat) : Fld := ⟨0x130100 + 0x40000 * n + 0x4 * c, 0, 7, 0, .ro⟩
def PHY_VREF.VREF_1 (n c : Nat) : Fld := ⟨0x130100 + 0x40000 * n + 0x4 * c, 8, 7, 0, .ro⟩
def PHY_REPAIR.LANE_00 (n c : Nat) : Fld := ⟨0x130200 + 0x40000 * n + 0x4 * c, 0, 6, 0, .ro⟩
def PHY_REPAIR.USED_00 (n c : Nat) : Fld := ⟨0x130200 + 0x40000 * n + 0x4 * c, 7, 1, 0, .ro⟩
def PHY_REPAIR.LANE_01 (n c : Nat) : Fld := ⟨0x130200 + 0x40000 * n + 0x4 * c, 8, 6, 0, .ro⟩
def PHY_REPAIR.USED_01 (n c : Nat) : Fld := ⟨0x130200 + 0x40000 * n + 0x4 * c, 15, 1, 0, .ro⟩
def PHY_REPAIR.LANE_10 (n c : Nat) : Fld := ⟨0x130200 + 0x40000 * n + 0x4 * c, 16, 6, 0, .ro⟩
def PHY_REPAIR.USED_10 (n c : Nat) : Fld := ⟨0x130200 + 0x40000 * n + 0x4 * c, 23, 1, 0, .ro⟩
def PHY_REPAIR.LANE_11 (n c : Nat) : Fld := ⟨0x130200 + 0x40000 * n + 0x4 * c, 24, 6, 0, .ro⟩
def PHY_REPAIR.USED_11 (n c : Nat) : Fld := ⟨0x130200 + 0x40000 * n + 0x4 * c, 31, 1, 0, .ro⟩

end Sys2Proof.Machine.Reg
end

