-- ==== Sys2Proof/Machine/RegMap.lean ====
section
/-! DEFINITION. The register map of BAR_0 (R100 to R102): one row for each register or array of registers. -/

namespace Sys2Proof.Machine.Reg

/-- A register or an array of registers: the offset of its first word, the count and stride of each index, whether it is
a _LO/_HI pair (R7), and its fields at given indexes. -/
structure Row where
  base : Nat
  dims : List (Nat × Nat)
  wide : Bool
  flds : (Nat → Nat) → List Fld

/-- Registers from 0x0. -/
def rows0 : List Row := [
  ⟨0x0, [], false, fun _ => [GLB_ID.PART, GLB_ID.REV, GLB_ID.MARK]⟩,
  ⟨0x4, [], false, fun _ => [GLB_STATUS.PHASE, GLB_STATUS.PORTS_OPEN, GLB_STATUS.MAP_WR_IGNORED, GLB_STATUS.SETS_REJECTED, GLB_STATUS.HIVES_UNUSED]⟩,
  ⟨0x8, [], false, fun _ => [GLB_CAP.HIVE_PRESENT, GLB_CAP.PEER_PRESENT, GLB_CAP.ENC_PRESENT, GLB_CAP.VARIANT]⟩,
  ⟨0xc, [], false, fun _ => [GLB_RESET_CAUSE.PORST, GLB_RESET_CAUSE.HUB_RST, GLB_RESET_CAUSE.THERMAL]⟩,
  ⟨0x10, [], false, fun _ => [GLB_MEM_TOP.TOP]⟩,
  ⟨0x14, [], false, fun _ => [GLB_FW_RESERVE.SIZE]⟩,
  ⟨0x18, [], false, fun _ => [GLB_BAR4_BASE.BASE]⟩,
  ⟨0x20, [(8, 0x4)], false, fun i => [GLB_ISET.HIVES (i 0), GLB_ISET.GRAN (i 0), GLB_ISET.VALID (i 0)]⟩,
  ⟨0x40, [(8, 0x4)], false, fun i => [GLB_ISET_BASE.BASE (i 0)]⟩,
  ⟨0x60, [(8, 0x4)], false, fun i => [GLB_ISET_SIZE.SIZE (i 0)]⟩,
  ⟨0x80, [(9, 0x4)], false, fun i => [GLB_HASH.MASK (i 0)]⟩,
  ⟨0xc0, [(16, 0x4)], false, fun i => [GLB_HIVE_CAP.CAP (i 0), GLB_HIVE_CAP.GEN (i 0)]⟩,
  ⟨0x100, [], false, fun _ => [GLB_COMMIT.GO]⟩,
  ⟨0x104, [], false, fun _ => [GLB_HOST_DOMAIN.DOMAIN]⟩,
  ⟨0x110, [], false, fun _ => [GLB_FAULT_INFO.CTX, GLB_FAULT_INFO.SRC, GLB_FAULT_INFO.WRITE, GLB_FAULT_INFO.WINDOW, GLB_FAULT_INFO.OVERFLOW, GLB_FAULT_INFO.VALID]⟩,
  ⟨0x114, [], true, fun _ => [GLB_FAULT_ADDR.ADDR]⟩]

/-- Registers from 0x1000. -/
def rows1 : List Row := [
  ⟨0x1000, [(64, 0x10)], false, fun i => [GLB_RGN_BASE.BASE (i 0)]⟩,
  ⟨0x1004, [(64, 0x10)], false, fun i => [GLB_RGN_LIMIT.LIMIT (i 0)]⟩,
  ⟨0x1008, [(64, 0x10)], false, fun i => [GLB_RGN_ATTR.DOMAIN (i 0), GLB_RGN_ATTR.ALL (i 0), GLB_RGN_ATTR.RD (i 0), GLB_RGN_ATTR.WR (i 0), GLB_RGN_ATTR.VALID (i 0)]⟩,
  ⟨0x10000, [], false, fun _ => [ARB_COMMIT.GO, ARB_COMMIT.STATUS, ARB_COMMIT.BUSY, ARB_COMMIT.VALID]⟩,
  ⟨0x10004, [], false, fun _ => [ARB_BACKOFF.MIN, ARB_BACKOFF.CAP]⟩,
  ⟨0x10008, [], false, fun _ => [ARB_LFSR_SEED.SEED]⟩,
  ⟨0x1000c, [], false, fun _ => [ARB_CURT_CFG.WDOG_NS, ARB_CURT_CFG.MAX_BEATS, ARB_CURT_CFG.MAX_REQS]⟩,
  ⟨0x10010, [], false, fun _ => [ARB_CURT_EN.PORTS]⟩,
  ⟨0x10014, [], false, fun _ => [QOS_CFG.OVERHEAD, QOS_CFG.HOST_CLASS, QOS_CFG.PEER_CLASS]⟩,
  ⟨0x10018, [], false, fun _ => [QOS_DERATE.NORM, QOS_DERATE.DBL]⟩,
  ⟨0x1001c, [], false, fun _ => [QOS_TOKEN_RESET.CLASSES]⟩,
  ⟨0x10020, [], false, fun _ => [QOS_DEGRADE_STATUS.HIVES, QOS_DEGRADE_STATUS.GUAR_DEGRADED]⟩,
  ⟨0x10024, [], false, fun _ => [QOS_MISS_CFG.WIN_LOG, QOS_MISS_CFG.TOL, QOS_MISS_CFG.EN]⟩,
  ⟨0x10028, [], false, fun _ => [QOS_MISS_STATUS.MASTER, QOS_MISS_STATUS.HIVE, QOS_MISS_STATUS.OVERFLOW, QOS_MISS_STATUS.VALID]⟩,
  ⟨0x10100, [(18, 0x4)], false, fun i => [ARB_TKT.TICKETS (i 0)]⟩,
  ⟨0x10180, [(18, 0x4)], false, fun i => [QOS_GUAR.GBPS (i 0)]⟩]

/-- Registers from 0x10200. -/
def rows2 : List Row := [
  ⟨0x10200, [(18, 0x4)], false, fun i => [ARB_PORT_ERR.NOCREDIT (i 0), ARB_PORT_ERR.TAG_DUP (i 0), ARB_PORT_ERR.NOT_READY (i 0), ARB_PORT_ERR.HDR_PARITY (i 0), ARB_PORT_ERR.DATA_PARITY (i 0), ARB_PORT_ERR.CURT_TORN (i 0)]⟩,
  ⟨0x10280, [(18, 0x4)], false, fun i => [QOS_MISS_CNT.COUNT (i 0)]⟩,
  ⟨0x11000, [(32, 0x10)], false, fun i => [QOS_CIR.RATE (i 0), QOS_CIR.EN (i 0)]⟩,
  ⟨0x11004, [(32, 0x10)], false, fun i => [QOS_CBS.SIZE (i 0)]⟩,
  ⟨0x11008, [(32, 0x10)], false, fun i => [QOS_PIR.RATE (i 0), QOS_PIR.EN (i 0)]⟩,
  ⟨0x1100c, [(32, 0x10)], false, fun i => [QOS_PBS.SIZE (i 0)]⟩,
  ⟨0x11400, [(32, 0x8)], false, fun i => [QOS_CTOK.COUNT (i 0)]⟩,
  ⟨0x11404, [(32, 0x8)], false, fun i => [QOS_PTOK.COUNT (i 0)]⟩,
  ⟨0x12000, [(16, 0x8)], false, fun i => [ARB_HIVE_STATUS.SPARES_FREE (i 0), ARB_HIVE_STATUS.NO_STAGE (i 0), ARB_HIVE_STATUS.PREEMPTS (i 0)]⟩,
  ⟨0x12004, [(16, 0x8)], false, fun i => [ARB_GUAR_FACTOR.FACTOR (i 0)]⟩,
  ⟨0x20000, [], false, fun _ => [THM_STATE.BLOCK, THM_STATE.SHARED, THM_STATE.SHR_LEVEL, THM_STATE.PENDING, THM_STATE.HOTTEST, THM_STATE.HOT_GROUP]⟩,
  ⟨0x20004, [], false, fun _ => [THM_CFG.GATE, THM_CFG.PAIR_TOL, THM_CFG.STACK_LIM, THM_CFG.STEP_MS, THM_CFG.SHR_FLOOR]⟩,
  ⟨0x20008, [], false, fun _ => [THM_EVENT.WARN, THM_EVENT.THROTTLE, THM_EVENT.RATE, THM_EVENT.SENSOR, THM_EVENT.PENDING, THM_EVENT.CLEARED, THM_EVENT.EMERG, THM_EVENT.DOMAIN]⟩,
  ⟨0x20010, [(17, 0x4)], false, fun i => [THM_THR.WARN (i 0), THM_THR.THROT (i 0), THM_THR.SHDN (i 0)]⟩,
  ⟨0x20080, [(16, 0x4)], false, fun i => [THM_SHR.TEMP (i 0), THM_SHR.VALID (i 0), THM_SHR.P_OK (i 0), THM_SHR.S_OK (i 0), THM_SHR.DISAGREE (i 0), THM_SHR.COUNT (i 0)]⟩,
  ⟨0x20100, [], false, fun _ => [PWR_DOM_0.H_ON, PWR_DOM_0.C_ON]⟩]

/-- Registers from 0x20104. -/
def rows3 : List Row := [
  ⟨0x20104, [], false, fun _ => [PWR_DOM_1.FAB_ON]⟩,
  ⟨0x20108, [], false, fun _ => [PWR_DOMAIN_ERR.DOMAIN, PWR_DOMAIN_ERR.KIND, PWR_DOMAIN_ERR.OVERFLOW, PWR_DOMAIN_ERR.VALID]⟩,
  ⟨0x2010c, [], false, fun _ => [PWR_EMERG.OPEN, PWR_EMERG.MONITOR, PWR_EMERG.OVER, PWR_EMERG.COUNT]⟩,
  ⟨0x20110, [], false, fun _ => [PWR_CTL.SHUTDOWN]⟩,
  ⟨0x20200, [(48, 0x4)], false, fun i => [PWR_MON.MV (i 0), PWR_MON.VALID (i 0)]⟩,
  ⟨0x20300, [(48, 0x4)], false, fun i => [PWR_MON_LIM.UV (i 0), PWR_MON_LIM.OV (i 0)]⟩,
  ⟨0x20400, [(16, 0x8)], false, fun i => [THM_SHRTRIM_P.N0 (i 0), THM_SHRTRIM_P.SLOPE (i 0)]⟩,
  ⟨0x20404, [(16, 0x8)], false, fun i => [THM_SHRTRIM_S.N0 (i 0), THM_SHRTRIM_S.SLOPE (i 0)]⟩,
  ⟨0x30000, [], false, fun _ => [ECC_FILL_PROGRESS.PROGRESS]⟩,
  ⟨0x30008, [], false, fun _ => [ECC_HIVE_EVENT.CE_OVF, ECC_HIVE_EVENT.UE]⟩,
  ⟨0x30010, [], true, fun _ => [ECC_SCRUB_BASE.ADDR]⟩,
  ⟨0x30018, [], true, fun _ => [ECC_SCRUB_LIMIT.ADDR]⟩,
  ⟨0x30020, [], false, fun _ => [ECC_SCRUB_CTRL.GO, ECC_SCRUB_CTRL.STOP, ECC_SCRUB_CTRL.GAP, ECC_SCRUB_CTRL.BUSY]⟩,
  ⟨0x30024, [], false, fun _ => [ECC_SCRUB_PROGRESS.PROGRESS]⟩,
  ⟨0x30028, [], false, fun _ => [ECC_SCRUB_SUMMARY.CORRECTED, ECC_SCRUB_SUMMARY.RESULT, ECC_SCRUB_SUMMARY.VALID]⟩,
  ⟨0x3002c, [], false, fun _ => [ECC_SCRUB_UE.COUNT]⟩]

/-- Registers from 0x30030. -/
def rows4 : List Row := [
  ⟨0x30030, [], true, fun _ => [ECC_SCRUB_UE_ADDR.ADDR]⟩,
  ⟨0x30040, [], false, fun _ => [ECC_HP_CTO.US]⟩,
  ⟨0x30044, [], false, fun _ => [ECC_LATE_CNT.HP, ECC_LATE_CNT.PP]⟩,
  ⟨0x30048, [], false, fun _ => [ECC_QUAR.HP, ECC_QUAR.PP]⟩,
  ⟨0x40000, [], false, fun _ => [PMC_CTL.FREEZE, PMC_CTL.FRZ_ON_OVF, PMC_CTL.CLEAR]⟩,
  ⟨0x40004, [], false, fun _ => [PMC_USER_EN.BLK_LO, PMC_USER_EN.BLK_HI, PMC_USER_EN.HIVE, PMC_USER_EN.TIME]⟩,
  ⟨0x40008, [(2, 0x4)], false, fun i => [PMC_OVF_B.OVF (i 0)]⟩,
  ⟨0x40010, [], true, fun _ => [PMC_TIME.TIME]⟩,
  ⟨0x40020, [], false, fun _ => [PMC_BW_CFG.WIN_US]⟩,
  ⟨0x40024, [], false, fun _ => [PMC_BW_SEQ.SEQ]⟩,
  ⟨0x40100, [(18, 0x8)], false, fun i => [PMC_BW_RD.UNITS (i 0)]⟩,
  ⟨0x40104, [(18, 0x8)], false, fun i => [PMC_BW_WR.UNITS (i 0)]⟩,
  ⟨0x41000, [(64, 0x8)], true, fun i => [PMC_BCNT.COUNT (i 0)]⟩,
  ⟨0x41200, [(64, 0x4)], false, fun i => [PMC_BSEL.EVENT (i 0), PMC_BSEL.EN (i 0), PMC_BSEL.SRC (i 0), PMC_BSEL.SRC_EN (i 0), PMC_BSEL.CLASS (i 0), PMC_BSEL.CLASS_EN (i 0), PMC_BSEL.HIVE (i 0), PMC_BSEL.HIVE_EN (i 0)]⟩,
  ⟨0x50000, [], false, fun _ => [PEER_NODE_ID.NODE, PEER_NODE_ID.VALID]⟩,
  ⟨0x50004, [], false, fun _ => [PEER_CFG.SRC_MAX, PEER_CFG.RELAY_EN]⟩]

/-- Registers from 0x50008. -/
def rows5 : List Row := [
  ⟨0x50008, [], false, fun _ => [PEER_TIMEOUT.US]⟩,
  ⟨0x5000c, [], false, fun _ => [PEER_STATUS.READY, PEER_STATUS.TMO_REFUSED, PEER_STATUS.OUTSTANDING, PEER_STATUS.BACKOFF_RX]⟩,
  ⟨0x50010, [], false, fun _ => [PEER_RED_CFG.STAGE_MIB, PEER_RED_CFG.ORPHAN_MS]⟩,
  ⟨0x50014, [], false, fun _ => [PEER_RED_STAT.ORPHANS, PEER_RED_STAT.REFUSED]⟩,
  ⟨0x50018, [], false, fun _ => [PEER_RED_USED.KIB, PEER_RED_USED.SLOTS]⟩,
  ⟨0x5001c, [], false, fun _ => [PEER_TMO_CNT.COUNT]⟩,
  ⟨0x50040, [], false, fun _ => [WIN_COMMIT.GO, WIN_COMMIT.STATUS, WIN_COMMIT.ENTRY, WIN_COMMIT.TREE, WIN_COMMIT.BUSY, WIN_COMMIT.VALID]⟩,
  ⟨0x50044, [], false, fun _ => [WIN_GEN.GEN]⟩,
  ⟨0x50048, [], false, fun _ => [WIN_STATUS.OLD_INFLIGHT, WIN_STATUS.FAULTS_IN]⟩,
  ⟨0x50400, [(16, 0x40)], false, fun i => [PEER_TREE_CFG.NCHILD (i 0), PEER_TREE_CFG.DEPTH (i 0)]⟩,
  ⟨0x50404, [(16, 0x40), (8, 0x4)], false, fun i => [PEER_TREE_CHILD.NODE (i 0) (i 1)]⟩,
  ⟨0x51000, [(256, 0x20)], false, fun i => [WIN_CTL.VALID (i 0), WIN_CTL.DIR (i 0), WIN_CTL.RD (i 0), WIN_CTL.WR (i 0), WIN_CTL.RED (i 0), WIN_CTL.BCAST (i 0), WIN_CTL.GEN_CHK (i 0), WIN_CTL.ALL (i 0), WIN_CTL.DOMAIN (i 0), WIN_CTL.LINK (i 0)]⟩,
  ⟨0x51004, [(256, 0x20)], false, fun i => [WIN_NODE.NODE_BASE (i 0), WIN_NODE.NODE_LOG2 (i 0)]⟩,
  ⟨0x51008, [(256, 0x20)], false, fun i => [WIN_OFF_BASE.BASE (i 0)]⟩,
  ⟨0x5100c, [(256, 0x20)], false, fun i => [WIN_OFF_LIMIT.LIMIT (i 0)]⟩,
  ⟨0x51010, [(256, 0x20)], false, fun i => [WIN_XLAT.LOCAL_BASE (i 0)]⟩]

/-- Registers from 0x51014. -/
def rows6 : List Row := [
  ⟨0x51014, [(256, 0x20)], false, fun i => [WIN_RGEN.RGEN (i 0)]⟩,
  ⟨0x60000, [], false, fun _ => [LCS_STATE.STATE, LCS_STATE.TRANSITION_PENDING, LCS_STATE.TARGET, LCS_STATE.DBG_OPEN, LCS_STATE.DBG_SCOPE, LCS_STATE.KEY_DEAD, LCS_STATE.KEYS_SET, LCS_STATE.SEC_FLOOR]⟩,
  ⟨0x60004, [], false, fun _ => [LCS_CMD.CMD, LCS_CMD.TARGET, LCS_CMD.SLOT, LCS_CMD.BUSY]⟩,
  ⟨0x60008, [], false, fun _ => [LCS_CMD_STATUS.RESULT, LCS_CMD_STATUS.VALID]⟩,
  ⟨0x60010, [], true, fun _ => [LCS_SERIAL.SERIAL]⟩,
  ⟨0x60018, [], false, fun _ => [LCS_KEY_SLOTS.VALID, LCS_KEY_SLOTS.REVOKED]⟩,
  ⟨0x6001c, [], false, fun _ => [LCS_DBG_STATUS.CHALLENGES, LCS_DBG_STATUS.FAILS, LCS_DBG_STATUS.LOCKOUT, LCS_DBG_STATUS.NONCE_LIVE]⟩,
  ⟨0x60020, [], false, fun _ => [LCS_ENC_CFG.EN, LCS_ENC_CFG.REQUIRED]⟩,
  ⟨0x60024, [], false, fun _ => [LCS_ENC_STATUS.ACTIVE, LCS_ENC_STATUS.KEY_READY]⟩,
  ⟨0x60030, [], false, fun _ => [LCS_AUDIT_CFG.BATCH_MAX, LCS_AUDIT_CFG.BATCH_MS, LCS_AUDIT_CFG.FULL_POLICY]⟩,
  ⟨0x60034, [], false, fun _ => [LCS_AUDIT_STATUS.PENDING, LCS_AUDIT_STATUS.HELD]⟩,
  ⟨0x60038, [], false, fun _ => [LCS_AUDIT_DROPPED.COUNT]⟩,
  ⟨0x6003c, [], false, fun _ => [LCS_AUDIT_BATCH.BATCH_NO]⟩,
  ⟨0x70000, [], false, fun _ => [FWM_STATUS.RUN_SLOT, FWM_STATUS.FALLBACK, FWM_STATUS.RECOVERY, FWM_STATUS.SETTINGS_RESET]⟩,
  ⟨0x70004, [], false, fun _ => [FWM_CORE_READY.CORES]⟩,
  ⟨0x70008, [], false, fun _ => [FWM_CORE_CLASS.CLASS]⟩]

/-- Registers from 0x7000c. -/
def rows7 : List Row := [
  ⟨0x7000c, [], false, fun _ => [FWM_CORE_CFG.WDOG_MS]⟩,
  ⟨0x70010, [], false, fun _ => [FWM_KPR_MAP.TARGET_0, FWM_KPR_MAP.ACTIVE_0, FWM_KPR_MAP.TARGET_1, FWM_KPR_MAP.ACTIVE_1, FWM_KPR_MAP.RETIRED]⟩,
  ⟨0x70014, [], false, fun _ => [FWM_CORE_ERR.CORE, FWM_CORE_ERR.REASON, FWM_CORE_ERR.COUNT, FWM_CORE_ERR.VALID]⟩,
  ⟨0x70018, [], true, fun _ => [FWM_IMG_VER.VER]⟩,
  ⟨0x70020, [], true, fun _ => [FWM_ALT_VER.VER]⟩,
  ⟨0x70030, [], false, fun _ => [FWM_UPD_CFG.SRC, FWM_UPD_CFG.AUTO_ACT, FWM_UPD_CFG.SAFE_MS]⟩,
  ⟨0x70034, [], false, fun _ => [FWM_UPD_STATUS.STATE, FWM_UPD_STATUS.RESULT, FWM_UPD_STATUS.VALID]⟩,
  ⟨0x70038, [], false, fun _ => [FWM_UPD_PROGRESS.PROGRESS]⟩,
  ⟨0x7003c, [], false, fun _ => [FWM_RELAY_CFG.FWD, FWM_RELAY_CFG.LINK, FWM_RELAY_CFG.NEXT]⟩,
  ⟨0x70040, [], false, fun _ => [FWM_RELAY_STATUS.RESULT, FWM_RELAY_STATUS.BUSY, FWM_RELAY_STATUS.DISCARDED, FWM_RELAY_STATUS.VALID]⟩,
  ⟨0x70044, [], false, fun _ => [FWM_RELAY_PROGRESS.PROGRESS]⟩,
  ⟨0x70080, [], true, fun _ => [FWM_MBX_REQ_BASE.ADDR]⟩,
  ⟨0x70088, [], false, fun _ => [FWM_MBX_REQ_CFG.LOG2, FWM_MBX_REQ_CFG.HSET, FWM_MBX_REQ_CFG.EN]⟩,
  ⟨0x7008c, [], false, fun _ => [FWM_MBX_REQ_TAIL.TAIL]⟩,
  ⟨0x70090, [], true, fun _ => [FWM_MBX_EVT_BASE.ADDR]⟩,
  ⟨0x70098, [], false, fun _ => [FWM_MBX_EVT_CFG.LOG2, FWM_MBX_EVT_CFG.EN]⟩]

/-- Registers from 0x7009c. -/
def rows8 : List Row := [
  ⟨0x7009c, [], false, fun _ => [FWM_MBX_EVT_HEAD.HEAD]⟩,
  ⟨0x700a0, [], false, fun _ => [FWM_MBX_STATUS.REQ_HEAD, FWM_MBX_STATUS.EVT_TAIL]⟩,
  ⟨0x700a4, [], false, fun _ => [FWM_MBX_LOST.COUNT]⟩,
  ⟨0x70100, [], false, fun _ => [INT_STATUS.EVENT, INT_STATUS.PORT_ERR, INT_STATUS.GUARANTEE, INT_STATUS.INTEGRITY, INT_STATUS.THERMAL]⟩,
  ⟨0x70104, [], false, fun _ => [INT_MASK.MASK]⟩,
  ⟨0x80000, [], false, fun _ => [CTX_SEL.CTX]⟩,
  ⟨0x80004, [], false, fun _ => [CTX_CMD.CMD, CTX_CMD.BUSY]⟩,
  ⟨0x80008, [], false, fun _ => [CTX_CMD_STATUS.RESULT, CTX_CMD_STATUS.WORD, CTX_CMD_STATUS.VALID]⟩,
  ⟨0x8000c, [], false, fun _ => [CTX_DB_ERR.BAD_INDEX, CTX_DB_ERR.BAD_STATE]⟩,
  ⟨0x80010, [], false, fun _ => [CTX_DB_BASE.BASE, CTX_DB_BASE.EN]⟩,
  ⟨0x80014, [], false, fun _ => [CTX_SPILL_CFG.SIZE_MIB]⟩,
  ⟨0x80018, [], false, fun _ => [CTX_SPILL_USED.KIB]⟩,
  ⟨0x8001c, [], false, fun _ => [CTX_LATE_CNT.COUNT]⟩,
  ⟨0x80040, [(16, 0x4)], false, fun i => [CTX_ENTRY.WORD (i 0)]⟩,
  ⟨0x80080, [], false, fun _ => [CTX_STATUS_0.STATE, CTX_STATUS_0.INFLIGHT]⟩,
  ⟨0x80084, [], false, fun _ => [CTX_STATUS_1.DESC_HEAD]⟩]

/-- Registers from 0x80088. -/
def rows9 : List Row := [
  ⟨0x80088, [], false, fun _ => [CTX_STATUS_2.CPL_TAIL]⟩,
  ⟨0x8008c, [], false, fun _ => [CTX_STATUS_3.HALT_INDEX, CTX_STATUS_3.HALT_STATUS]⟩,
  ⟨0x81000, [(64, 0x10)], false, fun i => [CTX_HB_CFG.TIMEOUT_MS (i 0)]⟩,
  ⟨0x81004, [(64, 0x10)], false, fun i => [CTX_HB_CTRL.GEN (i 0), CTX_HB_CTRL.CMD (i 0)]⟩,
  ⟨0x81008, [(64, 0x10)], false, fun i => [CTX_HB_STATUS.STATE (i 0), CTX_HB_STATUS.ACK_REJECTED (i 0), CTX_HB_STATUS.STALE (i 0), CTX_HB_STATUS.GEN (i 0)]⟩,
  ⟨0x100000, [(16, 0x40000)], false, fun i => [HIV_THM_STATE.STATE (i 0), HIV_THM_STATE.RATE (i 0), HIV_THM_STATE.STACK_HIGH (i 0), HIV_THM_STATE.LEVEL (i 0), HIV_THM_STATE.TEMP (i 0), HIV_THM_STATE.SITES (i 0)]⟩,
  ⟨0x100004, [(16, 0x40000)], false, fun i => [HIV_THROT_CFG.FLOOR (i 0), HIV_THROT_CFG.ACT_BASE (i 0)]⟩,
  ⟨0x101000, [(16, 0x40000), (8, 0x4)], false, fun i => [THM_SITE.TEMP (i 0) (i 1), THM_SITE.VALID (i 0) (i 1), THM_SITE.P_OK (i 0) (i 1), THM_SITE.S_OK (i 0) (i 1), THM_SITE.DISAGREE (i 0) (i 1), THM_SITE.COUNT (i 0) (i 1)]⟩,
  ⟨0x101040, [(16, 0x40000), (8, 0x8)], false, fun i => [THM_TRIM_P.N0 (i 0) (i 1), THM_TRIM_P.SLOPE (i 0) (i 1)]⟩,
  ⟨0x101044, [(16, 0x40000), (8, 0x8)], false, fun i => [THM_TRIM_S.N0 (i 0) (i 1), THM_TRIM_S.SLOPE (i 0) (i 1)]⟩,
  ⟨0x102000, [(16, 0x40000), (32, 0x8)], true, fun i => [PMC_CNT.COUNT (i 0) (i 1)]⟩,
  ⟨0x102100, [(16, 0x40000), (32, 0x4)], false, fun i => [PMC_SEL.EVENT (i 0) (i 1), PMC_SEL.EN (i 0) (i 1), PMC_SEL.SRC (i 0) (i 1), PMC_SEL.SRC_EN (i 0) (i 1), PMC_SEL.CLASS (i 0) (i 1), PMC_SEL.CLASS_EN (i 0) (i 1), PMC_SEL.CH (i 0) (i 1), PMC_SEL.CH_EN (i 0) (i 1)]⟩,
  ⟨0x102180, [(16, 0x40000)], false, fun i => [PMC_OVF.OVF (i 0)]⟩,
  ⟨0x102190, [(16, 0x40000)], false, fun i => [PMC_SMP_CFG.EN (i 0), PMC_SMP_CFG.KIND (i 0), PMC_SMP_CFG.WRAP (i 0), PMC_SMP_CFG.N (i 0)]⟩,
  ⟨0x102194, [(16, 0x40000)], false, fun i => [PMC_SMP_FILT.SRC (i 0), PMC_SMP_FILT.SRC_EN (i 0), PMC_SMP_FILT.CLASS (i 0), PMC_SMP_FILT.CLASS_EN (i 0)]⟩,
  ⟨0x102198, [(16, 0x40000)], false, fun i => [PMC_SMP_STATUS.WPTR (i 0), PMC_SMP_STATUS.COUNT (i 0), PMC_SMP_STATUS.FULL (i 0)]⟩]

/-- Registers from 0x10219c. -/
def rows10 : List Row := [
  ⟨0x10219c, [(16, 0x40000)], false, fun i => [PMC_SMP_PAGE.PAGE (i 0)]⟩,
  ⟨0x1021a0, [(16, 0x40000)], false, fun i => [PMC_SMP_DROP.COUNT (i 0)]⟩,
  ⟨0x104000, [(16, 0x40000)], false, fun i => [CUE_STATUS.STATE (i 0), CUE_STATUS.PRELOADED (i 0), CUE_STATUS.HALF (i 0), CUE_STATUS.PC (i 0), CUE_STATUS.CTX (i 0)]⟩,
  ⟨0x104004, [(16, 0x40000)], false, fun i => [CUE_OWNER.DOMAIN (i 0)]⟩,
  ⟨0x104008, [(16, 0x40000)], false, fun i => [CUE_REFUSE.WORD (i 0), CUE_REFUSE.REASON (i 0), CUE_REFUSE.VALID (i 0)]⟩,
  ⟨0x10400c, [(16, 0x40000)], false, fun i => [CUE_PERR.COUNT (i 0)]⟩,
  ⟨0x108000, [(16, 0x40000), (33, 0x400)], false, fun i => [CEL_STATUS.STATE (i 0) (i 1), CEL_STATUS.SPARES_USED (i 0) (i 1)]⟩,
  ⟨0x108004, [(16, 0x40000), (33, 0x400)], false, fun i => [CEL_CTRL.RETIRE (i 0) (i 1), CEL_CTRL.TEST_START (i 0) (i 1)]⟩,
  ⟨0x108008, [(16, 0x40000), (33, 0x400)], false, fun i => [CEL_LANE_MAP_0.LANE_A (i 0) (i 1), CEL_LANE_MAP_0.USED_A (i 0) (i 1), CEL_LANE_MAP_0.LANE_B (i 0) (i 1), CEL_LANE_MAP_0.USED_B (i 0) (i 1)]⟩,
  ⟨0x10800c, [(16, 0x40000), (33, 0x400)], false, fun i => [CEL_LANE_MAP_1.LANE_A (i 0) (i 1), CEL_LANE_MAP_1.USED_A (i 0) (i 1), CEL_LANE_MAP_1.LANE_B (i 0) (i 1), CEL_LANE_MAP_1.USED_B (i 0) (i 1)]⟩,
  ⟨0x108010, [(16, 0x40000), (33, 0x400)], false, fun i => [CEL_ERR_CNT.REPLAYS (i 0) (i 1), CEL_ERR_CNT.TRANSIENTS (i 0) (i 1)]⟩,
  ⟨0x108014, [(16, 0x40000), (33, 0x400)], false, fun i => [CEL_FAULT_INFO.COLUMN (i 0) (i 1), CEL_FAULT_INFO.GROUP (i 0) (i 1), CEL_FAULT_INFO.KIND (i 0) (i 1), CEL_FAULT_INFO.VALID (i 0) (i 1)]⟩,
  ⟨0x108018, [(16, 0x40000), (33, 0x400)], false, fun i => [CEL_TEST_SUMMARY.LANES_FAILED (i 0) (i 1), CEL_TEST_SUMMARY.STORE_OK (i 0) (i 1), CEL_TEST_SUMMARY.SLOTS_OK (i 0) (i 1), CEL_TEST_SUMMARY.CHECK_OK (i 0) (i 1), CEL_TEST_SUMMARY.CELL_OK (i 0) (i 1), CEL_TEST_SUMMARY.VALID (i 0) (i 1)]⟩,
  ⟨0x110200, [(16, 0x40000)], false, fun i => [CEL_HIVE_CFG.IDLE_US (i 0), CEL_HIVE_CFG.GATE_EN (i 0)]⟩,
  ⟨0x110204, [(16, 0x40000)], false, fun i => [CEL_US_STATUS.TARGET (i 0), CEL_US_STATUS.ACTIVE (i 0), CEL_US_STATUS.USABLE (i 0)]⟩,
  ⟨0x110208, [(16, 0x40000)], false, fun i => [CEL_HIVE_FAILED.CELLS (i 0)]⟩]

/-- Registers from 0x110400. -/
def rows11 : List Row := [
  ⟨0x110400, [(16, 0x40000)], false, fun i => [ECC_LOCAL_CFG.AUTO_REMAP (i 0), ECC_LOCAL_CFG.ROW_CE_THR (i 0), ECC_LOCAL_CFG.ERASE_THR (i 0)]⟩,
  ⟨0x110404, [(16, 0x40000)], false, fun i => [ECC_CE_BUCKET.LEVEL (i 0), ECC_CE_BUCKET.SIZE (i 0)]⟩,
  ⟨0x110408, [(16, 0x40000)], false, fun i => [ECC_CE_LEAK.LEAK_US (i 0)]⟩,
  ⟨0x11040c, [(16, 0x40000)], false, fun i => [ECC_CE_CNT.BLOCKS (i 0)]⟩,
  ⟨0x110410, [(16, 0x40000)], false, fun i => [ECC_CE_ERASED.BLOCKS (i 0)]⟩,
  ⟨0x110414, [(16, 0x40000)], false, fun i => [ECC_UE_INFO_LO.ROW (i 0), ECC_UE_INFO_LO.BANK (i 0), ECC_UE_INFO_LO.SID (i 0), ECC_UE_INFO_LO.PC (i 0), ECC_UE_INFO_LO.CH (i 0)]⟩,
  ⟨0x110418, [(16, 0x40000)], false, fun i => [ECC_UE_INFO_HI.SRC (i 0), ECC_UE_INFO_HI.OVERFLOW (i 0), ECC_UE_INFO_HI.VALID (i 0)]⟩,
  ⟨0x11041c, [(16, 0x40000)], false, fun i => [ECC_UE_CNT.COUNT (i 0), ECC_UE_CNT.MARKED (i 0)]⟩,
  ⟨0x110420, [(16, 0x40000)], false, fun i => [ECC_RETRY_CNT.ISSUED (i 0), ECC_RETRY_CNT.RECOVERED (i 0)]⟩,
  ⟨0x110424, [(16, 0x40000)], false, fun i => [ECC_ST_SUMMARY.ENC_OK (i 0), ECC_ST_SUMMARY.DEC_OK (i 0), ECC_ST_SUMMARY.FAIL_CH (i 0), ECC_ST_SUMMARY.FAIL_PC (i 0), ECC_ST_SUMMARY.VALID (i 0)]⟩,
  ⟨0x110428, [(16, 0x40000)], false, fun i => [ECC_RMP_ADDR.ROW (i 0), ECC_RMP_ADDR.BANK (i 0), ECC_RMP_ADDR.SID (i 0), ECC_RMP_ADDR.PC (i 0), ECC_RMP_ADDR.CH (i 0)]⟩,
  ⟨0x11042c, [(16, 0x40000)], false, fun i => [ECC_RMP_CMD.OP (i 0), ECC_RMP_CMD.GO (i 0), ECC_RMP_CMD.ENTRY (i 0), ECC_RMP_CMD.RESULT (i 0), ECC_RMP_CMD.BUSY (i 0), ECC_RMP_CMD.VALID (i 0)]⟩,
  ⟨0x110800, [(16, 0x40000), (32, 0x8), (2, 0x4)], false, fun i => [ECC_ERASE.LANE_0 (i 0) (i 1) (i 2), ECC_ERASE.EN_0 (i 0) (i 1) (i 2), ECC_ERASE.LANE_1 (i 0) (i 1) (i 2), ECC_ERASE.EN_1 (i 0) (i 1) (i 2), ECC_ERASE.LANE_2 (i 0) (i 1) (i 2), ECC_ERASE.EN_2 (i 0) (i 1) (i 2), ECC_ERASE.LANE_3 (i 0) (i 1) (i 2), ECC_ERASE.EN_3 (i 0) (i 1) (i 2)]⟩,
  ⟨0x112000, [(16, 0x40000), (32, 0x100), (32, 0x8)], false, fun i => [ECC_RMP_ROW.ROW (i 0) (i 1) (i 2), ECC_RMP_ROW.BANK (i 0) (i 1) (i 2), ECC_RMP_ROW.SID (i 0) (i 1) (i 2), ECC_RMP_ROW.PC (i 0) (i 1) (i 2), ECC_RMP_ROW.VALID (i 0) (i 1) (i 2)]⟩,
  ⟨0x112004, [(16, 0x40000), (32, 0x100), (32, 0x8)], false, fun i => [ECC_RMP_STAT.SOURCE (i 0) (i 1) (i 2), ECC_RMP_STAT.RETIRED (i 0) (i 1) (i 2)]⟩,
  ⟨0x120000, [(16, 0x40000), (32, 0x800)], false, fun i => [CHC_STATUS.PC0_STATE (i 0) (i 1), CHC_STATUS.PC1_STATE (i 0) (i 1)]⟩]

/-- Registers from 0x120004. -/
def rows12 : List Row := [
  ⟨0x120004, [(16, 0x40000), (32, 0x800)], false, fun i => [CHC_QUEUE.RDQ_0 (i 0) (i 1), CHC_QUEUE.WRQ_0 (i 0) (i 1), CHC_QUEUE.RDQ_1 (i 0) (i 1), CHC_QUEUE.WRQ_1 (i 0) (i 1)]⟩,
  ⟨0x120008, [(16, 0x40000), (32, 0x800)], false, fun i => [CHC_REF_STATUS.OWED_0 (i 0) (i 1), CHC_REF_STATUS.OWED_1 (i 0) (i 1), CHC_REF_STATUS.MANDATORY (i 0) (i 1)]⟩,
  ⟨0x12000c, [(16, 0x40000), (32, 0x800)], false, fun i => [CHC_NR_STAT.ISSUED (i 0) (i 1), CHC_NR_STAT.DROPPED (i 0) (i 1)]⟩,
  ⟨0x120010, [(16, 0x40000), (32, 0x800)], false, fun i => [CHC_CC_STAT.REBUILDS (i 0) (i 1)]⟩,
  ⟨0x120400, [(16, 0x40000)], false, fun i => [CHC_HIVE_CFG.GEN (i 0), CHC_HIVE_CFG.NSID (i 0), CHC_HIVE_CFG.ROWBITS (i 0)]⟩,
  ⟨0x120404, [(16, 0x40000)], false, fun i => [CHC_HIVE_STATUS.REF_2X (i 0), CHC_HIVE_STATUS.STACK_TEMP (i 0), CHC_HIVE_STATUS.TEMP_VALID (i 0), CHC_HIVE_STATUS.COMMIT_PENDING (i 0)]⟩,
  ⟨0x120408, [(16, 0x40000)], false, fun i => [CHC_COMMIT.GO (i 0)]⟩,
  ⟨0x120410, [(16, 0x40000), (5, 0x4)], false, fun i => [CHC_BXOR.MASK (i 0) (i 1)]⟩,
  ⟨0x120430, [(16, 0x40000)], false, fun i => [CHC_T_0.tRCD (i 0), CHC_T_0.tRP (i 0), CHC_T_0.tRAS (i 0), CHC_T_0.tRC (i 0)]⟩,
  ⟨0x120434, [(16, 0x40000)], false, fun i => [CHC_T_1.tRRD_S (i 0), CHC_T_1.tRRD_L (i 0), CHC_T_1.tFAW (i 0), CHC_T_1.tCCD_S (i 0), CHC_T_1.tCCD_L (i 0), CHC_T_1.tRTP (i 0)]⟩,
  ⟨0x120438, [(16, 0x40000)], false, fun i => [CHC_T_2.tRL (i 0), CHC_T_2.tWL (i 0), CHC_T_2.tWR (i 0), CHC_T_2.tRTW (i 0)]⟩,
  ⟨0x12043c, [(16, 0x40000)], false, fun i => [CHC_T_3.tWTR_S (i 0), CHC_T_3.tWTR_L (i 0), CHC_T_3.tMOD (i 0), CHC_T_3.tXP (i 0)]⟩,
  ⟨0x120440, [(16, 0x40000)], false, fun i => [CHC_T_4.tRFCpb (i 0), CHC_T_4.tXS (i 0)]⟩,
  ⟨0x120444, [(16, 0x40000)], false, fun i => [CHC_T_5.tRREFD (i 0), CHC_T_5.CMD_LAT (i 0)]⟩,
  ⟨0x120450, [(16, 0x40000)], false, fun i => [CHC_REF_CFG.INTERVAL (i 0), CHC_REF_CFG.POSTPONE (i 0)]⟩,
  ⟨0x120454, [(16, 0x40000)], false, fun i => [CHC_NR_CFG.K (i 0)]⟩]

/-- Registers from 0x120458. -/
def rows13 : List Row := [
  ⟨0x120458, [(16, 0x40000)], false, fun i => [CHC_NR_SEED.SEED (i 0)]⟩,
  ⟨0x12045c, [(16, 0x40000)], false, fun i => [CHC_RFM.EN (i 0), CHC_RFM.RAAIMT (i 0), CHC_RFM.RAAMMT (i 0)]⟩,
  ⟨0x120460, [(16, 0x40000)], false, fun i => [CHC_ARB.STREAM_SHARE (i 0), CHC_ARB.HIT_CAP (i 0), CHC_ARB.CLOSE_IDLE (i 0)]⟩,
  ⟨0x120464, [(16, 0x40000)], false, fun i => [CHC_WRQ.HI (i 0), CHC_WRQ.LO (i 0)]⟩,
  ⟨0x120468, [(16, 0x40000)], false, fun i => [CHC_PD_TIMER.CCLK (i 0)]⟩,
  ⟨0x12046c, [(16, 0x40000)], false, fun i => [CHC_SR_TIMER.US (i 0)]⟩,
  ⟨0x120470, [(16, 0x40000)], false, fun i => [CHC_MR_CMD.MR (i 0), CHC_MR_CMD.WRITE (i 0), CHC_MR_CMD.CH (i 0), CHC_MR_CMD.ALLCH (i 0), CHC_MR_CMD.GO (i 0), CHC_MR_CMD.BUSY (i 0)]⟩,
  ⟨0x120474, [(16, 0x40000)], false, fun i => [CHC_MR_DATA.DATA (i 0), CHC_MR_DATA.RESULT (i 0), CHC_MR_DATA.VALID (i 0)]⟩,
  ⟨0x130000, [(16, 0x40000)], false, fun i => [PHY_CFG.RATE (i 0), PHY_CFG.TARGET (i 0)]⟩,
  ⟨0x130004, [(16, 0x40000)], false, fun i => [PHY_CTRL.RECAL_NOW (i 0), PHY_CTRL.RECAL_EN (i 0)]⟩,
  ⟨0x130008, [(16, 0x40000)], false, fun i => [PHY_TRAIN_PROGRESS.PROGRESS (i 0)]⟩,
  ⟨0x13000c, [(16, 0x40000)], false, fun i => [PHY_TRAIN_SUMMARY.RESULT (i 0), PHY_TRAIN_SUMMARY.FAIL_CH (i 0), PHY_TRAIN_SUMMARY.FAIL_PC (i 0), PHY_TRAIN_SUMMARY.SPARE_LANES (i 0), PHY_TRAIN_SUMMARY.WORST_EYE (i 0), PHY_TRAIN_SUMMARY.TAPS_SPARED (i 0), PHY_TRAIN_SUMMARY.VALID (i 0)]⟩,
  ⟨0x130010, [(16, 0x40000)], false, fun i => [PHY_LIMIT.EYE_MIN (i 0), PHY_LIMIT.DRIFT_MAX (i 0), PHY_LIMIT.SKEW_MAX (i 0)]⟩,
  ⟨0x130014, [(16, 0x40000)], false, fun i => [PHY_RECAL_CFG.PERIOD_MS (i 0), PHY_RECAL_CFG.TEMP_STEP (i 0), PHY_RECAL_CFG.DEADLINE_MS (i 0), PHY_RECAL_CFG.REJ_LIMIT (i 0)]⟩,
  ⟨0x130018, [(16, 0x40000)], false, fun i => [PHY_CAL_SUMMARY.PCS_DONE (i 0), PHY_CAL_SUMMARY.PCS_SKIPPED (i 0), PHY_CAL_SUMMARY.MAX_SHIFT (i 0), PHY_CAL_SUMMARY.REJECTS (i 0), PHY_CAL_SUMMARY.VALID (i 0)]⟩,
  ⟨0x13001c, [(16, 0x40000)], false, fun i => [PHY_CAL_STAT.CAL_REJECT (i 0), PHY_CAL_STAT.ABANDONED (i 0)]⟩]

/-- Registers from 0x130020. -/
def rows14 : List Row := [
  ⟨0x130020, [(16, 0x40000)], false, fun i => [PHY_LANE_SEL.LANE (i 0), PHY_LANE_SEL.PC (i 0), PHY_LANE_SEL.CH (i 0)]⟩,
  ⟨0x130024, [(16, 0x40000)], false, fun i => [PHY_LANE_RX.LIVE (i 0), PHY_LANE_RX.EYE (i 0), PHY_LANE_RX.TARGET (i 0), PHY_LANE_RX.IN_USE (i 0), PHY_LANE_RX.FAILED (i 0), PHY_LANE_RX.RAMPING (i 0)]⟩,
  ⟨0x130028, [(16, 0x40000)], false, fun i => [PHY_LANE_TX.LIVE (i 0), PHY_LANE_TX.EYE (i 0), PHY_LANE_TX.TARGET (i 0)]⟩,
  ⟨0x130100, [(16, 0x40000), (32, 0x4)], false, fun i => [PHY_VREF.VREF_0 (i 0) (i 1), PHY_VREF.VREF_1 (i 0) (i 1)]⟩,
  ⟨0x130200, [(16, 0x40000), (32, 0x4)], false, fun i => [PHY_REPAIR.LANE_00 (i 0) (i 1), PHY_REPAIR.USED_00 (i 0) (i 1), PHY_REPAIR.LANE_01 (i 0) (i 1), PHY_REPAIR.USED_01 (i 0) (i 1), PHY_REPAIR.LANE_10 (i 0) (i 1), PHY_REPAIR.USED_10 (i 0) (i 1), PHY_REPAIR.LANE_11 (i 0) (i 1), PHY_REPAIR.USED_11 (i 0) (i 1)]⟩]

/-- Every register of BAR_0 that a chapter assigns, in the order of offsets. -/
def rows : List Row :=
  rows0 ++ rows1 ++ rows2 ++ rows3 ++ rows4 ++ rows5 ++ rows6 ++ rows7 ++ rows8 ++ rows9 ++ rows10 ++ rows11 ++ rows12 ++ rows13 ++ rows14

end Sys2Proof.Machine.Reg
end

