-- ==== Sys2Proof/Machine/Ops.lean ====
section
/-! DEFINITION. The named operations that every family uses: register fields, power domains, device memory, the counted
events, the interrupt path, the event queue and the record of a fault. -/

namespace Sys2Proof.Machine

open Reg

/-! ### Register fields -/

/-- The value in force of a field: the committed value of an RWS field (R12), else the register's own value. -/
def rd (f : Fld) (s : State) : Nat :=
  match f.acc with
  | .rws => mgetD s.force f.key f.rst
  | _ => mgetD s.regs f.key f.rst

/-- The value that a read of the register shows: the shadow copy of an RWS field (R9). -/
def rdShadow (f : Fld) (s : State) : Nat :=
  match f.acc with
  | .rws => mgetD s.shadow f.key f.rst
  | _ => mgetD s.regs f.key f.rst

/-- Set a field from inside the block. -/
def put (f : Fld) (v : Nat) (s : State) : State := { s with regs := mset s.regs f.key (v % 2 ^ f.w) }

/-- Set the shadow copy of an RWS field. -/
def putShadow (f : Fld) (v : Nat) (s : State) : State := { s with shadow := mset s.shadow f.key (v % 2 ^ f.w) }

/-- Set an RWS field and its shadow copy from inside the block, in force at once. -/
def putForce (f : Fld) (v : Nat) (s : State) : State :=
  { s with shadow := mset s.shadow f.key (v % 2 ^ f.w), force := mset s.force f.key (v % 2 ^ f.w) }

/-- The value that the last reset took of a seed: a write takes effect at the next reset (R281, R329). -/
def seedOf (f : Fld) (s : State) : Nat := mgetD s.force f.key f.rst

/-- The value in force of a register of the memory map: the one taken when the ports opened, which a later write does not change
(R90, R265). -/
def rdMap (f : Fld) (s : State) : Nat := mgetD s.force f.key (rd f s)

/-- The registers of the memory map that take effect when the ports open (R90, R265). -/
def mapFields : List Fld :=
  [GLB_FW_RESERVE.SIZE, GLB_BAR4_BASE.BASE] ++ (List.range 9).map (fun j => GLB_HASH.MASK j) ++
    (List.range 8).flatMap (fun i => [GLB_ISET.HIVES i, GLB_ISET.GRAN i, GLB_ISET.VALID i]) ++
    (List.range 16).flatMap fun n => (List.range 5).map fun j => CHC_BXOR.MASK n j

/-- The registers of the memory map take effect. -/
def takeMap (s : State) : State := { s with force := mapFields.foldl (fun m f => mset m f.key (rd f s)) s.force }

/-- The field is not zero. -/
def on (f : Fld) (s : State) : Bool := rd f s != 0

/-- Add to a counter that saturates at its width. -/
def bump (f : Fld) (n : Nat) (s : State) : State := put f (min (rd f s + n) (2 ^ f.w - 1)) s

/-- Apply every shadow copy of the registers at offsets lo to hi - 1 in one step (R12). -/
def commitRange (lo hi : Nat) (s : State) : State :=
  { s with force := s.shadow.foldl (fun m x => if 8 * lo ≤ x.1 && x.1 < 8 * hi then mset m x.1 x.2 else m) s.force }

/-- Set each field of a list. -/
def putAll (l : List (Fld × Nat)) (s : State) : State := l.foldl (fun t x => put x.1 x.2 t) s

/-! ### Units and domains -/

/-- The hardware of HIV_n is present (R3). -/
def hivePresent (n : Nat) (s : State) : Bool := (rd GLB_CAP.HIVE_PRESENT s).testBit n

/-- The peer port and window unit are present (R3). -/
def peerPresent (s : State) : Bool := on GLB_CAP.PEER_PRESENT s

/-- PD_FAB is on. -/
def fabOn (s : State) : Bool := on PWR_DOM_1.FAB_ON s

/-- PD_H_n is on. -/
def hOn (n : Nat) (s : State) : Bool := (rd PWR_DOM_0.H_ON s).testBit n

/-- PD_C_n is on. -/
def cOn (n : Nat) (s : State) : Bool := (rd PWR_DOM_0.C_ON s).testBit n

/-- The ports are open. -/
def portsOpen (s : State) : Bool := on GLB_STATUS.PORTS_OPEN s

/-- The ports have opened in this start; a shutdown closes them again and leaves the host's queues served (R428).
(DEDUCED, log entry 57.) -/
def hasOpened (s : State) : Bool := portsOpen s || s.power.shut.any fun x => x.opened

/-- Core i is running and READY (R462). -/
def coreReady (i : Nat) (s : State) : Bool := (rd FWM_CORE_READY.CORES s).testBit i

/-- The used channels of a hive: 32 on HBM4-class, 16 on HBM3E and HBM3, none before training (R20). -/
def usedCh (n : Nat) (s : State) : Nat :=
  match rd (CHC_HIVE_CFG.GEN n) s with
  | 3 => 32
  | 0 => 0
  | _ => 16

/-- The hive keeps its check bytes inline (R21). -/
def inlineCheck (n : Nat) (s : State) : Bool :=
  let g := rd (CHC_HIVE_CFG.GEN n) s
  g == 1 || g == 2

/-- The key of a pseudo-channel. -/
def pcKey (n c p : Nat) : Nat := n * 64 + c * 2 + p

/-- The pseudo-channel exists and its hive is on. -/
def pcUsed (n c p : Nat) (s : State) : Bool := hOn n s && decide (c < usedCh n s) && decide (p < 2)

def port (k : Nat) (s : State) : Port := mgetD s.ports k Port.init

def setPort (k : Nat) (p : Port) (s : State) : State := { s with ports := mset s.ports k p }

def pcOf (n c p : Nat) (s : State) : Pc := mgetD s.pcs (pcKey n c p) Pc.init

def setPc (n c p : Nat) (q : Pc) (s : State) : State := { s with pcs := mset s.pcs (pcKey n c p) q }

def ctxOf (x : Nat) (s : State) : Ctx := mgetD s.ctxs x Ctx.init

def setCtx (x : Nat) (c : Ctx) (s : State) : State := { s with ctxs := mset s.ctxs x c }

def setJob (j : Nat) (v : Job) (s : State) : State := { s with jobs := mset s.jobs j v }

/-- Draw the next free value's index. (DESIGN CHOICE, log entry 7.) -/
def freshDraw (s : State) : State := { s with free := s.free + 1 }

/-! ### Counted events (R487) -/

/-- Record occurrences of a counted event, for the counters to take (R483). (DEDUCED, log entry 72.) -/
def emit (event count : Nat) (hive src cls ch : Option Nat) (s : State) : State :=
  if count = 0 then s else { s with occ := s.occ ++ [⟨event, count, hive, src, cls, ch⟩] }

/-- Occurrences of an event that counts cycles of a clock which no command ticks: their number is a free value.
(DESIGN CHOICE, log entry 80.) -/
def emitSome (event hive : Nat) (ch : Option Nat) (s : State) : State :=
  freshDraw { s with occ := s.occ ++ [⟨event, (Config.freeData s.free).toNat % 2 ^ 32, some hive, none, none, ch⟩] }

/-! ### Interrupts and events -/

/-- The configuration dword at an offset, with its reset value (R499, R500, R503). -/
def cfgReset (off : Nat) (s : State) : Nat :=
  let id := rd GLB_ID.PART s + rd GLB_ID.REV s * 2 ^ 16 + rd GLB_ID.MARK s * 2 ^ 20
  match off with
  | 0x00 => s.env.vendorId + s.env.deviceId * 2 ^ 16
  | 0x04 => 0x00100000
  | 0x08 => rd GLB_ID.REV s + 0x120000 * 2 ^ 8
  | 0x10 => 0x4
  | 0x18 => 0x4
  | 0x20 => 0xC
  | 0x2C => s.env.subsysVid + s.env.subsysId * 2 ^ 16
  | 0x34 => 0x40
  | 0x40 => 0x00035001
  | 0x44 => 0x8
  | 0x50 => 0x0002B010
  | 0x54 => 0x10008022
  | 0x58 => 0x2810
  | 0x74 => 0x30000
  | 0xB0 => 0x003F0011
  | 0xB4 => 0x00078000
  | 0xB8 => 0x00079000
  | 0x100 => 0x18020001
  | 0x10C => 0x00462030
  | 0x114 => 0x00002000
  | 0x180 => 0x1A010015
  | 0x184 => 0x07FFC000
  | 0x188 => 0x00000A24
  | 0x1A0 => 0x00000023
  | 0x1A4 => s.env.vendorId + 0x0201 * 2 ^ 16
  | 0x1A8 => 0x4D16
  | 0x1AC => id
  | _ => 0

/-- The configuration dword at an offset. -/
def cfgD (off : Nat) (s : State) : Nat := mgetD s.host.cfg off (cfgReset off s)

/-- The block may send bus-master requests (R506). -/
def busMaster (s : State) : Bool :=
  hasOpened s && (cfgD 0x04 s).testBit 2 && decide (cfgD 0x44 s % 4 ≠ 3)

/-- A message on vector v cannot be sent now (R508). -/
def msgBlocked (v : Nat) (s : State) : Bool :=
  !busMaster s || !((cfgD 0xB0 s).testBit 31) || (cfgD 0xB0 s).testBit 30 || (mgetD s.host.msix (4 * v + 3) 1).testBit 0

/-- Append a TLP to what HP sends. -/
def sendTlp (t : HpTlp) (s : State) : State := { s with out := { s.out with hp := s.out.hp ++ [t] } }

/-- Max_Payload_Size in bytes, at most 512 (R500). -/
def maxPayload (s : State) : Nat := 128 * 2 ^ min 2 (bits (cfgD 0x58 s) 5 3)

/-- The completions of a read from an address: each holds at most Max_Payload_Size bytes and ends at a multiple of it, and so of
the read completion boundary of 64 bytes, or with the last byte (R61). -/
def completionTlps (mps tag : Nat) (poisoned : Bool) : Nat → Nat → List Byte → List HpTlp
  | 0, _, _ => []
  | n + 1, a, d =>
    if d.isEmpty then []
    else
      let k := mps - a % mps
      .completion tag d.length (a % 128) (d.take k) poisoned :: completionTlps mps tag poisoned n (a + k) (d.drop k)

/-- Answer a read through HP with its bytes. -/
def sendCompletion (tag a : Nat) (d : List Byte) (poisoned : Bool) (s : State) : State :=
  (completionTlps (maxPayload s) tag poisoned (d.length + 1) a d).foldl (fun t x => sendTlp x t) s

/-- Send the message of vector v now. -/
def sendMsgNow (v : Nat) (s : State) : State :=
  sendTlp (.message v (mgetD s.host.msix (4 * v) 0 + mgetD s.host.msix (4 * v + 1) 0 * 2 ^ 32)
    (mgetD s.host.msix (4 * v + 2) 0)) s

/-- Send the message of vector v, or hold it as a pending bit (R508). -/
def sendMsg (v : Nat) (s : State) : State :=
  if msgBlocked v s then { s with host := { s.host with pba := setBit s.host.pba v } } else sendMsgNow v s

/-- A host context set is LOST or DRAINING. -/
def setAway (h : Nat) (s : State) : Bool := decide (2 ≤ rd (CTX_HB_STATUS.STATE h) s)

/-- The set of the mailbox is away, so that vector 0 stays silent (R446). -/
def mailboxAway (s : State) : Bool := setAway (rd FWM_MBX_REQ_CFG.HSET s) s

/-- The bits of INT_STATUS (R449). -/
def intField : Nat → Fld
  | 0 => INT_STATUS.EVENT
  | 1 => INT_STATUS.PORT_ERR
  | 2 => INT_STATUS.GUARANTEE
  | 3 => INT_STATUS.INTEGRITY
  | _ => INT_STATUS.THERMAL

/-- Set a bit of INT_STATUS; a message goes out at its 0-to-1 change when INT_MASK leaves it unmasked (R449). -/
def raiseInt (b : Nat) (s : State) : State :=
  if on (intField b) s then s
  else
    let t := put (intField b) 1 s
    if (rd INT_MASK.MASK t).testBit b || mailboxAway t then t else sendMsg 0 t

/-- The sixteen words of an event-queue entry, the phase bit of R191 in word 15. -/
def eventWords (e : Event) (tail log2 : Nat) : List Nat :=
  [0x81 + e.cls * 2 ^ 8 + e.source * 2 ^ 16, e.code, e.hclk % 2 ^ 32, e.hclk / 2 ^ 32 % 2 ^ 32, e.seq]
    ++ (e.detail ++ List.replicate 10 0).take 10 ++ [if tail.testBit log2 then 0 else 2 ^ 31]

/-- The little-endian bytes of 32-bit words. -/
def wordBytes (ws : List Nat) : List Byte := ws.flatMap (leBytes 4)

/-- LOG2 of a mailbox queue: values outside 4 to 12 act as 4 (R462). -/
def mbxLog2 (f : Fld) (s : State) : Nat :=
  let l := rd f s
  if 4 ≤ l && l ≤ 12 then l else 4

/-- The event queue can take an entry: the box office runs, the queue is in use, its host set present, bus-master requests are
permitted and there is room in it (R434, R446, R506). -/
def evQueueReady (s : State) : Bool :=
  let l := mbxLog2 FWM_MBX_EVT_CFG.LOG2 s
  let n := 2 ^ l
  let t := rd FWM_MBX_STATUS.EVT_TAIL s
  let h := rd FWM_MBX_EVT_HEAD.HEAD s % (2 * n)
  coreReady 0 s && on FWM_MBX_EVT_CFG.EN s && !mailboxAway s && busMaster s && decide ((t + 2 * n - h) % (2 * n) < n)

/-- Write one entry of sixteen words into the event queue: words 0 to 14, then word 15 (R446, R192). -/
def evQueueWrite (mk : Nat → Nat → List Nat) (s : State) : State :=
  let l := mbxLog2 FWM_MBX_EVT_CFG.LOG2 s
  let n := 2 ^ l
  let t := rd FWM_MBX_STATUS.EVT_TAIL s
  let a := rd FWM_MBX_EVT_BASE.ADDR s + 64 * (t % n)
  let b := wordBytes (mk t l)
  let s1 := sendTlp (.memWrite a (b.take 60)) s
  let s2 := sendTlp (.memWrite (a + 60) (b.drop 60)) s1
  put FWM_MBX_STATUS.EVT_TAIL ((t + 1) % (2 * n)) s2

/-- The firmware asks for an access of an area of its reserve (R28, R87). -/
def askFw (area : FwArea) (off : Nat) (write : Bool) (len : Nat) (d : List Byte) (s : State) : State :=
  { s with fwAccs := s.fwAccs ++ [⟨area, off, write, len, d⟩] }

/-- The firmware writes bytes into an area of its reserve. -/
def fwWrite (area : FwArea) (off : Nat) (d : List Byte) (s : State) : State := askFw area off true d.length d s

/-- The firmware reads bytes of an area of its reserve. -/
def fwRead (area : FwArea) (off len : Nat) (s : State) : State := askFw area off false len [] s

/-- The firmware writes an event into the event ring, in the slot of its sequence number (R446). -/
def ringWrite (s : State) (e : Event) : State := fwWrite .events (64 * (e.seq % 4096)) (wordBytes (eventWords e 0 4)) s

/-- Write waiting events, oldest first, while the event queue takes them; the writing of an event is the source of
INT_STATUS.EVENT (R449). -/
def drainEvents : List Event → State → State
  | [], s => { s with ring := [] }
  | e :: es, s =>
    if evQueueReady s then drainEvents es (raiseInt 0 (evQueueWrite (eventWords e) (fwRead .events (64 * (e.seq % 4096)) 64 s))) else { s with ring := e :: es }

/-- Move waiting events to the host queue: those held since before port opening first (R516), then the ring (R446). -/
def flushEvents (s : State) : State := if evQueueReady s then drainEvents (s.held ++ s.ring) { s with held := [] } else s

/-- Append to a list that holds at most n, dropping the oldest; the flag says that one was dropped. -/
def pushCap {α : Type} (n : Nat) (l : List α) (x : α) : List α × Bool :=
  if l.length < n then (l ++ [x], false) else (l.drop 1 ++ [x], true)

/-- Put an event into the ring, or hold it before port opening (R446, R516). -/
def queueEvent (e : Event) (s : State) : State :=
  if hasOpened s then
    let r := pushCap 4096 s.ring e
    let t := ringWrite { s with ring := r.1 } e
    flushEvents (if r.2 then bump FWM_MBX_LOST.COUNT 1 t else t)
  else
    let r := pushCap 256 s.held e
    let t := { s with held := r.1 }
    if r.2 then bump FWM_MBX_LOST.COUNT 1 t else t

/-- The local HCLK count: 100,000 HCLK for each housekeeping round (R411). (DESIGN CHOICE, log entry 10.) -/
def hclk (s : State) : Nat := s.rounds * 100000

/-- Event classes that also go to the event log in flash (R450). -/
def logged (cls : Nat) : Bool := cls == 6 || cls == 9 || cls == 10 || cls == 11

/-- Post an event (R448). `kind` distinguishes the events of a class; its CODE is a free value. (PRESUMED, log entry 67.) -/
def postEvent (cls source kind : Nat) (detail : List Nat) (s : State) : State :=
  let e : Event := ⟨cls, source, (Config.eventCode cls kind).toNat, hclk s, s.eventSeq, detail⟩
  let t := { s with eventSeq := s.eventSeq + 1 }
  queueEvent e (if logged cls then { t with logWait := t.logWait ++ [e] } else t)

/-! ### Device memory -/

/-- The key of a byte of a channel: hive, channel, channel-local offset. -/
def cellKey (n c off : Nat) : Nat := n * 2 ^ 40 + c * 2 ^ 35 + off

/-- The byte at a key. What nothing has written reads as the fill left it: zero (R371). (DESIGN CHOICE, log entry 12.) -/
def memByte (m : List Host.Cell) (k : Nat) : Byte := mgetD m k 0

/-- Write a byte, keeping the list sorted and free of zero bytes. -/
def memPut (m : List Host.Cell) (k : Nat) (b : Byte) : List Host.Cell := if b = 0 then mdel m k else mset m k b

/-- n bytes from a key. -/
def memBytes (m : List Host.Cell) (k : Nat) : Nat → List Byte
  | 0 => []
  | n + 1 => memByte m k :: memBytes m (k + 1) n

/-- Write bytes from a key. -/
def memWrite (m : List Host.Cell) (k : Nat) : List Byte → List Host.Cell
  | [] => m
  | b :: bs => memWrite (memPut m k b) (k + 1) bs

/-- The canonical form of memory: keys rise strictly and no byte is zero. -/
def memWf (m : List Host.Cell) : Bool := keysRise m && m.all fun x => x.2 != 0

/-- A beat from its 64 bytes. -/
def beatOf (bs : List Byte) : Beat := BitVec.ofNat 512 (leNat bs)

/-- The 64 bytes of a beat. -/
def beatBytes (b : Beat) : List Byte := leBytes 64 b.toNat

/-- The number of a block. -/
def blockKey (n c off : Nat) : Nat := cellKey n c off / 64

/-- The block is marked (R354). -/
def isMarked (n c off : Nat) (s : State) : Bool := s.marked.contains (blockKey n c off)

/-- The data of the block that holds a channel-local offset. -/
def readBlock (n c off : Nat) (s : State) : Beat := beatOf (memBytes s.mem (64 * blockKey n c off) 64)

/-- Insert into a rising list. -/
def insertRising : List Nat → Nat → List Nat
  | [], k => [k]
  | j :: l, k => if k < j then k :: j :: l else if k = j then j :: l else j :: insertRising l k

/-- Write a whole block with its check bytes; a mark goes (R354). -/
def writeBlock (n c off : Nat) (d : Beat) (s : State) : State :=
  { s with mem := memWrite s.mem (64 * blockKey n c off) (beatBytes d), marked := s.marked.erase (blockKey n c off) }

/-- Write a marked block (R354). (DEDUCED, log entry 13.) -/
def markBlock (n c off : Nat) (s : State) : State :=
  { s with mem := memWrite s.mem (64 * blockKey n c off) (zeros 64), marked := insertRising s.marked (blockKey n c off) }

/-- The beats that bytes at an address touch: beat address, byte mask and 64 bytes. -/
def beatParts : Nat → Nat → List Byte → List (Nat × Nat × List Byte)
  | 0, _, _ => []
  | k + 1, a, d =>
    if d.isEmpty then []
    else
      let o := a % 64
      let m := min d.length (64 - o)
      (a - o, (2 ^ m - 1) * 2 ^ o, zeros o ++ d.take m ++ zeros (64 - o - m)) :: beatParts k (a + m) (d.drop m)

/-! ### Faults of addresses -/

/-- Record an ACCESS_FAULT or WINDOW_FAULT (R99). -/
def recordFault (ctx src : Nat) (write window : Bool) (addr : Nat) (s : State) : State :=
  if on GLB_FAULT_INFO.VALID s then put GLB_FAULT_INFO.OVERFLOW 1 s
  else putAll [(GLB_FAULT_INFO.CTX, ctx), (GLB_FAULT_INFO.SRC, src), (GLB_FAULT_INFO.WRITE, b2n write),
    (GLB_FAULT_INFO.WINDOW, b2n window), (GLB_FAULT_INFO.VALID, 1), (GLB_FAULT_ADDR.ADDR, addr)] s

end Sys2Proof.Machine
end

