-- ==== Sys2Proof/Machine/Operands.lean ====
section
/-! DEFINITION. Operand forms: the address map (R85 to R96, R262 to R264, R363), request header slots (R42, R385), the
context entry (R171) and the descriptor (R185). -/

namespace Sys2Proof.Machine

open Reg

/-! ### The address map -/

/-- GLB_FW_RESERVE in MiB: values below 1,024 act as 1,024 (R103). -/
def fwReserve (s : State) : Nat := max 1024 (rdMap GLB_FW_RESERVE.SIZE s)

/-- The usable top of local device memory in bytes (R85). -/
def usableTop (s : State) : Nat := (rd GLB_MEM_TOP.TOP s - fwReserve s) * 2 ^ 20

/-- GRAN codes 5 to 7 act as 0 (R103). -/
def granBits (i : Nat) (s : State) : Nat :=
  let g := rdMap (GLB_ISET.GRAN i) s
  8 + (if g ≤ 4 then g else 0)

/-- Sets before the first invalid set are in use (R103). -/
def setsInUse (s : State) : List Nat := (List.range 8).takeWhile fun i => rdMap (GLB_ISET.VALID i) s != 0

/-- The hives of an interleave set, rising. -/
def setHives (i : Nat) (s : State) : List Nat := onesBelow 16 (rdMap (GLB_ISET.HIVES i) s)

/-- The set that holds a device address. -/
def setOf (a : Nat) (s : State) : Option Nat :=
  (setsInUse s).find? fun i =>
    decide (rd (GLB_ISET_BASE.BASE i) s * 2 ^ 20 ≤ a) &&
      decide (a < (rd (GLB_ISET_BASE.BASE i) s + rd (GLB_ISET_SIZE.SIZE i) s) * 2 ^ 20)

/-- Select bits of R91: bit j of q XOR the parity of high AND GLB_HASH_j. -/
def selBits (q high : Nat) (s : State) : Nat → Nat
  | 0 => 0
  | j + 1 =>
    selBits q high s j + 2 ^ j * b2n (xor (q.testBit j) (parity 32 (high &&& rdMap (GLB_HASH.MASK j) s)))

/-- The place of a device byte: hive, channel and channel-local offset (R91). -/
structure Place where
  n : Nat
  c : Nat
  off : Nat
  deriving DecidableEq, Repr

/-- The map of R91 within set i. -/
def mapIn (i a : Nat) (s : State) : Place :=
  let hs := setHives i s
  let h := Nat.log2 hs.length
  let c := Nat.log2 (usedCh (hs.headD 0) s)
  let g := granBits i s
  let r := a - rd (GLB_ISET_BASE.BASE i) s * 2 ^ 20
  let q := r >>> g
  let n := h + c
  let high := q >>> n
  let sel := selBits q high s n
  ⟨hs.getD (sel >>> c) 0, sel % 2 ^ c, high * 2 ^ g + r % 2 ^ g⟩

/-- The place of a device address, if memory stands behind it. -/
def mapAddr (a : Nat) (s : State) : Option Place := (setOf a s).map fun i => mapIn i a s

/-- DROWS of a hive (R262). -/
def dRows (n : Nat) (s : State) : Nat :=
  let r := 2 ^ rd (CHC_HIVE_CFG.ROWBITS n) s
  if inlineCheck n s then 8 * (r / 9) else r

/-- The split of a channel-local offset (R263): pseudo-channel, bank, data row, stack ID and block. -/
structure Split where
  p : Nat
  bank : Nat
  row : Nat
  sid : Nat
  blk : Nat
  deriving DecidableEq, Repr

def splitOff (n off : Nat) (s : State) : Split :=
  let q := off >>> 15
  let b := bits off 11 4
  let x := fun j => b2n (parity 32 (q &&& rdMap (CHC_BXOR.MASK n j) s))
  let p := (bits off 10 1 + x 0) % 2
  let bank := (b ^^^ (x 1 + 2 * x 2 + 4 * x 3 + 8 * x 4)) % 16
  ⟨p, bank, q % max 1 (dRows n s), q / max 1 (dRows n s), bits off 6 4⟩

/-- The channel-local offset of a block from its split (R264). -/
def joinOff (n : Nat) (v : Split) (s : State) : Nat :=
  let q := v.sid * dRows n s + v.row
  let x := fun j => b2n (parity 32 (q &&& rdMap (CHC_BXOR.MASK n j) s))
  let p := (v.p + x 0) % 2
  let b := (v.bank ^^^ (x 1 + 2 * x 2 + 4 * x 3 + 8 * x 4)) % 16
  q * 2 ^ 15 + b * 2 ^ 11 + p * 2 ^ 10 + v.blk * 64

/-- The DRAM row of a data row (R93). -/
def placeRow (n row : Nat) (s : State) : Nat := if inlineCheck n s then 9 * (row / 8) + row % 8 else row

/-! ### The remap table as the controller sees it (R364) -/

/-- The entry that steers an addressed DRAM row, if a valid one does. -/
def remapHit (n c p sid bank row : Nat) (s : State) : Option Nat :=
  (List.range 32).find? fun i =>
    on (ECC_RMP_ROW.VALID n c i) s && rd (ECC_RMP_ROW.ROW n c i) s == row && rd (ECC_RMP_ROW.BANK n c i) s == bank &&
      rd (ECC_RMP_ROW.SID n c i) s == sid && rd (ECC_RMP_ROW.PC n c i) s == p

/-- The pseudo-channel in which the accesses to a block run: that of its spare row where a valid entry steers it (R266, R364). -/
def workPc (n c off : Nat) (s : State) : Nat :=
  let v := splitOff n off s
  match remapHit n c v.p v.sid v.bank (placeRow n v.row s) s with
  | none => v.p
  | some i => i % 2

/-- The data row of a placed DRAM row. -/
def unplaceRow (n row : Nat) (s : State) : Nat := if inlineCheck n s then 8 * (row / 9) + row % 9 else row

/-- The check row of the group in which a DRAM row of an HBM3E or HBM3 hive lies (R93). -/
def checkRowOf (row : Nat) : Nat := 9 * (row / 9) + 8

/-- Bytes of one channel that hold data. -/
def chanBytes (n : Nat) (s : State) : Nat := 32 * (rd (CHC_HIVE_CFG.NSID n) s + 1) * dRows n s * 1024

/-- The remap reserve of set i: its last 32 KiB for each used channel of each hive (R363). -/
def reserveBytes (i : Nat) (s : State) : Nat := 32768 * usedCh ((setHives i s).headD 0) s * (setHives i s).length

/-- A device byte lies in the remap reserve of its set. -/
def inRemapReserve (a : Nat) (s : State) : Bool :=
  match setOf a s with
  | none => false
  | some i =>
    decide ((rd (GLB_ISET_BASE.BASE i) s + rd (GLB_ISET_SIZE.SIZE i) s) * 2 ^ 20 - reserveBytes i s ≤ a)

/-! ### The firmware reserve (R87) -/

/-- The lowest byte of an area of the firmware reserve: the spill area of half the reserve below the remap reserve of the last set, the
staging area of a quarter below it, and from the bottom the context table of 4 MiB, the ledger of 32 MiB, the staged package of 128 MiB
and the two rings. (DESIGN CHOICE, log entry 99.) -/
def areaBase (area : FwArea) (s : State) : Nat :=
  let top := rd GLB_MEM_TOP.TOP s * 2 ^ 20 - reserveBytes ((setsInUse s).length - 1) s
  let part := fun k => fwReserve s * 2 ^ 20 / k
  match area with
  | .spill => top - part 2
  | .staging => top - part 2 - part 4
  | .contexts => usableTop s
  | .ledger => usableTop s + 4 * 2 ^ 20
  | .package => usableTop s + 36 * 2 ^ 20
  | .requests => usableTop s + 164 * 2 ^ 20
  | .events => usableTop s + 164 * 2 ^ 20 + 2 ^ 14

/-! ### Protection -/

/-- A valid region in force grants the domain the access at a MiB (R96). -/
def granted (dom : Nat) (write : Bool) (mib : Nat) (s : State) : Bool :=
  (List.range 64).any fun r =>
    on (GLB_RGN_ATTR.VALID r) s && (on (GLB_RGN_ATTR.ALL r) s || rd (GLB_RGN_ATTR.DOMAIN r) s == dom) &&
      (if write then on (GLB_RGN_ATTR.WR r) s else on (GLB_RGN_ATTR.RD r) s) &&
      decide (rd (GLB_RGN_BASE.BASE r) s ≤ mib) && decide (mib ≤ rd (GLB_RGN_LIMIT.LIMIT r) s)

/-- The first 64-byte beat of a range that lies outside usable memory. -/
def memOk (a : Nat) (s : State) : Bool := decide (a < usableTop s) && !inRemapReserve a s && (setOf a s).isSome

/-- Beat addresses of a range of n beats. -/
def beatAddrs (a n : Nat) : List Nat := (List.range n).map fun i => a + 64 * i

/-- Every beat of a range lies in memory and in granted regions; domain 0 is the firmware's (R95, R96). -/
def permitted (dom : Nat) (write : Bool) (a n : Nat) (s : State) : Bool :=
  (beatAddrs a n).all fun b => memOk b s && (dom == 0 || granted dom write (b / 2 ^ 20) s)

/-- The first beat of a range that is not permitted. -/
def firstDenied (dom : Nat) (write : Bool) (a n : Nat) (s : State) : Option Nat :=
  (beatAddrs a n).find? fun b => !(memOk b s && (dom == 0 || granted dom write (b / 2 ^ 20) s))

/-- ADDR names the peer range (R85). -/
def inPeerRange (a : Nat) : Bool := a / 2 ^ 62 % 4 == 2

/-! ### Request header slots (R42, R43) -/

def slotF (w : BitVec 256) (lo n : Nat) : Nat := bits w.toNat lo n

/-- The FORMAT_ERR reason of a request header, the lowest that applies (R48); 0 if the header is well formed. A slot that
crosses out of the 64-bit address space has a bad length. -/
def formatReason (r : Req) (opOk : Bool) : Nat :=
  if !opOk then 1
  else if 5 ≤ r.curt then 2
  else if r.addr % 64 ≠ 0 then 3
  else if r.byteEn ≠ 2 ^ 64 - 1 && (r.op ≠ .wr || r.beats ≠ 1) then 4
  else if r.resv || (r.op == .push && r.addr / 2 ^ 34 != 0) then 5
  else 0

/-- Read a request header slot. -/
def reqOfSlot (uid k since : Nat) (w : BitVec 256) : Req :=
  let o := slotF w 0 4
  let op : Op := if o = 1 then .rd else if o = 2 then .wr else if o = 3 then .push else .bad
  let n := slotF w 20 6 + 1
  ⟨uid, k, .cp k, op, slotF w 8 12, n, slotF w 26 3, slotF w 32 16, slotF w 64 64, slotF w 128 64,
    slotF w 4 4 != 0 || slotF w 29 3 != 0 || slotF w 48 16 != 0 || slotF w 192 64 != 0,
    [], (if op = .wr ∨ op = .push then n else 0), false, 0, 0, false, 0, 0, since⟩

/-! ### Context entries (R171) -/

def cWord (c : Ctx) (i : Nat) : Nat := c.words.getD i 0
def cHome (c : Ctx) : Nat := bits (cWord c 0) 0 5
def cClass (c : Ctx) : Nat := bits (cWord c 0) 5 5
def cDomain (c : Ctx) : Nat := bits (cWord c 0) 10 8
def cHostEn (c : Ctx) : Bool := (cWord c 0).testBit 18
def cAuditEn (c : Ctx) : Bool := (cWord c 0).testBit 19
def cIrqEn (c : Ctx) : Bool := (cWord c 0).testBit 20
def cVector (c : Ctx) : Nat := bits (cWord c 0) 21 6
def cInflight (c : Ctx) : Nat := bits (cWord c 0) 27 3 + 1
def cDescLog (c : Ctx) : Nat := bits (cWord c 1) 0 5
def cCplLog (c : Ctx) : Nat := bits (cWord c 1) 5 5
def cHset (c : Ctx) : Nat := bits (cWord c 1) 10 6
def cTimeout (c : Ctx) : Nat := bits (cWord c 2) 0 20
def cDescBase (c : Ctx) : Nat := cWord c 4 + cWord c 5 * 2 ^ 32
def cCplBase (c : Ctx) : Nat := cWord c 6 + cWord c 7 * 2 ^ 32

/-- The first word of an entry that breaks R171, if any. -/
def entryBadWord (w : List Nat) : Option Nat :=
  let c : Ctx := { Ctx.init with words := w }
  if 16 < cHome c || cDomain c = 0 || (cIrqEn c && cVector c = 0) || cWord c 0 / 2 ^ 30 ≠ 0 then some 0
  else if cDescLog c < 4 || 16 < cDescLog c || cCplLog c < 4 || 16 < cCplLog c || cWord c 1 / 2 ^ 16 ≠ 0 then some 1
  else if cTimeout c < 20 || cWord c 2 / 2 ^ 20 ≠ 0 then some 2
  else if cWord c 3 ≠ 0 then some 3
  else if cWord c 4 % 4096 ≠ 0 then some 4
  else if cWord c 6 % 4096 ≠ 0 then some 6
  else (List.range 16).find? fun i => 8 ≤ i && cWord c i ≠ 0

/-- The context is open on a port (R44). -/
def openOn (x k : Nat) (s : State) : Bool :=
  let c := ctxOf x s
  (c.state == .opened || c.state == .halted) && cHome c == k

/-! ### Descriptors (R185) -/

def jWord (j : Job) (i : Nat) : Nat := j.words.getD i 0
def jWide (j : Job) (i : Nat) : Nat := jWord j i + jWord j (i + 1) * 2 ^ 32
def jType (j : Job) : Nat := bits (jWord j 0) 0 8
def jIrq (j : Job) : Bool := (jWord j 0).testBit 8
def jAudit (j : Job) : Bool := (jWord j 0).testBit 10
def jTag (j : Job) : Nat := bits (jWord j 0) 16 16
def jTimeout (j : Job) : Nat := bits (jWord j 1) 0 20
def jSrcSpace (j : Job) : Nat := bits (jWord j 1) 20 2
def jDstSpace (j : Job) : Nat := bits (jWord j 1) 22 2
def jSrc (j : Job) : Nat := jWide j 2
def jDst (j : Job) : Nat := jWide j 4
def jLen (j : Job) : Nat := jWide j 6

end Sys2Proof.Machine
end

