-- ==== Sys2Proof/Machine/Code.lean ====
section
/-! DEFINITION. The check code of a block: RS(72,64) over GF(2^8), its encoder and its decoder (R349 to R353). -/

namespace Sys2Proof.Machine

/-! ### The field GF(2^8) with polynomial 0x11D, elements as numbers below 256 -/

/-- Multiply by α = 2. -/
def gfX (a : Nat) : Nat := if a < 128 then 2 * a else (2 * a) ^^^ 0x11D

/-- The product of two elements, over n bits of the second. -/
def gfMulN : Nat → Nat → Nat → Nat
  | 0, _, _ => 0
  | n + 1, a, b => (if b % 2 = 1 then a else 0) ^^^ gfMulN n (gfX a) (b / 2)

def gfMul (a b : Nat) : Nat := gfMulN 8 a b

/-- α to the power n. -/
def gfPow : Nat → Nat
  | 0 => 1
  | n + 1 => gfX (gfPow n)

def gfSq (a : Nat) : Nat := gfMul a a

/-- The inverse, as the power 254. -/
def gfInv (a : Nat) : Nat :=
  let a2 := gfSq a
  let a4 := gfSq a2
  let a8 := gfSq a4
  let a16 := gfSq a8
  let a32 := gfSq a16
  let a64 := gfSq a32
  gfMul a2 (gfMul a4 (gfMul a8 (gfMul a16 (gfMul a32 (gfMul a64 (gfSq a64))))))

/-! ### Polynomials, lowest coefficient first -/

def plAdd : List Nat → List Nat → List Nat
  | [], q => q
  | p, [] => p
  | a :: p, b :: q => (a ^^^ b) :: plAdd p q

def plScale (c : Nat) (p : List Nat) : List Nat := p.map (gfMul c)

def plMul : List Nat → List Nat → List Nat
  | [], _ => []
  | a :: p, q => plAdd (plScale a q) (0 :: plMul p q)

def plEval (p : List Nat) (x : Nat) : Nat := p.foldr (fun a v => a ^^^ gfMul v x) 0

/-- Drop the leading zero coefficients. -/
def plTrim (p : List Nat) : List Nat := (p.reverse.dropWhile fun a => a == 0).reverse

/-- The degree plus one. -/
def plLen (p : List Nat) : Nat := (plTrim p).length

/-- The formal derivative. -/
def plDeriv (p : List Nat) : List Nat := (p.drop 1).mapIdx fun i a => if i % 2 = 0 then a else 0

/-- Quotient and remainder, with a bound on the number of steps. -/
def plDivMod : Nat → List Nat → List Nat → List Nat → List Nat × List Nat
  | 0, q, a, _ => (q, a)
  | n + 1, q, a, b =>
    let a := plTrim a
    let b := plTrim b
    if a.length < b.length then (q, a)
    else
      let c := gfMul (a.getLastD 0) (gfInv (b.getLastD 0))
      let sh := List.replicate (a.length - b.length) 0 ++ [c]
      plDivMod n (plAdd q sh) (plAdd a (plMul sh b)) b

/-! ### The code -/

/-- The generator polynomial g(x) = (x - 1)(x - α)...(x - α^7). -/
def genPoly : Nat → List Nat
  | 0 => [1]
  | n + 1 => plMul [gfPow n, 1] (genPoly n)

/-- One step of the division of D(x)·x^8 by g(x): the register holds the coefficients of x^7 down to x^0. -/
def lfsrStep (g reg : List Nat) (d : Nat) : List Nat :=
  let f := d ^^^ reg.headD 0
  plAdd (reg.drop 1 ++ [0]) (plScale f g)

/-- The eight check bytes of 64 data bytes (R349). -/
def checkBytes (data : List Byte) : List Byte :=
  let g := ((genPoly 8).take 8).reverse
  ((data.map fun b => b.toNat).foldl (lfsrStep g) (List.replicate 8 0)).map (BitVec.ofNat 8)

/-- An error pattern: symbol positions 0 to 71 with the byte added there. -/
abbrev ErrPat := List (Nat × Byte)

/-- The error pattern with one entry for each position that differs. -/
def normErr (e : ErrPat) : ErrPat :=
  (List.range 72).filterMap fun i =>
    let v := e.foldl (fun a x => if x.1 = i then a ^^^ x.2 else a) 0
    if v = 0 then none else some (i, v)

/-- The locator α^(71 - i) of a symbol. -/
def locOf (i : Nat) : Nat := gfPow (71 - i)

/-- Syndromes S_0 to S_7. -/
def syndromes (e : ErrPat) : List Nat :=
  (List.range 8).map fun j => e.foldl (fun a x => a ^^^ gfMul x.2.toNat (gfPow ((71 - x.1) * j % 255))) 0

/-- Euclid's steps for the key equation: stop when the remainder has fewer than `stop` coefficients. -/
def keyEq (stop : Nat) : Nat → List Nat → List Nat → List Nat → List Nat → List Nat × List Nat
  | 0, _, r, _, t => (r, t)
  | n + 1, r0, r, t0, t =>
    if plLen r ≤ stop then (r, t)
    else
      let d := plDivMod 10 [] r0 r
      keyEq stop n r d.2 t (plAdd t0 (plMul d.1 t))

/-- What the decoder subtracts from an error pattern with the given erased symbols, or none where no codeword lies within
2e + f ≤ 8 (R352). -/
def correction (e : ErrPat) (erased : List Nat) : Option ErrPat :=
  let s := syndromes e
  if s.all (fun x => x == 0) then some []
  else
    let f := erased.length
    if 8 < f then none
    else
      let gam := erased.foldl (fun p i => plMul p [1, locOf i]) [1]
      let t := (plMul s gam).take 8
      let k := keyEq ((8 + f) / 2) 10 (List.replicate 8 0 ++ [1]) t [] [1]
      let psi := plMul k.2 gam
      let dpsi := plDeriv psi
      let v := (List.range 72).filterMap fun i =>
        let x := locOf i
        let xi := gfInv x
        if plEval psi xi = 0 then
          some (i, BitVec.ofNat 8 (gfMul x (gfMul (plEval k.1 xi) (gfInv (plEval dpsi xi)))))
        else none
      let v := v.filter fun y => y.2 != 0
      let free := v.filter fun y => !erased.contains y.1
      if syndromes v == s && decide (2 * free.length + f ≤ 8) then some v else none

/-- The outcome of a decode (R352): the error pattern left in the block and whether only erased symbols were changed. -/
inductive Decoded where
  | clean (left : ErrPat)
  | corrected (left : ErrPat) (changed : List Nat) (onlyErased : Bool)
  | uncorrectable
  deriving DecidableEq, Repr

/-- Decode a block read with an error pattern. -/
def decodeErr (errs : ErrPat) (erased : List Nat) : Decoded :=
  let e := normErr errs
  if e.isEmpty then .clean []
  else
    match correction e erased with
    | none => .uncorrectable
    | some [] => .clean e
    | some v => .corrected (normErr (e ++ v)) (v.map fun x => x.1) (v.all fun x => erased.contains x.1)

/-- Apply the error pattern to the 64 data bytes of a beat. -/
def applyErr (e : ErrPat) (b : Beat) : Beat :=
  if e.isEmpty then b
  else beatOf ((beatBytes b).mapIdx fun i x => e.foldl (fun a y => if y.1 = i then a ^^^ y.2 else a) x)

/-- LANE and EN of erasure slot i of a pseudo-channel. -/
def eraseFld (n c p i : Nat) : Fld × Fld :=
  match i with
  | 0 => (Reg.ECC_ERASE.LANE_0 n c p, Reg.ECC_ERASE.EN_0 n c p)
  | 1 => (Reg.ECC_ERASE.LANE_1 n c p, Reg.ECC_ERASE.EN_1 n c p)
  | 2 => (Reg.ECC_ERASE.LANE_2 n c p, Reg.ECC_ERASE.EN_2 n c p)
  | _ => (Reg.ECC_ERASE.LANE_3 n c p, Reg.ECC_ERASE.EN_3 n c p)

/-- The erased lanes of a pseudo-channel. -/
def erasedLanes (n c p : Nat) (s : State) : List Nat :=
  ((List.range 4).filter fun i => on (eraseFld n c p i).2 s).map fun i => rd (eraseFld n c p i).1 s

/-- The erased symbols of a pseudo-channel (R353); on inline hives erasures touch data symbols only. -/
def erasedSymbols (n c p : Nat) (s : State) : List Nat :=
  let l := (erasedLanes n c p s).flatMap fun x => [2 * x, 2 * x + 1]
  if inlineCheck n s then l.filter fun i => i < 64 else l

end Sys2Proof.Machine
end

