-- ==== Sys2Proof/Machine/Ports.lean ====
section
/-! DEFINITION. The compute ports (R38 to R60): header and data flits, credits, tags, the curtain state of a port, the answers
to a request, and the sending of responses. -/

namespace Sys2Proof.Machine

open Reg

/-! ### Port errors (R346) -/

/-- Count or set a field of ARB_PORT_ERR_m and raise the port-error interrupt at its 0-to-1 change. -/
def portErr (f : Fld) (s : State) : State :=
  let t := bump f 1 s
  if on f s then t else raiseInt 1 t

/-! ### Flits (R38, R39, R42) -/

/-- The odd-parity bits of the n bytes of a number: each byte and its bit together hold an odd number of ones (R39). -/
def oddParity (n v : Nat) : Nat := (List.range n).foldl (fun p i => if parity 8 (bits v (8 * i) 8) then p else setBit p i) 0

/-- The parity of a flit of 256 bytes. -/
def flitParity (f : BitVec 2048) : BitVec 256 := BitVec.ofNat 256 (oddParity 256 f.toNat)

/-- The eight header slots of a flit. -/
def flitSlots (f : BitVec 2048) : List (BitVec 256) := (List.range 8).map fun i => BitVec.ofNat 256 (bits f.toNat (256 * i) 256)

/-- The four beats of a data flit. -/
def flitBeats (f : BitVec 2048) : List Beat := (List.range 4).map fun i => BitVec.ofNat 512 (bits f.toNat (512 * i) 512)

/-- The number whose fields are given as lowest bit, width and value. -/
def packFields (l : List (Nat × Nat × Nat)) : Nat := l.foldl (fun v x => v + x.2.2 % 2 ^ x.2.1 * 2 ^ x.1) 0

/-- A response header slot (R47). -/
def respSlot (rtype : Nat) (torn : Bool) (tag len hive info : Nat) : BitVec 256 :=
  BitVec.ofNat 256 (packFields [(0, 4, rtype), (4, 1, b2n torn), (8, 12, tag), (20, 6, len), (32, 4, hive), (64, 64, info)])

/-- The flit of an item of an egress buffer: a header stands in slot 0, the beats from position 0 on. (DESIGN CHOICE, log
entry 83.) -/
def egrFlit (torn : Bool) : Egr → BitVec 2048
  | .hdr rt tag len hive info _ => (respSlot rt torn tag len hive info).setWidth 2048
  | .data _ _ ds => BitVec.ofNat 2048 (packFields (ds.mapIdx fun i d => (512 * i, 512, d.toNat)))

/-- The flit of an item as port k sends it, with its parity (R38, R39). -/
def cpOutOf (k : Nat) (torn : Bool) (e : Egr) : CpOut :=
  let f := egrFlit torn e
  match e with
  | .hdr _ _ _ _ _ _ => ⟨k, 1, f, flitParity f, 0, 0⟩
  | .data tag beat _ => ⟨k, 2, f, flitParity f, tag, beat⟩

/-! ### Responses (R47, R48) -/

def rtRdData : Nat := 0
def rtWrAck : Nat := 1
def rtBackoff : Nat := 2
def rtRestart : Nat := 3
def rtPoison : Nat := 4
def rtTorn : Nat := 5
def rtWindow : Nat := 6
def rtAccess : Nat := 7
def rtFormat : Nat := 8
def rtPushAck : Nat := 9

/-- Responses of a port go out while it is ready, or while it is closed by a parity error (R59, R60). -/
def answers (p : Port) : Bool := p.ready || p.parityClosed

/-- Put a response into the egress buffer of port k; the responses of a lost link are discarded with their tags (R59). -/
def egressPut (k : Nat) (e : Egr) (s : State) : State :=
  let p := port k s
  if answers p then setPort k { p with egress := p.egress ++ [e] } s
  else
    match e with
    | .hdr _ tag _ _ _ true => setPort k { p with tags := p.tags.erase tag } s
    | _ => s

/-- A final response without data to a compute-port request. -/
def answerPort (r : Req) (rtype info : Nat) (s : State) : State :=
  match r.src with
  | .cp k => egressPut k (.hdr rtype r.tag 0 0 info true) s
  | _ => s

/-- All ones over n bits. -/
def ones (n : Nat) : Nat := 2 ^ n - 1

/-- Beats from byte positions of a flit, grouped by four (R41). -/
def dataFlits (tag : Nat) : Nat → List Beat → List Egr
  | _, [] => []
  | b, x :: xs =>
    if b % 4 = 0 then .data tag b ((x :: xs).take 4) :: dataFlits tag (b + 1) xs
    else dataFlits tag (b + 1) xs

/-- Put a list into the egress buffer. -/
def egressAll (k : Nat) (l : List Egr) (s : State) : State := l.foldl (fun t e => egressPut k e t) s

/-- A POISON answer to a compute-port request, every beat set in the mask (R60, R384, R399). For a write with a data parity error R60
states no mask; the model sets every beat too. (DESIGN CHOICE, log entry 84.) -/
def answerPoisonAll (r : Req) (s : State) : State :=
  match r.src with
  | .cp k =>
    let t := if r.op == .rd then egressAll k (dataFlits r.tag 0 (List.replicate r.beats 0)) s else s
    egressPut k (.hdr rtPoison r.tag (if r.op == .rd then r.beats - 1 else 0) 0 (ones r.beats) true) t
  | _ => s

/-- Data flits of a number of beats (R52). -/
def flitsOf (beats : Nat) : Nat := (beats + 3) / 4

/-- Credits become due to the other side of a port (R52). -/
def oweCredits (k hdr data : Nat) (s : State) : State :=
  setPort k { port k s with hdue := (port k s).hdue + hdr, ddue := (port k s).ddue + data } s

/-- Return the credits that a request held at ingress (R52). HP has none, nor has an access of a unit. -/
def returnCredits (r : Req) (s : State) : State :=
  let flits := if r.op == .rd then 0 else flitsOf r.beats
  match r.src with
  | .cp k => oweCredits k 1 flits s
  | .pp _ => oweCredits 17 1 flits s
  | _ => s

/-- One cycle of a port's credit return: up to 8 header and 15 data credits (R38, R52). (DESIGN CHOICE, log entry 85.) -/
def creditCycle (k : Nat) (s : State) : State :=
  let p := port k s
  let h := min 8 p.hdue
  let d := min 15 p.ddue
  if h = 0 && d = 0 then s
  else
    let t := setPort k { p with reqHdr := p.reqHdr + h, reqData := p.reqData + d, hdue := p.hdue - h, ddue := p.ddue - d } s
    { t with out := { t.out with crd := t.out.crd ++ [(k, h, d)] } }

/-- Complete a request at its port: its answer and its credits (R52). -/
def finishAtPort (r : Req) (rtype info : Nat) (s : State) : State := returnCredits r (answerPort r rtype info s)

/-- Drop the data that a request still awaits: later flits for it are consumed and dropped. Their credits go back with its answer
(R52). -/
def disown (k uid : Nat) (s : State) : State :=
  let p := port k s
  setPort k { p with owed := p.owed.map fun o => if o.owner == some uid then { o with owner := none, early := true } else o } s

/-! ### Tearing a curtain (R337) -/

/-- The requests of the curtain with the given identity that wait at ingress of port k complete with CURTAIN_TORN. -/
def tearIngress (k u : Nat) (s : State) : State :=
  let gone := (port k s).ing.filter fun r => r.curtUid == u
  let keep := (port k s).ing.filter fun r => r.curtUid != u
  gone.foldl (fun t r => finishAtPort r rtTorn 0 (disown k r.uid t)) (setPort k { port k s with ing := keep } s)

/-- Take a curtain out of its gate: its staging bank, and the part that stands for it in the lottery. -/
def dropStaged (k u : Nat) (g : Gate) : Gate :=
  if (mfind g.stage k).any fun x => x.uid == u then
    { g with
      stage := mdel g.stage k,
      parts := g.parts.filter fun a => a.curtUid != u,
      chosen := g.chosen.filter fun x => x.part.curtUid != u }
  else g

/-- A curtain's requests that have left ingress and not begun their locked sequence complete with CURTAIN_TORN. -/
def tearLive (k u : Nat) (s : State) : State :=
  let gone := s.live.filter fun x => x.2.req.curtUid == u && !x.2.answered
  gone.foldl (fun t x => answerPort x.2.req rtTorn 0 { t with live := mdel t.live x.1 })
    { s with gates := mmap (fun _ g => dropStaged k u g) s.gates }

/-- The hive of a curtain (R46): as its port knows it, or as its request at ingress or its staging bank shows. -/
def curtHive (k u : Nat) (s : State) : Option Nat :=
  let look := match (port k s).ing.find? fun r => r.curtUid == u with
    | some r => (mapAddr r.addr s).map fun q => q.n
    | none => (s.gates.find? fun x => (mfind x.2.stage k).any fun y => y.uid == u).map fun x => x.1
  match (port k s).curt with
  | .opened v n _ _ _ _ _ => if v = u then some n else look
  | _ => look

/-- Tear the curtain with identity u of port k (R337). `dog` says that its watchdog did it. -/
def tearCurtain (k u : Nat) (dog : Bool) (s : State) : State :=
  let t := tearLive k u (tearIngress k u s)
  let p := port k t
  let c : Curt := match p.curt with
    | .opened v _ _ _ _ _ _ => if v = u then .torn else p.curt
    | c => c
  let t := setPort k { p with curt := c, tornNext := p.tornNext || dog } t
  emit 0x106 1 (curtHive k u s) (some k) none none (portErr (ARB_PORT_ERR.CURT_TORN k) t)

/-- The identities of the port's curtains that have not begun their locked sequence. -/
def curtainsOf (k : Nat) (s : State) : List Nat :=
  let p := port k s
  let a := match p.curt with
    | .opened u _ _ _ _ _ _ => [u]
    | _ => []
  let b := p.ing.filterMap fun r => if r.curtUid = 0 then none else some r.curtUid
  let c := s.gates.filterMap fun x => (mfind x.2.stage k).map fun y => y.uid
  (a ++ b ++ c).eraseDups

/-- Tear every curtain of the port that has not begun its locked sequence. -/
def tearAll (k : Nat) (s : State) : State := (curtainsOf k s).foldl (fun t u => tearCurtain k u false t) s

/-! ### Header flits (R40, R52, R55, R58, R60) -/

/-- A write whose data have not all arrived when the port closes completes with POISON (R60). -/
def poisonUnfed (k : Nat) (s : State) : State :=
  let p := port k s
  let bad := (p.rx ++ p.ing).filter fun r => r.need != 0
  let t := setPort k { p with rx := p.rx.filter (fun r => r.need == 0), ing := p.ing.filter (fun r => r.need == 0),
                              owed := [] } s
  bad.foldl (fun t r => returnCredits r (answerPoisonAll { r with op := .wr } t)) t

/-- A header flit fails parity: the port closes (R60). -/
def closeByParity (k : Nat) (s : State) : State :=
  let t := tearAll k s
  let t := setPort k { port k t with ready := false, parityClosed := true } t
  portErr (ARB_PORT_ERR.HDR_PARITY k) (poisonUnfed k t)

/-- Take one header slot (R52, R55). A reserved opcode completes with FORMAT_ERR once its header is decoded. -/
def takeSlot (k : Nat) (s : State) (w : BitVec 256) : State :=
  let p := port k s
  if slotF w 0 4 = 0 then s
  else
    let r := reqOfSlot s.nextUid k s.fclk w
    if p.reqHdr = 0 then
      let o := if r.need = 0 then p.owed else p.owed ++ [⟨none, r.need, false⟩]
      portErr (ARB_PORT_ERR.NOCREDIT k) (setPort k { p with owed := o } s)
    else if p.tags.contains r.tag then
      let o := if r.need = 0 then p.owed else p.owed ++ [⟨none, r.need, false⟩]
      portErr (ARB_PORT_ERR.TAG_DUP k) (setPort k { p with owed := o, reqHdr := p.reqHdr - 1, hdue := p.hdue + 1 } s)
    else
      let o := if r.need = 0 then p.owed else p.owed ++ [⟨some r.uid, r.need, false⟩]
      let q := { p with reqHdr := p.reqHdr - 1, tags := r.tag :: p.tags, owed := o }
      let t := { s with nextUid := s.nextUid + 1 }
      if r.op == .bad then finishAtPort { r with op := .rd } rtFormat 1 (setPort k q t)
      else setPort k { q with rx := q.rx ++ [r] } t

/-- CP_HEADER_FLIT: a request header flit arrives at CP_k with its parity (R39, R55, R58, R60). -/
def headerFlit (k : Nat) (flit : BitVec 2048) (par : BitVec 256) (s : State) : State :=
  if !(port k s).ready then
    if decide (k < 16) then portErr (ARB_PORT_ERR.NOT_READY k) s else s
  else if flitParity flit ≠ par then closeByParity k s
  else (flitSlots flit).foldl (takeSlot k) s

/-! ### Data flits (R40, R52, R60) -/

/-- Give up to four beats to a request that awaits them. -/
def feed (uid : Nat) (beats : List Beat) (ok : Bool) (r : Req) : Req :=
  if r.uid = uid then
    let n := min 4 r.need
    { r with data := r.data ++ (beats ++ List.replicate 4 0).take n, need := r.need - n, parityBad := r.parityBad || !ok }
  else r

/-- A write with a data parity error is answered at the port: POISON, or the tearing of its curtain (R60). -/
def answerDataParity (k : Nat) (s : State) : State :=
  match (port k s).ing.find? fun r => r.parityBad && r.need == 0 with
  | none => s
  | some r =>
    let t := portErr (ARB_PORT_ERR.DATA_PARITY k) s
    if r.curtUid ≠ 0 then tearCurtain k r.curtUid false t
    else
      let p := port k t
      returnCredits r (answerPoisonAll r (setPort k { p with ing := p.ing.filter fun x => x.uid != r.uid } t))

/-- A request data flit that the port accepts: its beats go to the write that awaits them. The flits of a discarded header take a
credit that comes back at once (R55); those of a header that has been answered take one that has come back before (R52). A flit
that no header awaits is dropped and takes none. (DESIGN CHOICE, log entry 86.) -/
def takeData (k : Nat) (beats : List Beat) (parityOk : Bool) (s : State) : State :=
  let p := port k s
  match p.owed with
  | [] => if p.reqData = 0 then portErr (ARB_PORT_ERR.NOCREDIT k) s else s
  | o :: os =>
    if p.reqData = 0 then portErr (ARB_PORT_ERR.NOCREDIT k) s
    else
      let os := if o.beats ≤ 4 then os else { o with beats := o.beats - 4 } :: os
      match o.owner with
      | none => setPort k { p with owed := os, reqData := p.reqData - 1, ddue := if o.early then p.ddue else p.ddue + 1 } s
      | some u =>
        let q := { p with
          owed := os, reqData := p.reqData - 1,
          rx := p.rx.map (feed u beats parityOk), ing := p.ing.map (feed u beats parityOk) }
        answerDataParity k (setPort k q s)

/-- CP_DATA_FLIT: a request data flit arrives at CP_k with its parity (R39, R52, R55, R58, R60). -/
def dataFlit (k : Nat) (flit : BitVec 2048) (par : BitVec 256) (s : State) : State :=
  if !(port k s).ready then
    if decide (k < 16) then portErr (ARB_PORT_ERR.NOT_READY k) s else s
  else takeData k (flitBeats flit) (flitParity flit == par) s

/-! ### Link loss and reopening (R58, R59, R518) -/

/-- The request is an access of a job or of the firmware on the port's lane (R27, R28). -/
def unitReq (r : Req) : Bool := match r.src with | .unit _ => true | _ => false

/-- Withdraw the requests of a port that no gate has granted yet (R59). -/
def dropUngranted (k : Nat) (s : State) : State :=
  let queued := s.gates.flatMap fun x =>
    (x.2.parts ++ x.2.chosen.map (fun g => g.part)).filterMap fun p => if p.m = k && p.own then some p.uid else none
  let flying := s.gates.flatMap fun x => x.2.flying.map fun g => g.part.uid
  let dead := queued.filter fun u => !flying.contains u
  { s with
    gates := mmap (fun _ g => { g with
      parts := g.parts.filter (fun p => !(dead.contains p.uid)),
      chosen := g.chosen.filter (fun x => !(dead.contains x.part.uid)) }) s.gates,
    live := mkeep s.live fun u => !dead.contains u }

/-- CP_LINK_DOWN: CP_k_LINK_UP falls (R59). -/
def linkDown (k : Nat) (s : State) : State :=
  let t := dropUngranted k (tearAll k s)
  let p := port k t
  let t := { t with peer := { t.peer with inbox := t.peer.inbox.filter fun x => x.1.src != .cp k } }
  setPort k { Port.init with curt := p.curt, tornNext := p.tornNext, ing := p.ing.filter unitReq } t

/-- Requests of port k that have been granted and not answered. -/
def undrained (k : Nat) (s : State) : Bool := s.live.any fun x => x.2.req.src == .cp k && !x.2.answered

/-- Open the port: both sides hold no credits, and the full count is due (R52, R53). A torn curtain stays torn (R46), and accesses of
units on the lane wait on. -/
def openPort (k : Nat) (s : State) : State :=
  let p := port k s
  setPort k { Port.init with
    linkUp := true, ready := true, hdue := 256, ddue := 512, curt := if p.curt == .torn then .torn else .closed,
    tornNext := p.tornNext, ing := p.ing.filter unitReq } s

/-- CP_PORT_REOPEN: the link is up again and the reopening point has come (R59, R518). (DESIGN CHOICE, log entry 21.) -/
def portReopen (k : Nat) (s : State) : State :=
  if undrained k s || !portsOpen s || (port k s).ready || decide (16 ≤ k) || (port k s).parityClosed then
    setPort k { port k s with linkUp := true } s
  else openPort k s

/-! ### Sending responses (R41, R47, R53) -/

/-- CP_RSP_CREDIT_RETURN: the chiplet returns response credits (R53). -/
def rspCredits (k hdr data : Nat) (s : State) : State :=
  let p := port k s
  if p.ready || p.parityClosed then setPort k { p with rspHdr := p.rspHdr + hdr, rspData := p.rspData + data } s else s

/-- Send the first item that credit covers; a data flit never waits behind a header of another tag, and the items of one tag
keep their order. (DEDUCED, log entry 20.) -/
def takeSendable (h d : Nat) : List Egr → List Egr → Option (Egr × List Egr)
  | _, [] => none
  | skipped, e :: es =>
    let tag := match e with
      | .hdr _ t _ _ _ _ => t
      | .data t _ _ => t
    let behind := skipped.any fun x => match x with
      | .hdr _ t _ _ _ _ => t == tag
      | .data t _ _ => t == tag
    let able := match e with
      | .hdr _ _ _ _ _ _ => decide (0 < h)
      | .data _ _ _ => decide (0 < d)
    if able && !behind then some (e, skipped ++ es) else takeSendable h d (skipped ++ [e]) es

/-- RESPONSE_SEND: CP_k sends one response header or data flit (R53). -/
def responseSend (k : Nat) (s : State) : State :=
  let p := port k s
  match takeSendable p.rspHdr p.rspData [] p.egress with
  | none => s
  | some (e, rest) =>
    match e with
    | .hdr rt tag _ _ _ fin =>
      let q := { p with egress := rest, rspHdr := p.rspHdr - 1, tornNext := false,
                        tags := if fin then p.tags.erase tag else p.tags }
      let t := { setPort k q s with out := { s.out with cp := s.out.cp ++ [cpOutOf k p.tornNext e] } }
      let t := if rt = rtBackoff then emit 0x005 1 none (some k) none none t else t
      if rt = rtRestart then emit 0x006 1 none (some k) none none t else t
    | .data _ _ bs =>
      let t := { setPort k { p with egress := rest, rspData := p.rspData - 1 } s with
                 out := { s.out with cp := s.out.cp ++ [cpOutOf k false e] } }
      emit 0x007 (64 * bs.length) none (some k) none none t

end Sys2Proof.Machine
end

