-- ==== Sys2Proof/Machine/Integrity.lean ====
section
/-! DEFINITION. What a decode leads to (R352 to R361), the delivery of read beats and write acknowledgements to their request,
and the common steps of the queues of a pseudo-channel. -/

namespace Sys2Proof.Machine

open Reg

/-! ### Bits of a status register that a hive sets -/

/-- Set bit i of a W1C field and raise the integrity interrupt at its 0-to-1 change (R360, R361). -/
def hiveEvent (f : Fld) (i : Nat) (s : State) : State :=
  if (rd f s).testBit i then s else raiseInt 3 (put f (setBit (rd f s) i) s)

/-! ### Correctable errors (R353, R360) -/

/-- One correction enters the hive's bucket (R360). -/
def bucketAdd (n : Nat) (s : State) : State :=
  let size := max 1 (rd (ECC_CE_BUCKET.SIZE n) s)
  if rd (ECC_CE_BUCKET.LEVEL n) s < size then put (ECC_CE_BUCKET.LEVEL n) (rd (ECC_CE_BUCKET.LEVEL n) s + 1) s
  else hiveEvent ECC_HIVE_EVENT.CE_OVF n s

/-- The logical lane that carries a symbol of block `blk` (R350, R351). -/
def symbolLane (inl : Bool) (blk sym : Nat) : Nat :=
  if sym < 64 || !inl then sym / 2 else 4 * (blk % 8) + (sym - 64) / 2

/-- The row key that the keeper counts corrections by. -/
def rowKey (v : Split) : Nat := (v.sid * 16 + v.bank) * 2 ^ 18 + v.row

/-- A CORRECTED decode: its row is counted by its address, its lanes in the pseudo-channel that was read. `demand` says that it enters the bucket (R360). -/
def corrected (n c off : Nat) (changed : List Nat) (onlyErased demand : Bool) (s : State) : State :=
  let v := splitOff n off s
  let q := pcOf n c v.p s
  let t := setPc n c v.p { q with rowCe := mset q.rowCe (rowKey v) (mgetD q.rowCe (rowKey v) 0 + 1) } s
  let w := workPc n c off s
  let q := pcOf n c w t
  let lanes := changed.map (symbolLane (inlineCheck n s) v.blk)
  let t := setPc n c w { q with laneCnt := lanes.foldl (fun m l => mset m l (mgetD m l 0 + 1)) q.laneCnt } t
  let t := bump (ECC_CE_CNT.BLOCKS n) 1 t
  let t := if onlyErased then bump (ECC_CE_ERASED.BLOCKS n) 1 t else t
  let t := emit 0x500 1 (some n) none none (some c) t
  if demand && !onlyErased then bucketAdd n t else t

/-- A block is finally reported uncorrectable (R361); unless it is marked, its row may call for a remap entry or
a move (R365, R367). -/
def uncorrectable (n c off src : Nat) (marked : Bool) (s : State) : State :=
  let v := splitOff n off s
  let q := pcOf n c v.p s
  let s :=
    if marked then s
    else setPc n c v.p { q with ueRows := insertRising q.ueRows (rowKey v) } s
  let t := bump (ECC_UE_CNT.COUNT n) 1 s
  let t := if marked then bump (ECC_UE_CNT.MARKED n) 1 t else t
  let t := if on (ECC_UE_INFO_HI.VALID n) t then put (ECC_UE_INFO_HI.OVERFLOW n) 1 t
    else putAll [(ECC_UE_INFO_LO.ROW n, placeRow n v.row s), (ECC_UE_INFO_LO.BANK n, v.bank), (ECC_UE_INFO_LO.SID n, v.sid),
      (ECC_UE_INFO_LO.PC n, v.p), (ECC_UE_INFO_LO.CH n, c), (ECC_UE_INFO_HI.SRC n, src), (ECC_UE_INFO_HI.VALID n, 1)] t
  hiveEvent ECC_HIVE_EVENT.UE n (emit 0x501 1 (some n) none none (some c) t)

/-- INFO of UNCORRECTABLE for a block (R190). -/
def ueInfo (n c off : Nat) (s : State) : Nat :=
  let v := splitOff n off s
  placeRow n v.row s + (v.bank + 16 * v.sid) * 2 ^ 18 + v.p * 2 ^ 24 + c * 2 ^ 25 + n * 2 ^ 30

/-! ### Delivering to a request -/

/-- The mask of poisoned beats of a request. -/
def poisonMask (got : AMap (Option Beat)) : Nat := got.foldl (fun a x => if x.2.isNone then setBit a x.1 else a) 0

/-- The beats of a request from index i while they have returned, poisoned beats as zero (R48). -/
def beatsFrom (got : AMap (Option Beat)) : Nat → Nat → List Beat
  | 0, _ => []
  | k + 1, i =>
    match mfind got i with
    | none => []
    | some b => b.getD 0 :: beatsFrom got k (i + 1)

/-- Deliver the beats that are next in order to the egress buffer of a compute port (R41, R333): whole groups of four, and
the last group once complete. -/
def pushBeats (uid : Nat) (l : Live) (s : State) : State :=
  match l.req.src with
  | .cp k =>
    let avail := beatsFrom l.got (l.req.beats - l.sent) l.sent
    let m := if l.sent + avail.length = l.req.beats then avail.length else avail.length / 4 * 4
    let t := egressAll k (dataFlits l.req.tag l.sent (avail.take m)) s
    { t with live := mset t.live uid { l with sent := l.sent + m } }
  | _ => { s with live := mset s.live uid l }

/-- The bytes of a BAR_4 read in its beats. -/
def hpReadBytes (l : Live) (first len : Nat) : List Byte :=
  slice ((beatsFrom l.got l.req.beats 0).flatMap beatBytes) first len

/-- Put a response into the PP egress queue (R387); those of a lost link are discarded (R384, R59). -/
def ppRespond (slot : BitVec 256) (rtype len info freason node gen : Nat) (d : List Byte) (s : State) : State :=
  let e : PpRsp := ⟨slot, rtype, len, info, freason, node, gen, d⟩
  if answers (port 17 s) then { s with peer := { s.peer with egress := s.peer.egress ++ [e] } } else s

/-- The local write of a broadcast packet has ended, or has failed with an RTYPE; the first failure of the packet stays (R405). -/
def bcastWrote (uid : Nat) (fail : Option Nat) (s : State) : State :=
  let mark := fun (b : BcastWait) => if b.uid == uid then
      { b with wrote := true, failed := b.failed.or (fail.map fun rt => (rt, rd PEER_NODE_ID.NODE s, 0)) }
    else b
  { s with peer := { s.peer with bcasts := s.peer.bcasts.map mark } }

/-- An access of a unit has ended; its unit takes the answer (R27). -/
def arrive (x : Arrival) (s : State) : State := { s with arrived := s.arrived ++ [x] }

/-- Give the final response of a live request once every beat has returned or been performed (R48, R318). -/
def tryFinish (uid : Nat) (s : State) : State :=
  match mfind s.live uid with
  | none => s
  | some l =>
    let mask := poisonMask l.got
    if l.answered then s
    else if l.req.op == .rd then
      if l.got.length < l.req.beats then s
      else
        let t := { s with live := mset s.live uid { l with answered := true } }
        match l.req.src with
        | .cp k => egressPut k (.hdr (if mask = 0 then rtRdData else rtPoison) l.req.tag (l.req.beats - 1) 0 mask true) t
        | .hp tag first len => sendCompletion tag (l.req.addr + first) (hpReadBytes l first len) (mask != 0) t
        | .pp slot =>
          ppRespond slot (if mask = 0 then rtRdData else rtPoison) (l.req.beats - 1) mask 0 (rd PEER_NODE_ID.NODE s)
            (mgetD s.peer.inGen uid 1) ((beatsFrom l.got l.req.beats 0).flatMap beatBytes) t
        | .unit _ => arrive ⟨l.req, l.got, false, .done⟩ t
    else if l.left ≠ 0 then s
    else
      let t := { s with live := mset s.live uid { l with answered := true } }
      let rt := if l.failed then rtPoison else if l.req.op == .push then rtPushAck else rtWrAck
      match l.req.src with
      | .cp k => egressPut k (.hdr rt l.req.tag 0 0 (if l.failed then ones l.req.beats else 0) true) t
      | .hp _ _ _ => t
      | .pp slot =>
        if t.peer.bcasts.any (fun b => b.uid == uid) then
          (if l.failed then bcastWrote uid (some rtPoison) t else bcastWrote uid none t)
        else ppRespond slot rt 0 (if l.failed then ones l.req.beats else 0) 0 (rd PEER_NODE_ID.NODE s) (mgetD s.peer.inGen uid 1) [] t
      | .unit _ => arrive ⟨l.req, [], l.failed, .done⟩ t

/-- The entries of a request in the queues of a hive. -/
def entriesOf (n uid : Nat) (s : State) : Bool :=
  s.pcs.any fun x => x.1 / 64 == n &&
    (x.2.rdq.any (fun e => e.uid == uid) || x.2.wrq.any (fun e => e.uid == uid) || x.2.stage.any (fun e => e.uid == uid) ||
      x.2.retries.any (fun r => r.src != 2 && r.ent.uid == uid))

/-- A sampled part is complete: its latency and its RTYPE; completed items stand last, in completion order (R492, R493). -/
def sampleDone (n uid rtype : Nat) (s : State) : State :=
  let word := fun (x : Sample) (j w : Nat) =>
    if j = 4 then min (s.fclk - x.since) (2 ^ 32 - 1) else if j = 6 then w + rtype * 2 ^ 16 else w
  let hit := fun (x : Sample) => x.uid == uid && !x.done && !(x.words.getD 0 0).testBit 26
  let fin := fun (l : List Sample) =>
    l.filter (fun x => !hit x) ++ (l.filter hit).map fun x => { x with done := true, words := x.words.mapIdx (word x) }
  { s with samplers := mmap (fun i q => if i = n then { q with items := fin q.items } else q) s.samplers }

/-- The RTYPE of a request's part as far as it is known. -/
def partRtype (l : Live) : Nat :=
  if l.req.op == .rd then (if poisonMask l.got = 0 then rtRdData else rtPoison)
  else if l.failed then rtPoison else if l.req.op == .push then rtPushAck else rtWrAck

/-- Forget a grant whose last beat has left the hive's queues, and an answered request with nothing in flight. -/
def retireGrant (n uid : Nat) (s : State) : State :=
  if entriesOf n uid s then s
  else
    let drop := fun i (g : Gate) => if i = n then { g with flying := g.flying.filter fun x => x.part.uid != uid } else g
    let t := { s with gates := mmap drop s.gates }
    let busy := t.gates.any fun x => x.2.flying.any (fun g => g.part.uid == uid) || x.2.parts.any (fun p => p.uid == uid)
    match mfind t.live uid with
    | some l =>
      let t := sampleDone n uid (partRtype l) t
      if l.answered && !busy then { t with live := mdel t.live uid } else t
    | none => t

/-- A beat of a read has returned: its data, or none if it is poisoned. -/
def deliver (n uid beat : Nat) (d : Option Beat) (s : State) : State :=
  match mfind s.live uid with
  | none => retireGrant n uid s
  | some l =>
    let t := pushBeats uid { l with got := mset l.got beat d } s
    let t := tryFinish uid t
    let t := { t with bwBytes := mset t.bwBytes (2 * l.req.m) (mgetD t.bwBytes (2 * l.req.m) 0 + 64) }
    retireGrant n uid t

/-- A beat of a write has been performed, or has failed without writing (R359). -/
def ackWrite (n uid : Nat) (ok : Bool) (s : State) : State :=
  match mfind s.live uid with
  | none => retireGrant n uid s
  | some l =>
    let t := { s with live := mset s.live uid { l with left := l.left - 1, failed := l.failed || !ok } }
    retireGrant n uid (tryFinish uid t)

/-! ### Partial writes (R45, R359) -/

/-- The bits of the bytes that a 64-bit byte mask selects. -/
def byteMask (mask : Nat) : Beat :=
  BitVec.ofNat 512 (leNat ((List.range 64).map fun i => if mask.testBit i then (0xFF : Byte) else 0))

/-- Replace the selected bytes. -/
def mergeBytes (mask : Nat) (old new : Beat) : Beat := (new &&& byteMask mask) ||| (old &&& ~~~(byteMask mask))

/-! ### Queues of a pseudo-channel -/

/-- Two offsets name the same block. -/
def sameBlk (a b : Nat) : Bool := a / 64 == b / 64

/-- A scrub read of the block that came before. -/
def scrubBefore (q : Pc) (seq off : Nat) : Bool :=
  q.maint.any fun m => match m with | .scrub k o _ => decide (k < seq) && sameBlk o off | _ => false

/-- A queued write waits behind an earlier read of its block, external, of a stream or of scrub, and behind a re-read or a scrub of
it (R276, R356, R373). -/
def writeHeld (q : Pc) (e : QEnt) : Bool :=
  (q.rdq ++ q.strq).any (fun r => decide (r.seq < e.seq) && sameBlk r.off e.off) || scrubBefore q e.seq e.off ||
    q.retries.any (fun r => r.ent.seq != e.seq && sameBlk r.ent.off e.off) || q.scrubs.any (fun o => sameBlk o e.off)

/-- A read that came at `seq` waits for an earlier write of its block until that has drained (R275). -/
def readHeld (q : Pc) (seq off : Nat) : Bool :=
  (q.wrq ++ q.stage).any (fun w => decide (w.seq < seq) && sameBlk w.off off) || q.drains.any fun d => sameBlk d.1 off

/-- The write queue takes no write of the block: one is queued or has not drained, or the block is under re-reads or scrub (R276,
R356, R373). -/
def blockBusy (q : Pc) (off : Nat) : Bool :=
  q.wrq.any (fun w => sameBlk w.off off) || q.drains.any (fun d => sameBlk d.1 off) ||
    q.retries.any (fun r => sameBlk r.ent.off off) || q.scrubs.any fun o => sameBlk o off

/-- Bring memory up to date with the queued accesses of a block, in their order and up to the first write of part of it: queued
reads capture what they return and queued writes apply. An access made outside the queues then stands after all of them. -/
def settle (n c off : Nat) (s : State) : State :=
  let p := workPc n c off s
  let q := pcOf n c p s
  let ents := (q.rdq.map (fun e => (false, e)) ++ (q.wrq ++ q.stage).map (fun e => (true, e))).filter fun x => sameBlk x.2.off off
  let sorted := ents.foldl (fun (l : List (Bool × QEnt)) x =>
    l.takeWhile (fun y => decide (y.2.seq < x.2.seq)) ++ [x] ++ l.dropWhile (fun y => decide (y.2.seq < x.2.seq))) []
  (sorted.takeWhile fun x => x.2.mask.isNone).foldl (fun t x =>
    let q := pcOf n c p t
    if x.1 then
      match x.2.applied, x.2.data with
      | false, some d =>
        let mark := fun (e : QEnt) => if e.seq = x.2.seq then { e with applied := true } else e
        setPc n c p { q with wrq := q.wrq.map mark, stage := q.stage.map mark } (writeBlock n c off d t)
      | _, _ => t
    else if x.2.data.isNone && !isMarked n c off t then
      setPc n c p { q with rdq := q.rdq.map fun e => if e.seq = x.2.seq then { e with data := some (readBlock n c off t) } else e } t
    else t) s

/-- Read a block outside the queues: none if it is marked or named as uncorrectable by the command. -/
def directRead (n c off : Nat) (bad : List Nat) (s : State) : Option Beat :=
  if isMarked n c off s || bad.contains (blockKey n c off) then none else some (readBlock n c off s)

end Sys2Proof.Machine
end

