-- ==== Sys2Proof/Machine/Channel.lean ====
section
/-! DEFINITION. The channel controllers (R260 to R294): scheduling of row and column commands, refresh, neighbour refresh,
power-down and self-refresh, commits and mode registers. -/

namespace Sys2Proof.Machine

open Reg

/-! ### LFSRs (R281) -/

/-- One step of a 32-bit LFSR. -/
def lfsrNext (x : BitVec 32) : BitVec 32 :=
  let f := xor (xor (x.getLsbD 31) (x.getLsbD 21)) (xor (x.getLsbD 1) (x.getLsbD 0))
  (x <<< 1) ||| (if f then 1 else 0)

/-- A seed XOR i × 0x9E3779B9, or 1 if that is zero (R281, R329). -/
def lfsrSeed (seed i : Nat) : BitVec 32 :=
  let v := BitVec.ofNat 32 seed ^^^ BitVec.ofNat 32 (i * 0x9E3779B9)
  if v = 0 then 1 else v

/-- The LFSR of a channel. -/
def chanLfsr (n c : Nat) (s : State) : BitVec 32 :=
  (mfind s.chanLfsr (n * 32 + c)).getD (lfsrSeed (seedOf (CHC_NR_SEED.SEED n) s) c)

/-- K in force: 0 disables, 1 to 5 act as 6, 17 and above as 16 (R281). -/
def nrK (n : Nat) (s : State) : Nat :=
  let k := rd (CHC_NR_CFG.K n) s
  if k = 0 then 0 else min 16 (max 6 k)

/-- An activate steps the channel's LFSR and may schedule a neighbour refresh of its DRAM row (R281, R282). -/
def stepChannelLfsr (n c p sid bank row : Nat) (s : State) : State :=
  let x := lfsrNext (chanLfsr n c s)
  let t := { s with chanLfsr := mset s.chanLfsr (n * 32 + c) x }
  let k := nrK n s
  if k = 0 || x.toNat % 2 ^ k ≠ 0 then t
  else
    let q := pcOf n c p t
    let queued := (q.maint.filter fun m => match m with | .neighbour _ _ _ _ _ => true | _ => false).length
    if 4 ≤ queued then bump (CHC_NR_STAT.DROPPED n c) 1 t
    else setPc n c p { q with maint := q.maint ++ [.neighbour sid bank row (if row = 0 then 1 else 0) false] } t

/-! ### The remap table as the controller sees it (R364) -/

/-- Where an access to a DRAM row goes: pseudo-channel, stack ID, bank and row after the remap table (R266, R364). -/
def steer (n c p sid bank row : Nat) (s : State) : Nat × Nat × Nat × Nat :=
  match remapHit n c p sid bank row s with
  | none => (p, sid, bank, row)
  | some i => (i % 2, rd (CHC_HIVE_CFG.NSID n) s, i / 2, placeRow n (dRows n s - 1) s)

/-! ### Operations that wait in a pseudo-channel -/

/-- What an operation does when its row is open. An entry of a queue is named by its order, a neighbour refresh by the
pseudo-channel that holds it and its index; a fill and a write-back of the check cache are named by their check row. -/
inductive OpKind where
  | read (seq : Nat) | write (seq : Nat) | part (seq : Nat) | stream (seq : Nat) | reread (seq : Nat) | refresh | rfm
  | neighbour (own i : Nat) | scrub (seq off addr : Nat) | fill | wback
  deriving DecidableEq, Repr

/-- An operation with its class (R271), its age and its bank and row after the remap table. -/
structure POp where
  cls : Nat
  age : Nat
  sid : Nat
  bank : Nat
  row : Nat
  kind : OpKind
  deriving DecidableEq, Repr

def bankKey (sid bank : Nat) : Nat := sid * 16 + bank

/-- The stack ID, bank and row of a queue entry in DRAM. -/
def entPlace (n c off : Nat) (s : State) : Nat × Nat × Nat :=
  let v := splitOff n off s
  (steer n c v.p v.sid v.bank (placeRow n v.row s) s).2

/-- OWED at which a refresh is mandatory: 0 acts as 1 and 9 to 15 as 8 (R293). -/
def postpone (n : Nat) (s : State) : Int :=
  let v := rd (CHC_REF_CFG.POSTPONE n) s
  Int.ofNat (max 1 (min 8 v))

/-- The banks and rows that queue entries stand for. -/
def placesOf (n c : Nat) (l : List QEnt) (s : State) : List (Nat × Nat) :=
  l.map fun e => let x := entPlace n c e.off s; (bankKey x.1 x.2.1, x.2.2)

/-- The bank that the next refresh takes (R278): the requests of a bank are its external reads and writes. (DEDUCED, log entry
38.) -/
def refreshBank (n c : Nat) (q : Pc) (s : State) : Nat :=
  let all := (List.range (16 * (rd (CHC_HIVE_CFG.NSID n) s + 1))).filter fun b => !q.roundDone.contains b
  let reqs := placesOf n c (q.rdq ++ q.wrq) s
  let str := placesOf n c q.strq s
  let near := (str.eraseDups.take 4).map fun x => x.1
  let queued := fun (b : Nat) => (reqs.filter fun x => x.1 == b).length
  let hit := fun (b : Nat) => ((mgetD q.banks b Bank.init).openRow).any fun r => (reqs ++ str).contains (b, r)
  match all.find? fun b => queued b == 0 && !hit b && !near.contains b with
  | some b => b
  | none =>
    (all.foldl (fun (a : Option (Nat × Nat)) b =>
      let k := queued b
      match a with
      | some x => if k < x.2 then some (b, k) else a
      | none => some (b, k)) none).elim 0 fun x => x.1

/-- The CCLK that a time in ns takes at the trained pin rate: CCLK is the rate ÷ 16 (R289). -/
def nsCclk (n ns : Nat) (s : State) : Nat := ns * rd (PHY_CFG.RATE n) s / 160

/-- A further re-read of a block may issue: at most three, and none more than 300 ns after the first uncorrectable decode (R355). -/
def mayReread (n : Nat) (q : Pc) (r : Retry) (s : State) : Bool :=
  decide (r.tries < 3) && decide (q.cclk ≤ r.since + nsCclk n 300 s)

/-- The write class: 2 while forced, else 4; raised to the class of a read that waits on the write (R271). -/
def writeClass (q : Pc) (e : QEnt) : Nat :=
  let base := if q.forced then 2 else 4
  let waits := ((q.rdq ++ q.strq).filter fun r => decide (e.seq < r.seq) && sameBlk r.off e.off).map fun r => if r.urgent then 1 else 3
  waits.foldl min base

/-- The operations on data blocks that wait in a pseudo-channel and are not held back by the order of their block (R271, R275,
R276): reads, writes, the reads of partial writes, stream reads, re-reads and scrub reads. -/
def dataOps (n c : Nat) (q : Pc) (s : State) : List POp :=
  let mk := fun cls age off kind => let x := entPlace n c off s; (⟨cls, age, x.1, x.2.1, x.2.2, kind⟩ : POp)
  let reads := (q.rdq.filter fun e => !readHeld q e.seq e.off).map fun e => mk (if e.urgent then 1 else 3) e.seq e.off (.read e.seq)
  let writes := (q.wrq.filter fun e => !writeHeld q e && !e.asked).map fun e =>
    mk (writeClass q e) e.seq e.off (if e.mask.isSome then .part e.seq else .write e.seq)
  let streams := (q.strq.filter fun e => !readHeld q e.seq e.off).map fun e => mk 3 e.seq e.off (.stream e.seq)
  let again := (q.retries.filter fun r => !r.asked && mayReread n q r s).map fun r => mk 1 r.ent.seq r.ent.off (.reread r.ent.seq)
  let scrubs := q.maint.filterMap fun m =>
    match m with
    | .scrub seq off addr => if readHeld q seq off || decide (q.cclk < q.scrubAt) then none else some (mk 5 seq off (.scrub seq off addr))
    | _ => none
  reads ++ writes ++ streams ++ again ++ scrubs

/-- The operation is a refresh of some kind. -/
def isRefresh (o : POp) : Bool := match o.kind with | .refresh => true | .rfm => true | .neighbour _ _ => true | _ => false

/-- The first operation ranks above the second: a higher class, then the older (R272). -/
def before (x y : POp) : Bool := decide (x.cls < y.cls) || (x.cls == y.cls && decide (x.age < y.age))

/-- The operation that ranks highest. -/
def bestOp (l : List POp) : Option POp :=
  l.foldl (fun a x => match a with | none => some x | some y => if before x y then some x else a) none

/-! ### The check cache (R267) -/

/-- A check-cache entry is the check row of an operation on a data row. -/
def checkOf (o : POp) (e : CheckRow) : Bool := e.sid == o.sid && e.bank == o.bank && e.row == checkRowOf o.row

/-- A data operation of an inline hive whose check bytes are not in the cache: no entry, or one that is still being filled. -/
def cacheMiss (n : Nat) (q : Pc) (o : POp) (s : State) : Bool :=
  match o.kind with
  | .fill => false
  | .wback => false
  | _ => inlineCheck n s && !isRefresh o && !(q.cache.any fun e => checkOf o e && e.fill == 0)

/-- The fills and write-backs that run, raised to the class of the highest-ranked operation that waits on them (R271). -/
def cacheOps (q : Pc) (ops : List POp) : List POp :=
  q.cache.filterMap fun e =>
    let mk := fun (kind : OpKind) (l : List POp) =>
      let b := (bestOp l).getD ⟨5, 0, 0, 0, 0, kind⟩
      (⟨b.cls, b.age, e.sid, e.bank, e.row, kind⟩ : POp)
    if e.fill ≠ 0 then some (mk .fill (ops.filter fun o => checkOf o e))
    else if e.wb ≠ 0 then some (mk .wback (ops.filter fun o => !q.cache.any (checkOf o)))
    else none

/-- A new entry for the highest-ranked operation that has none: it takes a free place or that of the least recently used entry, which
is first written back if it is dirty. An entry on which an operation of higher rank waits stays (R267, log entry 38). Answers whether
an entry was taken. -/
def cacheTake (n c : Nat) (q : Pc) (s : State) : Pc × Bool :=
  let ops := dataOps n c q s
  match bestOp (ops.filter fun o => inlineCheck n s && !q.cache.any (checkOf o)) with
  | none => (q, false)
  | some o =>
    let new : CheckRow := ⟨o.sid, o.bank, checkRowOf o.row, false, 16, 0⟩
    if q.cache.length < 8 then ({ q with cache := new :: q.cache }, true)
    else
      match q.cache.getLast? with
      | none => (q, false)
      | some v =>
        if v.fill ≠ 0 || v.wb ≠ 0 || ops.any (fun x => checkOf x v && before x o) then (q, false)
        else if v.dirty then ({ q with cache := q.cache.dropLast ++ [{ v with dirty := false, wb := 16 }] }, false)
        else ({ q with cache := new :: q.cache.dropLast }, true)

/-! ### Refresh work and all that waits -/

/-- The neighbour refreshes of pseudo-channel `own` whose next row lies, after the remap table, in pseudo-channel p (R266, R282). -/
def neighbourOps (n c p own : Nat) (l : List Maint) (s : State) : List POp :=
  (l.mapIdx fun i m => (i, m)).filterMap fun x =>
    match x.2 with
    | .neighbour sid bank row stage mand =>
      let y := steer n c own sid bank (if stage = 0 then row - 1 else row + 1) s
      if y.1 = p then some ⟨if mand then 0 else 5, x.1, y.2.1, y.2.2.1, y.2.2.2, .neighbour own x.1⟩ else none
    | _ => none

/-- RAAIMT and RAAMMT in force (R293). -/
def raaLimits (n : Nat) (s : State) : Nat × Nat :=
  let lim := rd (CHC_RFM.RAAIMT n) s
  (lim, max lim (rd (CHC_RFM.RAAMMT n) s))

/-- The refresh that is next and the refresh-management command that is next, the mandatory ones first (R277, R280). -/
def refreshOps (n c : Nat) (q : Pc) (s : State) : List POp :=
  let refr : List POp :=
    if q.owed ≤ -8 then []
    else
      let b := refreshBank n c q s
      [⟨if postpone n s ≤ q.owed then 0 else 5, 0, b / 16, b % 16, 0, .refresh⟩]
  let l := raaLimits n s
  let due := if !on (CHC_RFM.EN n) s then [] else q.banks.filterMap fun x =>
    if l.1 ≤ x.2.raa then some (⟨if l.2 ≤ x.2.raa then 0 else 5, 0, x.1 / 16, x.1 % 16, 0, .rfm⟩ : POp) else none
  refr ++ (bestOp due).toList

/-- Every operation that waits in a pseudo-channel. -/
def waitingOps (n c p : Nat) (q : Pc) (s : State) : List POp :=
  let ops := dataOps n c q s
  ops ++ cacheOps q ops ++ refreshOps n c q s ++ neighbourOps n c p p q.maint s ++
    neighbourOps n c p (1 - p) (pcOf n c (1 - p) s).maint s

/-- A command of a higher class waits for the operation's bank (R272). -/
def outranked (ops : List POp) (o : POp) : Bool :=
  ops.any fun x => x.sid == o.sid && x.bank == o.bank && decide (x.cls < o.cls)

/-- Activates of the current 256-CCLK window (R415). -/
def actsInWindow (q : Pc) : Nat := (q.acts.filter fun a => a.1 / 256 == q.cclk / 256).length

/-- The activate budget lets an activate of a class go now (R415, R417). -/
def actBudget (n : Nat) (q : Pc) (cls : Nat) (s : State) : Bool :=
  let l := rd (HIV_THM_STATE.LEVEL n) s
  l == 0 || decide (cls ≤ 1) || decide (actsInWindow q < rd (HIV_THROT_CFG.ACT_BASE n) s * (256 - 32 * l) / 256)

/-- An activate meets tRRD_S, tRRD_L and tFAW (R290). -/
def actSpacing (n : Nat) (q : Pc) (bank : Nat) (s : State) : Bool :=
  let faw := (q.acts.filter fun a => decide (q.cclk < a.1 + rd (CHC_T_1.tFAW n) s)).length
  decide (faw < 4) && q.acts.all fun a =>
    decide (a.1 + (if a.2 = bank / 4 then rd (CHC_T_1.tRRD_L n) s else rd (CHC_T_1.tRRD_S n) s) ≤ q.cclk)

/-- The commands that a pseudo-channel can issue. -/
inductive Cmd where
  | act (o : POp) | pre (o : POp) | ref (o : POp) | col (o : POp)
  deriving DecidableEq, Repr

/-- An open row has taken its consecutive column commands (R274). -/
def capReached (n : Nat) (b : Bank) (s : State) : Bool := decide (max 1 (rd (CHC_ARB.HIT_CAP n) s) ≤ b.hits)

/-- An operation of at least the class that hits the open row r keeps it open, unless the row has taken its share and the hit is of
the same class and younger (R272, R274). -/
def keepsOpen (n : Nat) (q : Pc) (b : Bank) (r : Nat) (ops : List POp) (o : POp) (s : State) : Bool :=
  ops.any fun x => x.sid == o.sid && x.bank == o.bank && x.row == r && decide (x.cls ≤ o.cls) && x.kind != o.kind &&
    !isRefresh x && !cacheMiss n q x s && !(capReached n b s && x.cls == o.cls && decide (o.age < x.age))

/-- The row command that an operation needs now, if its timing is met (R272, R274). One that lacks its check row waits for the
fill (R267). -/
def rowCmd (n : Nat) (q : Pc) (ops : List POp) (o : POp) (s : State) : Option Cmd :=
  let b := mgetD q.banks (bankKey o.sid o.bank) Bank.init
  if outranked ops o || cacheMiss n q o s then none
  else
    match b.openRow with
    | some r =>
      if r = o.row && !isRefresh o then none
      else if (keepsOpen n q b r ops o s && !isRefresh o) || decide (q.cclk < b.preAt) then none else some (.pre o)
    | none =>
      if q.cclk < b.actAt then none
      else
        match o.kind with
        | .refresh => some (.ref o)
        | .rfm => some (.ref o)
        | _ => if !actSpacing n q o.bank s || !actBudget n q o.cls s then none else some (.act o)

/-- An older operation of the same class waits for another row of the bank, whose open row has taken its share (R274). -/
def givesWay (n : Nat) (b : Bank) (ops : List POp) (o : POp) (s : State) : Bool :=
  capReached n b s && ops.any fun x => x.sid == o.sid && x.bank == o.bank && x.cls == o.cls && x.row != o.row && decide (x.age < o.age) &&
    !isRefresh x

/-- A column command of the bank group meets the spacing of the column bus (R290): tCCD after every column command, tWTR after the
last beat of a write for a read, tRTW after a read for a write. -/
def colSpacing (n : Nat) (q : Pc) (isWr : Bool) (g : Nat) (s : State) : Bool :=
  q.colAt.all (fun x => decide (x.2 + (if x.1 = g then rd (CHC_T_1.tCCD_L n) s else rd (CHC_T_1.tCCD_S n) s) ≤ q.cclk)) &&
    (if isWr then decide (q.wrAt ≤ q.cclk)
     else q.wrCol.all fun x => decide (x.2 + rd (CHC_T_2.tWL n) s + 1 +
      (if x.1 = g then rd (CHC_T_3.tWTR_L n) s else rd (CHC_T_3.tWTR_S n) s) ≤ q.cclk))

/-- The operation's column command is a write. -/
def isWrite (o : POp) : Bool := match o.kind with | .write _ => true | .wback => true | _ => false

/-- The column command of an operation, if its row is open and its timing is met (R272, R274, R290). -/
def colCmd (n : Nat) (q : Pc) (ops : List POp) (o : POp) (s : State) : Option Cmd :=
  let b := mgetD q.banks (bankKey o.sid o.bank) Bank.init
  if isRefresh o || outranked ops o || givesWay n b ops o s || cacheMiss n q o s then none
  else if b.openRow = some o.row && decide ((if isWrite o then b.wrAt else b.rdAt) ≤ q.cclk) && colSpacing n q (isWrite o) (o.bank / 4) s
  then some (.col o) else none

def cmdOp : Cmd → POp
  | .act o => o
  | .pre o => o
  | .ref o => o
  | .col o => o

/-- The highest class first, then the oldest (R272). -/
def pickCmd (l : List Cmd) : Option Cmd :=
  l.foldl (fun a x => match a with | none => some x | some y => if before (cmdOp x) (cmdOp y) then some x else a) none

/-- A command for a stream entry. -/
def isStream (x : Cmd) : Bool := match (cmdOp x).kind with | .stream _ => true | _ => false

/-- A command for an external read of class 3. -/
def isExternal (x : Cmd) : Bool := (match (cmdOp x).kind with | .read _ => true | _ => false) && (cmdOp x).cls == 3

/-- STREAM_SHARE in force: values above 16 act as 16 (R273). -/
def streamShare (n : Nat) (s : State) : Int := Int.ofNat (min 16 (rd (CHC_ARB.STREAM_SHARE n) s))

/-- The share of column slots between the stream and external reads of class 3 (R273). -/
def shareFilter (n : Nat) (q : Pc) (l : List Cmd) (s : State) : List Cmd :=
  let share := streamShare n s
  if l.any isStream && l.any isExternal then
    if share = 16 || (share ≠ 0 && q.deficit + share ≥ 16) then l.filter fun x => !isExternal x else l.filter fun x => !isStream x
  else l

/-- Account a class 3 column slot that both sides wanted (R273). -/
def shareStep (n : Nat) (both isStr : Bool) (q : Pc) (s : State) : Pc :=
  if !both then q
  else
    let d := q.deficit + streamShare n s
    { q with deficit := if isStr then d - 16 else d }

/-! ### The effect of each command -/

def setBank (k : Nat) (b : Bank) (q : Pc) : Pc := { q with banks := mset q.banks k b }

/-- A bank whose row is open is precharged at `at_`: it may be activated tRP later (R290). -/
def shut (n at_ : Nat) (b : Bank) (s : State) : Bank :=
  { b with openRow := none, hits := 0, actAt := max b.actAt (at_ + rd (CHC_T_0.tRP n) s) }

/-- A bank of a pseudo-channel takes an activate of a row: its windows start, its rolling count rises (R280) and the activate
enters the windows of R290 and R415. -/
def activated (n : Nat) (sid bank : Nat) (row : Option Nat) (q : Pc) (s : State) : Pc :=
  let k := bankKey sid bank
  let b := mgetD q.banks k Bank.init
  let b := { b with
    openRow := row, hits := 0, lastHit := q.cclk, raa := b.raa + 1,
    actAt := q.cclk + rd (CHC_T_0.tRC n) s, preAt := q.cclk + rd (CHC_T_0.tRAS n) s,
    rdAt := q.cclk + rd (CHC_T_0.tRCD n) s, wrAt := q.cclk + rd (CHC_T_0.tRCD n) s }
  setBank k b { q with acts := (q.cclk, bank / 4) :: q.acts.filter fun a => decide (q.cclk < a.1 + 512) }

/-- One row of a neighbour refresh has been activated: the other row is next, or the refresh has been performed (R282). -/
def neighbourDone (n c own i : Nat) (s : State) : State :=
  let q := pcOf n c own s
  let last := 2 ^ rd (CHC_HIVE_CFG.ROWBITS n) s - 1
  match q.maint[i]? with
  | some (.neighbour sid bank row stage mand) =>
    if stage = 0 && decide (row < last) then
      setPc n c own { q with maint := q.maint.set i (.neighbour sid bank row 1 mand) } s
    else
      bump (CHC_NR_STAT.ISSUED n c) 1 (emit 0x207 1 (some n) none none (some c) (setPc n c own { q with maint := q.maint.eraseIdx i } s))
  | _ => s

/-- An activate: the bank opens and the LFSR steps, unless a neighbour refresh asked for it, which precharges at once (R281, R282). -/
def doAct (n c p : Nat) (o : POp) (s : State) : State :=
  let act := fun (row : Option Nat) =>
    emit 0x200 1 (some n) none none (some c) (setPc n c p (activated n o.sid o.bank row (pcOf n c p s) s) s)
  match o.kind with
  | .neighbour own i => neighbourDone n c own i (act none)
  | _ => stepChannelLfsr n c p o.sid o.bank o.row (act (some o.row))

/-- A precharge. -/
def doPre (n c p : Nat) (o : POp) (s : State) : State :=
  let q := pcOf n c p s
  let k := bankKey o.sid o.bank
  setPc n c p (setBank k (shut n q.cclk (mgetD q.banks k Bank.init) s) q) s

/-- A per-bank refresh or refresh-management command (R277, R280): either lowers the bank's rolling count by RAAIMT. (PRESUMED, log
entry 98.) -/
def doRef (n c p : Nat) (o : POp) (s : State) : State :=
  let q := pcOf n c p s
  let k := bankKey o.sid o.bank
  let b := mgetD q.banks k Bank.init
  let busy := q.cclk + rd (CHC_T_4.tRFCpb n) s
  let others := (List.range (16 * (rd (CHC_HIVE_CFG.NSID n) s + 1))).foldl (fun m i =>
    let x := mgetD m i Bank.init
    mset m i { x with actAt := max x.actAt (q.cclk + rd (CHC_T_5.tRREFD n) s) }) q.banks
  let q := setBank k { b with raa := b.raa - rd (CHC_RFM.RAAIMT n) s, actAt := busy } { q with banks := others }
  if o.kind == .rfm then setPc n c p q s
  else
    let done := insertRising q.roundDone k
    let done := if done.length = 16 * (rd (CHC_HIVE_CFG.NSID n) s + 1) then [] else done
    let t := emit 0x205 1 (some n) none none (some c) (setPc n c p { q with owed := max (-8) (q.owed - 1), roundDone := done } s)
    if o.cls = 0 then bump (CHC_REF_STATUS.MANDATORY n c) 1 (emit 0x206 1 (some n) none none (some c) t) else t

/-- A block of an operand reaches the stream buffer of the logical cell that asked for it, none if it is uncorrectable. The entry
carries the identity of the cell's run, the row and the block of the row; a run that has been restarted takes nothing (R154). -/
def feedStream (n : Nat) (e : QEnt) (d : Option Beat) (s : State) : State :=
  let give := fun (t : Taker) => if t.run = e.uid then { t with buffer := t.buffer ++ [(e.beat, e.part, d)] } else t
  let feed := fun (x : Stream) => { x with takers := mmap (fun _ t => give t) x.takers }
  { s with hives := mmap (fun i h =>
      if i = n then { h with cue := h.cue.map fun c => { c with streams := c.streams.map feed } } else h) s.hives }

/-- The data of a partial write's block have been read: its bytes are merged and the entry becomes a whole write, which the port takes
as performed; none if the block is uncorrectable: nothing is written (R359). -/
def answerPart (n c p : Nat) (e : QEnt) (d : Option Beat) (s : State) : State :=
  let q := pcOf n c p s
  match d with
  | none => ackWrite n e.uid false (setPc n c p { q with wrq := q.wrq.filter fun x => x.seq != e.seq } s)
  | some b =>
    let merge := fun (x : QEnt) =>
      if x.seq = e.seq then { x with data := some (mergeBytes (x.mask.getD 0) b (x.data.getD 0)), mask := none, asked := false } else x
    ackWrite n e.uid true (setPc n c p { q with wrq := q.wrq.map merge } s)

/-- What a read returns goes to its request, to the stream that asked for it (source 2 of R361) or to its partial write (source
4). -/
def answerRead (n c p src : Nat) (e : QEnt) (d : Option Beat) (s : State) : State :=
  if src = 2 then feedStream n e d s else if src = 4 then answerPart n c p e d s else deliver n e.uid e.beat d s

/-- The decode of a read that has returned (R352, R355): its data, or its entry among the re-reads. `src` is the code of R361. -/
def finishRead (n c p src : Nat) (e : QEnt) (errs : ErrPat) (s : State) : State :=
  let held := if src = 4 then none else e.data
  if isMarked n c e.off s && held.isNone then answerRead n c p src e none (uncorrectable n c e.off src true s)
  else
    let d := held.getD (readBlock n c e.off s)
    match decodeErr errs (erasedSymbols n c p s) with
    | .clean left => answerRead n c p src e (some (applyErr left d)) s
    | .corrected left ch er => answerRead n c p src e (some (applyErr left d)) (corrected n c e.off ch er true s)
    | .uncorrectable =>
      let q := pcOf n c p s
      setPc n c p { q with retries := q.retries ++ [⟨{ e with data := some d }, src, 0, false, q.cclk⟩] } s

/-- A block that scrub finds uncorrectable is left as it is and counted (R373, R374). -/
def scrubUe (n c off addr : Nat) (marked : Bool) (s : State) : State :=
  let t := uncorrectable n c off 3 marked s
  let t := if rd ECC_SCRUB_UE.COUNT t = 0 then put ECC_SCRUB_UE_ADDR.ADDR addr t else t
  bump ECC_SCRUB_UE.COUNT 1 t

/-- A block that scrub finds corrected is written back: the write-back is queued, behind a full write queue in the gate's staging, or
dropped where a newer write of the block waits (R276, R373). -/
def scrubFix (n c p off : Nat) (left : ErrPat) (ch : List Nat) (er : Bool) (s : State) : State :=
  let t := corrected n c off ch er false s
  let q := pcOf n c p t
  if (q.wrq ++ q.stage).any (fun w => sameBlk w.off off) then t
  else
    let e := QEnt.plain t.nextUid 0 0 0 off false (some (applyErr left (readBlock n c off t)))
    let q := if 32 ≤ q.wrq.length then { q with stage := q.stage ++ [e] } else { q with wrq := q.wrq ++ [e] }
    bump ECC_SCRUB_SUMMARY.CORRECTED 1 { setPc n c p q t with nextUid := t.nextUid + 1 }

/-- A scrub read returns (R373); one that decodes uncorrectable is re-read (R355), its entry carrying the device address. -/
def finishScrub (n c p off addr : Nat) (errs : ErrPat) (s : State) : State :=
  let t := emit 0x503 1 (some n) none none (some c) s
  if isMarked n c off t then scrubUe n c off addr true t
  else
    match decodeErr errs (erasedSymbols n c p t) with
    | .clean _ => t
    | .corrected left ch er => scrubFix n c p off left ch er t
    | .uncorrectable =>
      let q := pcOf n c p t
      let e := QEnt.plain t.nextUid 0 addr 0 off false (some (readBlock n c off t))
      { setPc n c p { q with retries := q.retries ++ [⟨e, 3, 0, false, q.cclk⟩] } t with nextUid := t.nextUid + 1 }

/-- A part that was re-read says so in its sample (R493). -/
def markReread (n uid : Nat) (s : State) : State :=
  let f := fun (x : Sample) =>
    if x.uid == uid && !x.done && !(x.words.getD 0 0).testBit 26 then { x with words := x.words.mapIdx fun j w => if j = 6 then setBit w 28 else w }
    else x
  { s with samplers := mmap (fun i q => if i = n then { q with items := q.items.map f } else q) s.samplers }

/-- The use of a check row by a column command: its entry becomes the most recently used, and a write makes it dirty. The check
cache acts on DRAM rows as the remap table leaves them (R266, R267). -/
def useCheck (o : POp) (isWr : Bool) (l : List CheckRow) : List CheckRow :=
  ((l.filter (checkOf o)).map fun x => { x with dirty := x.dirty || isWr }) ++ l.filter fun x => !checkOf o x

/-- The times that a column command starts (R290), and its use of the check cache. -/
def colTiming (n : Nat) (o : POp) (q : Pc) (s : State) : Pc :=
  let k := bankKey o.sid o.bank
  let b := mgetD q.banks k Bank.init
  let wr := isWrite o
  let b := { b with
    hits := b.hits + 1, lastHit := q.cclk,
    preAt := max b.preAt (q.cclk + (if wr then rd (CHC_T_2.tWL n) s + 1 + rd (CHC_T_2.tWR n) s else rd (CHC_T_1.tRTP n) s)) }
  let q := setBank k b q
  let q := { q with colAt := mset q.colAt (o.bank / 4) q.cclk, cache := useCheck o wr q.cache }
  if wr then { q with wrCol := mset q.wrCol (o.bank / 4) q.cclk } else { q with wrAt := q.cclk + rd (CHC_T_2.tRTW n) s }

/-- One block of a fill or a write-back of the check cache has moved; after the last the check row is precharged (R267). -/
def moveCheck (n : Nat) (o : POp) (q : Pc) (s : State) : Pc :=
  let q := colTiming n o q s
  let mine := fun (e : CheckRow) => e.sid == o.sid && e.bank == o.bank && e.row == o.row
  let left := fun (e : CheckRow) => if o.kind == .fill then e.fill else e.wb
  let move := fun (e : CheckRow) =>
    if !mine e then e else if o.kind == .fill then { e with fill := e.fill - 1 } else { e with wb := e.wb - 1 }
  let k := bankKey o.sid o.bank
  let b := mgetD q.banks k Bank.init
  let last := q.cache.any fun e => mine e && left e == 1
  let q := { q with cache := q.cache.map move }
  if last then setBank k (shut n b.preAt b s) q else q

/-- A write whose column command issues: the block is written, or marked if its queued data failed parity (R362). It has drained
once its last beat has been driven and tWTR_L has elapsed (R275). -/
def finishWrite (n c p : Nat) (e : QEnt) (parityError : Bool) (s : State) : State :=
  let q := pcOf n c p s
  let w := q.wrq.filter fun x => x.seq != e.seq
  let lo := min (rd (CHC_WRQ.LO n) s) (rd (CHC_WRQ.HI n) s - 1)
  let q := { q with
    wrq := w, forced := q.forced && decide (lo < w.length),
    drains := q.drains ++ [(e.off, q.cclk + rd (CHC_T_2.tWL n) s + 1 + rd (CHC_T_3.tWTR_L n) s)] }
  let t := setPc n c p q s
  let t :=
    if parityError then uncorrectable n c e.off 6 true (markBlock n c e.off t)
    else
      match e.applied, e.data with
      | false, some d => writeBlock n c e.off d t
      | _, _ => t
  retireGrant n e.uid t

/-- The events of a column command: its own, that of a row hit and that of an access that the remap table steered (R487). -/
def colEvents (n c : Nat) (o : POp) (b : Bank) (event : Option Nat) (s : State) : State :=
  let t := match event with | some e => emit e 1 (some n) none none (some c) s | none => s
  let t := if 0 < b.hits then emit 0x204 1 (some n) none none (some c) t else t
  if o.sid = rd (CHC_HIVE_CFG.NSID n) s && o.row = placeRow n (dRows n s - 1) s then emit 0x504 1 (some n) none none (some c) t else t

/-- The code in ECC_UE_INFO of a read that a request made: 7 for an access of a job, of a ring or of the firmware, else 1 (R380). -/
def readSrc (uid : Nat) (s : State) : Nat :=
  match mfind s.live uid with
  | some l => match l.req.src with
    | .unit _ => 7
    | _ => 1
  | none => 1

/-- The column command of an operation and what it returns. A beat that meets a parity error on its way back to the port is
POISON (R362). -/
def doCol (n c p : Nat) (o : POp) (errs : ErrPat) (parityError : Bool) (s : State) : State :=
  let q := pcOf n c p s
  let ev := fun (e : Option Nat) (t : State) => colEvents n c o (mgetD q.banks (bankKey o.sid o.bank) Bank.init) e t
  match o.kind with
  | .read k =>
    match q.rdq.find? fun e => e.seq == k with
    | none => s
    | some e =>
      let t := ev (some 0x201) (setPc n c p (colTiming n o { q with rdq := q.rdq.filter fun x => x.seq != k } s) s)
      if parityError then deliver n e.uid e.beat none t else finishRead n c p (readSrc e.uid s) e errs t
  | .part k =>
    let ask := fun (e : QEnt) => if e.seq = k then { e with asked := true } else e
    ev (some 0x201) (setPc n c p (colTiming n o { q with wrq := q.wrq.map ask } s) s)
  | .stream k =>
    match q.strq.find? fun e => e.seq == k with
    | none => s
    | some e =>
      finishRead n c p 2 e errs (ev (some 0x203) (setPc n c p (colTiming n o { q with strq := q.strq.filter fun x => x.seq != k } s) s))
  | .reread k =>
    let ask := fun (r : Retry) => if r.ent.seq = k then { r with asked := true, tries := r.tries + 1 } else r
    let t := bump (ECC_RETRY_CNT.ISSUED n) 1 (ev (some 0x502) (setPc n c p (colTiming n o { q with retries := q.retries.map ask } s) s))
    match q.retries.find? fun r => r.ent.seq == k with
    | some r => if r.src = 2 then t else markReread n r.ent.uid t
    | none => t
  | .write k =>
    match q.wrq.find? fun e => e.seq == k with
    | none => s
    | some e => finishWrite n c p e parityError (ev (some 0x202) (setPc n c p (colTiming n o q s) s))
  | .scrub seq off addr =>
    let q := { q with
      maint := q.maint.erase (.scrub seq off addr), scrubs := off :: q.scrubs, scrubAt := q.cclk + rd ECC_SCRUB_CTRL.GAP s }
    ev none (setPc n c p (colTiming n o q s) s)
  | .fill => setPc n c p (moveCheck n o q s) s
  | .wback => setPc n c p (moveCheck n o q s) s
  | _ => s

/-! ### One CCLK -/

/-- Probe bursts of the sweeps of one pseudo-channel: 392 of the read sweeps, and 392 probe writes with 392 probe reads of the write
sweeps (R306, R307). -/
def probeBursts : Nat := 2 * 49 * 4 * 3

/-- A CCLK in which no other column command issues takes a probe burst (R307). -/
def doProbe (n c p : Nat) (s : State) : State :=
  let q := pcOf n c p s
  match q.maint.findIdx? fun m => match m with | .probe _ => true | _ => false with
  | none => s
  | some i =>
    match q.maint[i]? with
    | some (.probe k) =>
      let left := if k ≤ 1 then q.maint.eraseIdx i else q.maint.set i (.probe (k - 1))
      emit 0x20C 1 (some n) none none (some c) (setPc n c p { q with maint := left } s)
    | _ => s

/-- The staged writes that may enter the write queue do, in order (R276). -/
def enterStaged : List QEnt → Pc → Pc
  | [], q => q
  | e :: l, q =>
    if blockBusy q e.off || q.stage.any (fun x => sameBlk x.off e.off) || decide (32 ≤ q.wrq.length) then
      enterStaged l { q with stage := q.stage ++ [e] }
    else enterStaged l { q with wrq := q.wrq ++ [e] }

/-- A pseudo-channel at the start of a CCLK: writes drain, staged writes enter the queue, and the queue at its high mark forces
writes (R271, R275, R276). -/
def beginPc (n : Nat) (q : Pc) (s : State) : Pc :=
  let at_ := q.cclk + 1
  let q := enterStaged q.stage { q with cclk := at_, drains := q.drains.filter fun d => decide (at_ < d.2), stage := [] }
  { q with forced := q.forced || decide (max 1 (rd (CHC_WRQ.HI n) s) ≤ q.wrq.length) }

/-- The start of a CCLK, with the check cache's new entry (R267). -/
def beginCclk (n c p : Nat) (s : State) : State :=
  let x := cacheTake n c (beginPc n (pcOf n c p s) s) s
  let t := setPc n c p x.1 s
  if x.2 then emit 0x209 1 (some n) none none (some c) t else t

/-- The column commands that may issue at this CCLK. -/
def readyCols (n : Nat) (q : Pc) (ops : List POp) (s : State) : List Cmd := ops.filterMap fun o => colCmd n q ops o s

/-- The column command of this CCLK (R272, R273). -/
def colPick (n c p : Nat) (s : State) : Option Cmd :=
  let q := pcOf n c p s
  pickCmd (shareFilter n q (readyCols n q (waitingOps n c p q s) s) s)

/-- The row command of this CCLK (R272). -/
def rowPick (n c p : Nat) (s : State) : Option Cmd :=
  let q := pcOf n c p s
  let ops := waitingOps n c p q s
  pickCmd (ops.filterMap fun o => rowCmd n q ops o s)

/-- The reserved share is charged for a read or stream command (R273). -/
def chargeShare (n c p : Nat) (s : State) : State :=
  let q := pcOf n c p s
  let cols := readyCols n q (waitingOps n c p q s) s
  match colPick n c p s with
  | some x =>
    if (cmdOp x).cls = 3 then setPc n c p (shareStep n (cols.any isStream && cols.any isExternal) (isStream x) q s) s else s
  | none => s

/-- The row command of this CCLK takes effect. -/
def issueRow (n c p : Nat) (x : Option Cmd) (s : State) : State :=
  match x with
  | some (.act o) => doAct n c p o s
  | some (.pre o) => doPre n c p o s
  | some (.ref o) => doRef n c p o s
  | _ => s

/-- The column command of this CCLK takes effect, or a probe burst issues. -/
def issueCol (n c p : Nat) (x : Option Cmd) (errs : ErrPat) (parityError : Bool) (s : State) : State :=
  match x with
  | some (.col o) => doCol n c p o errs parityError s
  | _ => doProbe n c p s

/-! ### Idleness, sleep and waking (R283 to R286) -/

/-- A pseudo-channel is idle: its queues are empty, no mandatory refresh and no refresh management waits, and no write and no check row
is in flight (R283; DEDUCED of the refreshes, log entry 38). -/
def pcIdle (n : Nat) (q : Pc) (s : State) : Bool :=
  q.rdq.isEmpty && q.wrq.isEmpty && q.strq.isEmpty && q.maint.isEmpty && q.retries.isEmpty && q.scrubs.isEmpty && q.stage.isEmpty &&
    q.drains.isEmpty && q.cache.all (fun e => e.fill == 0 && e.wb == 0) && decide (q.owed < postpone n s) &&
    !(on (CHC_RFM.EN n) s && q.banks.any fun x => decide ((raaLimits n s).1 ≤ x.2.raa))

/-- The stacks are in self-refresh for an orderly shutdown, which only a reset ends (R83, R286). -/
def stacksDown (s : State) : Bool := s.power.shut.any fun x => x.step != 1

/-- Wake a sleeping pseudo-channel (R284, R285): it issues nothing for tXP or tXS, and OWED is zero after self-refresh. -/
def wakePc (n : Nat) (q : Pc) (s : State) : Pc :=
  match q.st with
  | .powerDown => { q with st := .active, hold := max q.hold (q.cclk + rd (CHC_T_3.tXP n) s) }
  | .selfRefresh => { q with st := .active, owed := 0, hold := max q.hold (q.cclk + rd (CHC_T_4.tXS n) s) }
  | _ => { q with refWake := false }

/-- A pseudo-channel wakes. On exit from self-refresh its pending targets are discarded, and a recalibration round is queued for it
alone (R308, R313). -/
def wake (n c p : Nat) (s : State) : State :=
  let q := pcOf n c p s
  if stacksDown s then s
  else
    let t := setPc n c p (wakePc n q s) s
    if q.st != .selfRefresh then t
    else { t with
      lanes := mmap (fun k v => if k / 64 = pcKey n c p then { v with rxTgt := v.rxLive, txTgt := v.txLive } else v) t.lanes,
      recalNext := mset t.recalNext n (insertRising (mgetD t.recalNext n []) (2 * c + p)) }

/-- Wake every pseudo-channel of a hive (R285: the placement of a cue job). -/
def wakeHive (n : Nat) (s : State) : State :=
  s.pcs.foldl (fun t x => if x.1 / 64 = n then wake n (x.1 % 64 / 2) (x.1 % 2) t else t) s

/-- A pseudo-channel that woke for a refresh alone goes back to power-down as soon as it is idle (R284). -/
def sleepAgain (n c p : Nat) (s : State) : State :=
  let q := pcOf n c p s
  if q.refWake && pcIdle n q s && decide (q.hold ≤ q.cclk) then setPc n c p { q with st := .powerDown, refWake := false } s else s

/-- PSEUDO_CHANNEL_WAKE: a wake event reaches a sleeping pseudo-channel (R285); after an orderly shutdown none does (R286). -/
def pseudoChannelWake (n c p : Nat) (s : State) : State := if pcUsed n c p s then wake n c p s else s

/-! ### Quiesce and commit (R288, R290) -/

/-- The row commands in flight end: every bank is precharged, and the CCLK at which the last precharge is over. -/
def quiescePc (n extra : Nat) (q : Pc) (s : State) : Pc :=
  let last := q.banks.foldl (fun m x =>
    if x.2.openRow.isSome then max m (max x.2.preAt q.cclk + rd (CHC_T_0.tRP n) s) else m) q.cclk
  let again := fun (m : Maint) => match m with | .probe _ => .probe probeBursts | _ => m
  { q with
    st := .quiesced, hold := max q.hold (last + extra), maint := q.maint.map again,
    banks := mmap (fun _ b => if b.openRow.isSome then shut n (max b.preAt q.cclk) b s else b) q.banks }

/-- Quiesce channels: their pseudo-channels are woken, stop issuing and have their banks precharged (R288); a running sweep starts
anew (R309). They resume `extra` CCLK after the last precharge. -/
def quiesce (extra n : Nat) (chs : List Nat) (s : State) : State :=
  chs.foldl (fun t c => [0, 1].foldl (fun t p =>
    let t := wake n c p t
    if (pcOf n c p t).st == .active then setPc n c p (quiescePc n extra (pcOf n c p t) t) t else t) t) s

/-- CHC_COMMIT: the RWS group of the hive takes effect (R290). -/
def chcCommitApply (n : Nat) (s : State) : State :=
  let base := 0x100000 + n * 0x40000 + 0x20000
  let t := commitRange (base + 0x430) (base + 0x468) s
  put (CHC_HIVE_STATUS.COMMIT_PENDING n) 0 t

/-- The quiesced pseudo-channels of a hive resume: a mode-register command that runs ends, and a pending commit takes effect (R288,
R290). -/
def resumeHive (n : Nat) (s : State) : State :=
  let up := fun (k : Nat) (q : Pc) => if k / 64 = n && q.st == .quiesced then { q with st := .active } else q
  let t := { s with pcs := mmap up s.pcs }
  let t := if on (CHC_MR_CMD.BUSY n) t then putAll [(CHC_MR_CMD.BUSY n, 0), (CHC_MR_DATA.VALID n, 1)] t else t
  if on (CHC_HIVE_STATUS.COMMIT_PENDING n) t then chcCommitApply n t else t

/-! ### CHC_COMMAND_ISSUE -/

/-- One CCLK of an active pseudo-channel. -/
def issueActive (n c p : Nat) (errs : ErrPat) (parityError : Bool) (s : State) : State :=
  let t := beginCclk n c p s
  if (pcOf n c p t).cclk < (pcOf n c p t).hold then t
  else
    let col := colPick n c p t
    sleepAgain n c p (issueCol n c p col errs parityError (issueRow n c p (rowPick n c p t) (chargeShare n c p t)))

/-- CHC_COMMAND_ISSUE: one CCLK of a pseudo-channel, at most one row command and one column command (R272). In power-down and
self-refresh the CCLK counts (R487), and a row of a neighbour refresh that the remap table steers here wakes it (R285); a quiesced
one resumes once its time is over (R288). (DESIGN CHOICE, log entry 38.) -/
def commandIssue (n c p : Nat) (errs : ErrPat) (parityError : Bool) (s : State) : State :=
  let q := pcOf n c p s
  let tick := fun (t : State) => setPc n c p { pcOf n c p t with cclk := q.cclk + 1 } t
  let guest := !(neighbourOps n c p (1 - p) (pcOf n c (1 - p) s).maint s).isEmpty
  if !pcUsed n c p s then s
  else
    match q.st with
    | .off => s
    | .powerDown => emit 0x20A 1 (some n) none none (some c) (tick (if guest then wake n c p s else s))
    | .selfRefresh => emit 0x20B 1 (some n) none none (some c) (tick (if guest then wake n c p s else s))
    | .quiesced => if q.hold ≤ q.cclk + 1 then resumeHive n (tick s) else tick s
    | .active => issueActive n c p errs parityError s

/-! ### Refresh and timers (R277, R282, R283) -/

/-- REFRESH_INTERVAL: one more refresh is owed (R277); none in self-refresh. A pseudo-channel in power-down wakes for a refresh that
has become mandatory (R284; DEDUCED, log entry 38). -/
def refreshInterval (n c p : Nat) (s : State) : State :=
  let q := pcOf n c p s
  if !pcUsed n c p s || q.st == .off || q.st == .selfRefresh then s
  else
    let t := setPc n c p { q with owed := min 8 (q.owed + 1) } s
    if q.st == .powerDown && decide (postpone n s ≤ q.owed + 1) then
      let t := wake n c p t
      setPc n c p { pcOf n c p t with refWake := true } t
    else t

/-- NEIGHBOUR_REFRESH_MANDATORY: the oldest neighbour refresh has waited 2 µs (R282). -/
def neighbourMandatory (n c p : Nat) (s : State) : State :=
  let q := pcOf n c p s
  match q.maint.findIdx? fun m => match m with | .neighbour _ _ _ _ false => true | _ => false with
  | none => s
  | some i =>
    match q.maint[i]? with
    | some (.neighbour a b r st _) => setPc n c p { q with maint := q.maint.set i (.neighbour a b r st true) } s
    | _ => s

/-- A queued access, held or not, hits row r of a bank. -/
def hitQueued (n c bank r : Nat) (q : Pc) (s : State) : Bool :=
  let offs := (q.rdq ++ q.wrq ++ q.stage ++ q.strq ++ q.retries.map fun x => x.ent).map fun e => e.off
  let scrubs := q.maint.filterMap fun m => match m with | .scrub _ off _ => some off | _ => none
  ((offs ++ scrubs).any fun off => let x := entPlace n c off s; bankKey x.1 x.2.1 == bank && x.2.2 == r) ||
    q.cache.any fun e => bankKey e.sid e.bank == bank && e.row == r && decide (0 < e.fill + e.wb)

/-- ROW_CLOSE_IDLE: a row with no queued hit for CLOSE_IDLE CCLK is precharged (R274). -/
def rowCloseIdle (n c p bank : Nat) (s : State) : State :=
  let q := pcOf n c p s
  let b := mgetD q.banks bank Bank.init
  match b.openRow with
  | none => s
  | some r =>
    if !pcUsed n c p s || hitQueued n c bank r q s || decide (q.cclk < b.lastHit + rd (CHC_ARB.CLOSE_IDLE n) s) ||
        decide (q.cclk < b.preAt) then s
    else setPc n c p (setBank bank (shut n q.cclk b s) q) s

/-- POWER_DOWN_ENTRY: CHC_PD_TIMER has run out on an idle pseudo-channel (R283). -/
def powerDownEntry (n c p : Nat) (s : State) : State :=
  let q := pcOf n c p s
  if pcUsed n c p s && q.st == .active && pcIdle n q s && rd (CHC_PD_TIMER.CCLK n) s != 0 then
    setPc n c p { q with st := .powerDown } s
  else s

/-- Activates outside the queues, of check rows and of the data rows of a rebuild or a copy: each steps the channel's LFSR (R281). -/
def rowActs (n c p : Nat) (l : List (Nat × Nat × Nat)) (s : State) : State :=
  l.foldl (fun t x => stepChannelLfsr n c p x.1 x.2.1 x.2.2 (emit 0x200 1 (some n) none none (some c)
    (setPc n c p (activated n x.1 x.2.1 none (pcOf n c p t) t) t))) s

/-- The dirty check rows of a pseudo-channel. -/
def dirtyRows (q : Pc) : List (Nat × Nat × Nat) :=
  (q.cache.filter fun e => e.dirty || e.wb != 0).map fun e => (e.sid, e.bank, e.row)

/-- Write back every dirty check-cache entry (R267). -/
def writeBackAll (q : Pc) : Pc := { q with cache := q.cache.map fun e => { e with dirty := false, wb := 0 } }

/-- SELF_REFRESH_ENTRY: CHC_SR_TIMER has run out in power-down; dirty check rows are written back first (R267, R283). -/
def selfRefreshEntry (n c p : Nat) (s : State) : State :=
  let q := pcOf n c p s
  if pcUsed n c p s && q.st == .powerDown && rd (CHC_SR_TIMER.US n) s != 0 then
    let t := rowActs n c p (dirtyRows q) s
    setPc n c p { writeBackAll (pcOf n c p t) with st := .selfRefresh, banks := [] } t
  else s

/-- CHECK_CACHE_PARITY_ERROR: a clean entry is refetched, a dirty one rebuilt from its eight data rows and counted (R268). -/
def cacheParity (n c p i : Nat) (s : State) : State :=
  let q := pcOf n c p s
  match q.cache[i]? with
  | none => s
  | some e =>
    if !pcUsed n c p s then s
    else if !e.dirty && e.wb == 0 then setPc n c p { q with cache := q.cache.set i { e with fill := 16 } } s
    else
      let s := rowActs n c p ((List.range 9).map fun k => (e.sid, e.bank, e.row - 8 + k)) s
      let q := pcOf n c p s
      postEvent 12 n 1 [] (bump (CHC_CC_STAT.REBUILDS n c) 1
        (setPc n c p { q with cache := q.cache.set i { e with dirty := false, wb := 0 } } s))

/-- INTERVAL in force for the hive's refreshes (R277, R279). -/
def refInterval (n : Nat) (s : State) : Nat :=
  let i := max 1 (rd (CHC_REF_CFG.INTERVAL n) s)
  if on (CHC_HIVE_STATUS.REF_2X n) s then i / 2 else i

end Sys2Proof.Machine
end

