-- ==== Sys2Proof/Machine/Hives.lean ====
section
/-! DEFINITION. The hives as every unit meets them: the gate and the sequencer of a hive, the column stores (R136, R145), the state of
each cell (R168), CELL[n.U] and retirements (R157 to R161), activation pushes (R146, R237, R243), and what happens at a job boundary. -/

namespace Sys2Proof.Machine

open Reg

def hive (n : Nat) (s : State) : Hive := mgetD s.hives n Hive.init

def setHive (n : Nat) (h : Hive) (s : State) : State := { s with hives := mset s.hives n h }

/-- A gate at reset: its LFSR is seeded from ARB_LFSR_SEED (R329). -/
def gateInit (n : Nat) (s : State) : Gate :=
  ⟨[], [], [], false, lfsrSeed (seedOf ARB_LFSR_SEED.SEED s) n, [], [], [], [], [], [], none, [], []⟩

def gate (n : Nat) (s : State) : Gate := (mfind s.gates n).getD (gateInit n s)

def setGate (n : Nat) (g : Gate) (s : State) : State := { s with gates := mset s.gates n g }

/-! ### Column stores (R136, R145, R228, R237) -/

/-- The key of a byte of a column: cell (32 for CELL[n.U]), element or scale store, column, byte. -/
def colKey (cell scl col byte : Nat) : Nat := cell * 2 ^ 20 + scl * 2 ^ 19 + col * 2 ^ 14 + byte

def colByte (m : AMap Byte) (k : Nat) : Byte := mgetD m k 0

def colPut (m : AMap Byte) (k : Nat) (b : Byte) : AMap Byte := if b = 0 then mdel m k else mset m k b

def colBytes (m : AMap Byte) (k : Nat) : Nat → List Byte
  | 0 => []
  | n + 1 => colByte m k :: colBytes m (k + 1) n

def colWrite (m : AMap Byte) (k : Nat) : List Byte → AMap Byte
  | [] => m
  | b :: bs => colWrite (colPut m k b) (k + 1) bs

/-- The cell that serves logical cell c (R207). -/
def physCell (n c : Nat) (s : State) : Nat :=
  if on (CEL_US_STATUS.ACTIVE n) s && rd (CEL_US_STATUS.TARGET n) s == c then 32 else c

/-- The logical cell that a cell serves. -/
def logicalCell (n c : Nat) (s : State) : Nat := if c = 32 then rd (CEL_US_STATUS.TARGET n) s else c

/-- Write one beat of a column's store in a logical cell; bytes 4 to 63 of scale beat 8 are discarded (R237). -/
def writeColBeat (n c scl col beat : Nat) (d : List Byte) (s : State) : State :=
  let h := hive n s
  let d := if scl = 1 && beat = 8 then d.take 4 else d
  setHive n { h with cols := colWrite h.cols (colKey (physCell n c s) scl col (64 * beat)) d } s

/-! ### Streams and the state of the cells (R150, R164, R168) -/

/-- A stream has ended in logical cell l: its last row result has passed. -/
def takerDone (x : Stream) (l : Nat) : Bool :=
  match mfind x.takers l with
  | none => true
  | some t => decide (x.rows ≤ t.row)

/-- The hive is at a job boundary. -/
def atBoundary (n : Nat) (s : State) : Bool := (hive n s).cue.isNone

/-- What a cell that serves logical cell l shows of the streams of its hive: REPLAY, ACTIVE or IDLE. -/
def streamState (h : Hive) (l : Nat) : Nat :=
  match h.cue with
  | none => 1
  | some c =>
    let mine := c.streams.filter fun x => !takerDone x l
    if mine.any fun x => (mfind x.takers l).any fun t => t.replay then 3 else if mine.isEmpty then 1 else 2

/-- STATE of a used cell or of CELL[n.U] (R168). -/
def cellState (n c : Nat) (s : State) : Nat :=
  let h := hive n s
  let us := on (CEL_US_STATUS.ACTIVE n) s
  if !cOn n s then 0
  else if c ≠ 32 && (rd (CEL_HIVE_FAILED.CELLS n) s).testBit c then 6
  else if c ≠ 32 && us && rd (CEL_US_STATUS.TARGET n) s == c then 5
  else if (h.tests.contains c && h.cue.isNone) || (mfind h.faults c).isSome then 4
  else if c = 32 then (if !us then 1 else max 2 (streamState h (logicalCell n 32 s)))
  else streamState h c

/-- The used cells of a hive and CELL[n.U] (R20, R167). -/
def usedCells (n : Nat) (s : State) : List Nat := List.range (usedCh n s) ++ [32]

/-- Show the STATE of every cell. -/
def showCells (n : Nat) (s : State) : State :=
  (usedCells n s).foldl (fun t c => put (CEL_STATUS.STATE n c) (cellState n c t) t) s

/-- PD_C_n is on and the self-test of its power-on has ended. -/
def cellsReady (n : Nat) (s : State) : Bool := cOn n s && !(hive n s).wake

/-! ### CELL[n.U] (R157 to R160) -/

/-- A cell event (R169): 1 a cell has FAILED, 2 a stand-in starts, 3 a takeover. -/
def cellEvent (n c kind : Nat) (s : State) : State := postEvent 1 n kind [c] s

/-- The cell becomes FAILED (R160, R161). -/
def failCell (n c : Nat) (s : State) : State :=
  cellEvent n c 1 (showCells n (put (CEL_HIVE_FAILED.CELLS n) (setBit (rd (CEL_HIVE_FAILED.CELLS n) s) c) s))

/-- CELL[n.U] is usable, stands in for no cell and is not about to. -/
def understudyFree (n : Nat) (s : State) : Bool :=
  on (CEL_US_STATUS.USABLE n) s && !on (CEL_US_STATUS.ACTIVE n) s && (hive n s).takeover.isEmpty

/-- CELL[n.U] stands in for a cell until reset (R157). -/
def standIn (n c : Nat) (s : State) : State :=
  cellEvent n c 2 (showCells n (putAll [(CEL_US_STATUS.TARGET n, c), (CEL_US_STATUS.ACTIVE n, 1)] s))

/-- CELL[n.U] is retired or has failed its self-test: it leaves service, and a cell that it replaced becomes FAILED (R161, R168). For a
failed self-test the spec states no fate of the replaced cell. (DESIGN CHOICE, log entry 89.) -/
def dropUnderstudy (n : Nat) (s : State) : State :=
  let t := put (CEL_US_STATUS.USABLE n) 0 s
  if on (CEL_US_STATUS.ACTIVE n) t then failCell n (rd (CEL_US_STATUS.TARGET n) t) (put (CEL_US_STATUS.ACTIVE n) 0 t)
  else showCells n t

/-- The cell serves or could serve: it has neither FAILED nor been replaced. -/
def cellServes (n c : Nat) (s : State) : Bool := physCell n c s == c && !(rd (CEL_HIVE_FAILED.CELLS n) s).testBit c

/-- A cell that cannot serve is handed to the understudy, or becomes FAILED. -/
def replaceCell (n c : Nat) (s : State) : State :=
  if c = 32 then dropUnderstudy n s
  else if !cellServes n c s then s
  else if understudyFree n s then standIn n c s
  else failCell n c s

/-! ### Activation pushes (R56, R146, R237, R243) -/

def pushBeat (r : Req) : Nat := bits r.addr 6 8
def pushCol (r : Req) : Nat := bits r.addr 14 5
def pushScl (r : Req) : Nat := bits r.addr 19 1
def pushCell (r : Req) : Nat := bits r.addr 20 6
def pushHive (r : Req) : Nat := bits r.addr 26 4
def pushHall (r : Req) : Bool := r.addr.testBit 30
def pushIset (r : Req) : Nat := bits r.addr 31 3

/-- The hives that a push targets, or none if its target is not valid (R237). -/
def pushHives (r : Req) (s : State) : Option (List Nat) :=
  let hs := setHives (pushIset r) s
  if !(setsInUse s).contains (pushIset r) then none
  else if pushHall r then some hs
  else (hs[pushHive r]?).map fun n => [n]

/-- The logical cells of hive n that a push targets. -/
def pushCells (n : Nat) (r : Req) (s : State) : List Nat :=
  if pushCell r = 63 then List.range (usedCh n s) else [pushCell r]

/-- The push is permitted, its target valid (R237). -/
def pushOk (r : Req) (s : State) : Bool :=
  match pushHives r s with
  | none => false
  | some hs =>
    decide (pushCol r < 20) && decide (pushBeat r + r.beats ≤ if pushScl r = 1 then 9 else 256) &&
      hs.all fun n => (pushCell r == 63 || decide (pushCell r < usedCh n s)) &&
        (rd (CUE_OWNER.DOMAIN n) s == 0 || rd (CUE_OWNER.DOMAIN n) s == r.domain)

/-- A stream that has not ended in logical cell l reads the store beat, or the job keeps probabilities there (R146, R228, R243). -/
def beatInUse (h : Hive) (l scl col beat : Nat) : Bool :=
  match h.cue with
  | none => false
  | some c =>
    (c.kv.isSome && scl == 0 && decide (128 ≤ beat)) ||
      c.streams.any fun x => decide (col < x.ncol) && !takerDone x l && !(x.v && scl == 1) &&
        (!x.split || (if scl = 0 then beat / 128 == x.bank else beat == 8 || beat / 4 == x.bank))

/-- A part of a push writes a beat that is in use. -/
def pushBusy (n : Nat) (r : Req) (a : Part) (s : State) : Bool :=
  (pushCells n r s).any fun c => a.beats.any fun b => beatInUse (hive n s) c (pushScl r) (pushCol r) (pushBeat r + b.i)

/-- Two pushes to a hive write the same bytes of a column (R56). -/
def pushesMeet (a b : Req) : Bool :=
  pushScl a == pushScl b && pushCol a == pushCol b && (pushCell a == 63 || pushCell b == 63 || pushCell a == pushCell b) &&
    decide (pushBeat a < pushBeat b + b.beats) && decide (pushBeat b < pushBeat a + a.beats)

/-- An earlier push to the same bytes waits at the hive. -/
def behindHeld (n : Nat) (r : Req) (s : State) : Bool :=
  (hive n s).held.any fun x => (mfind s.live x.uid).any fun l => pushesMeet l.req r

/-- Perform a part of a push at hive n. -/
def performBeats (n : Nat) (r : Req) (bs : List PBeat) (s : State) : State :=
  bs.foldl (fun t b => (pushCells n r t).foldl (fun u c =>
    writeColBeat n c (pushScl r) (pushCol r) (pushBeat r + b.i) (beatBytes (r.data.getD b.i 0)) u) t) s

/-- The cells of every hive that a push targets are on and tested (R237). -/
def pushReady (r : Req) (s : State) : Bool := (pushHives r s).all fun hs => hs.all fun n => cellsReady n s

/-- A push fails whole: its parts that wait are acknowledged as failed, and nothing of it is written (R237). -/
def failPush (uid : Nat) (s : State) : State :=
  let parts := s.hives.flatMap fun x => (x.2.held.filter fun a => a.uid == uid).map fun a => (x.1, a)
  let t := { s with
    hives := mmap (fun _ h => { h with held := h.held.filter fun a => a.uid != uid }) s.hives,
    live := mmap (fun i l => if i = uid then { l with failed := true } else l) s.live }
  parts.foldl (fun u x => ackWrite x.1 uid false u) t

/-- Perform a part of a push, or hold the whole of it while a stream reads a bank that it writes (R146), a job holds it (R243) or a
hive of its targets is not in service (R237). -/
def tryPush (n : Nat) (a : Part) (s : State) : State :=
  match mfind s.live a.uid with
  | none => s
  | some l =>
    if l.failed then ackWrite n a.uid false s
    else if !pushReady l.req s || pushBusy n l.req a s || behindHeld n l.req s then setHive n { hive n s with held := (hive n s).held ++ [a] } s
    else ackWrite n a.uid true (performBeats n l.req a.beats s)

/-- Perform the held pushes that nothing holds any longer, in their order; none while the cells are not in service. -/
def releaseHeld (n : Nat) (s : State) : State :=
  if !cellsReady n s then s
  else (hive n s).held.foldl (fun t a => tryPush n a t) (setHive n { hive n s with held := [] } s)

/-! ### A job boundary of a hive (R157, R158, R161, R162, R168) -/

/-- The self-tests asked for start: their VALID bits are cleared (R162). -/
def startTests (n : Nat) (s : State) : State :=
  showCells n ((hive n s).tests.foldl (fun t c => put (CEL_TEST_SUMMARY.VALID n c) 0 t) s)

/-- Takeovers that a job did not live to see are made without a copy (R157). (DEDUCED, log entry 89.) -/
def endTakeovers (n : Nat) (s : State) : State :=
  (hive n s).takeover.foldl (fun t c => replaceCell n c t) (setHive n { hive n s with takeover := [] } s)

/-- The retirement asked for by CEL_CTRL.RETIRE of one cell: of a cell a takeover, of CELL[n.U] the end of its stand-in (R158, R168). -/
def retireCell (n c : Nat) (s : State) : State :=
  if !on (CEL_CTRL.RETIRE n c) s then s
  else if c = 32 then (if on (CEL_US_STATUS.ACTIVE n) s then dropUnderstudy n s else s)
  else if cellServes n c s && understudyFree n s then
    cellEvent n c 3 (standIn n c (bump (CEL_ERR_CNT.REPLAYS n c) 1 s))
  else replaceCell n c s

/-- Retirements take effect. -/
def applyRetire (n : Nat) (s : State) : State := (usedCells n s).foldl (fun t c => retireCell n c t) s

/-- A hive reaches a job boundary. -/
def boundary (n : Nat) (s : State) : State := releaseHeld n (startTests n (applyRetire n (endTakeovers n s)))

end Sys2Proof.Machine
end

