-- ==== Sys2Proof/Machine/JobOps.lean ====
section
/-! DEFINITION. What every unit may do to a job: fail it (R190, R197, R199), stop its units, and the questions of which hive
can take a job (R160, R188, R436). -/

namespace Sys2Proof.Machine

open Reg

/-! ### Completion statuses (R190) -/

def stUnitAbsent : Nat := 1
def stBadDesc : Nat := 2
def stAccess : Nat := 3
def stWindow : Nat := 4
def stUncorrectable : Nat := 5
def stCell : Nat := 6
def stProg : Nat := 7
def stSpan : Nat := 8
def stTimeout : Nat := 9
def stPeerTimeout : Nat := 10
def stHostAbort : Nat := 11
def stParity : Nat := 12
def stSpillFull : Nat := 13

/-! ### Keepers (R435, R436) -/

/-- The core that serves hive n as its keeper. -/
def keeperOf (n : Nat) (s : State) : Option Nat :=
  if !(rd FWM_KPR_MAP.RETIRED s).testBit n then some (3 + n)
  else if on FWM_KPR_MAP.ACTIVE_0 s && rd FWM_KPR_MAP.TARGET_0 s == n then some 19
  else if on FWM_KPR_MAP.ACTIVE_1 s && rd FWM_KPR_MAP.TARGET_1 s == n then some 20
  else none

/-- The keeper of hive n is running and READY. -/
def keeperReady (n : Nat) (s : State) : Bool := (keeperOf n s).any fun i => coreReady i s

/-! ### Spans (R185, R188, R207) -/

def jIset (j : Job) : Nat := bits (jWord j 6) 19 3
def jSpan (j : Job) : Nat := bits (jWord j 6) 16 3
def jProgLen (j : Job) : Nat := bits (jWord j 6) 0 11

/-- The hive can take a cue job. -/
def usableHive (n : Nat) (s : State) : Bool :=
  hOn n s && (keeperOf n s).isSome && rd (CEL_HIVE_FAILED.CELLS n) s == 0

/-- The usable hives of a set, as a mask (R190). -/
def usableMask (i : Nat) (s : State) : Nat :=
  if (setsInUse s).contains i then (setHives i s).foldl (fun m n => if usableHive n s then setBit m n else m) 0 else 0

/-! ### Stopping and failing a job -/

/-- Show the state of a hive's cue sequencer: IDLE, LOADING while a placed job waits to begin, or RUNNING (R239); a job stops within one
command, so STOPPING is never seen. (DESIGN CHOICE, log entry 96.) -/
def showCue (n : Nat) (s : State) : State :=
  let h := hive n s
  put (CUE_STATUS.STATE n) (if h.cue.isSome then 2 else if h.placed.isEmpty then 0 else 1) s

/-- The record of a sampled job is complete when it ends or stops on the hive (R492, R493). -/
def sampleJob (j n status : Nat) (s : State) : State :=
  let word := fun (x : Sample) (i w : Nat) =>
    if i = 4 then min (s.fclk - x.since) (2 ^ 32 - 1) else if i = 6 then w + status * 2 ^ 16 else w
  let hit := fun (x : Sample) => x.uid == j && !x.done && (x.words.getD 0 0).testBit 26
  let fin := fun (l : List Sample) =>
    l.filter (fun x => !hit x) ++ (l.filter hit).map fun x => { x with done := true, words := x.words.mapIdx (word x) }
  { s with samplers := mmap (fun i q => if i = n then { q with items := fin q.items } else q) s.samplers }

/-- The stream engine of a hive stops: its requests leave the stream queues. -/
def clearStreams (n : Nat) (s : State) : State :=
  { s with pcs := mmap (fun k q => if k / 64 = n then { q with strq := [], retries := q.retries.filter fun r => r.src != 2 } else q) s.pcs }

/-- Take a job out of a hive's cue sequencer. Where it ran, the hive stops and is at a job boundary (R158, R197). -/
def unplace (j n : Nat) (s : State) : State :=
  let h := hive n s
  let runs := h.cue.any fun c => c.job == j
  let t := setHive n { h with
    placed := h.placed.filter fun x => x != j,
    preload := if h.preload == some j then none else h.preload,
    cue := if runs then none else h.cue } s
  let t := if h.preload == some j then put (CUE_STATUS.PRELOADED n) 0 t else t
  let t := if runs then boundary n (sampleJob j n ((mfind s.jobs j).elim 0 fun v => v.status) (clearStreams n t)) else t
  showCue n t

/-! ### Accesses of jobs (R27, R197) -/

/-- The job that an access of a unit belongs to; ring accesses and those of the firmware belong to none. -/
def accJob (u : UnitAcc) : Option Nat :=
  match u.dest with
  | .fetch _ _ _ => none
  | .record _ _ => none
  | .firmware _ => none
  | _ => some u.owner

/-- The job of a request. -/
def reqJob (r : Req) : Option Nat :=
  match r.src with
  | .unit u => accJob u
  | _ => none

/-- R197, steps 1 and 2: accesses that have not left ingress are refused, and cue sequencers and cells stop. -/
def stopUnits (j : Nat) (s : State) : State :=
  let mine := fun (d : ReadFor) => match d with | .copy i _ => i == j | _ => false
  let t := { s with
    host := { s.host with waiting := s.host.waiting.filter fun r => !mine r.dest },
    ports := mmap (fun _ p => { p with ing := p.ing.filter fun r => reqJob r != some j }) s.ports }
  match mfind t.jobs j with
  | none => t
  | some v => setJob j { v with stopped := true, running := [] } (v.running.foldl (fun u n => unplace j n u) t)

/-- A unit puts an access on a requester lane, in a class and a domain, of n beats at an address (R27, R28, R172). -/
def askUnit (m cls dom ctx : Nat) (u : UnitAcc) (op : Op) (a n byteEn : Nat) (d : List Byte) (s : State) : State :=
  let r : Req := ⟨s.nextUid, m, .unit u, op, 0, n, 0, ctx, a, byteEn, false,
    (List.range (if op == .rd then 0 else n)).map fun i => beatOf (slice d (64 * i) 64), 0, false, cls, 0, false, dom, 0, s.fclk⟩
  let p := port m s
  setPort m { p with ing := p.ing ++ [r] } { s with nextUid := s.nextUid + 1 }

/-- The requests of an access of the firmware: whole beats within a 4 KiB page together, any other write beat by beat. -/
def fwPieces : Nat → Nat → FwAcc → List (Nat × Nat × Nat × List Byte)
  | 0, _, _ => []
  | k + 1, a, x =>
    if x.len = 0 then []
    else if x.write && (a % 64 != 0 || x.len % 64 != 0) then (beatParts (x.len + 1) a x.data).map fun b => (b.1, 1, b.2.1, b.2.2)
    else
      let m := min (4096 - a % 4096) (a % 64 + x.len)
      (a / 64 * 64, (a % 64 + m + 63) / 64, 2 ^ 64 - 1, x.data.take m) :: fwPieces k (a + m) { x with len := x.len - m, data := x.data.drop m }

/-- An access of the firmware enters the crossbar: on HP's lane, in the class that FWM_CORE_CLASS selects when it passes regulation
(R28). -/
def fwEnter (s : State) (x : FwAcc) : State :=
  (fwPieces (x.len + 1) (areaBase x.area s + x.off) x).foldl (fun t b =>
    askUnit 16 0 0 0 ⟨0, .firmware x.area, 1 + b2n x.write, 0, 0⟩ (if x.write then .wr else .rd) b.1 b.2.1 b.2.2.1 b.2.2.2 t) s

/-- The waiting accesses of the firmware enter the crossbar once its areas are laid out, when the ports are open (R87). -/
def fwAccesses (s : State) : State := if portsOpen s then s.fwAccs.foldl fwEnter { s with fwAccs := [] } else s

/-- The firmware writes an entry of the context table: its sixteen words (R87, R171). -/
def tableWrite (x : Nat) (s : State) : State := fwWrite .contexts (64 * x) (wordBytes ((ctxOf x s).words ++ List.replicate (16 - (ctxOf x s).words.length) 0)) s

/-- An access of a job on the lane of its home port: it is outstanding until it is answered (R27). -/
def askJob (j : Nat) (v : Job) (dest : AccFor) (opcode low hops : Nat) (op : Op) (a n byteEn : Nat) (d : List Byte) (s : State) : State :=
  askUnit v.home v.cls v.domain v.ctx ⟨j, dest, opcode, low, hops⟩ op a n byteEn d (setJob j { v with outstanding := v.outstanding + 1 } s)

/-- The context of a failed job halts in the step of the failure (R199). -/
def haltCtx (x index status : Nat) (s : State) : State :=
  let c := ctxOf x s
  if c.state == .opened then setCtx x { c with state := .halted, halt := some (index, status), fetched := [], waiting := false, fetching := none } s
  else s

/-- A job fails with a status and INFO. The first failure of a job decides. -/
def failJob (j status info : Nat) (s : State) : State :=
  match mfind s.jobs j with
  | none => s
  | some v =>
    if v.status ≠ 0 || v.done || v.timedOut then s
    else
      let t := stopUnits j (setJob j { v with status := status, info := info, stopped := true } s)
      if 2 ≤ status then haltCtx v.ctx v.index status t else t

/-- The unit that a PARITY completion names (R190, R259, R362); none where a parity error fails no job. -/
def parityUnit (p : Parity) : Option Nat :=
  match p with
  | .clean => none
  | .store => none
  | .crossbar => some 1
  | .sequencer => some 2
  | .results => some 3
  | .stage => some 4

/-- A job that meets a parity error fails with PARITY (R259, R362). -/
def meetParity (p : Parity) (j : Nat) (s : State) : State :=
  match parityUnit p with
  | some u => failJob j stParity u s
  | none => s

/-- The same for a job whose work has started and has not ended. -/
def parityAtWork (p : Parity) (j : Nat) (s : State) : State :=
  if (mfind s.jobs j).any fun v => v.started && !v.stopped && !v.waitRecord then meetParity p j s else s

/-- Fail every job that is placed on a hive. -/
def failOnHive (n status : Nat) (info : State → Job → Nat) (s : State) : State :=
  (s.jobs.filter fun x => x.2.running.contains n).foldl (fun t x => failJob x.1 status (info t x.2) t) s

/-- INFO of CELL_FAULT. -/
def cellInfo (n cell : Nat) : Nat := n + cell * 16

end Sys2Proof.Machine
end

