-- ==== Sys2Proof/Machine/Power.lean ====
section
/-! DEFINITION. Power domains (R31, R32, R80 to R84, R421, R422), the wake and power-down of the cells (R164, R165, R238) and
the orderly shutdown (R427, R428). -/

namespace Sys2Proof.Machine

open Reg

/-! ### Events and errors -/

/-- Set a bit of THM_EVENT; its 0-to-1 change raises the thermal interrupt (R429). -/
def thmEvent (f : Fld) (s : State) : State := if on f s then s else raiseInt 4 (put f 1 s)

/-- Record a domain error (R429): kind 0 refused, 1 no answer, 2 lost. -/
def domainErr (d kind : Nat) (s : State) : State :=
  if on PWR_DOMAIN_ERR.VALID s then put PWR_DOMAIN_ERR.OVERFLOW 1 s
  else putAll [(PWR_DOMAIN_ERR.DOMAIN, d), (PWR_DOMAIN_ERR.KIND, kind), (PWR_DOMAIN_ERR.VALID, 1)] s

def setPower (p : Power) (s : State) : State := { s with power := p }

/-- The acknowledge of the domain that d requires is high (R31, R80). -/
def requiredOn (d : Nat) (s : State) : Bool :=
  if d < 16 then s.power.ack.testBit 32 && fabOn s else if d < 32 then s.power.ack.testBit (d - 16) && hOn (d - 16) s else true

/-- Domain d is on: powered, out of reset and not isolated. -/
def domainOn (d : Nat) (s : State) : Bool := if d < 16 then hOn d s else if d < 32 then cOn (d - 16) s else fabOn s

/-- Nothing further is started: a shutdown runs, or the block was too hot to start (R79, R84). -/
def stopped (s : State) : Bool := s.power.shut.isSome || rd GLB_STATUS.PHASE s == 7

/-- Request a domain on (R32, R80, R81). The request changes only while the acknowledge equals it: a lost domain is asked for
again by the request that still stands, and one that is going off comes back once its acknowledge has fallen (R165). -/
def requestOn (d : Nat) (s : State) : State :=
  let p := s.power
  if p.gone.testBit d || stopped s then s
  else if p.req.testBit d then setPower { p with lost := clrBit p.lost d } s
  else if !requiredOn d s then thmEvent THM_EVENT.DOMAIN (domainErr d 0 s)
  else if p.ack.testBit d then setPower { p with again := setBit p.again d } s
  else setPower { p with req := setBit p.req d, timed := clrBit p.timed d, lost := clrBit p.lost d, again := clrBit p.again d } s

/-! ### Cells (R161, R164, R165, R168, R238) -/

/-- PD_C_n is on: its stores hold zero (R238), and in a trained hive the self-test of every used cell is due (R161, R162). -/
def cellsOn (n : Nat) (s : State) : State :=
  let trained := on (GLB_HIVE_CAP.CAP n) s
  let due := if trained then usedCells n s else []
  let t := due.foldl (fun t c => put (CEL_TEST_SUMMARY.VALID n c) 0 t) s
  showCells n (setHive n { hive n t with cols := [], tests := due, wake := trained } t)

/-- PD_C_n is off: its stores and row slots are discarded (R164). -/
def cellsOff (n : Nat) (s : State) : State :=
  showCells n (setHive n { hive n s with cols := [], tests := [], wake := false, faults := [] } s)

/-! ### Loss of a hive (R82, R422) -/

/-- The parts of requests that are at a gate, and those that have left it. -/
def partsAt (n : Nat) (s : State) : List Part × List Part :=
  match mfind s.gates n with
  | none => ([], [])
  | some g =>
    let locked : List Grant := match g.lock with
      | some l => g.flying.filter fun x => x.part.curtUid == l.uid
      | none => []
    ((g.parts ++ g.chosen.map fun x => x.part).filter (fun a => a.curtUid == 0) ++
        (locked.map fun x => x.part) ++ (g.stage.flatMap fun x => x.2.parts),
      (g.flying.filter fun x => !(locked.any fun y => y.part.uid == x.part.uid)).map fun x => x.part)

/-- Complete a part that cannot reach its hive: read beats poisoned, writes failed (R82). `sent` says that its writes have been
transferred, so that only those of a partial write that is not merged (`rmw`) are left. -/
def poisonPart (sent : Bool) (rmw : List Nat) (a : Part) (s : State) : State :=
  match a.op with
  | .rd => a.beats.foldl (fun t b =>
      if (mfind t.live a.uid).any (fun l => (mfind l.got b.i).isSome) then t else deliver a.n a.uid b.i none t) s
  | .push => failPush a.uid (ackWrite a.n a.uid false s)
  | _ => a.beats.foldl (fun t b => if sent && !rmw.contains b.i then t else ackWrite a.n a.uid false t) s

/-- Every request at a hive completes with POISON and the hive's queues are gone. -/
def poisonHive (n : Nat) (s : State) : State :=
  let ps := partsAt n s
  let rmw := fun (u : Nat) => (s.pcs.filter fun x => x.1 / 64 == n).flatMap fun x =>
    ((x.2.wrq ++ x.2.stage).filter fun e => e.uid == u && e.mask.isSome).map fun e => e.beat
  let held := (hive n s).held
  let clear := { s with
    gates := mdel s.gates n,
    pcs := s.pcs.filter fun x => x.1 / 64 != n,
    hives := mset s.hives n { hive n s with held := [] } }
  let t := (ps.1 ++ held).foldl (fun t a => poisonPart false [] a t) clear
  ps.2.foldl (fun t a => poisonPart true (rmw a.uid) a t) t

/-! ### Switching off -/

/-- Isolate a domain (R80, R81, R82): it counts as off. -/
def isolate (d : Nat) (s : State) : State :=
  if d < 16 then
    let t := put PWR_DOM_0.H_ON (clrBit (rd PWR_DOM_0.H_ON s) d) (put PWR_DOM_0.C_ON (clrBit (rd PWR_DOM_0.C_ON s) d) s)
    cellsOff d (poisonHive d t)
  else if d < 32 then cellsOff (d - 16) (put PWR_DOM_0.C_ON (clrBit (rd PWR_DOM_0.C_ON s) (d - 16)) s)
  else put PWR_DOM_1.FAB_ON 0 s

/-- Switch a domain off: isolate it and lower its request once the acknowledge equals it (R80, R81). -/
def requestOff (d : Nat) (s : State) : State :=
  let t := if domainOn d s then isolate d s else s
  let p := t.power
  if p.req.testBit d && p.ack.testBit d then setPower { p with req := clrBit p.req d } t else t

/-- The handshake of a domain that is to stay off has ended, or it gave no answer. -/
def settledOff (d : Nat) (s : State) : Bool :=
  !s.power.ack.testBit d && (!s.power.req.testBit d || s.power.timed.testBit d || s.power.lost.testBit d)

/-- Switch a hive off for good: PD_C_n first, then PD_H_n once PD_C_n is off (R32, R300). -/
def hiveOff (n : Nat) (s : State) : State :=
  let p := s.power
  let t := setPower { p with gone := setBit (setBit p.gone n) (16 + n) } s
  let t := isolate n (requestOff (16 + n) t)
  if settledOff (16 + n) t then requestOff n t else t

/-! ### Orderly shutdown (R427, R428) -/

/-- Close a port for a shutdown: nothing more is accepted, and what waits at ingress is not performed. -/
def closePort (p : Port) : Port :=
  { p with ready := false, parityClosed := true, rx := [], ing := [], owed := [], curt := .closed }

/-- R428, step 1. -/
def startShutdown (thermal fab : Bool) (s : State) : State :=
  if s.power.shut.isSome || rd GLB_STATUS.PHASE s = 7 then s
  else
    let t := putAll [(GLB_STATUS.PHASE, 6), (GLB_STATUS.PORTS_OPEN, 0)] { s with ports := mmap (fun _ p => closePort p) s.ports }
    let t := setPower { t.power with shut := some ⟨thermal, portsOpen s, 1, 0⟩, todo := [] } t
    let t := t.jobs.foldl (fun u x => stopUnits x.1 u) t
    let t := if fab then { t with live := [], gates := [] } else t
    if thermal then t else postEvent 6 0 1 [] t

/-! ### The commands of the handshakes -/

/-- Request the domains of a list in order, stopping at the first that now awaits its acknowledge (R421). -/
def runDomains : List Nat → State → State
  | [], s => setPower { s.power with todo := [] } s
  | d :: ds, s =>
    let t := requestOn d s
    if t.power.req.testBit d && !t.power.ack.testBit d then setPower { t.power with todo := ds } t else runDomains ds t

/-- The sequence goes on after an acknowledge or its absence. -/
def nextDomain (s : State) : State := runDomains s.power.todo s

/-- DOMAIN_SEQUENCE: the sequencer starts the PLLs and requests PD_FAB; the other domains follow, each after the previous
acknowledge (R421). -/
def domainSequence (s : State) : State :=
  if s.power.started || rd GLB_STATUS.PHASE s ≠ 0 && rd GLB_STATUS.PHASE s ≠ 1 then s
  else
    let hs := (List.range 16).filter fun n => hivePresent n s
    runDomains (32 :: hs ++ hs.map fun n => 16 + n) (setPower { s.power with started := true } s)

/-- Release a domain's reset and isolation (R80). -/
def releaseDomain (d : Nat) (s : State) : State :=
  if d < 16 then put PWR_DOM_0.H_ON (setBit (rd PWR_DOM_0.H_ON s) d) s
  else if d < 32 then cellsOn (d - 16) (put PWR_DOM_0.C_ON (setBit (rd PWR_DOM_0.C_ON s) (d - 16)) s)
  else put PWR_DOM_1.FAB_ON 1 s

/-- The acknowledge of a requested domain has risen. It is released unless it gave no answer in time, was lost and not asked for
since, may not be on (R31), or nothing further is started (R79, R84): then its request is lowered again, save for a domain that
gave no answer, which the block keeps isolated (R81). -/
def acked (d : Nat) (s : State) : State :=
  let p := s.power
  if p.timed.testBit d && !p.gone.testBit d && !stopped s then s
  else if p.timed.testBit d || p.gone.testBit d || p.lost.testBit d || stopped s || !requiredOn d s then
    requestOff d (setPower { p with lost := clrBit p.lost d } s)
  else releaseDomain d s

/-- PWR_ACK_RISE. An acknowledge that answers no request breaks R82. (DEDUCED, log entry 15.) -/
def ackRise (d : Nat) (s : State) : Host.Outcome State Fault Refusal :=
  let p := s.power
  if 32 < d || p.ack.testBit d then .next s
  else if !p.req.testBit d then .fault .hubBrokeHandshake
  else
    let t := acked d (setPower { p with ack := setBit p.ack d } s)
    if p.timed.testBit d then .next t else .next (nextDomain t)

/-- A trained hive whose PD_H_n is lost in steps 5 to 7 of the start counts as one that failed training, with the RESULT that R513
gives a hive without PD_H_n (R520). (DEDUCED, log entry 101.) -/
def lostInStart (n : Nat) (s : State) : State :=
  let ph := rd GLB_STATUS.PHASE s
  if 2 ≤ ph && ph ≤ 4 && on (PHY_TRAIN_SUMMARY.VALID n) s && rd (PHY_TRAIN_SUMMARY.RESULT n) s == 0 then
    postEvent 2 n 3 [] (putAll [(PHY_TRAIN_SUMMARY.RESULT n, 3), (GLB_HIVE_CAP.CAP n, 0), (PHY_CFG.RATE n, 0)] s)
  else s

/-- The effect of a domain's loss (R422). -/
def lossEffect (d : Nat) (s : State) : State :=
  if d < 16 then
    let t := setPower { s.power with gone := setBit (setBit s.power.gone d) (16 + d) } (isolate d s)
    lostInStart d (requestOff (16 + d) (failOnHive d stSpan (fun u v => usableMask (jIset v) u) t))
  else if d < 32 then failOnHive (d - 16) stCell (fun _ _ => cellInfo (d - 16) 32) (isolate d s)
  else startShutdown false true (isolate d s)

/-- DOMAIN_LOSS: PWR_ACK_d falls while the request is high (R82, R422). The request stays as it is, since it may change only while
the acknowledge equals it (R81). -/
def domainLost (d : Nat) (s : State) : State :=
  let p := s.power
  if 32 < d || !p.req.testBit d || !p.ack.testBit d then s
  else
    let t := setPower { p with ack := clrBit p.ack d, timed := clrBit p.timed d, lost := setBit p.lost d } s
    lossEffect d (postEvent 6 d 2 [] (thmEvent THM_EVENT.DOMAIN (domainErr d 2 t)))

/-- PWR_ACK_FALL: the answer to a lowered request; a fall while the request is high is a loss. -/
def ackFall (d : Nat) (s : State) : State :=
  let p := s.power
  if 32 < d || !p.ack.testBit d then s
  else if p.req.testBit d then domainLost d s
  else
    let t := setPower { p with ack := clrBit p.ack d, timed := clrBit p.timed d, again := clrBit p.again d } s
    if 16 ≤ d && d < 32 && t.power.gone.testBit (d - 16) then requestOff (d - 16) t
    else if p.again.testBit d then requestOn d t
    else t

/-- PWR_ACK_TIMEOUT: the acknowledge has not followed the request (R81). A push that waits for the domain completes with
POISON, a placement with SPAN_UNAVAILABLE (R165, R237). -/
def ackTimeout (d : Nat) (s : State) : State :=
  let p := s.power
  if 32 < d || p.req.testBit d == p.ack.testBit d || p.timed.testBit d || p.lost.testBit d then s
  else
    let t := domainErr d 1 (setPower { p with timed := setBit p.timed d } s)
    let t := if domainOn d t then isolate d t else t
    if !p.req.testBit d && !p.again.testBit d then t
    else if 16 ≤ d && d < 32 then
      let n := d - 16
      let t := if t.power.gone.testBit n then requestOff n t else t
      let held := (hive n t).held
      let u := held.foldl (fun u a => poisonPart false [] a u) (setHive n { hive n t with held := [] } t)
      nextDomain (failOnHive n stSpan (fun u v => usableMask (jIset v) u) u)
    else nextDomain t

/-! ### PD_C_n in service -/

/-- A placement or a push needs PD_C_n: it is requested if it is off, and one that is going off comes back on afterwards (R165,
R237). A refusal answers false. -/
def needCells (n : Nat) (s : State) : State × Bool :=
  if cOn n s then (s, true)
  else
    let t := requestOn (16 + n) s
    (t, (t.power.req.testBit (16 + n) || t.power.again.testBit (16 + n)) && !t.power.timed.testBit (16 + n) &&
      !t.power.gone.testBit (16 + n))

/-- PD_C_IDLE_POWER_DOWN: the idle timer of a hive without cue jobs reaches IDLE_US (R164). -/
def idlePowerDown (n : Nat) (s : State) : State :=
  let h := hive n s
  if cOn n s && on (CEL_HIVE_CFG.GATE_EN n) s && on (CEL_HIVE_CFG.IDLE_US n) s && h.placed.isEmpty && h.cue.isNone &&
      h.held.isEmpty then requestOff (16 + n) s
  else s

end Sys2Proof.Machine
end

