-- ==== Sys2Proof/Machine/Streams.lean ====
section
/-! DEFINITION. The streams of the cells (R136 to R150, R217, R228 to R231, R236, R257): which blocks of its channel a cell asks for and
when, how it takes them row by row into its row slots, how row results pass to the reduce unit, replays, and the end of a stream. -/

namespace Sys2Proof.Machine

open Reg

/-! ### The layout of an operand in its channel (R236) -/

/-- The sizes of a weight row: its padded elements and its padded shared scales, in bytes. -/
def rowBytes (m : Mode) (k : Nat) : Nat := (k * fmtWidth m.wf + 511) / 512 * 64
def scaleBytes (k : Nat) : Nat := ((k + 31) / 32 + 63) / 64 * 64

/-- The bytes of an operand in one channel. -/
def operandBytes (m : Mode) (rows k : Nat) : Nat :=
  if rows = 0 || k = 0 then 0
  else
    match m.ws with
    | 0 => rows * rowBytes m k
    | 1 => rows * rowBytes m k + (rows + 15) / 16 * 64
    | _ => rows * (rowBytes m k + scaleBytes k)

/-- Row r of an operand is preceded by a block of ROW scales that a run which began at row `start` has not yet taken. -/
def scaleFirst (m : Mode) (start r : Nat) : Bool := m.ws == 1 && (r % 16 == 0 || r == start)

/-- The blocks that a cell takes for row r, a block of ROW scales among them. -/
def rowLen (m : Mode) (k start r : Nat) : Nat :=
  if k = 0 then 0
  else if m.ws = 2 then (rowBytes m k + scaleBytes k) / 64
  else rowBytes m k / 64 + b2n (scaleFirst m start r)

/-- The channel-local offset of block i of row r. -/
def blockAt (m : Mode) (k addr start r i : Nat) : Nat :=
  let e := rowBytes m k
  match m.ws with
  | 0 => addr + e * r + 64 * i
  | 1 =>
    let g := addr + r / 16 * (64 + 16 * e)
    if scaleFirst m start r then (if i = 0 then g else g + 64 + e * (r % 16) + 64 * (i - 1)) else g + 64 + e * (r % 16) + 64 * i
  | _ => addr + r * (e + scaleBytes k) + 64 * i

/-- A weight row: its elements, its shared scales and the bits of its ROW scale. -/
structure WRow where
  elems : List Num
  shared : List Nat
  scale : Option Nat
  deriving DecidableEq, Repr

/-- Row r from its bytes, ROW scales taken apart. A row of no elements has ROW scale 1.0 (R230). -/
def weightRow (m : Mode) (k r : Nat) (scales d : List Byte) : WRow :=
  if k = 0 then ⟨[], [], if m.ws = 1 then some 0x3F800000 else none⟩
  else
    let elems := fun (o : Nat) => unpack m.wf k (leAt d o (rowBytes m k))
    match m.ws with
    | 0 => ⟨elems 0, [], none⟩
    | 1 => ⟨elems 0, [], some (leAt scales (4 * (r % 16)) 4)⟩
    | _ => ⟨elems (scaleBytes k), (d.take ((k + 31) / 32)).map fun b => b.toNat, none⟩

/-! ### Rows against columns (R145, R228 to R231) -/

/-- A column as a stream reads it: elements, shared scales and the bits of the ROW scale. -/
structure Col where
  elems : List Num
  shared : List Nat
  scale : Nat
  deriving DecidableEq, Repr

/-- Column j of logical cell c from the start of a bank. -/
def columnOf (n c j k bank : Nat) (m : Mode) (s : State) : Col :=
  let cols := (hive n s).cols
  let p := physCell n c s
  ⟨unpack m.af k (leNat (colBytes cols (colKey p 0 j (8192 * bank)) (k * (fmtWidth m.af / 8)))),
    if m.as = 2 then (colBytes cols (colKey p 1 j (256 * bank)) ((k + 31) / 32)).map fun b => b.toNat else [],
    leNat (colBytes cols (colKey p 1 j 512) 4)⟩

/-- The values that one row gives a column, in fold order: one exact accumulator, or the chain values (R127, R231). -/
def rowValues (m : Mode) (r : WRow) (x : Col) : List EVal :=
  let pairs := r.elems.zip x.elems
  if exactClass m then [dotExact pairs r.shared x.shared]
  else (chains pairs r.shared x.shared m.cseg).map fun p => .fp32 p.1 p.2

/-- Tokens that are masked form no product, and a block of masked tokens no contribution (R257, step 2). -/
def maskRow (hide : List Bool) (r : WRow) : WRow :=
  { r with
    elems := (r.elems.zip hide).map fun x => if x.2 then Num.zero else x.1,
    shared := r.shared.mapIdx fun b x => if ((hide.drop (32 * b)).take 32).all fun y => y then 127 else x }

/-- The probabilities with masked tokens taken out. -/
def maskCol (hide : List Bool) (x : Col) : Col :=
  { x with elems := (x.elems.zip hide).map fun y => if y.2 then Num.zero else y.1, shared := [] }

/-- The values of the columns of logical cell l for a row of a stream. -/
def rowResult (n l : Nat) (x : Stream) (w : WRow) (s : State) : List (List EVal) :=
  if x.v then
    let hide := mgetD x.hide l []
    (List.range x.ncol).map fun j =>
      rowValues { x.mode with as := 0 } (maskRow hide w) (maskCol hide (columnOf n l j x.k 1 { x.mode with as := 0 } s))
  else (List.range x.ncol).map fun j => rowValues x.mode w (columnOf n l j x.k x.bank x.mode s)

/-! ### Result-buffer entries (R231) -/

/-- The key of an entry of a result-buffer bank. -/
def entKey (bank i : Nat) : Nat := bank * 1024 + i

/-- Fold values: the first stands, the others are added in order (R231). -/
def foldVals (l : List EVal) : EVal :=
  match l with
  | [] => .zeroExact
  | v :: vs => vs.foldl EVal.plus v

/-- The entry that a row's values make, replacing or adding (R231); its MASKED flag is as given, or stays (R248). -/
def newEntry (acc keep : Bool) (old : Option Entry) (m : Mode) (k : Nat) (w : Option Nat) (as : List Nat) (masked : Bool)
    (vals : List (List EVal)) : Entry :=
  match acc, old with
  | true, some e =>
    { e with vals := (e.vals.zip vals).map fun x => x.2.foldl EVal.plus x.1, count := e.count + k, masked := keep && e.masked }
  | _, _ => ⟨vals.map foldVals, k, some m, false, w, as, masked⟩

/-- The entry of row r of logical cell l under a stream stands for a masked position (R248). -/
def rowMasked (x : Stream) (l r : Nat) : Bool := x.seq.any fun q => decide (q.1 ≤ q.2 + l * x.rows + r)

/-! ### Changing the streams of a hive -/

/-- Change the sequencer of a hive. -/
def onCue (n : Nat) (f : Cue → Cue) (s : State) : State :=
  let h := hive n s
  match h.cue with
  | some c => setHive n { h with cue := some (f c) } s
  | none => s

/-- The oldest stream of a hive that has not ended. -/
def headStream (n : Nat) (s : State) : Option Stream := (hive n s).cue.bind fun c => c.streams.head?

/-- Change the oldest stream of a hive. -/
def setStream (n : Nat) (f : Stream → Stream) (s : State) : State :=
  onCue n (fun c => match c.streams with
    | x :: xs => { c with streams := f x :: xs }
    | [] => c) s

/-- The job that runs on a hive fails with UNCORRECTABLE: a cell has met an uncorrectable block (R156, R249, R357). -/
def streamPoison (n c off : Nat) (s : State) : State :=
  match (hive n s).cue with
  | some q => failJob q.job stUncorrectable (ueInfo n c off s) s
  | none => s

/-! ### Asking a channel for blocks (R141, R217, R269) -/

/-- The next block that logical cell l wants: the index of its stream, and its place there. The blocks of a stream are asked for once
those of the streams before it have all been (R217). -/
def nextAsk (l : Nat) : Nat → List Stream → Option (Nat × Stream × Taker)
  | _, [] => none
  | i, x :: xs =>
    match mfind x.takers l with
    | some t => if t.askRow < x.rows && x.k != 0 then some (i, x, t) else nextAsk l (i + 1) xs
    | none => nextAsk l (i + 1) xs

/-- The blocks that a logical cell has asked for and not taken: in the stream queues of its channel, among the re-reads, or in its
stream buffer. -/
def asked (n l : Nat) (c : Cue) (s : State) : Nat :=
  let ofPc := fun (p : Nat) => let q := pcOf n l p s; q.strq.length + (q.retries.filter fun r => r.src == 2).length
  ofPc 0 + ofPc 1 + c.streams.foldl (fun k x => k + (mfind x.takers l).elim 0 fun t => t.buffer.length) 0

/-- The place after the block that a taker asks for next. -/
def askStep (x : Stream) (t : Taker) : Taker :=
  if t.askBlk + 1 < rowLen x.mode x.k t.start t.askRow then { t with askBlk := t.askBlk + 1 }
  else { t with askRow := t.askRow + 1, askBlk := 0 }

/-- Put one block into the stream queue of its pseudo-channel, which wakes (R285). -/
def queueBlock (n l off run row blk : Nat) (s : State) : State :=
  let p := workPc n l off s
  let t := wake n l p s
  let q := pcOf n l p t
  { setPc n l p { q with strq := q.strq ++ [QEnt.plain t.nextUid run row blk off false none] } t with nextUid := t.nextUid + 1 }

/-- Logical cell l asks for blocks while its stream buffer of 32 blocks has room for them. -/
def topUpCell (n l : Nat) : Nat → State → State
  | 0, s => s
  | fuel + 1, s =>
    match (hive n s).cue with
    | none => s
    | some c =>
      if 32 ≤ asked n l c s then s
      else
        match nextAsk l 0 c.streams with
        | none => s
        | some (i, x, t) =>
          let t1 := onCue n (fun c => { c with streams := c.streams.set i { x with takers := mset x.takers l (askStep x t) } }) s
          topUpCell n l fuel (queueBlock n l (blockAt x.mode x.k x.addr t.start t.askRow t.askBlk) t.run t.askRow t.askBlk t1)

/-- Every cell asks for what its stream buffer has room for. -/
def topUp (n : Nat) (s : State) : State := (List.range (usedCh n s)).foldl (fun t l => topUpCell n l 32 t) s

/-! ### Taking words (R140, R150, R156) -/

/-- The row result of logical cell l passes to the reduce unit, and its slot is free (R150, R159). -/
def passRow (n cells l : Nat) (s : State) : State :=
  onCue n (fun c =>
    match c.streams with
    | [] => c
    | x :: xs =>
      match mfind x.takers l with
      | none => c
      | some t =>
        match t.slots with
        | ⟨r, _, some (vals, w, as)⟩ :: rest =>
          let x1 := { x with takers := mset x.takers l { t with row := r + 1, slots := rest } }
          if x.v then
            let x2 := { x1 with
              sums := mset x1.sums (r * cells + l) (vals.map foldVals),
              scales := if l = 0 then w.elim x1.scales fun b => mset x1.scales r b else x1.scales }
            { c with streams := x2 :: xs }
          else
            let k := entKey x.rb (x.rbase + r * cells + l)
            { c with streams := x1 :: xs, ents := mset c.ents k (newEntry x.acc x.keep (mfind c.ents k) x.mode x.k w as (rowMasked x l r) vals) }
        | _ => c) s

/-- Logical cell l has taken the last word of a stream. -/
def takenAll (x : Stream) (l : Nat) : Bool :=
  match mfind x.takers l with
  | none => true
  | some t => decide (x.rows ≤ t.row + (t.slots.filter fun y => y.done.isSome).length)

/-- Slice operations per product (R137). -/
def sliceCost (m : Mode) : Nat :=
  (match m.wf with | 0 => 1 | 1 => 2 | 3 => 2 | 4 => 3 | 5 => 3 | 8 => 16 | 9 => 16 | 10 => 64 | _ => 4) *
    (match m.af with | 8 => 2 | 10 => 3 | _ => 1)

/-- Counted events of a row that a cell has taken: the ECLK of it and its weight bytes (R138, R487). -/
def rowEvents (n l : Nat) (x : Stream) (bytes : Nat) (s : State) : State :=
  emit 0x301 bytes (some n) none none (some l) (emit 0x300 (max 1 ((x.k * sliceCost x.mode + 287) / 288)) (some n) none none (some l) s)

/-- The last word of a row has been taken: its values stand in its slot, and its ROW scales stay for the rows after it (R142). -/
def endRow (n l : Nat) (x : Stream) (t : Taker) (pre : List Slot) (y : Slot) (s : State) : State :=
  let first := scaleFirst x.mode t.start y.row && x.k != 0
  let scales := if first then y.bytes.take 64 else t.scales
  let w := weightRow x.mode x.k y.row scales (if first then y.bytes.drop 64 else y.bytes)
  let as := if x.mode.as = 1 && !x.v then (List.range x.ncol).map fun j => (columnOf n l j x.k x.bank x.mode s).scale else []
  let t1 := { t with scales := scales, slots := pre ++ [{ y with done := some (rowResult n l x w s, w.scale, as) }] }
  rowEvents n l x y.bytes.length (setStream n (fun z => { z with takers := mset z.takers l t1 }) s)

/-- The next block of the open row is in the stream buffer: it enters the slot, or fails the job if it is uncorrectable. -/
def takeBlock (n l : Nat) (x : Stream) (t : Taker) (pre : List Slot) (y : Slot) (s : State) : Option State :=
  let i := y.bytes.length / 64
  match t.buffer.find? fun b => b.1 == y.row && b.2.1 == i with
  | none => none
  | some (_, _, none) => some (streamPoison n l (blockAt x.mode x.k x.addr t.start y.row i) s)
  | some b@(_, _, some d) =>
    let t1 := { t with buffer := t.buffer.erase b, slots := pre ++ [{ y with bytes := y.bytes ++ beatBytes d }] }
    some (setStream n (fun z => { z with takers := mset z.takers l t1 }) s)

/-- Logical cell l begins its next row, once its first block is there; with both slots occupied the older result passes first
(R150). -/
def beginRow (n cells l : Nat) (x : Stream) (t : Taker) (s : State) : Option State :=
  let r := t.row + t.slots.length
  if x.rows ≤ r || !(x.k == 0 || t.buffer.any fun b => b.1 == r && b.2.1 == 0) then none
  else if 2 ≤ t.slots.length then some (passRow n cells l s)
  else some (setStream n (fun z => { z with takers := mset z.takers l { t with slots := t.slots ++ [⟨r, [], none⟩] } }) s)

/-- What logical cell l does next with the oldest stream; none if it waits. A cell under a lane test or a takeover has stopped
(R151). -/
def cellStep (n l : Nat) (s : State) : Option State :=
  match headStream n s with
  | none => none
  | some x =>
    if (mfind (hive n s).faults (physCell n l s)).isSome then none
    else
      match mfind x.takers l with
      | none => none
      | some t =>
        match t.slots.getLast? with
        | some y =>
          if y.done.isSome then beginRow n (usedCh n s) l x t s
          else if y.bytes.length / 64 < rowLen x.mode x.k t.start y.row then takeBlock n l x t t.slots.dropLast y s
          else some (endRow n l x t t.slots.dropLast y s)
        | none => beginRow n (usedCh n s) l x t s

/-- A cell takes what is there for it. -/
def cellRun (n l : Nat) : Nat → State → State
  | 0, s => s
  | fuel + 1, s =>
    match cellStep n l s with
    | some t => cellRun n l fuel t
    | none => s

/-! ### The end of a stream (R146, R150, R257) -/

/-- Results of cells that have taken their last word pass to the reduce unit, save those of a cell that has stopped. -/
def passTaken (n : Nat) (s : State) : State :=
  (List.range (usedCh n s)).foldl (fun t l =>
    match headStream n t with
    | some x =>
      if takenAll x l && !takerDone x l && (mfind (hive n t).faults (physCell n l t)).isNone then
        passRow n (usedCh n t) l (passRow n (usedCh n t) l t)
      else t
    | none => t) s

/-- A column of an entry before its last rounding: the ROW scales and M applied (R125 step 4, R127 step 5). A masked score is
−Inf. -/
def scaled (e : Option Entry) (j mul : Nat) : Num :=
  match e with
  | none => Num.zero.mul (f32 mul)
  | some x =>
    if x.masked && !x.kind32 then .inf true
    else
      let w := x.wScale.elim (Num.fin 1 0) f32
      let a := if x.aScales.isEmpty then Num.fin 1 0 else f32 (x.aScales.getD j 0)
      ((((x.vals.getD j .zeroExact).value).mul w).mul a).mul (f32 mul)

/-- The FP32 value of an entry for a column, with the OVF flag that it carries (R250). -/
def value32 (e : Option Entry) (j mul : Nat) : Nat × Bool :=
  match e with
  | none => (0, false)
  | some x =>
    let v := x.vals.getD j .zeroExact
    if x.masked then (0xFF800000, v.ovf)
    else if x.kind32 then (match v with | .fp32 b o => (b, o) | _ => (0, false))
    else ((round32 (scaled e j mul)).1, v.ovf)

/-- The hive value of row d and column j of a VSTREAM (R257, step 3). -/
def hiveValue (cells : Nat) (x : Stream) (d j : Nat) : Nat × Bool :=
  let zero : EVal := if exactClass x.mode then .zeroExact else .fp32 0 false
  let v := treeFold EVal.plus zero ((List.range cells).map fun l => (mgetD x.sums (d * cells + l) []).getD j zero)
  let r := round32 (v.value.mul ((mfind x.scales d).elim (Num.fin 1 0) f32))
  (r.1, v.ovf || x.ovfCols.getD j false || r.2)

/-- −Inf without an overflow. -/
def minusInf : Nat × Bool := (0xFF800000, false)

/-- The start values of KV-stream mode. -/
def kvStart : Kv :=
  ⟨List.replicate 20 minusInf, List.replicate 20 (0, false), List.replicate 20 minusInf, List.replicate 20 minusInf, 0, 0⟩

def kvOf (c : Cue) : Kv := c.kv.getD kvStart

/-- The columns of an entry; a zero entry has twenty. -/
def ncolOf (e : Option Entry) : Nat := e.elim 20 fun x => x.vals.length

/-- The output entry of a VSTREAM row with hive values h (R257, step 4). -/
def outEntry (x : Stream) (kv : Kv) (old : Option Entry) (h : List (Nat × Bool)) : Entry :=
  let keep := if x.acc then old else none
  let vals := match keep with
    | none => h
    | some _ => (List.range x.ncol).map fun j =>
      fold32 (bring (value32 keep j x.mul) (kv.ro.getD j minusInf) (kv.m.getD j minusInf)) (h.getD j (0, false))
  ⟨vals.map fun y => .fp32 y.1 y.2, (keep.elim 0 fun e => e.count) + x.more, some x.mode, true, none, [], false⟩

/-- The result entries of a VSTREAM and its new RO (R257, steps 4 and 5). -/
def finishValues (cells : Nat) (x : Stream) (c : Cue) : Cue :=
  let kv := kvOf c
  let ents := (List.range x.rows).foldl (fun es d =>
    let k := entKey x.rb (x.rbase + d)
    mset es k (outEntry x kv (mfind es k) ((List.range x.ncol).map fun j => hiveValue cells x d j))) c.ents
  let ro := (List.range 20).map fun j => if j < x.ncol then kv.m.getD j minusInf else kv.ro.getD j minusInf
  { c with ents := ents, kv := some (if x.rows = 0 then kv else { kv with ro := ro }) }

/-- The oldest stream has ended in every cell: it leaves the hive, and the writes that waited for it are performed (R146). -/
def endHead (n : Nat) (s : State) : State :=
  match headStream n s with
  | none => s
  | some x =>
    if !((List.range (usedCh n s)).all fun l => takerDone x l) then s
    else
      let t := if x.v then onCue n (finishValues (usedCh n s) x) s else s
      releaseHeld n (showCells n (onCue n (fun c => { c with streams := c.streams.drop 1 }) t))

/-- The stream engine of a hive goes on: the cells take what has arrived, a stream that every cell has taken makes way for the one
behind it, and the cells ask for more. -/
def advanceN (n : Nat) : Nat → State → State
  | 0, s => s
  | fuel + 1, s =>
    match headStream n s with
    | none => s
    | some x =>
      let t := (List.range (usedCh n s)).foldl (fun u l => cellRun n l (4 * (x.rows + 40)) u) (topUp n s)
      let more := (hive n t).cue.any fun c => decide (2 ≤ c.streams.length)
      match headStream n t with
      | none => t
      | some y =>
        if more && ((List.range (usedCh n t)).all fun l => takenAll y l) && (hive n t).faults.isEmpty then
          advanceN n fuel (endHead n (passTaken n t))
        else topUp n t

def advance (n : Nat) (s : State) : State :=
  advanceN n (((hive n s).cue.elim 0 fun c => c.streams.length) + 1) s

/-- The state once every stream of a hive has ended, with what waited for them; none while a cell has words to take, a lane test or a
takeover before it. -/
def drainStreams (n : Nat) (s : State) : Option State :=
  let t := endHead n (passTaken n s)
  if ((hive n t).cue.all fun c => c.streams.isEmpty) && (hive n t).faults.isEmpty then some t else none

/-! ### Replays (R154) -/

/-- Logical cell l starts its streams again at the first row not yet passed: its slots and its stream buffer are discarded, and what it
has asked for and not received no longer counts. -/
def restart (n l : Nat) (s : State) : State :=
  let clear := fun (q : Pc) => { q with strq := [], retries := q.retries.filter fun r => r.src != 2 }
  let t := setPc n l 1 (clear (pcOf n l 1 s)) (setPc n l 0 (clear (pcOf n l 0 s)) s)
  let again := fun (i : Nat) (y : Taker) =>
    { y with run := t.nextUid + i, start := y.row, askRow := y.row, askBlk := 0, buffer := [], slots := [], replay := i == 0 }
  let t := onCue n (fun c => { c with streams := c.streams.mapIdx fun i x =>
    { x with takers := match mfind x.takers l with | some y => mset x.takers l (again i y) | none => x.takers } }) t
  advance n { t with nextUid := t.nextUid + ((hive n t).cue.elim 0 fun c => c.streams.length) }

/-! ### The beginning of a stream -/

/-- The ECLK in which a cell of a stream takes no words: withheld by throttling, and with an empty stream buffer (R487). -/
def idleEvents (n c : Nat) (s : State) : State :=
  let t := emitSome 0x303 n (some c) s
  if on (HIV_THM_STATE.LEVEL n) s then emitSome 0x302 n (some c) t else t

/-- A stream instruction has issued: every cell has its place in it. -/
def addStream (n : Nat) (x : Stream) (s : State) : State :=
  let cells := usedCh n s
  let takers := (List.range cells).map fun l => (l, (⟨s.nextUid + l, 0, 0, 0, [], [], 0, [], false⟩ : Taker))
  let t := onCue n (fun c => { c with streams := c.streams ++ [{ x with takers := takers }] }) { s with nextUid := s.nextUid + cells }
  showCells n (advance n ((List.range cells).foldl (fun u l => idleEvents n l u) t))

end Sys2Proof.Machine
end

