-- ==== Sys2Proof/Machine/Cells.lean ====
section
/-! DEFINITION. The cells (R136 to R169): activation pushes and their release, faults, lane tests, takeovers, retirement and
self-tests. -/

namespace Sys2Proof.Machine

open Reg

/-! ### Activation pushes (R146, R165, R237) -/

/-- Every hive of a list is asked for its PD_C_n; false if one refuses. -/
def needAll (hs : List Nat) (s : State) : State × Bool :=
  hs.foldl (fun x n => let r := needCells n x.1; (r.1, x.2 && r.2)) (s, true)

/-- A push reaches its hive: it is performed, held while a stream reads the bank, or waits for the domains of all its hives (R146,
R237). Where one of them refuses, nothing of it is written. -/
def pushPart (n : Nat) (a : Part) (s : State) : State :=
  match mfind s.live a.uid with
  | none => s
  | some l =>
    if l.failed then ackWrite n a.uid false s
    else
      let r := needAll ((pushHives l.req s).getD [n]) s
      if r.2 then tryPush n a r.1 else failPush a.uid (ackWrite n a.uid false r.1)

/-- ACTIVATION_WRITE_RELEASE (R146, R243): results of cells that have taken their last word pass, a stream that has ended in every
cell leaves the hive, and held writes whose bank is free are performed and acknowledged. -/
def activationRelease (n : Nat) (s : State) : State := advance n (releaseHeld n (endHead n (passTaken n s)))

/-- A held push of any hive waits for hive n. -/
def pushWaits (n : Nat) (s : State) : Bool :=
  s.hives.any fun x => x.2.held.any fun a => (mfind s.live a.uid).any fun l => ((pushHives l.req s).getD []).contains n

/-- Held pushes of every hive are tried again. -/
def releaseAll (s : State) : State := (List.range 16).foldl (fun t n => releaseHeld n t) s

/-- PD_C_WAKE: a placement or a push that waits powers the domain on (R165); once it is on and self-tested, the writes that
waited are performed. -/
def cellsWake (n : Nat) (s : State) : State :=
  if cellsReady n s then releaseAll s
  else if cOn n s then s
  else if (hive n s).placed.isEmpty && !pushWaits n s then s
  else (needCells n s).1

/-! ### Lanes (R152, R153) -/

/-- The retired lanes of a cell. -/
def retiredLanes (n c : Nat) (s : State) : List Nat :=
  [(CEL_LANE_MAP_0.USED_A n c, CEL_LANE_MAP_0.LANE_A n c), (CEL_LANE_MAP_0.USED_B n c, CEL_LANE_MAP_0.LANE_B n c),
    (CEL_LANE_MAP_1.USED_A n c, CEL_LANE_MAP_1.LANE_A n c), (CEL_LANE_MAP_1.USED_B n c, CEL_LANE_MAP_1.LANE_B n c)].filterMap
    fun x => if on x.1 s then some (rd x.2 s) else none

/-- Retire one lane in the first unused slot. -/
def retireLane (n c : Nat) (s : State) (lane : Nat) : State :=
  let slot := match (retiredLanes n c s).length with
    | 0 => (CEL_LANE_MAP_0.USED_A n c, CEL_LANE_MAP_0.LANE_A n c)
    | 1 => (CEL_LANE_MAP_0.USED_B n c, CEL_LANE_MAP_0.LANE_B n c)
    | 2 => (CEL_LANE_MAP_1.USED_A n c, CEL_LANE_MAP_1.LANE_A n c)
    | _ => (CEL_LANE_MAP_1.USED_B n c, CEL_LANE_MAP_1.LANE_B n c)
  let t := putAll [(slot.1, 1), (slot.2, lane)] s
  put (CEL_STATUS.SPARES_USED n c) (retiredLanes n c t).length t

/-- Lanes of a list that are not retired yet. -/
def newLanes (n c : Nat) (lanes : List Nat) (s : State) : List Nat :=
  (lanes.eraseDups.filter fun l => decide (l < 292)).filter fun l => !(retiredLanes n c s).contains l

/-- Physical lane l belongs to the lanes of logical group g (R153). -/
def laneInGroup (n c g l : Nat) (s : State) : Bool :=
  let below := l - ((retiredLanes n c s).filter fun r => decide (r < l)).length
  decide (8 * g ≤ below) && decide (below ≤ 8 * g + 7)

/-! ### Retirement and self-tests (R157, R158, R161, R162, R168) -/

/-- RETIRE: a write of 1 to CEL_CTRL.RETIRE. CELL[n.U] is not USABLE from then on; the rest takes effect at a job boundary. -/
def retireWrite (n c : Nat) (s : State) : State :=
  if hOn n s && (usedCells n s).contains c then
    let t := put (CEL_CTRL.RETIRE n c) 1 s
    let t := if c = 32 then put (CEL_US_STATUS.USABLE n) 0 t else t
    if atBoundary n t then applyRetire n t else t
  else s

/-- TEST_START: a write of 1 to CEL_CTRL.TEST_START requests a self-test at the next job boundary (R161). -/
def testStartWrite (n c : Nat) (s : State) : State :=
  if hOn n s && (usedCells n s).contains c then
    let h := hive n s
    let t := setHive n { h with tests := insertRising h.tests c } s
    if atBoundary n t && cOn n t then startTests n t else t
  else s

/-- Record the first fault after VALID was cleared (R168). -/
def cellFault (n c column group kind : Nat) (s : State) : State :=
  if on (CEL_FAULT_INFO.VALID n c) s then s
  else putAll [(CEL_FAULT_INFO.COLUMN n c, column), (CEL_FAULT_INFO.GROUP n c, group), (CEL_FAULT_INFO.KIND n c, kind),
    (CEL_FAULT_INFO.VALID n c, 1)] s

/-- The outcome of a self-test (R161, R162). -/
def testOutcome (n c : Nat) (x : CellTest) (s : State) : State :=
  let fresh := newLanes n c x.lanes s
  let fit := x.storeOk && x.slotsOk && x.checkOk && decide ((retiredLanes n c s).length + fresh.length ≤ 4)
  let t := putAll [(CEL_TEST_SUMMARY.LANES_FAILED n c, min 7 x.lanes.length), (CEL_TEST_SUMMARY.STORE_OK n c, b2n x.storeOk),
    (CEL_TEST_SUMMARY.SLOTS_OK n c, b2n x.slotsOk), (CEL_TEST_SUMMARY.CHECK_OK n c, b2n x.checkOk),
    (CEL_TEST_SUMMARY.CELL_OK n c, b2n fit), (CEL_TEST_SUMMARY.VALID n c, 1)] s
  if fit then
    let t := fresh.foldl (retireLane n c) t
    if c = 32 && !on (CEL_CTRL.RETIRE n 32) t then put (CEL_US_STATUS.USABLE n) 1 t else t
  else replaceCell n c (cellFault n c 0 0 5 t)

/-- CELL_SELF_TEST: a self-test of a used cell or of CELL[n.U] ends (R161), while no job runs on the hive. Pushes that waited for the
cells are performed. -/
def selfTest (n c : Nat) (x : CellTest) (s : State) : State :=
  if cOn n s && (usedCells n s).contains c && atBoundary n s then
    let h := hive n s
    let left := h.tests.erase c
    let t := showCells n (testOutcome n c x (setHive n { h with tests := left, wake := h.wake && !left.isEmpty } s))
    if cellsReady n t then releaseAll t else t
  else s

/-! ### Faults during a stream (R151 to R160) -/

/-- The cell takes words of a stream. -/
def inService (n c : Nat) (s : State) : Bool :=
  if c = 32 then on (CEL_US_STATUS.ACTIVE n) s else decide (c < usedCh n s) && cellServes n c s

/-- The place of a cell in the oldest stream of its hive. -/
def takerOf (n c : Nat) (s : State) : Option (Stream × Taker) :=
  if !inService n c s then none
  else (headStream n s).bind fun x => (mfind x.takers (logicalCell n c s)).map fun t => (x, t)

/-- The job that runs on the hive fails with CELL_FAULT. -/
def failRunning (n c : Nat) (s : State) : State :=
  match (hive n s).cue with
  | some q => failJob q.job stCell (cellInfo n c) s
  | none => s

/-- The fault of a cell is open until its lane test has ended and, where one follows, its takeover. -/
def openFault (n c group column : Nat) (s : State) : State :=
  showCells n (setHive n { hive n s with faults := mset (hive n s).faults c (group, column) } s)

def closeFault (n c : Nat) (s : State) : State := showCells n (setHive n { hive n s with faults := mdel (hive n s).faults c } s)

/-- RESIDUE_FAULT (R151) of words in a row slot: the cell stops, the fault is recorded and a lane test begins. The third of one
instruction and a fault of CELL[n.U] itself fail the job (R155, R160). -/
def residueFault (n c group column : Nat) (s : State) : State :=
  match takerOf n c s with
  | none => s
  | some (x, t) =>
    if t.slots.all (fun y => y.bytes.isEmpty) || 36 ≤ group || x.ncol ≤ column || (mfind (hive n s).faults c).isSome then s
    else
      let u := openFault n c group column (cellFault n c column group 1 s)
      if c = 32 || 2 ≤ mgetD x.replays (logicalCell n c s) 0 then failRunning n c u else u

/-- The stream instruction replays in a cell (R154). -/
def replayCell (n c : Nat) (s : State) : State :=
  let l := logicalCell n c s
  let t := emit 0x304 1 (some n) none none (some l) (bump (CEL_ERR_CNT.REPLAYS n c) 1 s)
  showCells n (restart n l (setStream n (fun y => { y with replays := mset y.replays l (mgetD y.replays l 0 + 1) }) t))

/-- LANE_TEST_COMPLETE (R152, R157). With too few spare lanes the understudy is to take over; a job whose cell it cannot take fails,
and the cell with it (R160). Where the job has gone, nothing is replayed. (DESIGN CHOICE, log entry 31.) -/
def laneTest (n c : Nat) (failed : List Nat) (s : State) : State :=
  match mfind (hive n s).faults c with
  | none => s
  | some (group, _) =>
    if (hive n s).takeover.contains c || !keeperReady n s then s
    else
      let fresh := newLanes n c failed s
      let used := retiredLanes n c s
      let spent := decide (used.length = 4) && used.all fun l => laneInGroup n c group l s
      let fits := decide (used.length + fresh.length ≤ 4)
      let runs := (takerOf n c s).isSome
      if (fresh.isEmpty && !spent) || (!fresh.isEmpty && fits) then
        let t := closeFault n c s
        let t := if fresh.isEmpty then bump (CEL_ERR_CNT.TRANSIENTS n c) 1 t else fresh.foldl (retireLane n c) t
        if runs then replayCell n c t else t
      else if c = 32 then closeFault n c s
      else if !runs then replaceCell n c (closeFault n c s)
      else if understudyFree n s then setHive n { hive n s with takeover := [c] } s
      else failRunning n c (failCell n c (closeFault n c s))

/-- The stores of CELL[n.U] become those of cell c (R158, step 2). -/
def copyStores (n c : Nat) (s : State) : State :=
  let h := hive n s
  let mine := h.cols.filter fun y => y.1 / 2 ^ 20 == c
  setHive n { h with
    cols := mine.foldl (fun m y => mset m (32 * 2 ^ 20 + y.1 % 2 ^ 20) y.2) (h.cols.filter fun y => y.1 / 2 ^ 20 != 32) } s

/-- CELL_TAKEOVER (R158): the understudy takes the cell's stores, stream and reduce position, and replays. A parity error in the copy,
at a column, fails the job (R156). -/
def cellTakeover (n c : Nat) (copyParity : Option Nat) (s : State) : State :=
  if !(hive n s).takeover.contains c || (takerOf n c s).isNone then s
  else
    match copyParity with
    | some col => failRunning n c (cellFault n c (min col 19) 0 2 (closeFault n c s))
    | none =>
      let t := copyStores n c s
      let t := standIn n c (setHive n { hive n t with takeover := [], faults := mdel (hive n t).faults c } t)
      let t := cellEvent n c 3 (bump (CEL_ERR_CNT.REPLAYS n c) 1 t)
      showCells n (restart n c (setStream n (fun y => { y with replays := mset y.replays c (mgetD y.replays c 0 + 1) })
        (emit 0x304 1 (some n) none none (some c) t)))

/-- CELL_PARITY_ERROR (R156): an operand in the column store (kind 2), a row slot (3) or the stream buffer (4) is lost, so the job
fails without a replay. -/
def cellParity (n c kind column : Nat) (s : State) : State :=
  match takerOf n c s with
  | none => s
  | some (_, t) =>
    if column < 20 && (kind == 2 || (kind == 3 && !t.slots.isEmpty) || (kind == 4 && !t.buffer.isEmpty)) then
      failRunning n c (cellFault n c (if kind = 2 then column else 0) 0 kind s)
    else s

end Sys2Proof.Machine
end

