-- ==== Sys2Proof/Machine/Flash.lean ====
section
/-! DEFINITION. The flash (R71 to R73, R423, R437), CRC-32, and the shutdown records that lie in it (R424 to R426). -/

namespace Sys2Proof.Machine

open Reg

/-! ### Windows (R423, R469) -/

/-- The hottest reading in 0.25 °C. -/
def hottest (s : State) : Int := toSigned 11 (rd THM_STATE.HOTTEST s)

/-- A flash program or erase may start. -/
def flashOk (s : State) : Bool := decide (hottest s ≤ 440)

/-- An OTP word may be programmed. -/
def otpWindow (s : State) : Bool := decide (40 ≤ hottest s) && decide (hottest s ≤ 340)

/-! ### Contents: unlisted bytes read 0xFF -/

def flashByte (m : AMap Byte) (a : Nat) : Byte := mgetD m a 0xFF

/-- Set a byte of the 256 MiB (R71). -/
def flashSet (m : AMap Byte) (a : Nat) (b : Byte) : AMap Byte := if 2 ^ 28 ≤ a then m else if b = 0xFF then mdel m a else mset m a b

def flashBytes (m : AMap Byte) (a : Nat) : Nat → List Byte
  | 0 => []
  | n + 1 => flashByte m a :: flashBytes m (a + 1) n

/-- Program bytes: bits are only cleared. -/
def flashProg (m : AMap Byte) (a : Nat) : List Byte → AMap Byte
  | [] => m
  | b :: bs => flashProg (flashSet m a (flashByte m a &&& b)) (a + 1) bs

/-- Erase n bytes from a sector boundary. -/
def flashErase (m : AMap Byte) (a n : Nat) : AMap Byte := m.filter fun x => x.1 < a || a + n ≤ x.1

def flRead (a n : Nat) (s : State) : List Byte := flashBytes s.flash a n

def flProg (a : Nat) (bs : List Byte) (s : State) : State := { s with flash := flashProg s.flash a bs }

def flErase (a n : Nat) (s : State) : State := { s with flash := flashErase s.flash a n }

def bootSectors : Nat := 0x00010000
def slotBase (i : Nat) : Nat := if i = 0 then 0x00020000 else 0x04020000
def slotSize : Nat := 0x04000000
def settingsBase (i : Nat) : Nat := if i = 0 then 0x08020000 else 0x08040000
def shutSector : Nat := 0x08060000
def remapSector : Nat := 0x08061000

/-! ### CRC-32 (IEEE 802.3) -/

def crcBits : Nat → Nat → Nat
  | 0, c => c
  | n + 1, c => crcBits n (if c % 2 = 1 then (c / 2) ^^^ 0xEDB88320 else c / 2)

/-- CRC-32 of bytes. -/
def crc32 (bs : List Byte) : Nat :=
  (bs.foldl (fun c b => crcBits 8 (c ^^^ b.toNat)) 0xFFFFFFFF) ^^^ 0xFFFFFFFF

/-- The keepers record the installed remap entries in flash while R423 permits it; until then a record waits (R368). -/
def recordRemaps (s : State) : State := if flashOk s then { s with remapLog := s.remapWant } else s

/-! ### Shutdown records (R425) -/

/-- The states of a record slot. -/
inductive RecState where
  | empty | pending | cleared | consumed
  deriving DecidableEq, Repr

/-- Decode a STATE byte: a pair is marked only when both of its bits read 0. -/
def recState (b : Nat) : RecState :=
  if bits b 2 2 = 0 then .consumed else if bits b 4 2 = 0 then .cleared else if bits b 6 2 = 0 then .pending else .empty

def slotAddr (i : Nat) : Nat := shutSector + 32 * i

def slotStateOf (i : Nat) (s : State) : RecState := recState (flashByte s.flash (slotAddr i)).toNat

/-- A slot is free while all 32 of its bytes read 0xFF. -/
def slotFree (i : Nat) (s : State) : Bool := (flRead (slotAddr i) 32 s).all fun b => b == 0xFF

def freeSlots (s : State) : List Nat := (List.range 128).filter fun i => slotFree i s

/-- The slot of the PENDING record, if there is one. -/
def pendingSlot (s : State) : Option Nat := (List.range 128).find? fun i => slotStateOf i s == .pending

/-- Erase the sector when fewer than 8 free slots remain and no record is PENDING. -/
def eraseShut (s : State) : State :=
  if (freeSlots s).length < 8 && (pendingSlot s).isNone && flashOk s then flErase shutSector 4096 s else s

/-- Program a PENDING record: bytes 1 to 31 first, STATE afterwards. -/
def writeShutRec (r : ShutRec) (s : State) : State :=
  let s := eraseShut s
  match freeSlots s with
  | [] => s
  | i :: _ =>
    let body := leBytes 1 r.g ++ leBytes 2 (ofSigned 16 r.t) ++ leBytes 4 (ofSigned 32 r.rise) ++ leBytes 8 (hclk s)
      ++ leBytes 4 s.thermal.recSeq
    let t := flProg (slotAddr i) [0x3F] (flProg (slotAddr i + 1) body s)
    let t := { t with thermal := { t.thermal with due := none, recClean := 0, recSeq := t.thermal.recSeq + 1 } }
    thmEvent THM_EVENT.PENDING (put THM_STATE.PENDING 1 t)

/-- SHUTDOWN_RECORD_WRITE: the smoker programs the record that is due once the hottest reading allows it (R423, R424). -/
def shutdownRecordWrite (s : State) : State :=
  match s.thermal.due with
  | some r => if flashOk s && coreReady 1 s && (pendingSlot s).isNone then writeShutRec r s else s
  | none => s

/-- SHUTDOWN_RECORD_CLEAR: after 100 cool rounds the smoker marks the record CLEARED (R424). -/
def shutdownRecordClear (s : State) : State :=
  match pendingSlot s with
  | none => s
  | some i =>
    if s.thermal.recClean < 100 || !flashOk s || !coreReady 1 s then s
    else
      let t := flProg (slotAddr i) [0x0F] s
      eraseShut (thmEvent THM_EVENT.CLEARED (put THM_STATE.PENDING 0 { t with thermal := { t.thermal with recClean := 0 } }))

/-- The scan of R426 at a start. -/
def consumeShutRec (s : State) : State :=
  match pendingSlot s with
  | none => s
  | some i =>
    let t := put GLB_RESET_CAUSE.THERMAL 1 s
    if flashOk t then flProg (slotAddr i) [0x33] t else put THM_STATE.PENDING 1 t

end Sys2Proof.Machine
end

