-- ==== Sys2Proof/Machine/Thermal.lean ====
section
/-! DEFINITION. Sensors, thresholds, throttle levels and supply monitors (R408 to R420). -/

namespace Sys2Proof.Machine

open Reg

/-! ### Sites (R409, R410) -/

/-- The temperature of an oscillator count, in 0.25 °C. -/
def oscTemp (n n0 slope : Nat) : Int := 100 + ((Int.ofNat n - Int.ofNat n0) * toSigned 16 slope) / 256

/-- A valid oscillator reading. -/
def oscRead (n n0 slope : Nat) : Option Int :=
  let t := oscTemp n n0 slope
  if n ≠ 0 ∧ -160 ≤ t ∧ t ≤ 600 then some t else none

/-- A resolved site. -/
structure Site where
  temp : Option Int
  pOk : Bool
  sOk : Bool
  dis : Bool
  count : Nat
  deriving DecidableEq, Repr

/-- The higher of the valid readings (R410). -/
def resolveSite (p q : Option Int) (tol count : Nat) : Site :=
  match p, q with
  | some a, some b => ⟨some (max a b), true, true, decide (4 * tol < (a - b).natAbs), count⟩
  | some a, none => ⟨some a, true, false, false, count⟩
  | none, some b => ⟨some b, false, true, false, count⟩
  | none, none => ⟨none, false, false, false, count⟩

/-- Resolve site k of group g from its two counts. -/
def siteOf (g k : Nat) (c : Nat × Nat) (s : State) : Site :=
  let tol := max 1 (rd THM_CFG.PAIR_TOL s)
  if g = 16 then
    resolveSite (oscRead c.1 (rd (THM_SHRTRIM_P.N0 k) s) (rd (THM_SHRTRIM_P.SLOPE k) s))
      (oscRead c.2 (rd (THM_SHRTRIM_S.N0 k) s) (rd (THM_SHRTRIM_S.SLOPE k) s)) tol c.1
  else
    resolveSite (oscRead c.1 (rd (THM_TRIM_P.N0 g k) s) (rd (THM_TRIM_P.SLOPE g k) s))
      (oscRead c.2 (rd (THM_TRIM_S.N0 g k) s) (rd (THM_TRIM_S.SLOPE g k) s)) tol c.1

/-- Show a site; a new disagreement posts a sensor event. -/
def showSite (g k : Nat) (x : Site) (s : State) : State :=
  let v := ofSigned 11 (x.temp.getD 0)
  let was := if g = 16 then on (THM_SHR.DISAGREE k) s else on (THM_SITE.DISAGREE g k) s
  let t := if g = 16 then
      putAll [(THM_SHR.TEMP k, v), (THM_SHR.VALID k, b2n x.temp.isSome), (THM_SHR.P_OK k, b2n x.pOk),
        (THM_SHR.S_OK k, b2n x.sOk), (THM_SHR.DISAGREE k, b2n x.dis), (THM_SHR.COUNT k, x.count)] s
    else
      putAll [(THM_SITE.TEMP g k, v), (THM_SITE.VALID g k, b2n x.temp.isSome), (THM_SITE.P_OK g k, b2n x.pOk),
        (THM_SITE.S_OK g k, b2n x.sOk), (THM_SITE.DISAGREE g k, b2n x.dis), (THM_SITE.COUNT g k, x.count)] s
  if x.dis && !was then postEvent 5 g 1 [k] (thmEvent THM_EVENT.SENSOR t) else t

/-! ### Group states (R412 to R414) -/

def groupState (g : Nat) (s : State) : Nat := if g = 16 then rd THM_STATE.SHARED s else rd (HIV_THM_STATE.STATE g) s

def putGroupState (g v : Nat) (s : State) : State :=
  if g = 16 then put THM_STATE.SHARED v s else put (HIV_THM_STATE.STATE g) v s

def levelOf (g : Nat) (s : State) : Nat := if g = 16 then rd THM_STATE.SHR_LEVEL s else rd (HIV_THM_STATE.LEVEL g) s

def putLevel (g v : Nat) (s : State) : State :=
  if g = 16 then put THM_STATE.SHR_LEVEL v s else put (HIV_THM_STATE.LEVEL g) v s

def floorOf (g : Nat) (s : State) : Nat := if g = 16 then rd THM_CFG.SHR_FLOOR s else rd (HIV_THROT_CFG.FLOOR g) s

/-- WARN and THROT in force (R413, R429). -/
def warnOf (g : Nat) (s : State) : Int := Int.ofNat (min 95 (rd (THM_THR.WARN g) s))

def throtOf (g : Nat) (s : State) : Int :=
  let t := Int.ofNat (min 105 (rd (THM_THR.THROT g) s))
  if t ≤ warnOf g s then warnOf g s + 1 else t

/-- The next state of a group: 0 NORMAL, 1 WARNING, 2 THROTTLE, 3 SHUTDOWN. -/
def nextGroup (old : Nat) (t : Option Int) (forced : Bool) (warn throt : Int) : Nat :=
  let at' := fun (c : Int) => match t with | some x => decide (4 * c ≤ x) | none => false
  let above := fun (c : Int) => match t with | some x => decide (4 * c < x) | none => false
  if old = 3 || at' 115 then 3
  else if forced || t.isNone || at' throt || (old = 2 && above (throt - 5)) then 2
  else if at' warn || (1 ≤ old && above (warn - 5)) then 1
  else 0

/-- The rise of a group over the last 10 rounds. -/
def riseOf (h : List Int) : Option Int :=
  match h[0]?, h[10]? with
  | some a, some b => some (a - b)
  | _, _ => none

/-- Evaluate group g from its sites: temperature, rate condition, state and the level at entry (R412 to R416).
(DEDUCED, log entry 79.) -/
def evalGroup (g : Nat) (sites : List Site) (s : State) : State :=
  let ts := sites.filterMap fun x => x.temp
  let temp : Option Int := ts.foldl (fun a t => some (match a with | some b => max b t | none => t)) none
  let th := s.thermal
  let s := if temp.isNone && mfind th.hist g != some [] then postEvent 5 g 2 [] (thmEvent THM_EVENT.SENSOR s) else s
  let h := match temp with
    | some t => (t :: mgetD th.hist g []).take 11
    | none => []
  let was := th.rate.testBit g
  let rate := match riseOf h with
    | some r => decide (8 < r) || (was && decide (4 < r))
    | none => was
  let th := { s.thermal with
    hist := mset th.hist g h,
    rate := if rate then setBit th.rate g else clrBit th.rate g,
    rateRound := if rate then mset th.rateRound g s.rounds else th.rateRound }
  let s := { s with thermal := th }
  let s := if rate && !was then postEvent 4 g 1 [] (thmEvent THM_EVENT.RATE s) else s
  let forced := rate || (decide (g < 16) && on (HIV_THM_STATE.STACK_HIGH g) s)
  let old := groupState g s
  let new := nextGroup old temp forced (warnOf g s) (throtOf g s)
  let s := if g = 16 then s else putAll [(HIV_THM_STATE.RATE g, b2n rate), (HIV_THM_STATE.TEMP g, ofSigned 11 (temp.getD 0)),
    (HIV_THM_STATE.SITES g, ts.length)] s
  let s := if new = old then s
    else
      let t := postEvent 4 g (2 + new) [] (putGroupState g new { s with thermal := { s.thermal with stepAt := mset s.thermal.stepAt g s.rounds } })
      if new = 1 then thmEvent THM_EVENT.WARN t else if new = 2 then thmEvent THM_EVENT.THROTTLE t else t
  let l := levelOf g s
  putLevel g (max (floorOf g s) (if new = 2 && old ≠ 2 then max l 1 else l)) s

/-! ### Supply monitors (R420) -/

/-- The monitor's domain is on. A PHY rail is checked while any hive that it feeds is on. -/
def monitorOn (i : Nat) (s : State) : Bool :=
  if i < 16 then cOn i s else if i < 32 then hOn (i - 16) s else if i < 40 then fabOn s else if i < 44 then true
  else (List.range 4).any fun j => hOn (4 * (i - 44) + j) s

/-- The groups whose level an open emergency on a monitor holds at 7. -/
def emergGroups (i : Nat) : List Nat :=
  if i < 32 then [i % 16] else if i < 40 then [16] else if i < 44 then [] else (List.range 4).map fun j => 4 * (i - 44) + j

/-- An open emergency holds the group's level. -/
def emergHolds (g : Nat) (s : State) : Bool := s.thermal.openMon.any fun x => (emergGroups x.1).contains g

/-- Check one monitor. -/
def checkMonitor (i mv : Nat) (s : State) : State :=
  let ok := monitorOn i s
  let s := putAll [(PWR_MON.MV i, mv), (PWR_MON.VALID i, b2n ok)] s
  let out := ok && (decide (mv < rd (PWR_MON_LIM.UV i) s) || decide (rd (PWR_MON_LIM.OV i) s < mv))
  let th := s.thermal
  let again := th.badMon.testBit i
  let th := { th with badMon := if out then setBit th.badMon i else clrBit th.badMon i }
  if out && again && !(th.openMon.any fun x => x.1 == i) then
    let high := decide (rd (PWR_MON_LIM.OV i) s < mv)
    let s := { s with thermal := { th with openMon := th.openMon ++ [(i, high)] } }
    let s := if on PWR_EMERG.OPEN s then s
      else putAll [(PWR_EMERG.OPEN, 1), (PWR_EMERG.MONITOR, i), (PWR_EMERG.OVER, b2n high)] s
    let s := postEvent 6 i 3 [] (thmEvent THM_EVENT.EMERG (bump PWR_EMERG.COUNT 1 s))
    if 40 ≤ i && i < 44 then startShutdown false false s else s
  else { s with thermal := th }

/-- Check every monitor; the emergency closes after 10 clean rounds. -/
def checkSupplies (mon : List Nat) (s : State) : State :=
  let s := (List.range 48).foldl (fun t i => checkMonitor i (mon.getD i 0 % 2 ^ 14) t) s
  let th := s.thermal
  let clean := if th.badMon = 0 then th.clean + 1 else 0
  let s := { s with thermal := { th with clean := clean } }
  if 10 ≤ clean && !th.openMon.isEmpty then put PWR_EMERG.OPEN 0 { s with thermal := { s.thermal with openMon := [] } } else s

/-! ### Stack temperatures (R279, R411, R412) -/

/-- STACK_LIM in force. -/
def stackLim (s : State) : Int := Int.ofNat (min 105 (rd THM_CFG.STACK_LIM s))

/-- The reading of a hive's stack, if its keeper read one. -/
def stackRound (n : Nat) (r : Option Int) (s : State) : State :=
  match r with
  | none => putAll [(CHC_HIVE_STATUS.REF_2X n, 1), (CHC_HIVE_STATUS.TEMP_VALID n, 0)] s
  | some t =>
    let s := { s with thermal := { s.thermal with stack := mset s.thermal.stack n t } }
    let s := putAll [(CHC_HIVE_STATUS.STACK_TEMP n, ofSigned 8 t), (CHC_HIVE_STATUS.TEMP_VALID n, 1)] s
    let s := if 85 < t then put (CHC_HIVE_STATUS.REF_2X n) 1 s else if t ≤ 80 then put (CHC_HIVE_STATUS.REF_2X n) 0 s else s
    if stackLim s < t then put (HIV_THM_STATE.STACK_HIGH n) 1 s
    else if t ≤ stackLim s - 5 then put (HIV_THM_STATE.STACK_HIGH n) 0 s
    else s

/-- A stack is trained and its keeper reads it. -/
def stackRead (n : Nat) (s : State) : Bool :=
  hOn n s && keeperReady n s && on (PHY_TRAIN_SUMMARY.VALID n) s && rd (PHY_TRAIN_SUMMARY.RESULT n) s == 0

/-! ### The hottest reading and the shutdown record (R412, R424) -/

/-- The group temperatures of this round. -/
def groupTemps (s : State) : List (Nat × Int) :=
  (List.range 17).filterMap fun g =>
    if g = 16 || hOn g s then ((mgetD s.thermal.hist g [])[0]?).map fun t => (g, t) else none

/-- Set BLOCK, HOTTEST and HOT_GROUP and watch for a shutdown record. -/
def blockRound (s : State) : State :=
  let worst := (List.range 17).foldl (fun m g => if g = 16 || hOn g s then max m (groupState g s) else m) 0
  let hot := (groupTemps s).foldl (fun (a : Option (Nat × Int)) x =>
    match a with
    | some y => if y.2 < x.2 then some x else a
    | none => some x) none
  let s := put THM_STATE.BLOCK worst s
  match hot with
  | none => { s with thermal := { s.thermal with prevHot := none } }
  | some (g, t) =>
    let s := putAll [(THM_STATE.HOTTEST, ofSigned 11 t), (THM_STATE.HOT_GROUP, g)] s
    let th := s.thermal
    let rise := riseOf (mgetD th.hist g [])
    let cross := decide (440 ≤ t) && th.prevHot.any fun p => decide (p < 440)
    let soon := rise.any fun d => decide (460 ≤ t + 2 * d)
    let free := th.due.isNone && !on THM_STATE.PENDING s && coreReady 1 s
    { s with thermal := { th with
      prevHot := some t,
      due := if (cross || soon) && free then some ⟨g, t, rise.getD 0⟩ else th.due,
      recClean := if on THM_STATE.PENDING s && decide (t ≤ 400) && !soon then th.recClean + 1 else 0 } }

/-- The sensors, supplies and levels of one round (R411). -/
def thermalRound (obs : RoundObs) (s : State) : State :=
  let s := { s with rounds := s.rounds + 1 }
  let s := (List.range 16).foldl (fun t n =>
    if hOn n t then stackRound n (if stackRead n t then (obs.stack.getD n none) else none) t else t) s
  let s := (List.range 17).foldl (fun t g =>
    if g = 16 || hOn g t then
      let sites := (List.range (if g = 16 then 16 else 8)).map fun k => siteOf g k (obs.osc.getD (8 * g + k) (0, 0)) t
      evalGroup g sites ((sites.zipIdx).foldl (fun u x => showSite g x.2 x.1 u) t)
    else t) s
  let s := checkSupplies obs.mon s
  let s := (List.range 17).foldl (fun t g => if emergHolds g t then putLevel g 7 t else t) s
  let s := blockRound s
  let s := if (List.range 17).any fun g => (g = 16 || hOn g s) && groupState g s == 3 then startShutdown true false s else s
  { s with pcs := mmap (fun _ q => { q with laneCnt := [], rowCe := [] }) s.pcs }

/-- STEP_MS; 0 acts as 1 (R429). -/
def stepMs (s : State) : Nat := max 1 (rd THM_CFG.STEP_MS s)

/-- The step period of a group's level has ended: STEP_MS rounds, or 8 × STEP_MS in WARNING, since its last step or the change of its
state (R416). -/
def stepEnds (g : Nat) (s : State) : Bool :=
  decide ((if groupState g s = 1 then 8 * stepMs s else stepMs s) ≤ s.rounds - mgetD s.thermal.stepAt g 0)

/-- A rate-of-rise condition has held in a group within the last STEP_MS (R416). -/
def rateRecent (g : Nat) (s : State) : Bool :=
  s.thermal.rate.testBit g || (mfind s.thermal.rateRound g).any fun r => decide (s.rounds < r + stepMs s)

/-- The level after a step. -/
def nextLevel (g : Nat) (s : State) : Nat :=
  let l := levelOf g s
  match groupState g s with
  | 0 => max (floorOf g s) (l - 1)
  | 1 => if rateRecent g s then l else max (floorOf g s) (l - 1)
  | 2 => min 7 (l + 1)
  | _ => l

/-- THROTTLE_LEVEL_STEP: a step period of a group's level ends (R416). -/
def levelStep (g : Nat) (s : State) : State :=
  if 16 < g || emergHolds g s || (g < 16 && !hOn g s) || !stepEnds g s then s
  else putLevel g (nextLevel g s) { s with thermal := { s.thermal with stepAt := mset s.thermal.stepAt g s.rounds } }

/-! ### Shutdown by software (R427) -/

/-- SHUTDOWN: a write of 1 to PWR_CTL.SHUTDOWN (R427). -/
def softShutdown (s : State) : State := startShutdown false false s

end Sys2Proof.Machine
end

