-- ==== Sys2Proof/Machine/Phy.lean ====
section
/-! DEFINITION. PHY training and calibration (R295 to R315). -/

namespace Sys2Proof.Machine

open Reg

/-! ### Lanes (R295, R296) -/

/-- Logical lanes of a pseudo-channel. -/
def logLanes (gen : Nat) : Nat := if gen = 3 then 36 else 32

/-- Physical lanes of a pseudo-channel. -/
def physLanes (gen : Nat) : Nat := logLanes gen + 2

/-- The spare of a logical lane's half. -/
def spareOf (gen lane : Nat) : Nat := if lane < logLanes gen / 2 then 0 else 1

/-- LANE and USED of spare s of pseudo-channel p in PHY_REPAIR_c. -/
def repairFld (n c p sp : Nat) : Fld × Fld :=
  match p, sp with
  | 0, 0 => (PHY_REPAIR.LANE_00 n c, PHY_REPAIR.USED_00 n c)
  | 0, _ => (PHY_REPAIR.LANE_01 n c, PHY_REPAIR.USED_01 n c)
  | _, 0 => (PHY_REPAIR.LANE_10 n c, PHY_REPAIR.USED_10 n c)
  | _, _ => (PHY_REPAIR.LANE_11 n c, PHY_REPAIR.USED_11 n c)

def laneKey (n c p lane : Nat) : Nat := pcKey n c p * 64 + lane

def laneAt (n c p lane : Nat) (s : State) : Lane := mgetD s.lanes (laneKey n c p lane) Lane.init

def setLane (n c p lane : Nat) (v : Lane) (s : State) : State := { s with lanes := mset s.lanes (laneKey n c p lane) v }

/-- The physical lane that carries a logical lane. -/
def physLane (n c p lane : Nat) (s : State) : Nat :=
  let g := rd (CHC_HIVE_CFG.GEN n) s
  let sp := spareOf g lane
  let f := repairFld n c p sp
  if on f.2 s && rd f.1 s == lane then logLanes g + sp else lane

/-- The spare of a logical lane's half carries nothing. -/
def spareFree (n c p lane : Nat) (s : State) : Bool :=
  !on (repairFld n c p (spareOf (rd (CHC_HIVE_CFG.GEN n) s) lane)).2 s

/-- Show the lane that PHY_LANE_SEL names (R315): both registers are captured when it is written. -/
def captureLane (n : Nat) (s : State) : State :=
  let l := rd (PHY_LANE_SEL.LANE n) s
  let c := rd (PHY_LANE_SEL.CH n) s
  let p := rd (PHY_LANE_SEL.PC n) s
  let v := if l < physLanes (rd (CHC_HIVE_CFG.GEN n) s) && c < usedCh n s then laneAt n c p l s else Lane.init
  putAll [(PHY_LANE_RX.LIVE n, v.rxLive), (PHY_LANE_RX.EYE n, v.rxEye), (PHY_LANE_RX.TARGET n, v.rxTgt),
    (PHY_LANE_RX.IN_USE n, b2n v.inUse), (PHY_LANE_RX.FAILED n, b2n v.failed),
    (PHY_LANE_RX.RAMPING n, b2n (v.rxLive != v.rxTgt)), (PHY_LANE_TX.LIVE n, v.txLive), (PHY_LANE_TX.EYE n, v.txEye),
    (PHY_LANE_TX.TARGET n, v.txTgt)] s

/-! ### Limits (R303) -/

/-- PHY_LIMIT and PHY_RECAL_CFG as they stand (R315). -/
def phyNow (n : Nat) (s : State) : PhyCfg :=
  ⟨max 1 (rd (PHY_LIMIT.EYE_MIN n) s), min 24 (rd (PHY_LIMIT.DRIFT_MAX n) s), rd (PHY_LIMIT.SKEW_MAX n) s,
    rd (PHY_RECAL_CFG.PERIOD_MS n) s, rd (PHY_RECAL_CFG.TEMP_STEP n) s, rd (PHY_RECAL_CFG.REJ_LIMIT n) s⟩

/-- Training or a recalibration round takes the settings at its start (R303, R315). -/
def takePhy (n : Nat) (s : State) : State := setHive n { hive n s with phy := phyNow n s } s

/-- A lane result with its delays held to the 9 bits of DLY and its eyes to 7 bits (R296, R315). -/
def heldObs (o : LaneObs) : LaneObs :=
  { o with rx1 := min 511 o.rx1, rx2 := min 511 o.rx2, tx1 := min 511 o.tx1, tx2 := min 511 o.tx2,
           rxEye := min 127 o.rxEye, txEye := min 127 o.txEye }

/-- What training measured on a lane; a lane that the observation does not list has centre 256 and an eye of 64. -/
def laneObs (obs : List LaneObs) (c p lane : Nat) : LaneObs :=
  heldObs ((obs.find? fun o => o.ch == c && o.pc == p && o.lane == lane).getD ⟨c, p, lane, 256, 256, 64, 0, 256, 256, 64, 0⟩)

/-- Eyes and delay taps of a training result are acceptable: neither delay line has more than 8 failing taps (R296, R303). -/
def eyeOk (n : Nat) (o : LaneObs) (s : State) : Bool :=
  let lim := (hive n s).phy.eyeMin
  decide (o.rxBad ≤ 8) && decide (o.txBad ≤ 8) && decide (lim ≤ o.rxEye) && decide (lim ≤ o.txEye)

/-- The logical lanes of one half. -/
def halfLanes (gen h : Nat) : List Nat := (List.range (logLanes gen)).filter fun l => spareOf gen l == h

/-- The smallest read and write training results of the acceptable lanes of half h (R303). -/
def halfLow (n gen : Nat) (obs : List LaneObs) (c p h : Nat) (s : State) : Nat × Nat :=
  let half := ((halfLanes gen h).map fun l => laneObs obs c p l).filter fun o => eyeOk n o s
  (half.foldl (fun m x => min m x.rx1) 511, half.foldl (fun m x => min m x.tx1) 511)

/-! ### Initial training (R298 to R302) -/

/-- Top pin rate of a generation, in 0.1 Gb/s (R260). -/
def topRate (gen : Nat) : Nat := if gen = 3 then 160 else if gen = 2 then 128 else 64

/-- The target rate (R299). -/
def targetRate (n gen : Nat) (s : State) : Nat :=
  let named := ((mgetD s.fw.items 1 []).getD n 0).toNat
  if named = 0 then topRate gen else min (topRate gen) (max 32 (named / 4 * 4))

/-- The fields that the stack specifies in ns, with the ns that the reset values assume, and those in clocks (R289). -/
def nsFields (n : Nat) : List (Fld × Nat) :=
  [(CHC_T_0.tRCD n, 16), (CHC_T_0.tRP n, 16), (CHC_T_0.tRAS n, 33), (CHC_T_0.tRC n, 49), (CHC_T_1.tRRD_S n, 2),
    (CHC_T_1.tRRD_L n, 4), (CHC_T_1.tFAW n, 16), (CHC_T_1.tRTP n, 4), (CHC_T_2.tWR n, 16), (CHC_T_3.tWTR_S n, 4),
    (CHC_T_3.tWTR_L n, 7), (CHC_T_3.tMOD n, 16), (CHC_T_3.tXP n, 8), (CHC_T_4.tXS n, 620), (CHC_T_4.tRFCpb n, 410),
    (CHC_T_5.tRREFD n, 8)]

def clockFields (n : Nat) : List (Fld × Nat) :=
  [(CHC_T_2.tRL n, 0x1E), (CHC_T_2.tWL n, 0xC), (CHC_T_1.tCCD_S n, 1), (CHC_T_1.tCCD_L n, 2), (CHC_T_2.tRTW n, 0x15)]

/-- ⌈t × CCLK⌉ with CCLK = rate ÷ 16 (R289). -/
def nsToClk (t rate : Nat) : Nat := (t * rate + 159) / 160

/-- Step 8: write and commit the timing fields from the stack's identity, and CHC_RFM from its mode
registers (R280). (PRESUMED, log entry 43.) -/
def setTiming (n rate : Nat) (timing : List Nat) (rfm : Option (Nat × Nat)) (s : State) : State :=
  let s := match rfm with
    | none => putForce (CHC_RFM.EN n) 0 s
    | some x => putForce (CHC_RFM.EN n) 1 (putForce (CHC_RFM.RAAIMT n) x.1 (putForce (CHC_RFM.RAAMMT n) x.2 s))
  let s := ((nsFields n).zipIdx).foldl (fun t x => putForce x.1.1 (nsToClk (timing.getD x.2 x.1.2) rate) t) s
  ((clockFields n).zipIdx).foldl (fun t x => putForce x.1.1 (timing.getD (16 + x.2) x.1.2) t) s

/-- A progress word (R16). -/
def progressWord (pos total : Nat) : Nat := (if total = 0 then 100 else 100 * pos / total) * 2 ^ 24 + pos % 2 ^ 24

/-- End a hive's training with a failure: its domains go off (R300, R301, R302). -/
def trainFail (n result ch pc gen pos total : Nat) (s : State) : State :=
  let s := putAll [(PHY_TRAIN_SUMMARY.RESULT n, result), (PHY_TRAIN_SUMMARY.FAIL_CH n, ch), (PHY_TRAIN_SUMMARY.FAIL_PC n, pc),
    (PHY_TRAIN_SUMMARY.VALID n, 1), (PHY_TRAIN_PROGRESS.PROGRESS n, progressWord pos total), (GLB_HIVE_CAP.CAP n, 0),
    (GLB_HIVE_CAP.GEN n, gen), (PHY_CFG.RATE n, 0)] s
  postEvent 2 n result [] (hiveOff n s)

/-- The logical lanes of a pseudo-channel that fail a limit in training, the skew of their half's smallest result among them
(R296, R303). -/
def badLanes (n gen : Nat) (obs : List LaneObs) (c p : Nat) (s : State) : List Nat :=
  let low0 := halfLow n gen obs c p 0 s
  let low1 := halfLow n gen obs c p 1 s
  let skew := (hive n s).phy.skewMax
  (List.range (logLanes gen)).filter fun l =>
    let o := laneObs obs c p l
    let low := if spareOf gen l = 0 then low0 else low1
    !eyeOk n o s || decide (low.1 + skew < o.rx1) || decide (low.2 + skew < o.tx1)

/-- The training result of a spare is acceptable beside the lanes of its half that stay (R303). -/
def spareOk (n gen : Nat) (obs : List LaneObs) (c p h : Nat) (bad : List Nat) (s : State) : Bool :=
  let o := laneObs obs c p (logLanes gen + h)
  let near := fun (a b : Nat) => decide (max a b - min a b ≤ (hive n s).phy.skewMax)
  eyeOk n o s && ((halfLanes gen h).filter fun l => !bad.contains l).all fun l =>
    let x := laneObs obs c p l
    near x.rx1 o.rx1 && near x.tx1 o.tx1

/-- A failed lane moves onto the spare of its half, if the spare itself trains (R295, R298 step 7). -/
def canSpare (n gen : Nat) (obs : List LaneObs) (c p : Nat) (bad : List Nat) (s : State) : Bool :=
  [0, 1].all fun h =>
    match bad.filter fun l => spareOf gen l == h with
    | [] => true
    | [_] => spareOk n gen obs c p h bad s
    | _ => false

/-- Set the lanes of a trained pseudo-channel. -/
def setLanes (n gen : Nat) (obs : List LaneObs) (c p : Nat) (bad : List Nat) (s : State) : State :=
  let s := (List.range (physLanes gen)).foldl (fun t l =>
    let o := laneObs obs c p l
    let spare := decide (logLanes gen ≤ l)
    let used := if spare then bad.any fun b => spareOf gen b == l - logLanes gen else !bad.contains l
    setLane n c p l ⟨o.rx1, o.rx1, o.rxEye, o.tx1, o.tx1, o.txEye, used, !spare && bad.contains l, 0⟩ t) s
  bad.foldl (fun t l => putAll [((repairFld n c p (spareOf gen l)).1, l), ((repairFld n c p (spareOf gen l)).2, 1)] t) s

/-- Port k has no staging bank at the gate (R339). -/
def noBank (g : Gate) (k : Nat) : Bool := g.retired.contains k && (mfind g.banks k).isNone

/-- Show the free spare banks and whether a port has none (R348). -/
def showBanks (n : Nat) (s : State) : State :=
  let g := gate n s
  let free := [16, 17].filter fun b => !g.retired.contains b && !(g.banks.any fun x => x.2 == b)
  putAll [(ARB_HIVE_STATUS.SPARES_FREE n, free.length), (ARB_HIVE_STATUS.NO_STAGE n, b2n ((List.range 16).any (noBank g)))] s

/-- Assign staging banks after their test (R339): a port whose bank failed takes the next good spare. -/
def stageTest (n : Nat) (fail : List Nat) (s : State) : State :=
  let g := (List.range 16).foldl (fun (g : Gate) k =>
    if !g.retired.contains k then g
    else
      match [16, 17].find? fun b => !g.retired.contains b && !(g.banks.any fun x => x.2 == b) with
      | some b => { g with banks := mset g.banks k b }
      | none => g) { gate n s with retired := (fail.filter fun b => decide (b < 18)).eraseDups, banks := [] }
  showBanks n (setGate n g s)

/-- Recorded remap entries of a hive are reinstalled with SOURCE 3 and no copy (R368). -/
def reinstallRemaps (n : Nat) (s : State) : State :=
  s.remapLog.foldl (fun t e =>
    match e with
    | [m, c, i, p, sid, bank, row] =>
      if m = n then putAll [(ECC_RMP_ROW.ROW n c i, row), (ECC_RMP_ROW.BANK n c i, bank), (ECC_RMP_ROW.SID n c i, sid),
        (ECC_RMP_ROW.PC n c i, p), (ECC_RMP_ROW.VALID n c i, 1), (ECC_RMP_STAT.SOURCE n c i, 3)] t else t
    | _ => t) s

/-- The pseudo-channels of a hive, channels ascending. -/
def allPcs (n : Nat) (s : State) : List (Nat × Nat) := (List.range (usedCh n s)).flatMap fun c => [(c, 0), (c, 1)]

/-- A keeper narrows the limits of the PHY rail (R420); how far is a free value. (DEDUCED, log entry 55.) -/
def narrowRail (i : Nat) (s : State) : State :=
  let uv := rd (PWR_MON_LIM.UV i) s
  let ov := rd (PWR_MON_LIM.OV i) s
  let lo := min ov (uv + (Config.freeData s.free).toNat % 2048)
  let hi := max lo (ov - (Config.freeData (s.free + 1)).toNat % 2048)
  freshDraw (freshDraw (putAll [(PWR_MON_LIM.UV i, lo), (PWR_MON_LIM.OV i, hi)] s))

/-- The outcome of a cell's self-test during training (R161); a cell that is not listed passes. -/
def cellTestOf (c : Nat) (obs : TrainObs) : CellTest :=
  match obs.cellTests.find? fun x => x.1 == c with
  | some x => x.2
  | none => ⟨[], true, true, true⟩

/-! ### Vref (step 5 of R298) -/

/-- The lane results with the read result of a lane as a sweep at one Vref code found it. -/
def atCode (v : VrefObs) (obs : List LaneObs) (lane : Nat) : LaneObs :=
  let o := laneObs obs v.ch v.pc lane
  match v.lanes.find? fun x => x.1 == lane with
  | some x => { o with rx1 := min 511 x.2.1, rxEye := min 127 x.2.2 }
  | none => o

/-- The narrowest read eye of the logical lanes at a Vref code. -/
def narrowest (gen : Nat) (obs : List LaneObs) (v : VrefObs) : Nat :=
  (List.range (logLanes gen)).foldl (fun m l => min m (atCode v obs l).rxEye) 127

/-- The sweep of a pseudo-channel with the widest narrowest eye; of equal ones that with the lowest code. (DESIGN CHOICE, log
entry 42.) -/
def bestVref (gen : Nat) (obs : TrainObs) (c p : Nat) : Option VrefObs :=
  (obs.vref.filter fun v => v.ch == c && v.pc == p).foldl (fun a v =>
    match a with
    | none => some v
    | some b =>
      let x := narrowest gen obs.lanes v
      let y := narrowest gen obs.lanes b
      if y < x || (x == y && decide (v.code < b.code)) then some v else a) none

/-- The Vref code that training sets. -/
def vrefOf (gen : Nat) (obs : TrainObs) (c p : Nat) : Nat := (bestVref gen obs c p).elim 0 fun v => min 127 v.code

/-- The lane results of training, each read result at the Vref code that is set. -/
def resultsAt (gen : Nat) (obs : TrainObs) (pcs : List (Nat × Nat)) : List LaneObs :=
  pcs.flatMap fun x => (List.range (physLanes gen)).map fun l =>
    match bestVref gen obs x.1 x.2 with
    | some v => atCode v obs.lanes l
    | none => laneObs obs.lanes x.1 x.2 l

/-- Training ends with PASS: the hive is set up and refresh starts. (DESIGN CHOICE, log entry 42.) -/
def trainPass (n : Nat) (obs : TrainObs) (rate : Nat) (s : State) : State :=
  let g := obs.gen
  let pcs := allPcs n s
  let lanes := resultsAt g obs pcs
  let bads := pcs.map fun x => (x, badLanes n g lanes x.1 x.2 s)
  let s := bads.foldl (fun t x => setLanes n g lanes x.1.1 x.1.2 x.2 t) s
  let s := pcs.foldl (fun t x => setPc n x.1 x.2 { Pc.init with st := .active } t) s
  let s := (List.range (usedCh n s)).foldl (fun t c =>
    putAll [(PHY_VREF.VREF_0 n c, vrefOf g obs c 0), (PHY_VREF.VREF_1 n c, vrefOf g obs c 1)] t) s
  let accepted := (s.lanes.filter fun x => x.1 / 4096 == n && x.2.inUse).map fun x => min x.2.rxEye x.2.txEye
  let taps := lanes.foldl (fun k o => k + (if 0 < o.rxBad then 1 else 0) + if 0 < o.txBad then 1 else 0) 0
  let total := 8 * 2 * usedCh n s
  let s := setTiming n rate obs.timing obs.rfm s
  let s := putAll [(PHY_TRAIN_SUMMARY.RESULT n, 0), (PHY_TRAIN_SUMMARY.VALID n, 1),
    (PHY_TRAIN_SUMMARY.SPARE_LANES n, min 127 (bads.foldl (fun k x => k + x.2.length) 0)),
    (PHY_TRAIN_SUMMARY.WORST_EYE n, min 127 (accepted.foldl min 127)), (PHY_TRAIN_SUMMARY.TAPS_SPARED n, min 127 taps),
    (PHY_TRAIN_PROGRESS.PROGRESS n, progressWord total total), (PHY_CFG.RATE n, rate),
    (GLB_HIVE_CAP.CAP n, chanBytes n s * usedCh n s / 2 ^ 20), (GLB_HIVE_CAP.GEN n, g)] s
  let s := narrowRail (44 + n / 4) s
  let s := if cOn n s then (32 :: List.range (usedCh n s)).foldl (fun t c => testOutcome n c (cellTestOf c obs) t) s else s
  showCells n (reinstallRemaps n (stageTest n obs.stageFail s))

/-- RESULT of a failing step (R315). -/
def stepResult (k : Nat) : Nat := if k ≤ 2 then 3 else if k ≤ 7 then k + 1 else 8

/-- The identity read from the stack goes into CHC_HIVE_CFG_n, and the rate to train for into PHY_CFG_n (R298, R299). -/
def trainIdentity (n : Nat) (obs : TrainObs) (s : State) : State :=
  let s := putAll [(CHC_HIVE_CFG.GEN n, obs.gen), (CHC_HIVE_CFG.NSID n, obs.nsid - 1), (CHC_HIVE_CFG.ROWBITS n, obs.rowBits)] s
  put (PHY_CFG.TARGET n) (targetRate n obs.gen s) s

/-- The pseudo-channels with more failing lanes than their spares replace. -/
def lanesLost (n : Nat) (obs : TrainObs) (s : State) : List (Nat × Nat) :=
  let lanes := resultsAt obs.gen obs (allPcs n s)
  (allPcs n s).filter fun x => !canSpare n obs.gen lanes x.1 x.2 (badLanes n obs.gen lanes x.1 x.2 s) s

/-- Training of a hive whose identity is known: the first step that fails, or a pass. -/
def trainSteps (n : Nat) (obs : TrainObs) (s : State) : State :=
  let used := 2 * usedCh n s
  let fails := (allPcs n s).filter fun x => obs.failPcs.contains x
  let lost := lanesLost n obs s
  if 2 ≤ obs.failStep && obs.failStep ≤ 7 && !fails.isEmpty then
    let f := fails.headD (0, 0)
    trainFail n (stepResult obs.failStep) f.1 f.2 obs.gen ((obs.failStep - 1) * used + (used - fails.length)) (8 * used) s
  else if !lost.isEmpty then
    let f := lost.headD (0, 0)
    trainFail n 8 f.1 f.2 obs.gen (6 * used + (used - lost.length)) (8 * used) s
  else trainPass n obs (rd (PHY_CFG.TARGET n) s) s

/-- The generation, the NSID and the row bits read are ones that R298 knows. -/
def knownStack (obs : TrainObs) : Bool :=
  decide (1 ≤ obs.gen ∧ obs.gen ≤ 3 ∧ 1 ≤ obs.nsid ∧ obs.nsid ≤ 4 ∧ 14 ≤ obs.rowBits ∧ obs.rowBits ≤ 18)

/-- The keeper of a hive runs and may start its training. -/
def trainDue (n : Nat) (s : State) : Bool :=
  let ph := rd GLB_STATUS.PHASE s
  decide (n < 16) && hivePresent n s && (ph == 1 || ph == 2) && s.fw.stage == 2 && s.power.todo.isEmpty && s.power.started &&
    fabOn s && keeperReady n s && !on (PHY_TRAIN_SUMMARY.VALID n) s

/-- HIVE_TRAINING of hive n (R298 to R302, R513). -/
def hiveTraining (n : Nat) (obs : TrainObs) (s : State) : State :=
  if !trainDue n s then s
  else
    let s := takePhy n (put GLB_STATUS.PHASE 2 s)
    if !hOn n s then trainFail n 3 0 0 0 0 1 s
    else if !obs.answers then trainFail n 1 0 0 0 0 1 s
    else if !knownStack obs then trainFail n 2 0 0 (obs.gen % 4) 0 1 s
    else trainSteps n obs (trainIdentity n obs s)

/-! ### Recalibration (R303 to R311) -/

/-- The sweep of a pseudo-channel has `left` probe bursts to issue; with none it leaves the maintenance queue (R307). -/
def setProbe (n c p left : Nat) (s : State) : State :=
  let q := pcOf n c p s
  let rest := q.maint.filter fun m => match m with | .probe _ => false | _ => true
  setPc n c p { q with maint := if left = 0 then rest else rest ++ [.probe left] } s

/-- The sweep of a pseudo-channel has bursts left. -/
def probing (n c p : Nat) (s : State) : Bool := (pcOf n c p s).maint.any fun m => match m with | .probe _ => true | _ => false

/-- Start a round over pseudo-channels: those not ACTIVE are skipped (R306, R308). Each of the others queues its probe bursts. -/
def startRecal (n : Nat) (pcs : List (Nat × Nat)) (s : State) : State :=
  let run := pcs.filter fun x => (pcOf n x.1 x.2 s).st == .active
  let r : Recal := ⟨run.map fun x => 2 * x.1 + x.2, 0, pcs.length - run.length, 0, 0⟩
  let t := run.foldl (fun t x => setProbe n x.1 x.2 probeBursts t) (takePhy n s)
  put (PHY_CAL_SUMMARY.VALID n) 0 { t with recal := mset t.recal n r }

/-- The last valid stack reading. -/
def stackTemp (n : Nat) (s : State) : Int := toSigned 8 (rd (CHC_HIVE_STATUS.STACK_TEMP n) s)

/-- The reading taken when an accepted round ends (R306): one in which a pseudo-channel was recalibrated. (DEDUCED, log entry 42.) -/
def noteTemp (n ran : Nat) (s : State) : State :=
  if ran = 0 then s else setHive n { hive n s with recalTemp := some (stackTemp n s) } s

/-- End the round when no pseudo-channel waits (R311). -/
def endRecal (n : Nat) (s : State) : State :=
  match mfind s.recal n with
  | none => s
  | some r =>
    if !r.waiting.isEmpty then s
    else putAll [(PHY_CAL_SUMMARY.PCS_DONE n, r.ran), (PHY_CAL_SUMMARY.PCS_SKIPPED n, r.skipped),
      (PHY_CAL_SUMMARY.MAX_SHIFT n, r.shift), (PHY_CAL_SUMMARY.REJECTS n, min 255 r.rejects), (PHY_CAL_SUMMARY.VALID n, 1)]
      (noteTemp n r.ran { s with recal := mdel s.recal n })

/-- The mean of two centres; a half step goes to the side of the target (R306). -/
def meanCentre (a b tgt : Nat) : Nat :=
  let sum := a + b
  if sum % 2 = 0 then sum / 2 else if 2 * tgt ≤ sum then sum / 2 else sum / 2 + 1

/-- The new centre of one direction if it is accepted apart from skew. -/
def centreOk (r : PhyCfg) (a b eye tgt : Nat) : Option Nat :=
  let m := meanCentre a b tgt
  let near := fun (x y lim : Nat) => decide (x ≤ y + lim) && decide (y ≤ x + lim)
  if r.eyeMin ≤ eye && near a b 2 && near m tgt r.driftMax then some m else none

/-- A skew check of new centres against the smallest and greatest target of the half (R303). -/
def skewOk (n c p lane rx tx : Nat) (r : PhyCfg) (s : State) : Bool :=
  let gen := rd (CHC_HIVE_CFG.GEN n) s
  let others := ((halfLanes gen (spareOf gen lane)).filter fun l => l != lane).map fun l => laneAt n c p (physLane n c p l s) s
  others.all fun o => decide (rx ≤ o.rxTgt + r.skewMax) && decide (o.rxTgt ≤ rx + r.skewMax) &&
    decide (tx ≤ o.txTgt + r.skewMax) && decide (o.txTgt ≤ tx + r.skewMax)

/-- Take one lane's result of a round: accepted whole, or rejected (R304). -/
def recalLane (n : Nat) (s : State) (o : LaneObs) : State :=
  match mfind s.recal n with
  | none => s
  | some r =>
    let o := heldObs o
    let lim := (hive n s).phy
    let v := laneAt n o.ch o.pc o.lane s
    if !v.inUse then s
    else
      let gen := rd (CHC_HIVE_CFG.GEN n) s
      let logical := if o.lane < logLanes gen then o.lane
        else rd (repairFld n o.ch o.pc (o.lane - logLanes gen)).1 s
      let dist := fun (a b : Nat) => max a b - min a b
      match centreOk lim o.rx1 o.rx2 o.rxEye v.rxTgt, centreOk lim o.tx1 o.tx2 o.txEye v.txTgt with
      | some rx, some tx =>
        if skewOk n o.ch o.pc logical rx tx lim s then
          let sh := max (dist rx v.rxTgt) (dist tx v.txTgt)
          let v := { v with rxTgt := rx, txTgt := tx, rxEye := o.rxEye, txEye := o.txEye, rejects := 0 }
          setLane n o.ch o.pc o.lane v { s with recal := mset s.recal n { r with shift := max r.shift sh } }
        else bump (PHY_CAL_STAT.CAL_REJECT n) 1 (setLane n o.ch o.pc o.lane { v with rejects := v.rejects + 1 }
          { s with recal := mset s.recal n { r with rejects := r.rejects + 1 } })
      | _, _ => bump (PHY_CAL_STAT.CAL_REJECT n) 1 (setLane n o.ch o.pc o.lane { v with rejects := v.rejects + 1 }
          { s with recal := mset s.recal n { r with rejects := r.rejects + 1 } })

/-- The sweeps of one pseudo-channel end: all of its probe bursts have issued (R307). -/
def recalPc (n : Nat) (obs : List LaneObs) (s : State) (k : Nat) : State :=
  let mine := obs.filter fun o => o.ch == k / 2 && o.pc == k % 2
  match mfind s.recal n with
  | none => s
  | some r =>
    if mine.isEmpty || !r.waiting.contains k || (pcOf n (k / 2) (k % 2) s).st != .active || probing n (k / 2) (k % 2) s then s
    else mine.foldl (recalLane n) { s with recal := mset s.recal n { r with waiting := r.waiting.erase k, ran := r.ran + 1 } }

/-- A trigger of R306 holds: the period, whose end the command tells, or the temperature against the last accepted round's. -/
def recalDue (n : Nat) (s : State) : Bool :=
  let cfg := (hive n s).phy
  (on (PHY_CTRL.RECAL_EN n) s && cfg.period != 0) ||
    (cfg.tempStep != 0 && on (CHC_HIVE_STATUS.TEMP_VALID n) s &&
      (hive n s).recalTemp.any fun t => decide (cfg.tempStep ≤ (stackTemp n s - t).natAbs))

/-- RECAL_ROUND: a round starts if one is due and none runs, and the sweeps of the listed pseudo-channels end (R306 to R311). -/
def recalRound (n : Nat) (obs : List LaneObs) (s : State) : State :=
  if !hOn n s || !keeperReady n s || rd (PHY_TRAIN_SUMMARY.RESULT n) s ≠ 0 || !on (PHY_TRAIN_SUMMARY.VALID n) s then s
  else
    let single := mgetD s.recalNext n []
    let s := if (mfind s.recal n).isSome then s
      else if !single.isEmpty then
        startRecal n (single.map fun k => (k / 2, k % 2)) { s with recalNext := mdel s.recalNext n }
      else if recalDue n s then startRecal n (allPcs n s) s
      else s
    let ks := (mfind s.recal n).elim [] fun r => r.waiting
    endRecal n (ks.foldl (recalPc n obs) s)

/-- RECAL_NOW: software starts a round unless one runs (R306, R315). -/
def recalNow (n : Nat) (s : State) : State :=
  if !hOn n s || !keeperReady n s || (mfind s.recal n).isSome || rd (PHY_TRAIN_SUMMARY.RESULT n) s ≠ 0 ||
      !on (PHY_TRAIN_SUMMARY.VALID n) s then s
  else endRecal n (startRecal n (allPcs n s) s)

/-- RECAL_DEADLINE: the part of a pseudo-channel is abandoned (R309). -/
def recalDeadline (n c p : Nat) (s : State) : State :=
  match mfind s.recal n with
  | none => s
  | some r =>
    if r.waiting.contains (2 * c + p) then
      let s := setProbe n c p 0 s
      endRecal n (bump (PHY_CAL_STAT.ABANDONED n) 1
        { s with recal := mset s.recal n { r with waiting := r.waiting.erase (2 * c + p), skipped := r.skipped + 1 } })
    else s

/-- A restart or replacement of the keeper abandons the round without counting (R310). -/
def dropRecal (n : Nat) (s : State) : State :=
  match mfind s.recal n with
  | none => s
  | some r => r.waiting.foldl (fun t k => setProbe n (k / 2) (k % 2) 0 t) { s with recal := mdel s.recal n }

/-- Clear erasure slot i if it holds the lane. -/
def eraseSlotClear (n c p i lane : Nat) (t : State) : State :=
  let f := eraseFld n c p i
  if on f.2 t && rd f.1 t == lane then put f.2 0 t else t

/-- The training result of a spare is acceptable beside the targets of the lanes of its half that stay (R303, R305). -/
def moveOk (n c p lane : Nat) (o : LaneObs) (s : State) : Bool :=
  eyeOk n o s && skewOk n c p lane o.rx1 o.tx1 (hive n s).phy s

/-- LANE_MOVE of a logical lane that was rejected in REJ_LIMIT consecutive rounds (R305): its channel is quiesced, the spare of its
half is trained, and its erasure is cleared (R353). A spare whose result breaks a limit takes nothing. (DESIGN CHOICE, log entry
42.) -/
def laneMove (n c p lane : Nat) (obs : LaneObs) (s : State) : State :=
  let gen := rd (CHC_HIVE_CFG.GEN n) s
  let ph := physLane n c p lane s
  let v := laneAt n c p ph s
  let lim := (hive n s).phy.rejLimit
  let o := heldObs obs
  if !pcUsed n c p s || !keeperReady n s || logLanes gen ≤ lane || lim = 0 || v.rejects < lim then s
  else if spareFree n c p lane s then
    let s := quiesce 0 n [c] s
    let sp := logLanes gen + spareOf gen lane
    if moveOk n c p lane o s then
      let s := setLane n c p ph { v with inUse := false, failed := true } s
      let s := setLane n c p sp ⟨o.rx1, o.rx1, o.rxEye, o.tx1, o.tx1, o.txEye, true, false, 0⟩ s
      let s := putAll [((repairFld n c p (spareOf gen lane)).1, lane), ((repairFld n c p (spareOf gen lane)).2, 1),
        (PHY_TRAIN_SUMMARY.SPARE_LANES n, min 127 (rd (PHY_TRAIN_SUMMARY.SPARE_LANES n) s + 1))] s
      (List.range 4).foldl (fun t i => eraseSlotClear n c p i lane t) s
    else postEvent 3 n 1 [c, p, lane] (setLane n c p ph { v with rejects := 0 } s)
  else postEvent 3 n 1 [c, p, lane] (setLane n c p ph { v with rejects := 0 } s)

/-! ### Applying new values (R312) -/

/-- One step towards a target. -/
def stepTo (live tgt : Nat) : Nat := if live < tgt then live + 1 else if tgt < live then live - 1 else live

/-- DLY_RAMP_STEP: each lane of a pseudo-channel moves one fine step, except in self-refresh (R312, R313). -/
def dlyRamp (n c p : Nat) (s : State) : State :=
  if !pcUsed n c p s || (pcOf n c p s).st == .selfRefresh || (pcOf n c p s).st == .off then s
  else { s with lanes := mmap (fun k v =>
    if k / 64 = pcKey n c p then { v with rxLive := stepTo v.rxLive v.rxTgt, txLive := stepTo v.txLive v.txTgt } else v) s.lanes }

end Sys2Proof.Machine
end

