-- ==== Sys2Proof/Machine/Gate.lean ====
section
/-! DEFINITION. The hive gates (R324 to R345): eligibility, ranks, the lottery, back-off, preemption, curtains, guarantees. -/

namespace Sys2Proof.Machine

open Reg

/-- The urgency level that CP_k_URG samples, two bits a port (R57). -/
def urgOf (urg : BitVec 32) (m : Nat) : Nat := if m < 16 then bits urg.toNat (2 * m) 2 else 0

/-! ### Eligibility (R325) -/

/-- Two parts share a block; the beats of a push are blocks of its own address space (R56). -/
def sharesBlock (a b : Part) : Bool :=
  (a.op == .push) == (b.op == .push) && a.beats.any fun x => b.beats.any fun y => x.c == y.c && x.p == y.p && sameBlk x.off y.off

/-- A part touches a pseudo-channel. -/
def touches (a : Part) (c p : Nat) : Bool := a.beats.any fun x => x.c == c && x.p == p

/-- The pseudo-channels that a part targets. -/
def targets (a : Part) : List (Nat × Nat) := (a.beats.map fun x => (x.c, x.p)).eraseDups

def beatsTo (a : Part) (c p : Nat) : Nat := (a.beats.filter fun x => x.c == c && x.p == p).length

/-- Condition 1 of R325: every target queue has room, counting grants already chosen (R269, R270). -/
def hasRoom (n : Nat) (taken : List Part) (a : Part) (s : State) : Bool :=
  (targets a).all fun t =>
    let q := pcOf n t.1 t.2 s
    let soon := fun op => (taken.filter fun x => x.op == op).foldl (fun k x => k + beatsTo x t.1 t.2) 0
    if a.op == .rd then decide (q.rdq.length + soon .rd + beatsTo a t.1 t.2 ≤ 64)
    else decide (q.wrq.length + soon .wr + beatsTo a t.1 t.2 ≤ 32)

/-- Response data flits that wait in an egress buffer. -/
def egressFlits (p : Port) : Nat := (p.egress.filter fun e => match e with | .data _ _ _ => true | _ => false).length

/-- Condition 2 of R325: the egress buffer of the port has room for a read's data (R54). HP sends its completions at once, and an
access of a unit needs no room there. -/
def egressRoom (taken : List Part) (a : Part) (s : State) : Bool :=
  if a.op != .rd || !a.own || a.m == 16 then true
  else
    let owed := (taken.filter fun x => x.op == .rd && x.own && x.m == a.m).foldl (fun k x => k + flitsOf x.beats.length) 0
    let wait := if a.m = 17 then s.peer.egress.foldl (fun k x => k + (x.data.length + 255) / 256) 0 else egressFlits (port a.m s)
    decide (wait + owed + flitsOf a.beats.length ≤ s.env.egressCap)

/-- Condition 3 of R325: no older part of the same requester waits here for one of the same blocks. -/
def olderClear (a : Part) (l : List Part) : Bool :=
  (l.takeWhile fun x => x.uid != a.uid).all fun x => !(x.m == a.m && sharesBlock x a)

/-- Condition 4 of R325: no curtain lock, no block of a part that awaits its regrant. -/
def unlocked (g : Gate) (a : Part) : Bool :=
  (match g.lock with | none => true | some l => l.pcs.all fun t => !touches a t.1 t.2) &&
    g.parts.all fun x => x.uid == a.uid || !x.regrant || !sharesBlock x a

/-- Condition 5 of R325: every target pseudo-channel is ACTIVE. -/
def allActive (n : Nat) (a : Part) (s : State) : Bool := (targets a).all fun t => (pcOf n t.1 t.2 s).st == .active

/-- The parts of a curtain that stands complete in a staging bank, as reads or as writes (R335). -/
def stagedBeats (g : Gate) (a : Part) (wr : Bool) : List PBeat :=
  match mfind g.stage a.m with
  | some x => if x.uid = a.curtUid then (x.parts.filter fun y => (y.op == .wr) == wr).flatMap fun y => y.beats else []
  | none => []

/-- Room for a part: for all beats of a curtain at once, its reads and writes each in their own queues (R335). -/
def roomFor (n : Nat) (g : Gate) (taken : List Part) (a : Part) (s : State) : Bool :=
  if a.curtUid = 0 then hasRoom n taken a s
  else
    hasRoom n taken { a with op := .rd, beats := stagedBeats g a false } s &&
      hasRoom n taken { a with op := .wr, beats := stagedBeats g a true } s

/-- Every condition but room in the channel queues. -/
def eligibleButRoom (n : Nat) (g : Gate) (taken : List Part) (a : Part) (s : State) : Bool :=
  olderClear a g.parts && unlocked g a && (a.curtUid == 0 || g.lock.isNone && !(taken.any fun x => x.curtUid != 0)) &&
    (if a.op == .push then true else egressRoom taken a s && allActive n a s)

def eligible (n : Nat) (g : Gate) (taken : List Part) (a : Part) (s : State) : Bool :=
  eligibleButRoom n g taken a s && (a.op == .push || roomFor n g taken a s)

/-! ### Ranks and the lottery (R327, R328) -/

/-- The rank of an eligible part. -/
def rankOf (g : Gate) (urg : BitVec 32) (a : Part) : Nat :=
  if a.regrant || (a.own && decide (a.m < 16) && urgOf urg a.m == 3) then 3
  else if 0 < mgetD g.guar a.m 0 then 2
  else if a.excess then 0 else 1

/-- Effective tickets (R322, R328). -/
def tickets (a : Part) (s : State) : Nat :=
  let m := if a.level = 0 then 1 else if a.level = 1 then 2 else 4
  max 1 (rd (ARB_TKT.TICKETS a.m) s) * m

/-- The first candidate at which the running sum of tickets exceeds x. -/
def lotteryPick (s : State) (x : Nat) : Nat → List Part → Option Part
  | _, [] => none
  | sum, a :: l => if x < sum + tickets a s then some a else lotteryPick s x (sum + tickets a s) l

/-- One draw among the requesters that hold an eligible part of the highest rank: each offers its oldest such part, in
ascending m. A single candidate does not step the LFSR. -/
def drawOne (g : Gate) (urg : BitVec 32) (cands : List Part) (s : State) : Option Part × BitVec 32 × Bool :=
  let top := cands.foldl (fun k a => max k (rankOf g urg a)) 0
  let best := cands.filter fun a => rankOf g urg a == top
  let offers := (List.range 18).filterMap fun m => best.find? fun a => a.m == m
  match offers with
  | [] => (none, g.lfsr, false)
  | [a] => (some a, g.lfsr, false)
  | _ =>
    let x := lfsrNext g.lfsr
    let sum := offers.foldl (fun k a => k + tickets a s) 0
    (lotteryPick s ((x.toNat % 65536 * sum) / 65536) 0 offers, x, true)

/-- A part fits in what is left of an FCLK (R324). -/
def fits (used : Nat) (first : Bool) (a : Part) : Bool :=
  if 32 < a.beats.length then first else decide (used + a.beats.length ≤ 32)

/-- B_n in units of 1/90 GB/s (R340): used channels, 64 lanes, the pin rate, and 8/9 where check bytes are inline. -/
def rawOf (n : Nat) (s : State) : Nat := usedCh n s * 8 * rd (PHY_CFG.RATE n) s * (if inlineCheck n s then 8 else 9)

/-- The hives of the valid sets. -/
def validHives (s : State) : List Nat := ((setsInUse s).flatMap fun i => setHives i s).eraseDups

/-- B_T in the same units. -/
def rawTotal (s : State) : Nat := (validHives s).foldl (fun k n => k + rawOf n s) 0

/-- The charge of a part in bytes (R320). -/
def partCharge (a : Part) (s : State) : Nat := a.beats.length * 64 + rd QOS_CFG.OVERHEAD s

/-- Write beats of a part. -/
def writeCount (g : Gate) (a : Part) : Nat :=
  if a.curtUid ≠ 0 then (stagedBeats g a true).length else if a.op == .wr then a.beats.length else 0

/-- Words 0 to 6 of the sampling record of a part at its grant: DESC_INDEX is that of the job whose access it is (R493). -/
def sampleWords (a : Part) (r : Req) (s : State) : List Nat :=
  let ctx := r.ctx
  let b := a.beats.headD ⟨0, 0, 0, 0⟩
  let index := ((reqJob r).bind fun j => (mfind s.jobs j).map fun v => v.index).getD 0x1FFFF
  [ctx + r.cls * 2 ^ 16 + r.m * 2 ^ 21 + b2n (a.op != .rd) * 2 ^ 27 + r.level * 2 ^ 28 + 2 ^ 31,
    index + (a.beats.length - 1) * 2 ^ 17 + b.c * 2 ^ 23 + b.p * 2 ^ 28, r.addr % 2 ^ 32, r.addr / 2 ^ 32 % 2 ^ 32, 0, 0,
    a.losses * 2 ^ 24]

/-- An eligible item passes the hive's sampler (R492): the countdown falls, and the item that brings it to zero is taken. -/
def sampleItem (n kind src cls uid since : Nat) (words : List Nat) (s : State) : State :=
  let q := mgetD s.samplers n Sampler.init
  if !on (PMC_SMP_CFG.EN n) s || rd (PMC_SMP_CFG.KIND n) s ≠ kind || (on (PMC_SMP_FILT.SRC_EN n) s && rd (PMC_SMP_FILT.SRC n) s ≠ src) ||
      (on (PMC_SMP_FILT.CLASS_EN n) s && rd (PMC_SMP_FILT.CLASS n) s ≠ cls) then s
  else if 1 < q.count then { s with samplers := mset s.samplers n { q with count := q.count - 1 } }
  else
    let q := { q with
      count := max 1 (rd (PMC_SMP_CFG.N n) s), seq := (q.seq + 1) % 2 ^ 32,
      items := q.items ++ [⟨uid, words ++ [q.seq], since, false⟩] }
    { s with samplers := mset s.samplers n q }

/-- A part at a grant: a first grant is an eligible item of KIND 0; a regrant marks its record (R492, R493). -/
def sampleGrant (n : Nat) (a : Part) (s : State) : State :=
  match mfind s.live a.uid with
  | none => s
  | some l =>
    if a.wasRevoked then
      let mark := fun (x : Sample) =>
        if x.uid == a.uid && !x.done && !(x.words.getD 0 0).testBit 26 then
          { x with words := x.words.mapIdx fun j w =>
              if j = 0 then setBit w 30 else if j = 6 then bits w 0 24 + a.losses * 2 ^ 24 + bits w 28 4 * 2 ^ 28 else w }
        else x
      { s with samplers := mmap (fun i q => if i = n then { q with items := q.items.map mark } else q) s.samplers }
    else sampleItem n 0 l.req.m l.req.cls a.uid l.req.since (sampleWords a l.req s) s

/-- The real parts behind a part of the lottery: itself, or the parts of the curtain that it stands for. -/
def realParts (g : Gate) (a : Part) : List Part :=
  if a.curtUid = 0 then [a]
  else match mfind g.stage a.m with
    | some x => if x.uid = a.curtUid then x.parts else []
    | none => []

/-- The units of 1/(512·B_T) byte in a byte (R341). -/
def guarUnit (s : State) : Nat := 512 * rawTotal s

/-- Grant a part: it leaves the queue for the chosen list; L is reset, the guarantee count and the miss window are charged
(R330, R341, R344), a running back-off goes on. -/
def grantPart (n : Nat) (urg : BitVec 32) (a : Part) (s : State) : State :=
  let g := gate n s
  let r := rankOf g urg a
  let w := writeCount g a
  let real := realParts g a
  let g := { g with
    parts := g.parts.filter fun x => x.uid != a.uid,
    chosen := g.chosen ++ [⟨a, r, r == 3 && a.level == 3⟩],
    loss := mset g.loss a.m 0,
    guar := mset g.guar a.m (mgetD g.guar a.m 0 - Int.ofNat (guarUnit s * partCharge a s)),
    winBytes := mset g.winBytes a.m (mgetD g.winBytes a.m 0 + partCharge a s) }
  let cls := (mfind s.live a.uid).map fun l => l.req.cls
  let t := emit 0x101 a.beats.length (some n) (some a.m) cls none (emit 0x100 1 (some n) (some a.m) cls none (setGate n g s))
  let t := if w = 0 then t else { t with bwBytes := mset t.bwBytes (2 * a.m + 1) (mgetD t.bwBytes (2 * a.m + 1) 0 + 64 * w) }
  real.foldl (fun u x => sampleGrant n x u) t

/-- The draws of one FCLK, at most eight grants (R324, R327). `old` are the grants that the previous draw chose. -/
def drawLoop (n : Nat) (urg : BitVec 32) (old : List Part) : Nat → List Part → State → List Part × State
  | 0, won, s => (won, s)
  | k + 1, won, s =>
    let g := gate n s
    let used := won.foldl (fun u a => u + a.beats.length) 0
    if won.any fun a => decide (32 < a.beats.length) then (won, s)
    else
      let cands := g.parts.filter fun a => eligible n g (old ++ won) a s && fits used won.isEmpty a
      let d := drawOne g urg cands s
      let s1 := if d.2.2 then emit 0x102 1 (some n) none none none (setGate n { g with lfsr := d.2.1 } s) else s
      match d.1 with
      | none => (won, s1)
      | some a => drawLoop n urg old k (won ++ [a]) (grantPart n urg a s1)

/-! ### Back-off (R330, R331) -/

/-- The back-off count of the L-th consecutive loss. -/
def backoffCount (l : Nat) (s : State) : Nat :=
  let mn := max 1 (rd ARB_BACKOFF.MIN s)
  min (mn * 2 ^ (min (l - 1) 16)) (max mn (rd ARB_BACKOFF.CAP s))

/-- A requester has lost: the count rises, a back-off starts and a compute port is told (R330). -/
def loseDraw (n m : Nat) (losers : List Part) (s : State) : State :=
  let g := gate n s
  if (mfind g.backoff m).isSome then s
  else
    let l := mgetD g.loss m 0 + 1
    let b := backoffCount l s
    let g := { g with
      loss := mset g.loss m l, backoff := mset g.backoff m b,
      parts := g.parts.map fun a => if a.m == m then { a with losses := min 15 (a.losses + 1) } else a }
    let t := emit 0x103 1 (some n) (some m) none none (setGate n g s)
    match losers.find? fun a => a.m == m && a.own && decide (m < 16) with
    | some a =>
      match mfind t.live a.uid with
      | some lv => egressPut m (.hdr rtBackoff lv.req.tag 0 n b false) t
      | none => t
    | none => t

/-- Account the losses of an FCLK in which the gate reached a limit (R330). -/
def lossStep (n : Nat) (old won : List Part) (s : State) : State :=
  let g := gate n s
  let left := g.parts.filter fun a => eligible n g old a s
  let used := won.foldl (fun u a => u + a.beats.length) 0
  let limit := decide (8 ≤ won.length) || left.any fun a => !fits used won.isEmpty a
  if !limit then s
  else
    let ms := (List.range 18).filter fun m => left.any (fun a => a.m == m) && !won.any fun a => a.m == m
    ms.foldl (fun t m => loseDraw n m (left.filter fun a => a.m == m) t) s

/-- BACKOFF_EXPIRY: the back-off of requester m at hive n ends. (DESIGN CHOICE, log entry 4.) -/
def backoffExpiry (n m : Nat) (s : State) : State :=
  let g := gate n s
  if (mfind g.backoff m).isNone then s else setGate n { g with backoff := mdel g.backoff m } s

/-! ### Preemption (R332, R333) -/

/-- Remove the entries of a request from the queues of a hive. -/
def pullEntries (n uid : Nat) (s : State) : State :=
  let pull := fun k (q : Pc) =>
    if k / 64 = n then
      { q with
        rdq := q.rdq.filter fun e => e.uid != uid,
        wrq := q.wrq.filter fun e => e.uid != uid,
        stage := q.stage.filter fun e => e.uid != uid,
        retries := q.retries.filter fun r => r.src == 2 || r.ent.uid != uid }
    else q
  { s with pcs := mmap pull s.pcs }

/-- Put a granted part back into its gate queue for a regrant. -/
def rejoin (a : Part) (s : State) : State :=
  let t := pullEntries a.n a.uid s
  let g := gate a.n t
  setGate a.n { g with
    flying := g.flying.filter fun x => x.part.uid != a.uid,
    parts := { a with regrant := true, wasRevoked := true } :: g.parts } t

/-- The part is neither queued nor chosen at its gate, so it has been transferred. -/
def transferred (a : Part) (s : State) : Bool :=
  let g := gate a.n s
  !(g.parts.any fun x => x.uid == a.uid) && !(g.chosen.any fun x => x.part.uid == a.uid)

/-- Revoke a victim (R332) with the effect of R333 on its request. -/
def revoke (a : Part) (s : State) : State :=
  let t := emit 0x104 1 (some a.n) (some a.m) none none (bump (ARB_HIVE_STATUS.PREEMPTS a.n) 1 s)
  match mfind t.live a.uid with
  | none => rejoin a t
  | some l =>
    if a.op == .wr then
      let unmerged := fun (b : PBeat) => let q := pcOf a.n b.c b.p t; (q.wrq ++ q.stage).any fun e => e.uid == a.uid && e.mask.isSome
      let back := if l.answered then l.left else l.left + (a.beats.filter fun b => !unmerged b).length
      rejoin a { t with live := mset t.live a.uid { l with left := back } }
    else if l.sent = 0 || !a.own then
      let got := mkeep l.got fun i => !a.beats.any fun b => b.i == i
      rejoin a { t with live := mset t.live a.uid { l with got := got, sent := 0 } }
    else
      let again := l.parts.filter fun x => transferred x t
      let got := mkeep l.got fun i => !again.any fun x => x.beats.any fun b => b.i == i
      let t := { t with live := mset t.live a.uid { l with got := got, sent := 0 } }
      let t := match l.req.src with
        | .cp k => egressPut k (.hdr rtRestart l.req.tag 0 0 0 false) t
        | _ => t
      again.foldl (fun u x => rejoin x u) t

/-- A grant that a rank-3 part may revoke to gain room in one of its target queues (R332). -/
def victimFor (n : Nat) (a : Part) (x : Grant) (s : State) : Bool :=
  decide (x.rank ≤ 2) && x.part.curtUid == 0 && !x.part.wasRevoked && (a.curtUid != 0 || x.part.op == a.op) &&
    (targets a).any fun t =>
      let q := pcOf n t.1 t.2 s
      q.rdq.any (fun e => e.uid == x.part.uid) || q.wrq.any fun e => e.uid == x.part.uid

/-- Revoke the most recently granted victims until the part has room. -/
def makeRoom (n : Nat) (taken : List Part) (a : Part) : Nat → State → State
  | 0, s => s
  | k + 1, s =>
    if roomFor n (gate n s) taken a s then s
    else
      match ((gate n s).flying.filter fun x => victimFor n a x s).getLast? with
      | none => s
      | some v => makeRoom n taken a k (revoke v.part s)

/-- Every rank-3 part that lacks only room revokes victims (R332). -/
def preempt (n : Nat) (urg : BitVec 32) (taken : List Part) (s : State) : State :=
  let g := gate n s
  let need := g.parts.filter fun a =>
    a.op != .push && rankOf g urg a == 3 && eligibleButRoom n g taken a s && !roomFor n g taken a s
  need.foldl (fun t a => makeRoom n taken a 96 t) s

/-! ### Transfer into the channel queues (R326) -/

/-- The bytes that a request writes at one of its beats. -/
def writeData (r : Req) (i : Nat) : Beat := r.data.getD i 0

/-- A write's beat is a whole block (R359). -/
def wholeBeat (r : Req) : Bool := r.byteEn == 2 ^ 64 - 1

/-- Move one beat of a granted part into its queue: a read entry, or the entry of a write of a whole block or of part of it (R359). A
write whose block the write queue cannot take stays in the gate's staging (R276, R356). -/
def queueBeat (n uid : Nat) (isWrite urgent : Bool) (r : Req) (b : PBeat) (s : State) : State :=
  let q := pcOf n b.c b.p s
  let e := QEnt.plain s.nextUid uid b.i n b.off urgent none
  let t := { s with nextUid := s.nextUid + 1 }
  if !isWrite then
    let t := if readHeld q e.seq e.off then emit 0x208 1 (some n) none none (some b.c) t else t
    setPc n b.c b.p { q with rdq := q.rdq ++ [e] } t
  else
    let e := { e with data := some (writeData r b.i), mask := if wholeBeat r then none else some r.byteEn }
    if blockBusy q b.off || q.stage.any (fun x => sameBlk x.off b.off) then setPc n b.c b.p { q with stage := q.stage ++ [e] } t
    else setPc n b.c b.p { q with wrq := q.wrq ++ [e] } t

/-- Move one beat; a whole write is visible from then on (R48). -/
def moveBeat (n uid : Nat) (isWrite urgent : Bool) (r : Req) (b : PBeat) (s : State) : State :=
  let t := queueBeat n uid isWrite urgent r b s
  if isWrite && wholeBeat r then ackWrite n uid true t else t

/-! ### Curtains at the gate (R335, R336) -/

/-- Begin the locked sequence of a granted curtain: reads first, then writes, each in curtain order (R336).
(DEDUCED, log entry 49.) -/
def beginLock (n : Nat) (a : Part) (s : State) : State :=
  let g := gate n s
  match mfind g.stage a.m with
  | none => s
  | some st =>
    let mv := fun (w : Bool) => (st.parts.filter fun x => (x.op == .wr) == w).flatMap fun (x : Part) => x.beats.map fun (b : PBeat) => ((x.uid, w, b) : Nat × Bool × PBeat)
    setGate n { g with
      stage := mdel g.stage a.m,
      lock := some ⟨a.m, st.uid, mv false ++ mv true, targets a, []⟩,
      flying := g.flying ++ st.parts.map fun x => ⟨{ x with curtUid := st.uid }, 1, false⟩ } s

/-- The last beat of a locked sequence has moved: its whole writes are acknowledged and the lock is released (R336). -/
def endLock (n : Nat) (l : Lock) (s : State) : State :=
  let t := setGate n { gate n s with lock := none } s
  emit 0x105 1 (some n) (some l.k) none none (l.acks.foldl (fun u x => ackWrite n x true u) t)

/-- Move one beat of the locked sequence into its queue; its write beats are acknowledged together at the end. -/
def lockBeat (n : Nat) (s : State) : State :=
  match (gate n s).lock with
  | none => s
  | some l =>
    match l.moves with
    | [] => endLock n l s
    | (u, w, b) :: ms =>
      match mfind s.live u with
      | none => setGate n { gate n s with lock := some { l with moves := ms } } s
      | some lv =>
        let whole := w && wholeBeat lv.req
        let l := { l with moves := ms, acks := if whole then l.acks ++ [u] else l.acks }
        let t := queueBeat n u w false lv.req b (setGate n { gate n s with lock := some l } s)
        if ms.isEmpty then endLock n l t else t

/-- CURTAIN_COMMIT: the locked sequence of the hive runs to its end, its writes commit and the lock is released (R336). -/
def curtainCommit (n : Nat) (s : State) : State :=
  match (gate n s).lock with
  | none => s
  | some l => (List.range (l.moves.length + 1)).foldl (fun u _ => lockBeat n u) s

/-- The staging bank of a port is retired: the next spare serves the port's next curtain (R339). -/
def retireBank (n k : Nat) (s : State) : State :=
  let g := gate n s
  let g := { g with retired := ((mfind g.banks k).getD k) :: g.retired, banks := mdel g.banks k }
  let g := match [16, 17].find? fun b => !g.retired.contains b && !(g.banks.any fun x => x.2 == b) with
    | some b => { g with banks := mset g.banks k b }
    | none => g
  showBanks n (setGate n g s)

/-- A parity error in the staging bank of a port: its curtain is torn and the bank retired (R337, R339). -/
def stageParity (n k : Nat) (s : State) : State :=
  match mfind (gate n s).stage k with
  | none => s
  | some st => tearCurtain k st.uid false (retireBank n k s)

/-- A parity error in a staging bank, if one strikes. -/
def stageParityIf (parityError : Bool) (n k : Nat) (s : State) : State := if parityError then stageParity n k s else s

/-- CURTAIN_COMPLETE: the CLOSE or SOLO part of a staged curtain arrives at its gate, and the curtain enters the lottery as
one part (R335). -/
def curtainComplete (n k : Nat) (s : State) : State :=
  let g := gate n s
  match mfind g.stage k with
  | none => s
  | some st =>
    let last := st.parts.any fun a => (mfind s.live a.uid).any fun l => l.req.curt == 3 || l.req.curt == 4
    if st.complete || !last then s
    else
      let a : Part := ⟨st.uid, n, k, true, .wr, st.parts.flatMap fun x => x.beats,
        (st.parts.map fun x => x.level).foldl max 0, st.parts.any fun x => x.excess, false, false, 0, none, st.uid⟩
      setGate n { g with stage := mset g.stage k { st with complete := true }, parts := g.parts ++ [a] } s

/-- CURTAIN_WATCHDOG_EXPIRY: the watchdog of the oldest curtain of the port that still gathers expires; it is torn (R337, R338). -/
def curtainWatchdog (k : Nat) (s : State) : State :=
  let us := s.gates.filterMap fun x =>
    match mfind x.2.stage k with
    | some st => if st.complete then none else some st.uid
    | none => none
  match us with
  | [] => s
  | u :: rest => tearCurtain k (rest.foldl min u) true s

/-! ### The draw (R324, R326) -/

/-- Transfer a grant: a push goes to the column stores, a curtain begins its locked sequence, other parts enter the queues. -/
def transfer (n : Nat) (x : Grant) (s : State) : State :=
  if x.part.curtUid ≠ 0 then beginLock n x.part s
  else
    match mfind s.live x.part.uid with
    | none => s
    | some l =>
      if x.part.op == .push then pushPart n x.part s
      else
        let g := gate n s
        let t := setGate n { g with flying := g.flying ++ [x] } s
        x.part.beats.foldl (fun u b => moveBeat n x.part.uid (x.part.op == .wr) x.urgent l.req b u) t

/-- One FCLK of the guarantee counts: each gains its share in GB/s ÷ 2 bytes, up to 8 KiB (R341). -/
def guarGain (n : Nat) (s : State) : State :=
  let g := gate n s
  let f := rawOf n s * rd (ARB_GUAR_FACTOR.FACTOR n) s
  let top := Int.ofNat (8192 * guarUnit s)
  setGate n { g with guar := (List.range 18).foldl (fun m i =>
    let q := rd (QOS_GUAR.GBPS i) s
    if q = 0 then m else mset m i (min top (mgetD m i 0 + Int.ofNat (q * f)))) g.guar } s

/-- One FCLK of the back-log measurement: the masters with a part queued (R344). -/
def busyStep (n : Nat) (s : State) : State :=
  let g := gate n s
  let ms := (g.parts.map fun a => a.m).eraseDups
  setGate n { g with winBusy := ms.foldl (fun m i => mset m i (mgetD m i 0 + 1)) g.winBusy } s

/-- Requesters with a queued part that fails only condition 1 of R325 (event 0x107). -/
def roomStalls (n : Nat) (old : List Part) (s : State) : State :=
  let g := gate n s
  let ms := (List.range 18).filter fun m => g.parts.any fun a =>
    a.m == m && a.op != .push && eligibleButRoom n g old a s && !roomFor n g old a s
  ms.foldl (fun t m => emit 0x107 1 (some n) (some m) none none t) s

/-- GATE_DRAW: one FCLK of the gate (R324, R326): the grants of the draw before enter the queues, one beat of a locked sequence
moves, and the draw works from the state before. After a part of more than 32 beats nothing is granted for one FCLK.
(DESIGN CHOICE, log entry 48.) -/
def gateDraw (n : Nat) (urg : BitVec 32) (s : State) : State :=
  if 16 ≤ n || !hOn n s then s
  else
    let g := gate n s
    let old := g.chosen
    let oldParts := old.map fun x => x.part
    let s1 := setGate n { g with chosen := [], skip := false } s
    let d : List Part × State :=
      if g.skip then ([], s1)
      else
        let t := roomStalls n oldParts s1
        let t := preempt n urg oldParts t
        let d := drawLoop n urg oldParts 8 [] t
        (d.1, lossStep n oldParts d.1 d.2)
    let new := (gate n d.2).chosen
    let big := d.1.any fun a => decide (32 < a.beats.length)
    let t := setGate n { gate n d.2 with chosen := [], skip := big } d.2
    let t := busyStep n (guarGain n t)
    let t := lockBeat n (old.foldl (fun u x => transfer n x u) t)
    setGate n { gate n t with chosen := new } t

end Sys2Proof.Machine
end

