-- ==== Sys2Proof/Machine/HostIo.lean ====
section
/-! DEFINITION. Bus-master traffic through HP (R62, R375, R376, R504 to R506) and the spill area (R202). -/

namespace Sys2Proof.Machine

open Reg

/-! ### Configuration space helpers -/

def cfgPut (off v : Nat) (s : State) : State := { s with host := { s.host with cfg := mset s.host.cfg off v } }

def aerPoisoned : Nat := 12
def aerTimeout : Nat := 14
def aerAbort : Nat := 15
def aerUnexpected : Nat := 16
def aerUnsupported : Nat := 20

/-- Log the first unmasked error: its number in the First Error Pointer and, unless it is a completion timeout, the header of its
TLP. A command carries no header, so the four words are free values (R509). (PRESUMED, log entry 81.) -/
def aerLog (b : Nat) (s : State) : State :=
  if (cfgD 0x108 s).testBit b || (cfgD 0x104 s).testBit (cfgD 0x118 s % 32) then s
  else
    let t := cfgPut 0x118 (cfgD 0x118 s / 32 * 32 + b) s
    if b = aerTimeout then t
    else (List.range 4).foldl (fun u i => freshDraw (cfgPut (0x11C + 4 * i) ((Config.freeData u.free).toNat % 2 ^ 32) u)) t

/-- Set a bit of the AER uncorrectable error status (R509). -/
def aerSet (b : Nat) (s : State) : State :=
  let t := aerLog b s
  cfgPut 0x104 (setBit (cfgD 0x104 t) b) t

/-- Max_Read_Request_Size in bytes. -/
def maxRead (s : State) : Nat := 128 * 2 ^ min 5 (bits (cfgD 0x58 s) 12 3)

/-- The tags in use and how many reads may be outstanding (R505). -/
def hpTags (s : State) : List Nat :=
  if (cfgD 0x78 s).testBit 12 then (List.range 256).map fun t => t + 256
  else if (cfgD 0x58 s).testBit 8 then List.range 256 else List.range 32

/-! ### Reads -/

/-- A tag for a new read, if the limits of R505 and R376 leave one. -/
def freeTag (s : State) : Option Nat :=
  let used := s.host.reads.length + s.host.quarantine.length
  if (hpTags s).length ≤ used then none
  else (hpTags s).find? fun t => (mfind s.host.reads t).isNone && !s.host.quarantine.contains t

/-- Issue waiting reads while bus-master requests are permitted and tags are free. -/
def pumpReads : Nat → State → State
  | 0, s => s
  | n + 1, s =>
    if !busMaster s then s
    else
      match s.host.waiting, freeTag s with
      | r :: rs, some t =>
        pumpReads n (sendTlp (.memRead t r.addr r.len)
          { s with host := { s.host with waiting := rs, reads := mset s.host.reads t r } })
      | _, _ => s

/-- Issue what can be issued. -/
def issueReads (s : State) : State := pumpReads 256 s

/-- Ask for a bus-master read; it waits its turn for a tag. -/
def askHost (r : HpRead) (s : State) : State := issueReads { s with host := { s.host with waiting := s.host.waiting ++ [r] } }

/-! ### Writes -/

/-- The TLPs of a write, none crossing a multiple of Max_Payload_Size. -/
def writeTlps (mps : Nat) : Nat → Nat → List Byte → List HpTlp
  | 0, _, _ => []
  | n + 1, a, d =>
    if d.isEmpty then []
    else
      let k := mps - a % mps
      .memWrite a (d.take k) :: writeTlps mps n (a + k) (d.drop k)

/-- Send a host write now. -/
def sendHostWrite (a : Nat) (d : List Byte) (s : State) : State :=
  (writeTlps (maxPayload s) (d.length + 1) a d).foldl (fun t x => sendTlp x t) s

/-! ### The spill area (R202) -/

/-- The size of the spill area in bytes: at most half of the firmware reserve (R205). (DEDUCED, log entry 35.) -/
def spillSize (s : State) : Nat := min (rd CTX_SPILL_CFG.SIZE_MIB s) (fwReserve s / 2) * 2 ^ 20

def spillBytes : Spill → Nat
  | .bytes _ _ _ d => d.length
  | .record _ _ _ _ => 32

def spillUsed (s : State) : Nat := s.spill.foldl (fun k x => k + spillBytes x) 0

/-- Change the spill area and show its use in KiB, rounded up. -/
def setSpill (l : List Spill) (s : State) : State :=
  let t := { s with spill := l }
  put CTX_SPILL_USED.KIB ((spillUsed t + 1023) / 1024) t

/-- The host context set of a job, if it has one and the set is away. -/
def awaySet (j : Nat) (s : State) : Option Nat :=
  match mfind s.jobs j with
  | none => none
  | some v =>
    let c := ctxOf v.ctx s
    if cHome c = 16 && setAway (cHset c) s then some (cHset c) else none

/-- Every host-bound byte of a job is discarded. -/
def dropSpilled (j : Nat) (s : State) : State :=
  setSpill (s.spill.filter fun x => match x with | .bytes _ i _ _ => i != j | _ => true) s

/-- Spill host-bound bytes of a job, or fail it with SPILL_FULL. -/
def spillWrite (h j a : Nat) (d : List Byte) (s : State) : State :=
  if spillUsed s + d.length ≤ spillSize s then
    setSpill (s.spill ++ [.bytes h j a d]) (fwWrite .spill (spillUsed s) d s)
  else dropSpilled j (failJob j stSpillFull d.length s)

/-- A host-bound write of a job (R202, R506). -/
def hostWrite (j a : Nat) (d : List Byte) (s : State) : State :=
  if (mfind s.jobs j).any fun v => v.stopped then s
  else
    match awaySet j s with
    | some h => spillWrite h j a d s
    | none =>
      if busMaster s && s.host.writes.isEmpty then sendHostWrite a d s
      else { s with host := { s.host with writes := s.host.writes ++ [(j, a, d)] } }

/-- Host-bound writes of a job wait for Bus Master Enable. -/
def writesWait (j : Nat) (s : State) : Bool := s.host.writes.any fun x => x.1 == j

/-- Send the writes that waited, once they may go. -/
def flushWrites (s : State) : State :=
  if busMaster s then
    s.host.writes.foldl (fun t x => sendHostWrite x.2.1 x.2.2 t) { s with host := { s.host with writes := [] } }
  else s

/-- Bus-master requests may be permitted now: what waited goes out (R506). -/
def hostResume (s : State) : State := flushEvents (issueReads (flushWrites s))

end Sys2Proof.Machine
end

