-- ==== Sys2Proof/Machine/Contexts.lean ====
section
/-! DEFINITION. Contexts (R170 to R176), doorbells (R177 to R181), descriptor fetch (R182, R184), the host heartbeat (R201 to
R203) and completion records (R189 to R193). -/

namespace Sys2Proof.Machine

open Reg

/-! ### Context commands (R174) -/

/-- End a context command with its result (R522: OVERRUN if a second write came meanwhile). -/
def ctxDone (result word : Nat) (s : State) : State :=
  let again := s.overruns.contains CTX_CMD.CMD.off
  putAll [(CTX_CMD.BUSY, 0), (CTX_CMD_STATUS.RESULT, if again then 4 else result), (CTX_CMD_STATUS.WORD, word),
    (CTX_CMD_STATUS.VALID, 1)] { s with overruns := s.overruns.filter fun o => o != CTX_CMD.CMD.off }

/-- Jobs of a context in flight: started and their records not yet written or spilled. -/
def inflight (x : Nat) (s : State) : Nat := (s.jobs.filter fun v => v.2.ctx == x).length

/-- The staging entry. -/
def staged (s : State) : List Nat := (List.range 16).map fun i => rd (CTX_ENTRY.WORD i) s

/-- OPEN. -/
def openCmd (x : Nat) (s : State) : State :=
  if (ctxOf x s).state != .free then ctxDone 1 0 s
  else
    match entryBadWord (staged s) with
    | some w => ctxDone 2 w s
    | none => ctxDone 0 0 (tableWrite x (setCtx x { Ctx.init with state := .opened, words := staged s } s))

/-- The host context set of a context is LOST or DRAINING. -/
def ctxAway (x : Nat) (s : State) : Bool := cHome (ctxOf x s) == 16 && setAway (cHset (ctxOf x s)) s

/-- A record of a context is held in the spill area. -/
def recordSpilled (x : Nat) (s : State) : Bool := s.spill.any fun y => match y with | .record _ c _ _ => c == x | _ => false

/-- A CLOSING context whose jobs have all written their records becomes FREE. -/
def freeClosing (x : Nat) (s : State) : State :=
  if (ctxOf x s).state == .closing && inflight x s == 0 && !recordSpilled x s then tableWrite x (setCtx x Ctx.init s) else s

/-- CLOSE: the context enters CLOSING and its descriptors that have not started are dropped. -/
def closeCmd (x : Nat) (s : State) : State :=
  let c := ctxOf x s
  if (c.state != .opened && c.state != .halted) || ctxAway x s then ctxDone 1 0 s
  else ctxDone 0 0 (setCtx x { c with state := .closing, fetched := [], waiting := false, fetching := none } s)

/-- CLOSE_COMPLETE: every job in flight of a CLOSING context has written its record. -/
def closeComplete (x : Nat) (s : State) : State := freeClosing x s

/-- The commit step of a RESUME: the context enters OPEN, fetching restarts at the head, and no first failure is held any longer. The
spec does not say what READ shows of it afterwards. (DESIGN CHOICE, log entry 92.) -/
def commitResume (x : Nat) (s : State) : State :=
  let c := ctxOf x s
  if c.waiting && c.state == .halted && inflight x s == 0 then
    ctxDone 0 0 (setCtx x { c with state := .opened, waiting := false, halt := none, fetched := [] } s)
  else s

/-- RESUME and RESUME_DISCARD, the latter with the tail at its acceptance: BUSY until no job of the context is in flight. -/
def resumeCmd (discard : Option Nat) (x : Nat) (s : State) : State :=
  let c := ctxOf x s
  if c.state != .halted then ctxDone 1 0 s
  else commitResume x (setCtx x { c with head := discard.getD c.head, waiting := true, fetched := [], fetching := none } s)

/-- The code of a context's state (R173). -/
def stateCode : CtxState → Nat
  | .free => 0
  | .opened => 1
  | .halted => 2
  | .closing => 3

/-- READ: the entry to the staging registers, a snapshot to CTX_STATUS. -/
def readCmd (x : Nat) (s : State) : State :=
  let c := ctxOf x s
  let t := (List.range 16).foldl (fun t i => put (CTX_ENTRY.WORD i) (cWord c i) t) s
  let h := c.halt.getD (0, 0)
  ctxDone 0 0 (putAll [(CTX_STATUS_0.STATE, stateCode c.state), (CTX_STATUS_0.INFLIGHT, inflight x s), (CTX_STATUS_1.DESC_HEAD, c.head),
    (CTX_STATUS_2.CPL_TAIL, c.cplTail), (CTX_STATUS_3.HALT_INDEX, h.1), (CTX_STATUS_3.HALT_STATUS, h.2)] t)

/-- Word 0 without the fields that MODIFY copies, and word 2 without TIMEOUT_DEF. -/
def fixedWord (i w : Nat) : Nat :=
  if i = 0 then bits w 0 5 + bits w 10 9 * 2 ^ 10 + bits w 27 5 * 2 ^ 27 else if i = 2 then bits w 20 12 else w

/-- MODIFY: refused with BAD_FIELD at the first word that breaks R171 or changes a fixed field. -/
def modifyCmd (x : Nat) (s : State) : State :=
  let c := ctxOf x s
  let w := staged s
  if c.state != .opened && c.state != .halted then ctxDone 1 0 s
  else
    let differs := (List.range 16).find? fun i => fixedWord i (w.getD i 0) != fixedWord i (cWord c i)
    let bad := match entryBadWord w, differs with
      | some a, some b => some (min a b)
      | some a, none => some a
      | none, d => d
    match bad with
    | some i => ctxDone 2 i s
    | none => ctxDone 0 0 (tableWrite x (setCtx x { c with words := w } s))

/-- A context command runs, by its code, with the descriptor tail at its acceptance; no command applies to context 0 (R174). -/
def ctxRun (cmd x tail : Nat) (s : State) : State :=
  if x = 0 then ctxDone 3 0 s
  else
    match cmd with
    | 1 => openCmd x s
    | 2 => closeCmd x s
    | 3 => resumeCmd none x s
    | 4 => resumeCmd (some tail) x s
    | 5 => readCmd x s
    | _ => modifyCmd x s

/-- Accept a context command for the context that CTX_SEL names. A write while another command runs is ignored and marks an
overrun (R174, R522); while the stage manager is not READY the command waits (R434, R515). (DESIGN CHOICE, log entry 32.) -/
def ctxCommand (cmd : Nat) (s : State) : State :=
  if on CTX_CMD.BUSY s then
    if s.overruns.contains CTX_CMD.CMD.off then s else { s with overruns := s.overruns ++ [CTX_CMD.CMD.off] }
  else
    let t := putAll [(CTX_CMD.BUSY, 1), (CTX_CMD_STATUS.VALID, 0)] s
    let x := rd CTX_SEL.CTX s
    let tail := (ctxOf x s).tail
    if coreReady 2 s then ctxRun cmd x tail t else { t with ctxHeld := some (cmd, x, tail) }

/-- The stage manager is READY: the command that waited runs. -/
def runHeldCtx (s : State) : State :=
  match s.ctxHeld with
  | some (cmd, x, tail) => ctxRun cmd x tail { s with ctxHeld := none }
  | none => s

/-! ### Doorbells (R177 to R181) -/

/-- The context takes doorbells. -/
def belled (x : Nat) (s : State) : Bool := (ctxOf x s).state == .opened || (ctxOf x s).state == .halted

def badState (s : State) : State := bump CTX_DB_ERR.BAD_STATE 1 s
def badIndex (s : State) : State := bump CTX_DB_ERR.BAD_INDEX 1 s

/-- The distance from a to b on a ring index of 2N values. -/
def ringDist (l a b : Nat) : Nat := (b + 2 ^ (l + 1) - a % 2 ^ (l + 1)) % 2 ^ (l + 1)

/-- The event of a doorbell acted on. -/
def bellEvent (x : Nat) (s : State) : State := emit 0x704 1 none (some (cHome (ctxOf x s))) none none s

/-- A DESC_TAIL doorbell reaches the stage manager (R180, R181). -/
def descTail (x : Nat) (v : Nat) (s : State) : State :=
  let c := ctxOf x s
  let l := cDescLog c
  let t := v % 2 ^ (l + 1)
  if !belled x s then badState s
  else if ringDist l c.head c.tail ≤ ringDist l c.head t && ringDist l c.head t ≤ 2 ^ l then
    bellEvent x (setCtx x { c with tail := t } s)
  else badIndex s

/-- A CPL_HEAD doorbell reaches the stage manager (R180, R181). -/
def cplHead (x : Nat) (v : Nat) (s : State) : State :=
  let c := ctxOf x s
  let l := cCplLog c
  let t := v % 2 ^ (l + 1)
  if !belled x s then badState s
  else if ringDist l c.cplHead t ≤ ringDist l c.cplHead c.cplTail then bellEvent x (setCtx x { c with cplHead := t } s)
  else badIndex s

/-- The timer of a set starts from zero in this round (R201). -/
def startHb (h : Nat) (s : State) : State := { s with hbStart := mset s.hbStart h s.rounds }

/-- The timer of a LIVE set has reached TIMEOUT_MS: a round lasts 1 ms (R411). -/
def hbExpired (h : Nat) (s : State) : Bool := decide (rd (CTX_HB_CFG.TIMEOUT_MS h) s ≤ s.rounds - mgetD s.hbStart h 0)

/-- A HEARTBEAT write (R177, R201, R202): only the pages of open host contexts take it. One of the set's GEN, while the set is LIVE and
its timer has not reached TIMEOUT_MS, restarts the timer. -/
def heartbeat (x gen : Nat) (s : State) : State :=
  let c := ctxOf x s
  if cHome c ≠ 16 || !belled x s then badState s
  else if rd (CTX_HB_STATUS.STATE (cHset c)) s = 1 && rd (CTX_HB_STATUS.GEN (cHset c)) s = gen && !hbExpired (cHset c) s then
    startHb (cHset c) s
  else bump (CTX_HB_STATUS.STALE (cHset c)) 1 s

/-! ### Host context sets (R201 to R203) -/

/-- The contexts of a set. -/
def ctxsOfSet (h : Nat) (s : State) : List Nat :=
  (s.ctxs.filter fun x => x.2.state != .free && cHome x.2 == 16 && cHset x.2 == h).map fun x => x.1

/-- A job belongs to a set. -/
def jobInSet (h : Nat) (v : Job) (s : State) : Bool := cHome (ctxOf v.ctx s) == 16 && cHset (ctxOf v.ctx s) == h

/-- A set enters LOST (R202, R507): host-bound writes that wait are spilled, and a heartbeat-loss event is posted. -/
def loseSet (h : Nat) (s : State) : State :=
  if setAway h s then s
  else
    let t := put (CTX_HB_STATUS.STATE h) 2 s
    let mine := fun (j : Nat) => (mfind t.jobs j).any fun v => jobInSet h v t
    let go := t.host.writes.filter fun x => mine x.1
    let t := { t with host := { t.host with writes := t.host.writes.filter fun x => !mine x.1 } }
    let t := go.foldl (fun u x => if (mfind u.jobs x.1).any fun v => !v.stopped then spillWrite h x.1 x.2.1 x.2.2 u else u) t
    let t := (ctxsOfSet h t).foldl (fun u x => setCtx x { ctxOf x u with fetched := [], fetching := none } u) t
    postEvent 8 h 1 [] t

/-- HEARTBEAT_TIMEOUT: the timer of a LIVE set reaches TIMEOUT_MS. -/
def heartbeatTimeout (h : Nat) (s : State) : State :=
  if h < 64 && rd (CTX_HB_STATUS.STATE h) s = 1 && hbExpired h s then loseSet h s else s

/-- A write to CTX_HB_CFG_s (R201). -/
def hbCfgWrite (h v : Nat) (s : State) : State :=
  if 64 ≤ h then s
  else
    let t := put (CTX_HB_CFG.TIMEOUT_MS h) v s
    if setAway h s then t else startHb h (put (CTX_HB_STATUS.STATE h) (b2n (v % 2 ^ 16 != 0)) t)

/-- A write to CTX_HB_CTRL_s with CMD 1 or 2 (R203). -/
def ackWait (discard : Bool) (h gen : Nat) (s : State) : State :=
  if 64 ≤ h then s
  else if rd (CTX_HB_STATUS.STATE h) s = 2 && rd (CTX_HB_STATUS.GEN h) s ≠ gen then
    { put (CTX_HB_STATUS.STATE h) 3 s with acks := mset s.acks h ⟨gen, discard⟩ }
  else put (CTX_HB_STATUS.ACK_REJECTED h) 1 s

/-! ### Completion records (R189 to R194) -/

/-- A slot of the completion ring is free. -/
def cplRoom (c : Ctx) : Bool := decide (ringDist (cCplLog c) c.cplHead c.cplTail < 2 ^ cCplLog c)

/-- PHASE at a completion tail. -/
def withPhase (ws : List Nat) (c : Ctx) : List Nat :=
  ws.mapIdx fun i w => if i = 7 then w % 2 ^ 31 + b2n (!c.cplTail.testBit (cCplLog c)) * 2 ^ 31 else w

/-- The address of the next completion slot. -/
def cplAddr (c : Ctx) : Nat := cCplBase c + 32 * (c.cplTail % 2 ^ cCplLog c)

/-- The completion tail after one record. -/
def bumpTail (c : Ctx) : Ctx := { c with cplTail := (c.cplTail + 1) % 2 ^ (cCplLog c + 1) }

/-- Send the message of a record, if it has a vector (R193). -/
def recordMsg (irq : Option Nat) (s : State) : State :=
  match irq with
  | some v => sendMsg v s
  | none => s

/-- Write a record into a host ring: words 0 to 6, then word 7 (R192), then its message. -/
def writeHostRecord (x : Nat) (ws : List Nat) (irq : Option Nat) (s : State) : State :=
  let c := ctxOf x s
  let b := wordBytes (withPhase ws c)
  let t := sendTlp (.memWrite (cplAddr c + 28) (b.drop 28)) (sendTlp (.memWrite (cplAddr c) (b.take 28)) s)
  let t := emit 0x702 1 none (some 16) none none (setCtx x (bumpTail c) t)
  recordMsg irq t

/-- Put a record into a device ring in one beat write on the home port's lane (R172, R192); its message, and the completion tail, wait
for the write's acknowledgement. -/
def writeDevRecord (j x : Nat) (ws : List Nat) (irq : Option Nat) (s : State) : State :=
  let c := ctxOf x s
  let a := cplAddr c
  let o := a % 64
  askUnit (cHome c) (cClass c) (cDomain c) x ⟨x, .record j irq, 0, 0, 0⟩ .wr (a - o) 1 ((2 ^ 32 - 1) * 2 ^ o)
    (zeros o ++ wordBytes (withPhase ws c) ++ zeros (32 - o)) s

/-! ### DRAIN_COMPLETE (R203) -/

/-- Deliver one spilled item to the host. -/
def deliverSpill (s : State) (x : Spill) : State :=
  match x with
  | .bytes _ _ a d => sendHostWrite a d (fwRead .spill 0 d.length s)
  | .record _ c ws irq => writeHostRecord c (ws.mapIdx fun i w => if i = 0 then setBit w 29 else w) irq (fwRead .spill 0 32 s)

/-- The spilled item belongs to a set. -/
def spillOf (h : Nat) : Spill → Bool
  | .bytes i _ _ _ => i == h
  | .record i _ _ _ => i == h

def isBytes : Spill → Bool
  | .bytes _ _ _ _ => true
  | .record _ _ _ _ => false

/-- Deliver spilled items in order, up to a record whose completion ring has no room (R191); the rest stays. -/
def deliverAll : List Spill → State → List Spill × State
  | [], s => ([], s)
  | x :: xs, s =>
    match x with
    | .record _ c _ _ => if cplRoom (ctxOf c s) then deliverAll xs (deliverSpill s x) else (x :: xs, s)
    | _ => deliverAll xs (deliverSpill s x)

/-- The set leaves DRAINING with its new GEN (R203). -/
def endDrain (h gen : Nat) (s : State) : State :=
  let t := { s with acks := mdel s.acks h }
  startHb h (put (CTX_HB_STATUS.GEN h) gen (put (CTX_HB_STATUS.STATE h) (b2n (on (CTX_HB_CFG.TIMEOUT_MS h) t)) t))

/-- A context of a discarded set becomes FREE; a RESUME that waited in it ends with BAD_STATE. (DESIGN CHOICE, log entry 93.) -/
def dropCtx (s : State) (x : Nat) : State :=
  let t := tableWrite x (setCtx x Ctx.init s)
  if (ctxOf x s).waiting then ctxDone 1 0 t else t

/-- DRAIN_COMPLETE: no job of the set is in flight, so its spill is delivered or discarded (R203). Delivery waits until the block
may send bus-master requests (R506) and while a completion ring has no room. -/
def drainComplete (h : Nat) (s : State) : State :=
  match mfind s.acks h with
  | none => s
  | some w =>
    if rd (CTX_HB_STATUS.STATE h) s ≠ 3 || s.jobs.any (fun x => jobInSet h x.2 s) || (!w.discard && !busMaster s) || !coreReady 2 s then s
    else
      let mine := s.spill.filter (spillOf h)
      let t := setSpill (s.spill.filter fun x => !spillOf h x) s
      if w.discard then flushEvents (endDrain h w.gen ((ctxsOfSet h t).foldl dropCtx t))
      else
        let r := deliverAll ((mine.filter isBytes) ++ (mine.filter fun x => !isBytes x)) t
        if r.1.isEmpty then flushEvents ((ctxsOfSet h r.2).foldl (fun u x => freeClosing x u) (endDrain h w.gen r.2))
        else setSpill (r.2.spill ++ r.1) r.2

/-! ### Descriptor fetch (R182, R184) -/

/-- A job has finished: its record is written after those of its context that finished before it (R194). -/
def jobFinished (j : Nat) (s : State) : State := { s with finished := s.finished ++ [j] }

/-- The fetch of a descriptor fails: the context halts at its index, and the record of that index carries the status. The spec states no
USER_TAG for it: it is 0, and the record is not audited. (DESIGN CHOICE, log entry 91.) -/
def fetchFail (x index status info : Nat) (s : State) : State :=
  let c := ctxOf x s
  let v : Job := { Job.start x index [] c.words (cHome c) (cClass c) (cDomain c) s.fclk with
    status := status, info := info, started := false, stopped := true, done := true, waitRecord := true }
  let t := haltCtx x index status s
  jobFinished t.nextJob { t with jobs := mset t.jobs t.nextJob v, nextJob := t.nextJob + 1 }

/-- Sixteen words from 64 bytes. -/
def wordsOf (d : List Byte) : List Nat := (List.range 16).map fun i => leAt d (4 * i) 4

/-- The identity of a fetch is that of the fetch in flight of its context. -/
def fetchLive (x id : Nat) (s : State) : Bool := (ctxOf x s).state == .opened && (ctxOf x s).fetching == some id

/-- Descriptors arrive and wait to start. -/
def fetchArrive (x index : Nat) (d : List Byte) (s : State) : State :=
  let c := ctxOf x s
  let n := d.length / 64
  let f := (List.range n).map fun i => (⟨(index + i) % 2 ^ (cDescLog c + 1), wordsOf (slice d (64 * i) 64)⟩ : Fetched)
  emit 0x700 n none (some (cHome c)) none none (setCtx x { c with fetched := c.fetched ++ f } s)

/-- A fetch that counts has ended: its good descriptors arrive, and where it failed the first other one halts the context (R184). One
whose context has since halted, closed or lost its host is dropped. -/
def fetchEnds (x index id : Nat) (d : List Byte) (fail : Option (Nat × Nat)) (s : State) : State :=
  if !fetchLive x id s then s
  else
    let t := fetchArrive x index d (setCtx x { ctxOf x s with fetching := none } s)
    match fail with
    | none => t
    | some f => fetchFail x ((index + d.length / 64) % 2 ^ (cDescLog (ctxOf x s) + 1)) f.1 f.2 t

/-- DESCRIPTOR_FETCH: up to 8 descriptors in ring order, in one read within a 4 KiB page: through HP from a host ring, on the home port's
lane from a device ring (R172, R182, R184, R517). -/
def descriptorFetch (x : Nat) (s : State) : State :=
  let c := ctxOf x s
  let l := cDescLog c
  let i := (c.head + c.fetched.length) % 2 ^ (l + 1)
  let a := cDescBase c + 64 * (i % 2 ^ l)
  let n := min (min 8 ((4096 - a % 4096) / 64)) (min (ringDist l i c.tail) (2 ^ l - i % 2 ^ l))
  if c.state != .opened || !portsOpen s || ctxAway x s || c.fetching.isSome || n = 0 || 8 ≤ c.fetched.length || !coreReady 2 s then s
  else if cHome c = 16 && !busMaster s then s
  else
    let t := { setCtx x { c with fetching := some s.nextUid } s with nextUid := s.nextUid + 1 }
    if cHome c = 16 then askHost ⟨a, 64 * n, .descriptor x i n s.nextUid, []⟩ t
    else askUnit (cHome c) (cClass c) (cDomain c) x ⟨x, .fetch i n s.nextUid, 0, 0, 0⟩ .rd a n (2 ^ 64 - 1) [] t

end Sys2Proof.Machine
end

