-- ==== Sys2Proof/Machine/Windows.lean ====
section
/-! DEFINITION. What the outbound windows make of a local request into the peer range (R388, R392). -/

namespace Sys2Proof.Machine

open Reg

def myNode (s : State) : Nat := rd PEER_NODE_ID.NODE s

def ppReady (s : State) : Bool := (port 17 s).ready

/-! ### Windows (R388 to R390) -/

/-- The request kinds of a window: RD, WR, RED, BCAST (opcodes 1 to 4). -/
def kindField (op w : Nat) : Fld :=
  match op with
  | 1 => WIN_CTL.RD w
  | 2 => WIN_CTL.WR w
  | 3 => WIN_CTL.RED w
  | _ => WIN_CTL.BCAST w

/-- Window w covers a node and an offset range. -/
def winCovers (w dir node off beats : Nat) (s : State) : Bool :=
  on (WIN_CTL.VALID w) s && rd (WIN_CTL.DIR w) s == dir &&
    (let l := rd (WIN_NODE.NODE_LOG2 w) s
     node / 2 ^ l == rd (WIN_NODE.NODE_BASE w) s / 2 ^ l) &&
    decide (rd (WIN_OFF_BASE.BASE w) s * 2 ^ 20 ≤ off) && decide (off + 64 * beats ≤ (rd (WIN_OFF_LIMIT.LIMIT w) s + 1) * 2 ^ 20)

/-- The lowest valid window of a direction that covers a range. -/
def winMatch (dir node off beats : Nat) (s : State) : Option Nat := (List.range 256).find? fun w => winCovers w dir node off beats s

/-- What the outbound windows make of a request: a link and a generation, or a fault. -/
inductive OutMatch where
  | noWindow
  | noAccess
  | ok (link : Nat) (genChk : Bool) (wgen : Nat)
  deriving DecidableEq, Repr

/-- R388 and steps 2 and 3 of R392. -/
def outMatch (dom op node off beats : Nat) (s : State) : OutMatch :=
  match winMatch 0 node off beats s with
  | none => .noWindow
  | some w =>
    if !on (kindField op w) s || !(dom == 0 || rd (WIN_CTL.DOMAIN w) s == dom || on (WIN_CTL.ALL w) s) then .noAccess
    else .ok (rd (WIN_CTL.LINK w) s) (on (WIN_CTL.GEN_CHK w) s) (if on (WIN_CTL.GEN_CHK w) s then rd (WIN_RGEN.RGEN w) s else 0)

/-- An empty outbound request. -/
def peerReq (dest : PeerFor) (src op link node off beats : Nat) (chk : Bool) (wgen low hops : Nat) (d : List Byte) (s : State) : PeerReq :=
  ⟨dest, src, op, link, node, off, beats, 2 ^ 64 - 1, hops, low, chk, wgen, rd WIN_GEN.GEN s, d, [], 0⟩

end Sys2Proof.Machine
end

