-- ==== Sys2Proof/Machine/Regulation.lean ====
section
/-! DEFINITION. Requests at ingress: the decode of compute-port headers with their context and curtain checks (R44, R46, R48),
regulation (R316 to R323, R417), the device doorbell window (R178, R179), the checks of R96 and R97 and the split into parts
(R318). -/

namespace Sys2Proof.Machine

open Reg

/-! ### Faults at ingress -/

/-- The first byte that a request touches; an ACT_PUSH has no byte address but its ADDR. -/
def firstByte (r : Req) : Nat :=
  match r.src with
  | .hp _ first _ => r.addr + first
  | _ => if r.op == .push then r.addr else r.addr + ((onesBelow 64 r.byteEn).head?).getD 0

/-- A port request completes with ACCESS_FAULT or WINDOW_FAULT and is recorded (R99). -/
def faultPort (r : Req) (window : Bool) (s : State) : State :=
  recordFault (if r.m < 16 then r.ctx else 0) r.m (r.op != .rd) window (firstByte r)
    (finishAtPort r (if window then rtWindow else rtAccess) r.addr s)

/-! ### Header decode (R43 to R48, R237) -/

/-- The one hive that every beat of a request maps to, if there is one (R46). -/
def oneHive (r : Req) (s : State) : Option Nat :=
  if inPeerRange r.addr then none
  else
    let ps := (beatAddrs r.addr r.beats).map fun a => mapAddr a s
    match (ps.headD none) with
    | none => none
    | some q => if ps.all fun x => x.any fun y => y.n == q.n then some q.n else none

/-- MAX_BEATS and MAX_REQS in force (R348). -/
def curtBeats (s : State) : Nat := let v := rd ARB_CURT_CFG.MAX_BEATS s; if v = 0 || 64 < v then 64 else v
def curtReqs (s : State) : Nat := let v := rd ARB_CURT_CFG.MAX_REQS s; if v = 0 || 16 < v then 16 else v

def setCurt (k : Nat) (c : Curt) (s : State) : State := setPort k { port k s with curt := c } s

/-- A request completes with CURTAIN_TORN before it waits at ingress. -/
def tornNow (k : Nat) (r : Req) (s : State) : State := finishAtPort r rtTorn 0 (disown k r.uid s)

/-- A request joins those that wait at ingress. -/
def waitIngress (k : Nat) (r : Req) (s : State) : State := setPort k { port k s with ing := (port k s).ing ++ [r] } s

/-- An OPEN or SOLO request arrives (R46, R334, R339): it opens a curtain, or breaks a rule and completes with CURTAIN_TORN. -/
def arriveOpen (k : Nat) (r : Req) (s : State) : State :=
  let mark := fun (t : State) => portErr (ARB_PORT_ERR.CURT_TORN k) t
  match (port k s).curt with
  | .opened u _ _ _ _ _ _ => tornNow k r (tearCurtain k u false s)
  | _ =>
    match (if r.op == .push then none else oneHive r s) with
    | none => tornNow k r (mark (setCurt k .closed s))
    | some n =>
      if !(rd ARB_CURT_EN.PORTS s).testBit k || curtBeats s < r.beats || noBank (gate n s) k then
        tornNow k r (emit 0x106 1 (some n) (some k) none none (mark (setCurt k (if r.curt = 4 then .closed else .torn) s)))
      else
        let c : Curt := if r.curt = 4 then .closed else .opened r.uid n r.beats 1 (curtBeats s) (curtReqs s) false
        waitIngress k { r with curtUid := r.uid } (setCurt k c s)

/-- An INSIDE or CLOSE request arrives while a curtain is open or torn (R46). -/
def arriveInside (k : Nat) (r : Req) (s : State) : State :=
  let ends := r.curt == 3
  match (port k s).curt with
  | .opened u n b q mb mq _ =>
    if r.op != .push && oneHive r s == some n && b + r.beats ≤ mb && q + 1 ≤ mq then
      waitIngress k { r with curtUid := u } (setCurt k (if ends then .closed else .opened u n (b + r.beats) (q + 1) mb mq false) s)
    else
      let t := tearCurtain k u false s
      tornNow k r (if ends then setCurt k .closed t else t)
  | _ => tornNow k r (if ends then setCurt k .closed s else s)

/-- The reason of FORMAT_ERR with the state of the port's curtain (R46, R48). -/
def formatAt (k : Nat) (r : Req) (s : State) : Nat :=
  let f := formatReason r true
  if (r.curt = 2 || r.curt = 3) && (port k s).curt == .closed && (f = 0 || 2 < f) then 2 else f

/-- Decode the header at the head of a port's queue if it has the given operation: its format, its context, then its curtain
(R44, R46, R48). A write whose data came with a parity error before its header was decoded is answered at once (R60). -/
def decodeHead (op : Op) (k : Nat) (s : State) : State :=
  match (port k s).rx with
  | [] => s
  | r :: rest =>
    if r.op != op || 16 ≤ k then s
    else
      let t := setPort k { port k s with rx := rest } s
      let f := formatAt k r s
      if f ≠ 0 then finishAtPort r rtFormat f (disown k r.uid t)
      else if !openOn r.ctx k s then faultPort r false (disown k r.uid t)
      else if r.curt = 0 then answerDataParity k (waitIngress k r t)
      else if r.curt = 1 || r.curt = 4 then answerDataParity k (arriveOpen k r t)
      else answerDataParity k (arriveInside k r t)

/-- A waiting write meets a parity error on its way from the port: nothing of it is written, and it completes with POISON, or
its curtain is torn (R337, R362). (DEDUCED, log entry 82.) -/
def loseWrite (m : Nat) (s : State) (uid : Nat) : State :=
  match (port m s).ing.find? fun r => r.uid == uid with
  | none => s
  | some r =>
    if r.curtUid ≠ 0 then tearCurtain m r.curtUid false s
    else
      let t := setPort m { port m s with ing := (port m s).ing.filter fun x => x.uid != uid } s
      let t := returnCredits r (disown m uid t)
      let t := tryFinish uid { t with live := mset t.live uid ⟨r, [], 0, [], 0, true, false⟩ }
      { t with live := mdel t.live uid }

/-- The writes with the given identities that wait at ingress of port m, lost to a parity error. -/
def losePath (parityError : Bool) (m : Nat) (uids : List Nat) (s : State) : State :=
  if parityError then uids.foldl (loseWrite m) s else s

/-- The identity of the request whose header is decoded next at port k. -/
def headUid (k : Nat) (s : State) : List Nat := ((port k s).rx.take 1).map fun r => r.uid

/-! ### Buckets (R319 to R323) -/

/-- Bucket 2c is the committed bucket of class c, 2c + 1 its peak bucket. -/
def bucketEn (b : Nat) (s : State) : Bool := if b % 2 = 0 then on (QOS_CIR.EN (b / 2)) s else on (QOS_PIR.EN (b / 2)) s
def bucketRate (b : Nat) (s : State) : Nat := if b % 2 = 0 then rd (QOS_CIR.RATE (b / 2)) s else rd (QOS_PIR.RATE (b / 2)) s

/-- Size in 1/16 byte; SIZE 0 is treated as 1. -/
def bucketSize (b : Nat) (s : State) : Int :=
  Int.ofNat (1024 * max 1 (if b % 2 = 0 then rd (QOS_CBS.SIZE (b / 2)) s else rd (QOS_PBS.SIZE (b / 2)) s))

/-- A bucket's count; at reset it equals its size. -/
def bucketCount (b : Nat) (s : State) : Int := mgetD s.tokens b 262144

/-- Set a count, clamped to its size on both sides, and show it in bytes, rounded toward zero. -/
def setBucket (b : Nat) (v : Int) (s : State) : State :=
  let z := bucketSize b s
  let v := max (-z) (min z v)
  let f := if b % 2 = 0 then QOS_CTOK.COUNT (b / 2) else QOS_PTOK.COUNT (b / 2)
  put f (ofSigned 32 (v.tdiv 16)) { s with tokens := mset s.tokens b v }

/-- Every enabled bucket gains its rate (R319). -/
def gainBuckets (s : State) : State :=
  (List.range 64).foldl (fun t b => if bucketEn b t then setBucket b (bucketCount b t + Int.ofNat (bucketRate b t)) t else t) s

/-- The charge of a number of beats in 1/16 byte (R320). -/
def chargeOf (beats : Nat) (s : State) : Int := Int.ofNat (16 * (64 * beats + rd QOS_CFG.OVERHEAD s))

/-- Charge a class for beats; the flag is EXCESS (R317, R321). -/
def chargeClass (c beats : Nat) (s : State) : State × Bool :=
  let ch := chargeOf beats s
  let t := if bucketEn (2 * c + 1) s then setBucket (2 * c + 1) (bucketCount (2 * c + 1) s - ch) s else s
  if !bucketEn (2 * c) s then (t, false)
  else if 0 < bucketCount (2 * c) s then (setBucket (2 * c) (bucketCount (2 * c) t - ch) t, false)
  else (t, true)

/-- Refill both buckets of a class (R323). -/
def refillClass (c : Nat) (s : State) : State := setBucket (2 * c + 1) (bucketSize (2 * c + 1) s) (setBucket (2 * c) (bucketSize (2 * c) s) s)

/-! ### The examination of a request (R321, R331, R335, R417) -/

/-- The hives that a request's parts go to. -/
def reqHives (r : Req) (s : State) : List Nat :=
  if r.op == .push then (pushHives r s).getD []
  else ((beatAddrs r.addr r.beats).filterMap fun a => (mapAddr a s).map fun q => q.n).eraseDups

/-- The class of a request at regulation (R44, R175, R317). -/
def reqClass (r : Req) (s : State) : Nat :=
  match r.src with
  | .cp _ => cClass (ctxOf r.ctx s)
  | .hp _ _ _ => rd QOS_CFG.HOST_CLASS s
  | .unit u => if u.isFirmware then rd FWM_CORE_CLASS.CLASS s else r.cls
  | _ => r.cls

/-- The protection domain of a request at its check (R95, R97). -/
def reqDomain (r : Req) (s : State) : Nat :=
  match r.src with
  | .cp _ => cDomain (ctxOf r.ctx s)
  | .hp _ _ _ => rd GLB_HOST_DOMAIN.DOMAIN s
  | _ => r.domain

/-- Two requests touch one 64-byte block (R56); the addresses of pushes are a space of their own. -/
def reqsOverlap (a b : Req) : Bool :=
  (a.op == .push) == (b.op == .push) && decide (a.addr < b.addr + 64 * b.beats) && decide (b.addr < a.addr + 64 * a.beats)

/-- The gates hold the request back: a full gate queue (R324), a running back-off (R331), or a staging bank that another
curtain of the port still holds (R335). -/
def gateHolds (m level : Nat) (r : Req) (s : State) : Bool :=
  (reqHives r s).any fun n =>
    let g := gate n s
    if r.curtUid ≠ 0 then (mfind g.stage m).any fun x => x.uid != r.curtUid
    else
      decide (16 ≤ (g.parts.filter fun a => a.m == m && a.curtUid == 0).length) ||
        ((mfind g.backoff m).isSome && level != 3)

/-- Regulation lets the shared duty pass (R417). -/
def dutyOpen (s : State) : Bool := decide (s.rotation / 18 % 16 < 16 - 2 * rd THM_STATE.SHR_LEVEL s)

/-- A waiting request passes regulation. -/
def canPass (m level : Nat) (older : List Req) (r : Req) (s : State) : Bool :=
  r.need == 0 && !(older.any fun o => reqsOverlap o r || (r.curtUid != 0 && o.curtUid == r.curtUid)) &&
    (dutyOpen s || level == 3) && !gateHolds m level r s

/-- The peak bucket lets the request pass. -/
def peakPass (level : Nat) (r : Req) (s : State) : Bool :=
  let b := 2 * reqClass r s + 1
  !bucketEn b s || decide (0 < bucketCount b s) || decide (2 ≤ level)

/-! ### Leaving ingress (R96, R97, R178, R179, R318) -/

/-- The device doorbell window (R178). -/
def inBells (r : Req) (s : State) : Bool :=
  let base := rd CTX_DB_BASE.BASE s * 2 ^ 22
  r.src == .cp r.m && r.op != .push && on CTX_DB_BASE.EN s && decide (r.addr < base + 2 ^ 22) && decide (base < r.addr + 64 * r.beats)

/-- A request into the window (R179). -/
def bellWrite (r : Req) (s : State) : State :=
  let x := r.addr % 2 ^ 22 / 64
  if r.op != .wr || r.beats ≠ 1 || r.ctx ≠ x || !openOn x r.m s then
    recordFault r.ctx r.m (r.op != .rd) false (max (firstByte r) (rd CTX_DB_BASE.BASE s * 2 ^ 22)) (answerPort r rtAccess r.addr s)
  else
    let d := beatBytes (r.data.getD 0 0)
    let w0 := decide (bits r.byteEn 0 4 = 15)
    let w2 := decide (bits r.byteEn 8 4 = 15)
    let s := if w0 then descTail x (leAt d 0 4) s else s
    let s := if w2 then cplHead x (leAt d 8 4) s else s
    let rest := r.byteEn - (if w0 then 15 else 0) - (if w2 then 15 * 2 ^ 8 else 0)
    let s := if rest ≠ 0 || (!w0 && !w2) then badIndex s else s
    answerPort r rtWrAck 0 s

/-- The beats of a request at hive n, with the channel, pseudo-channel and channel-local offset of each. -/
def beatsAt (n : Nat) (r : Req) (s : State) : List PBeat :=
  (List.range r.beats).filterMap fun i =>
    match mapAddr (r.addr + 64 * i) s with
    | some q => if q.n = n then some ⟨i, q.c, workPc n q.c q.off s, q.off⟩ else none
    | none => none

/-- The part of a request at hive n (R318). -/
def partOf (n : Nat) (r : Req) (s : State) : Part :=
  let bs : List PBeat := if r.op == .push then (List.range r.beats).map fun i => ⟨i, 0, 0, r.addr + 64 * i⟩ else beatsAt n r s
  ⟨r.uid, n, r.m, !unitReq r, r.op, bs, r.level, r.excess, false, false, 0, none, 0⟩

/-- A part arrives at its gate: in its queue, or in the staging bank of its curtain (R335). A hive that is off answers with
poison (R82). -/
def arrivePart (r : Req) (s : State) (n : Nat) : State :=
  let a := partOf n r s
  if !hOn n s then poisonPart false [] a s
  else
    let g := gate n s
    if r.curtUid = 0 then setGate n { g with parts := g.parts ++ [a] } s
    else
      let st := (mfind g.stage r.m).getD ⟨r.curtUid, [], false⟩
      setGate n { g with stage := mset g.stage r.m { st with parts := st.parts ++ [a] } } s

/-- A permitted request goes to its hives. -/
def launch (r : Req) (s : State) : State :=
  let hs := reqHives r s
  let ps := hs.map fun n => partOf n r s
  let left := if r.op == .wr then r.beats else if r.op == .push then hs.length else 0
  hs.foldl (arrivePart r) { s with live := mset s.live r.uid ⟨r, ps, left, [], 0, false, false⟩ }

/-- The first faulting byte of a request (R104): that of its first beat which is not permitted, at the first byte that it touches
there. -/
def faultByte (r : Req) (s : State) : Nat :=
  let both := r.curtUid != 0
  let b := if r.op == .push || inPeerRange r.addr then r.addr
    else
      let f := fun w => (firstDenied r.domain w r.addr r.beats s).getD (r.addr + 64 * r.beats)
      min (if r.op == .rd || both then f false else r.addr + 64 * r.beats) (if r.op == .wr || both then f true else r.addr + 64 * r.beats)
  if b = r.addr then firstByte r else b

/-- The unit that a fault names: 18 for an access of a job or ring (R104). -/
def faultSrc (r : Req) : Nat := if unitReq r then 18 else r.m

/-- The answer to a request that may not reach its bytes, by its source (R48, R98, R99, R395). Without a peer unit every request
into the peer range is a WINDOW_FAULT (R86). The address recorded for a received RD or WR is the local one, to which it was
translated. (DESIGN CHOICE, log entry 88.) -/
def refuse (r : Req) (s : State) : State :=
  let window := inPeerRange r.addr && !peerPresent s
  let t := recordFault r.ctx (faultSrc r) (r.op != .rd) window (faultByte r s) s
  match r.src with
  | .cp _ => answerPort r (if window then rtWindow else rtAccess) r.addr t
  | .unit _ => arrive ⟨r, [], true, if window then .window (faultByte r s) else .access (faultByte r s)⟩ t
  | .hp tag _ _ => if r.op == .rd then sendTlp (.abort tag) (cfgPut 0x104 (setBit (cfgD 0x104 t) aerAbort) t) else t
  | .pp slot =>
    let t := emit 0x604 1 none none none none (bump WIN_STATUS.FAULTS_IN 1 t)
    if t.peer.bcasts.any (fun b => b.uid == r.uid) then bcastWrote r.uid (some rtAccess) t
    else ppRespond slot rtAccess 0 (slotF slot 96 42 + slotF slot 64 20 * 2 ^ 42 + 2 ^ 63) 0 (rd PEER_NODE_ID.NODE t)
      (mgetD t.peer.inGen r.uid 1) [] t

/-- The access kinds that a request needs: a curtain needs both (R96). -/
def allowed (r : Req) (s : State) : Bool :=
  let both := r.curtUid != 0
  (!(r.op == .rd || both) || permitted r.domain false r.addr r.beats s) && (!(r.op == .wr || both) || permitted r.domain true r.addr r.beats s)

/-- The counted events of a request that leaves ingress (R487). -/
def leaveEvents (r : Req) (s : State) : State :=
  let ev := fun e n (t : State) => emit e n none (some r.m) (some r.cls) none t
  ev 0x001 1 (ev 0x002 (64 * r.beats) (if r.excess then ev 0x003 1 s else s))

/-- A request into the peer range completes as if its timer had fired (R384, R399). -/
def peerSilent (r : Req) (s : State) : State :=
  match r.src with
  | .unit _ => arrive ⟨r, [], true, .silent (bits r.addr 42 20)⟩ s
  | _ => answerPoisonAll r s

/-- A local request into the peer range leaves ingress and is matched (R391, R392). -/
def toPeer (r : Req) (s : State) : State :=
  let node := bits r.addr 42 20
  let off := r.addr % 2 ^ 42
  let join := fun (h : PeerHit) => { s with peer := { s.peer with inbox := s.peer.inbox ++ [(r, h)] } }
  if !peerPresent s then join (.fault true)
  else if !ppReady s then peerSilent r s
  else
    let u : UnitAcc := match r.src with
      | .unit a => a
      | _ => ⟨0, .jobWrite, 1, 0, 0⟩
    match outMatch r.domain u.opcode node off r.beats s with
    | .noWindow => join (.fault true)
    | .noAccess => join (.fault false)
    | .ok link chk wgen =>
      let q := peerReq (if unitReq r then .unit r else .port r.uid) r.m u.opcode link node off r.beats chk wgen u.low u.hops
        (if u.opcode = 1 then [] else r.data.flatMap beatBytes) s
      join (.ok { q with byteEn := r.byteEn })

/-- A request that may reach the peer range: a compute-port read, an access of COPY, EMIT, PEER_REDUCE SEND or BROADCAST, or one of the
firmware (R392); those of a job carry the opcode of their peer request. -/
def mayPeer (r : Req) : Bool :=
  match r.src with
  | .unit u => u.opcode != 0
  | .cp _ => r.op == .rd
  | _ => false

/-- The local write of a broadcast packet, checked when the packet arrived (R97, R395). -/
def bcastLocal (r : Req) (s : State) : Bool := s.peer.bcasts.any fun b => b.uid == r.uid

/-- An access of the firmware reaches all of device memory, its reserve included (R87). -/
def firmwareOwn (r : Req) (s : State) : Bool :=
  match r.src with
  | .unit u => u.isFirmware && (beatAddrs r.addr r.beats).all fun a => (mapAddr a s).isSome
  | _ => false

/-- A request leaves ingress: its credits return, and it is checked once (R97). -/
def leaveIngress (r : Req) (s : State) : State :=
  let s := leaveEvents r (returnCredits r s)
  if inBells r s then bellWrite r s
  else if inPeerRange r.addr then (if mayPeer r then toPeer r s else refuse r s)
  else if r.op == .push then (if pushOk r s then launch r s else refuse r s)
  else if firmwareOwn r s || bcastLocal r s || allowed r s then launch r s
  else
    let t := refuse r s
    match r.curt, (oneHive r s) with
    | 1, some n => setGate n { gate n t with stage := mset (gate n t).stage r.m ((mfind (gate n t).stage r.m).getD ⟨r.curtUid, [], false⟩) } t
    | _, _ => t

/-! ### REGULATION_CHECK (R321) -/

/-- The level that applies to a request of a requester: the sampled one for the port's own, 0 for every other (R317). -/
def levelOfReq (level : Nat) (r : Req) : Nat :=
  match r.src with
  | .cp _ => level
  | _ => 0

/-- The request of a requester that a round of the examination takes for class c: the oldest waiting one. One that a gate holds
back lets requests to other hives pass (R51, R331). -/
def oldestOf (m level c : Nat) (s : State) : Option (List Req × Req) :=
  let l := (port m s).ing
  let mine := fun (r : Req) => reqClass r s == c && !gateHolds m (levelOfReq level r) r s
  match l.find? mine with
  | none => none
  | some r => some (l.takeWhile (fun x => x.uid != r.uid), r)

/-- Pass one request: the marks, the charge and the exit from ingress. -/
def passReq (m level : Nat) (r : Req) (s : State) : State :=
  let c := reqClass r s
  let ch := chargeClass c r.beats s
  let r := { r with cls := c, domain := reqDomain r s, level := level, excess := ch.2 }
  let p := port m ch.1
  leaveIngress r (setPort m { p with ing := p.ing.filter fun x => x.uid != r.uid } ch.1)

/-- One round: classes ascending, skipping those whose examined request did not pass in this FCLK. Answers the classes still
open and the number of requests passed. -/
def roundOf (m level : Nat) : List Nat → Nat → State → List Nat × Nat × State
  | [], k, s => ([], k, s)
  | c :: cs, k, s =>
    if 8 ≤ k then ([], k, s)
    else
      match oldestOf m level c s with
      | none => roundOf m level cs k s
      | some (older, r) =>
        let v := levelOfReq level r
        if canPass m v older r s && peakPass v r s then
          let x := roundOf m level cs (k + 1) (passReq m v r s)
          (c :: x.1, x.2.1, x.2.2)
        else roundOf m level cs k s

/-- The rounds of one requester: at most 8 requests pass in an FCLK. -/
def rounds (m level : Nat) : Nat → List Nat → Nat → State → State
  | 0, _, _, s => s
  | n + 1, cs, k, s =>
    let x := roundOf m level cs k s
    if x.2.1 = k then x.2.2 else rounds m level n x.1 x.2.1 x.2.2

/-- Requesters held by a peak bucket (event 0x004). -/
def heldEvents (m level : Nat) (s : State) : State :=
  let l := (port m s).ing.filter fun r => !peakPass (levelOfReq level r) r s
  match l with
  | [] => s
  | r :: _ => emit 0x004 1 none (some m) (some (reqClass r s)) none s

/-- The examination of requester m. -/
def examine (urg : BitVec 32) (s : State) (m : Nat) : State :=
  let level := urgOf urg m
  heldEvents m level (rounds m level 9 (List.range 32) 0 s)

/-- REGULATION_CHECK: one FCLK of regulation, in the rotating order of R321, and of the return of request credits (R52). `rotation` counts FCLKs in units of 18 and the
starting requester. (DESIGN CHOICE, log entry 47.) -/
def regulationCheck (urg : BitVec 32) (s : State) : State :=
  let first := s.rotation % 18
  let t := (List.range 18).foldl (fun u k => creditCycle k u) (gainBuckets (fwAccesses s))
  let t := ((List.range 18).map fun i => (first + i) % 18).foldl (examine urg) t
  let t := { t with rotation := s.rotation - first + 18 + (first + 1) % 18 }
  if rd THM_STATE.SHR_LEVEL t ≠ 0 then emit 0x008 1 none none none none t else t

end Sys2Proof.Machine
end

