-- ==== Sys2Proof/Machine/Commits.lean ====
section
/-! DEFINITION. The commits of the global and arbitration areas, guarantee admission, guarantee factors and the measurement of
misses (R97, R323, R340 to R345). -/

namespace Sys2Proof.Machine

open Reg

/-- GLB_COMMIT: the shadow copies of the region table and of GLB_HOST_DOMAIN apply in one step (R97). -/
def glbCommit (s : State) : State := commitRange 0 0x10000 s

/-! ### Admission (R340, R342) -/

/-- DER_n × BW_n × (16 − SH_n), the terms of D_n ÷ B_n in units of 2^-20, for a derating pair (R340, R415). -/
def deliver20 (n norm dbl : Nat) (s : State) : Nat :=
  (if on (CHC_HIVE_STATUS.REF_2X n) s then dbl else norm) * (256 - 32 * rd (HIV_THM_STATE.LEVEL n) s) *
    (16 - min 16 (rd (CHC_ARB.STREAM_SHARE n) s))

/-- Σ_m QOS_GUAR_m ÷ B_T ≤ 0.92 × D_n ÷ B_n, with B_T in units of 1/90 GB/s. -/
def admits (sum total d20 : Nat) : Bool := decide (sum * 90 * 2 ^ 20 * 100 ≤ 92 * d20 * total)

/-- The shadow guarantees, summed. -/
def guarShadow (s : State) : Nat := (List.range 18).foldl (fun k m => k + rdShadow (QOS_GUAR.GBPS m) s) 0

/-- Every hive of a valid set admits the shadow guarantees (R342). -/
def admitted (s : State) : Bool :=
  (validHives s).all fun n =>
    admits (guarShadow s) (rawTotal s) (deliver20 n (rdShadow QOS_DERATE.NORM s) (rdShadow QOS_DERATE.DBL s) s)

/-- The buckets whose rate, size or enable the commit changes. -/
def changedBuckets (s t : State) : List Nat :=
  (List.range 64).filter fun b =>
    bucketEn b s != bucketEn b t || bucketRate b s != bucketRate b t || bucketSize b s != bucketSize b t

/-- The commands and commits that show BUSY until their result is valid, with the fields that say so (R522). -/
def busyPairs : List (Fld × Fld) :=
  [(ARB_COMMIT.BUSY, ARB_COMMIT.VALID), (WIN_COMMIT.BUSY, WIN_COMMIT.VALID), (LCS_CMD.BUSY, LCS_CMD_STATUS.VALID)] ++
    (List.range 16).flatMap fun n =>
      [(CHC_MR_CMD.BUSY n, CHC_MR_DATA.VALID n), (ECC_RMP_CMD.BUSY n, ECC_RMP_CMD.VALID n)]

/-- A command that runs ends: BUSY falls and its result becomes valid. (DESIGN CHOICE, log entry 9.) -/
def endBusy (s : State) (x : Fld × Fld) : State := if on x.1 s then putAll [(x.1, 0), (x.2, 1)] s else s

/-- The quiesced pseudo-channels of every hive resume, unless the access at an offset is to the registers that show it (R288, R290):
CHC_HIVE_STATUS, CHC_COMMIT, CHC_STATUS, CHC_MR_CMD and CHC_MR_DATA. -/
def resumeBut (off len : Nat) (s : State) : State :=
  (List.range 16).foldl (fun t n =>
    let base := 0x100000 + n * 0x40000 + 0x20000
    let own := fun (lo hi : Nat) => decide (off < lo + hi) && decide (lo < off + len)
    if own (base + 0x404) 8 || own (base + 0x470) 8 || (List.range 32).any (fun c => own (base + c * 0x800) 4) then t
    else resumeHive n t) s

/-- Commands that show BUSY end before an access of the host to other registers than their own: the access stands for the time
that passes. (DESIGN CHOICE, log entry 9.) -/
def settleBut (off len : Nat) (s : State) : State :=
  (busyPairs.filter fun x => decide (x.1.off < off) || decide (off + len ≤ x.1.off)).foldl endBusy (resumeBut off len s)

/-- Every command that shows BUSY ends: in time that passes while no command waits, or in a housekeeping round.
(DESIGN CHOICE, log entry 3.) -/
def idleTick (s : State) : State := busyPairs.foldl endBusy ((List.range 16).foldl (fun t n => resumeHive n t) s)

/-- ARB_COMMIT: admit and apply every shadow copy of the area, or refuse (R342, R345, R323). While a commit shows BUSY, another
is ignored and the running one reports OVERRUN (R522). -/
def arbCommit (s : State) : State :=
  let fin := fun (st : Nat) (t : State) => putAll [(ARB_COMMIT.STATUS, st), (ARB_COMMIT.VALID, 0), (ARB_COMMIT.BUSY, 1)] t
  if on ARB_COMMIT.BUSY s then put ARB_COMMIT.STATUS 4 s
  else if !portsOpen s && guarShadow s != 0 then fin 3 s
  else if !admitted s then fin 2 s
  else
    let t := commitRange 0x10000 0x20000 s
    fin 1 ((changedBuckets s t).foldl (fun u b => setBucket b (bucketSize b u) u) t)

/-- QOS_TOKEN_RESET: bit c refills both buckets of class c (R323). -/
def qosTokenReset (mask : BitVec 32) (s : State) : State := (onesBelow 32 mask.toNat).foldl (fun t c => refillClass c t) s

/-! ### Degradation (R343) -/

/-- FACTOR_n. -/
def factorOf (n : Nat) (s : State) : Nat :=
  let sum := (List.range 18).foldl (fun k m => k + rd (QOS_GUAR.GBPS m) s) 0
  if sum = 0 || !(validHives s).contains n then 256
  else min 256 (256 * 92 * deliver20 n (rd QOS_DERATE.NORM s) (rd QOS_DERATE.DBL s) s * rawTotal s / (sum * 90 * 2 ^ 20 * 100))

/-- GUAR_FACTOR_RECOMPUTE at hive n (R343). -/
def guarFactor (n : Nat) (s : State) : State :=
  if decide (16 ≤ n) || !hivePresent n s then s
  else
    let f := factorOf n s
    let old := rd QOS_DEGRADE_STATUS.HIVES s
    let t := put (ARB_GUAR_FACTOR.FACTOR n) f s
    let t := put QOS_DEGRADE_STATUS.HIVES (if f < 256 then setBit old n else clrBit old n) t
    if f < 256 && !old.testBit n then postEvent 14 n 1 [f] (raiseInt 2 (put QOS_DEGRADE_STATUS.GUAR_DEGRADED 1 t)) else t

/-! ### Misses (R344) -/

/-- TOL in force. -/
def missTol (s : State) : Nat := min 16 (max 1 (rd QOS_MISS_CFG.TOL s))

/-- A master's granted bytes fall below its share of the back-logged time. -/
def missed (n m : Nat) (s : State) : Bool :=
  let g := gate n s
  decide (mgetD g.winBytes m 0 * 2 * 16 * 256 * rawTotal s <
    rd (QOS_GUAR.GBPS m) s * rawOf n s * rd (ARB_GUAR_FACTOR.FACTOR n) s * mgetD g.winBusy m 0 * missTol s)

/-- Record a miss of master m at hive n. -/
def recordMiss (n : Nat) (s : State) (m : Nat) : State :=
  let t := emit 0x108 1 (some n) (some m) none none (bump (QOS_MISS_CNT.COUNT m) 1 s)
  let t := if on QOS_MISS_STATUS.VALID t then put QOS_MISS_STATUS.OVERFLOW 1 t
    else putAll [(QOS_MISS_STATUS.MASTER, m), (QOS_MISS_STATUS.HIVE, n), (QOS_MISS_STATUS.VALID, 1)] t
  postEvent 14 n 2 [m] (raiseInt 2 t)

/-- QOS_MISS_WINDOW: a window of 2^WIN_LOG µs ends at hive n. (DEDUCED, log entry 50.) -/
def qosMissWindow (n : Nat) (s : State) : State :=
  if decide (16 ≤ n) || !hOn n s then s
  else
    let t := if on QOS_MISS_CFG.EN s then ((List.range 18).filter fun m => missed n m s).foldl (recordMiss n) s else s
    setGate n { gate n t with winBytes := [], winBusy := [] } t

end Sys2Proof.Machine
end

