-- ==== Sys2Proof/Machine/Cores.lean ====
section
/-! DEFINITION. The firmware cores: failures, restarts, their delays and the understudy keepers (R432 to R436). -/

namespace Sys2Proof.Machine

open Reg

def coreOf (i : Nat) (s : State) : Core := mgetD s.cores i Core.init

def setCore (i : Nat) (c : Core) (s : State) : State := { s with cores := mset s.cores i c }

/-- The variant has the core: a keeper of an absent hive is absent (R29). -/
def corePresent (i : Nat) (s : State) : Bool := if 3 ≤ i && i < 19 then hivePresent (i - 3) s else decide (i < 21)

/-- Show or clear the READY bit of a core. -/
def putReady (i : Nat) (b : Bool) (s : State) : State :=
  put FWM_CORE_READY.CORES ((if b then setBit else clrBit) (rd FWM_CORE_READY.CORES s) i) s

/-- The firmware's cores run (R440, step 5). -/
def released (s : State) : Bool := s.fw.stage == 2

/-- An update ends with a result and returns to a state (R452). -/
def updEnd (state result : Nat) (s : State) : State :=
  let t := putAll [(FWM_UPD_STATUS.STATE, state), (FWM_UPD_STATUS.RESULT, result), (FWM_UPD_STATUS.VALID, 1)] s
  postEvent 10 0 result [] { t with fw := { t.fw with activate := false, deferred := none, tries := 0 } }

/-- The hive that a keeper core serves. -/
def coreHive (i : Nat) (s : State) : Option Nat :=
  if 3 ≤ i && i < 19 then (if (rd FWM_KPR_MAP.RETIRED s).testBit (i - 3) then none else some (i - 3))
  else if i = 19 && on FWM_KPR_MAP.ACTIVE_0 s then some (rd FWM_KPR_MAP.TARGET_0 s)
  else if i = 20 && on FWM_KPR_MAP.ACTIVE_1 s then some (rd FWM_KPR_MAP.TARGET_1 s)
  else none

/-- A core stops: it is not READY, and what it did pauses or ends (R310, R434, R457). -/
def coreDown (i : Nat) (s : State) : State :=
  let t := putReady i false s
  let t := match coreHive i s with
    | some n => dropRecal n t
    | none => t
  let st := rd FWM_UPD_STATUS.STATE t
  if i = 0 && st ≠ 0 && st < 8 then updEnd 0 12 t else t

/-- A core is reloaded into its active bank and starts without its prompt book; READY follows at the next round (R433). -/
def coreLoad (i : Nat) (s : State) : State :=
  setCore i { coreOf i s with restarting := true, waiting := false, last := some s.rounds } s

/-- An understudy keeper that is READY and serves no hive. -/
def freeUnderstudy (s : State) : Option Nat :=
  [19, 20].find? fun i => coreReady i s && (coreHive i s).isNone && !(coreOf i s).retired

/-- A hive has lost its keeper: a free understudy takes it over, or it stays without one (R435, R436). -/
def takeOver (n : Nat) (s : State) : State :=
  match freeUnderstudy s with
  | some 19 => putAll [(FWM_KPR_MAP.TARGET_0, n), (FWM_KPR_MAP.ACTIVE_0, 1)] s
  | some _ => putAll [(FWM_KPR_MAP.TARGET_1, n), (FWM_KPR_MAP.ACTIVE_1, 1)] s
  | none => postEvent 2 n 23 [] s

/-- A keeper or understudy is retired until reset (R435). -/
def retireCore (i : Nat) (s : State) : State :=
  let h := coreHive i s
  let t := setCore i { coreOf i s with retired := true, restarting := false, waiting := false } s
  let t :=
    if i = 19 then put FWM_KPR_MAP.ACTIVE_0 0 t
    else if i = 20 then put FWM_KPR_MAP.ACTIVE_1 0 t
    else put FWM_KPR_MAP.RETIRED (setBit (rd FWM_KPR_MAP.RETIRED t) (i - 3)) t
  match h with
  | some n => takeOver n t
  | none => t

/-- A core fails: the failure is recorded and posted, and the core is restarted at once, after a delay, or retired (R433,
R435). (DESIGN CHOICE, log entry 63.) -/
def coreFail (i reason : Nat) (s : State) : State :=
  let c := coreOf i s
  if !corePresent i s || !released s || c.retired || c.waiting then s
  else
    let t := bump FWM_CORE_ERR.COUNT 1 (putAll [(FWM_CORE_ERR.CORE, i), (FWM_CORE_ERR.REASON, reason), (FWM_CORE_ERR.VALID, 1)] s)
    let t := coreDown i (postEvent 9 i reason [] t)
    if c.last.any fun l => decide (s.rounds < l + 1000) then
      if 3 ≤ i then retireCore i t
      else setCore i { c with waiting := true, restarting := false, ends := s.rounds + c.delay, delay := min 1000 (2 * c.delay) } t
    else coreLoad i (setCore i { c with delay := 10 } t)

/-- CORE_WATCHDOG_EXPIRY. -/
def coreWatchdog (i : Nat) (s : State) : State := coreFail i 1 s

/-- CORE_RESTART_DELAY_EXPIRY: the core whose delay ends is restarted. -/
def coreDelayEnd (i : Nat) (s : State) : State :=
  if (coreOf i s).waiting && decide ((coreOf i s).ends ≤ s.rounds) then coreLoad i s else s

/-- A core reports READY; the stage manager then takes up the context command that waited. -/
def coreUp (s : State) (i : Nat) : State :=
  let t := putReady i true (setCore i { coreOf i s with restarting := false } s)
  if i = 2 then runHeldCtx t else t

/-- The cores that were restarted before this round report READY. -/
def finishRestarts (s : State) : State :=
  ((List.range 21).filter fun i => (coreOf i s).restarting && !(coreOf i s).retired).foldl coreUp s

end Sys2Proof.Machine
end

