-- ==== Sys2Proof/Machine/Crypto.lean ====
section
/-! DEFINITION. The digests and signatures that the rules name: SHA-384 (FIPS 180-4), HMAC and HKDF over it (RFC 5869) and the
check of an ECDSA P-384 signature (FIPS 186-5). -/

namespace Sys2Proof.Machine

/-! ### SHA-384 -/

abbrev W64 := BitVec 64

/-- The largest r below 2 ^ n, above what is found so far, whose power k is at most x: bit by bit from the top. -/
def rootOf (k x : Nat) : Nat → Nat → Nat
  | 0, r => r
  | n + 1, r => rootOf k x n (if (r + 2 ^ n) ^ k ≤ x then r + 2 ^ n else r)

/-- The primes below 410: the first 80. -/
def smallPrimes : List Nat := (List.range 410).filter fun p => decide (2 ≤ p) && ((List.range 19).all fun d => p ≤ d + 2 || p % (d + 2) != 0)

/-- The first 64 bits of the fraction of the k-th root of p. -/
def rootFraction (k p : Nat) : W64 := BitVec.ofNat 64 (rootOf k (p * 2 ^ (64 * k)) 70 0)

/-- The round constants: the fractions of the cube roots of the first 80 primes (FIPS 180-4). -/
def shaK : List W64 := smallPrimes.map (rootFraction 3)

/-- The initial value of SHA-384: the fractions of the square roots of the 9th to the 16th prime. -/
def sha384Init : List W64 := ((smallPrimes.drop 8).take 8).map (rootFraction 2)

def rotr (x : W64) (n : Nat) : W64 := (x >>> n) ||| (x <<< (64 - n))

/-- Extend the message schedule, newest word first. -/
def shaExtend : Nat → List W64 → List W64
  | 0, w => w
  | n + 1, w =>
    let a := w.getD 1 0
    let b := w.getD 14 0
    let s1 := rotr a 19 ^^^ rotr a 61 ^^^ (a >>> 6)
    let s0 := rotr b 1 ^^^ rotr b 8 ^^^ (b >>> 7)
    shaExtend n ((s1 + w.getD 6 0 + s0 + w.getD 15 0) :: w)

/-- One round on the eight working words. -/
def shaRound (v : List W64) (kw : W64 × W64) : List W64 :=
  match v with
  | [a, b, c, d, e, f, g, h] =>
    let t1 := h + (rotr e 14 ^^^ rotr e 18 ^^^ rotr e 41) + ((e &&& f) ^^^ (~~~e &&& g)) + kw.1 + kw.2
    let t2 := (rotr a 28 ^^^ rotr a 34 ^^^ rotr a 39) + ((a &&& b) ^^^ (a &&& c) ^^^ (b &&& c))
    [t1 + t2, a, b, c, d + t1, e, f, g]
  | v => v

/-- Compress one block of sixteen words. -/
def shaBlock (h : List W64) (m : List W64) : List W64 :=
  let w := (shaExtend 64 m.reverse).reverse
  List.zipWith (· + ·) h ((shaK.zip w).foldl shaRound h)

/-- A big-endian 64-bit word of bytes. -/
def beWord (bs : List Byte) : W64 := BitVec.ofNat 64 (beNat bs)

/-- The words of a block of 128 bytes. -/
def shaWords (bs : List Byte) : List W64 := (List.range 16).map fun i => beWord (slice bs (8 * i) 8)

/-- Run over n blocks. -/
def shaBlocks : Nat → List W64 → List Byte → List W64
  | 0, h, _ => h
  | n + 1, h, bs => shaBlocks n (shaBlock h (shaWords (bs.take 128))) (bs.drop 128)

/-- The padded message. -/
def shaPad (bs : List Byte) : List Byte :=
  let z := (239 - bs.length % 128) % 128
  bs ++ [0x80] ++ zeros z ++ beBytes 16 (8 * bs.length)

/-- SHA-384 of bytes: 48 bytes. (PRESUMED, log entry 58.) -/
def sha384 (bs : List Byte) : List Byte :=
  let p := shaPad bs
  ((shaBlocks (p.length / 128) sha384Init p).flatMap fun w => beBytes 8 w.toNat).take 48

/-! ### HMAC and HKDF -/

/-- HMAC-SHA-384. -/
def hmac (key msg : List Byte) : List Byte :=
  let k := padTo 128 (if 128 < key.length then sha384 key else key)
  sha384 (k.map (fun b => b ^^^ 0x5C) ++ sha384 (k.map (fun b => b ^^^ 0x36) ++ msg))

/-- The expansion step of HKDF-SHA-384: n blocks of output. -/
def hkdfBlocks (prk info : List Byte) : Nat → Nat → List Byte → List Byte
  | 0, _, _ => []
  | n + 1, i, t =>
    let t := hmac prk (t ++ info ++ [BitVec.ofNat 8 i])
    t ++ hkdfBlocks prk info n (i + 1) t

/-- HKDF-SHA-384 (RFC 5869): len bytes of key from a salt and a secret under an info string. -/
def hkdf (salt secret info : List Byte) (len : Nat) : List Byte :=
  (hkdfBlocks (hmac (if salt.isEmpty then zeros 48 else salt) secret) info ((len + 47) / 48) 1 []).take len

/-! ### ECDSA P-384 -/

def p384 : Nat := 0xfffffffffffffffffffffffffffffffffffffffffffffffffffffffffffffffeffffffff0000000000000000ffffffff
def n384 : Nat := 0xffffffffffffffffffffffffffffffffffffffffffffffffc7634d81f4372ddf581a0db248b0a77aecec196accc52973
def b384 : Nat := 0xb3312fa7e23ee7e4988e056be3f82d19181d9c6efe8141120314088f5013875ac656398d8a2ed19d2a85c8edd3ec2aef
def gx384 : Nat := 0xaa87ca22be8b05378eb1c71ef320ad746e1d3b628ba79b9859f741e082542a385502f25dbf55296c3a545e3872760ab7
def gy384 : Nat := 0x3617de4a96262c6f5d9e98bf9292dc29f8f41dbd289a147ce9da3113b5f0b8c00a60b1ce1d7e819d7a431d7c90ea0e5f

/-- a to the power e modulo m, over n bits of the exponent. -/
def powMod (m : Nat) : Nat → Nat → Nat → Nat → Nat
  | 0, _, _, r => r
  | n + 1, a, e, r => powMod m n (a * a % m) (e / 2) (if e % 2 = 1 then r * a % m else r)

/-- The inverse modulo a prime. -/
def invMod (m a : Nat) : Nat := powMod m 384 (a % m) (m - 2) 1

def subMod (m a b : Nat) : Nat := (a + m - b % m) % m

/-- A point of the curve as X, Y and Z, standing for X / Z² and Y / Z³; none at infinity. -/
abbrev Pt := Option (Nat × Nat × Nat)

/-- Twice a point. -/
def ptDouble : Pt → Pt
  | none => none
  | some (x, y, z) =>
    if y = 0 then none
    else
      let d := z * z % p384
      let g := y * y % p384
      let b := x * g % p384
      let a := 3 * subMod p384 x d * (x + d) % p384
      let x3 := subMod p384 (a * a) (8 * b)
      some (x3, subMod p384 (a * subMod p384 (4 * b) x3) (8 * g * g), 2 * y * z % p384)

/-- The sum of two points. -/
def ptAdd : Pt → Pt → Pt
  | none, q => q
  | p, none => p
  | some (x1, y1, z1), some (x2, y2, z2) =>
    let a := z1 * z1 % p384
    let b := z2 * z2 % p384
    let u1 := x1 * b % p384
    let u2 := x2 * a % p384
    let s1 := y1 * b * z2 % p384
    let s2 := y2 * a * z1 % p384
    if u1 = u2 then (if s1 = s2 then ptDouble (some (x1, y1, z1)) else none)
    else
      let h := subMod p384 u2 u1
      let r := subMod p384 s2 s1
      let hh := h * h % p384
      let v := u1 * hh % p384
      let x3 := subMod p384 (r * r) (hh * h + 2 * v)
      some (x3, subMod p384 (r * subMod p384 v x3) (s1 * hh % p384 * h), h * z1 % p384 * z2 % p384)

/-- A multiple of a point, over n bits of the factor. -/
def ptMul : Nat → Nat → Pt → Pt → Pt
  | 0, _, _, r => r
  | n + 1, k, p, r => ptMul n (k / 2) (ptDouble p) (if k % 2 = 1 then ptAdd r p else r)

/-- The X coordinate that a point stands for. -/
def ptX (x z : Nat) : Nat := x * invMod p384 (z * z) % p384

/-- The public key of 97 bytes: 0x04, then X and Y. -/
def keyPoint (k : List Byte) : Option (Nat × Nat) :=
  let x := beNat (slice k 1 48)
  let y := beNat (slice k 49 48)
  if k.length = 97 ∧ k.headD 0 = 0x04 ∧ x < p384 ∧ y < p384 ∧ y * y % p384 = (x * x * x + (p384 - 3) * x + b384) % p384 then some (x, y)
  else none

/-- A signature of 96 bytes, R then S, over a digest. -/
def ecdsaOk (key digest sig : List Byte) : Bool :=
  match keyPoint key with
  | none => false
  | some q =>
    let r := beNat (slice sig 0 48)
    let s := beNat (slice sig 48 48)
    if sig.length ≠ 96 ∨ r = 0 ∨ n384 ≤ r ∨ s = 0 ∨ n384 ≤ s then false
    else
      let w := invMod n384 s
      let u1 := beNat digest * w % n384
      let u2 := r * w % n384
      match ptAdd (ptMul 384 u1 (some (gx384, gy384, 1)) none) (ptMul 384 u2 (some (q.1, q.2, 1)) none) with
      | none => false
      | some (x, _, z) => ptX x z % n384 == r

end Sys2Proof.Machine
end

