-- ==== Sys2Proof/Machine/Peer.lean ====
section
/-! DEFINITION. The peer port and the fabric windows (R382 to R406). -/

namespace Sys2Proof.Machine

open Reg

/-- The local address of an inbound request (R388). -/
def inAddr (w off : Nat) (s : State) : Nat :=
  rd (WIN_XLAT.LOCAL_BASE w) s * 2 ^ 20 + off - rd (WIN_OFF_BASE.BASE w) s * 2 ^ 20

/-- The first window or tree whose shadow values break R390. -/
def badWindow (s : State) : Option Nat :=
  (List.range 256).find? fun w =>
    let v := fun (f : Nat → Fld) => rdShadow (f w) s
    v WIN_CTL.VALID == 1 &&
      (decide (v WIN_OFF_LIMIT.LIMIT < v WIN_OFF_BASE.BASE) || decide (20 < v WIN_NODE.NODE_LOG2) ||
        (v WIN_CTL.DIR == 0 && decide (35 < v WIN_CTL.LINK)) ||
        (v WIN_CTL.DIR == 1 && (v WIN_CTL.DOMAIN == 0 ||
          decide (0x3FFFFF < v WIN_XLAT.LOCAL_BASE + v WIN_OFF_LIMIT.LIMIT - v WIN_OFF_BASE.BASE))))

def badTree (s : State) : Option Nat := (List.range 16).find? fun t => decide (8 < rdShadow (PEER_TREE_CFG.NCHILD t) s)

/-- The commit would change PEER_NODE_ID while requests, gather slots or contributions depend on it. -/
def nodeBusy (s : State) : Bool :=
  (rdShadow PEER_NODE_ID.NODE s != rd PEER_NODE_ID.NODE s || rdShadow PEER_NODE_ID.VALID s != rd PEER_NODE_ID.VALID s) &&
    (!s.peer.reqs.isEmpty || !s.peer.slots.isEmpty || !s.peer.staged.isEmpty)

/-- PP_READY rises when its conditions hold and the link is up (R384). -/
def ppOpen (s : State) : State :=
  let p := port 17 s
  if p.linkUp && !p.ready && !p.parityClosed && portsOpen s && peerPresent s && on PEER_NODE_ID.VALID s then
    put PEER_STATUS.READY 1 (openPort 17 { s with
      peer := { s.peer with rspInHdr := 0, rspInData := 0, rspDueHdr := 256, rspDueData := 512 } })
  else s

/-- WIN_COMMIT (R389, R390); while one shows BUSY, another is ignored and the running one reports OVERRUN (R522). -/
def winCommit (s : State) : State :=
  if !peerPresent s then s
  else
    let fin := fun (st e tree : Nat) (t : State) =>
      putAll [(WIN_COMMIT.STATUS, st), (WIN_COMMIT.ENTRY, e), (WIN_COMMIT.TREE, tree), (WIN_COMMIT.VALID, 0),
        (WIN_COMMIT.BUSY, 1)] t
    if on WIN_COMMIT.BUSY s then put WIN_COMMIT.STATUS 4 s
    else
    match badWindow s, badTree s with
    | some w, _ => fin 2 w 0 s
    | none, some t => fin 2 t 1 s
    | none, none =>
      if nodeBusy s then fin 3 0 0 s
      else
        let t := commitRange 0x50000 0x60000 s
        ppOpen (fin 1 0 0 (put WIN_GEN.GEN (if rd WIN_GEN.GEN t = 0xFFFF then 1 else rd WIN_GEN.GEN t + 1) t))

/-! ### Slots of the peer port (R63, R383, R385 to R387) -/

/-- The parity of a header slot, and of data, byte by byte (R39, R63). -/
def slotParity (w : BitVec 256) : BitVec 32 := BitVec.ofNat 32 (oddParity 32 w.toNat)
def bytesParity (d : List Byte) : List Bool := d.map fun b => !parity 8 b.toNat

/-- The header slot of an outbound request under a tag (R385, R386). -/
def reqSlotOf (tag : Nat) (r : PeerReq) (s : State) : BitVec 256 :=
  BitVec.ofNat 256 (packFields [(0, 4, r.opcode), (4, 1, b2n r.genChk), (8, 12, tag), (20, 6, r.beats - 1), (26, 4, r.hops), (32, 6, r.link),
    (40, 20, myNode s), (64, 20, r.node), (96, 42, r.offset), (144, 16, r.wgen), (192, 64, if r.opcode = 2 then r.byteEn else r.low)])

/-- The header slot of a response (R47, R387). -/
def rspSlotOf (r : PpRsp) : BitVec 256 :=
  respSlot r.rtype false (slotF r.slot 8 12) r.len 0 r.info ||| BitVec.ofNat 256 (packFields [(128, 6, slotF r.slot 32 6), (140, 20, r.node),
    (160, 20, slotF r.slot 40 20), (180, 4, r.freason), (184, 16, r.gen)])

/-- One cycle of the return of PP_RSP_IN credits (R52, R383). (DESIGN CHOICE, log entry 85.) -/
def rspCreditCycle (s : State) : State :=
  let p := s.peer
  let h := min 8 p.rspDueHdr
  let d := min 15 p.rspDueData
  if h = 0 && d = 0 then s
  else { s with
    peer := { p with rspInHdr := p.rspInHdr + h, rspInData := p.rspInData + d, rspDueHdr := p.rspDueHdr - h, rspDueData := p.rspDueData - d },
    out := { s.out with crd := s.out.crd ++ [(18, h, d)] } }

/-! ### The egress queue (R393) -/

/-- Data flits of an outbound request. -/
def reqFlits (r : PeerReq) : Nat := if r.opcode = 1 then 0 else (r.beats + 3) / 4

def outstandingOf (src : Nat) (s : State) : Nat := (s.peer.reqs.filter fun x => x.2.source == src).length

/-- A free outbound tag. -/
def peerTag (s : State) : Option Nat :=
  if 4095 ≤ s.peer.reqs.length + s.peer.quarantine.length then none
  else (List.range 4095).find? fun t => (mfind s.peer.reqs t).isNone && !s.peer.quarantine.contains t

/-- The request can leave now. -/
def canSend (r : PeerReq) (s : State) : Bool :=
  decide (0 < s.peer.hdrCredit) && decide (reqFlits r ≤ s.peer.dataCredit)

/-- The first request that may leave: forwarded packets first, then the first of a source that has allowance left. None that waits
blocks another source (R393). -/
def nextOut (s : State) : Option (PeerReq × Peer) :=
  let p := s.peer
  match p.fwd.filter (canSend · s) with
  | r :: _ => some (r, { p with fwd := p.fwd.erase r })
  | [] =>
    let ok := fun (r : PeerReq) => decide (outstandingOf r.source s < max 1 (rd PEER_CFG.SRC_MAX s)) && canSend r s
    let heads := p.queue.filter fun r => (p.queue.find? fun x => x.source == r.source) == some r
    match heads.find? ok with
    | some r => some (r, { p with queue := p.queue.erase r })
    | none => none

/-- An outbound request as PP_REQ_OUT carries it. -/
def reqOut (tag : Nat) (r : PeerReq) (s : State) : PpOut :=
  let d := if r.opcode = 1 then [] else r.data
  .request (reqSlotOf tag r s) (slotParity (reqSlotOf tag r s)) d (bytesParity d)

/-- Send outbound requests while tags, allowances and credits last. (DESIGN CHOICE, log entry 51.) -/
def pumpPeer : Nat → State → State
  | 0, s => s
  | n + 1, s =>
    if !ppReady s then s
    else
      match nextOut s, peerTag s with
      | some (r, p), some t =>
        let r := { r with got := [] }
        let q := { p with
          reqs := mset p.reqs t r, hdrCredit := p.hdrCredit - 1, dataCredit := p.dataCredit - reqFlits r }
        pumpPeer n (emit 0x602 (64 * (if r.opcode = 1 then 0 else r.beats)) none none none none
          (emit 0x600 1 none none none none { s with peer := q, out := { s.out with pp := s.out.pp ++ [reqOut t r s] } }))
      | _, _ => s

/-- Responses of PP go out while it is ready, or closed by a parity error (R60). -/
def ppAnswers (s : State) : Bool := answers (port 17 s)

/-- Send responses while PP_RSP_OUT credits last. -/
def pumpRsp : Nat → State → State
  | 0, s => s
  | n + 1, s =>
    match s.peer.egress with
    | [] => s
    | r :: es =>
      let p := port 17 s
      let flits := (r.data.length + 255) / 256
      if p.rspHdr = 0 || p.rspData < flits then s
      else
        let t := setPort 17 { p with rspHdr := p.rspHdr - 1, rspData := p.rspData - flits } s
        pumpRsp n { t with
          peer := { t.peer with egress := es },
          out := { t.out with pp := t.out.pp ++ [.response (rspSlotOf r) (slotParity (rspSlotOf r)) r.data (bytesParity r.data)] } }

/-- Send what PP can send. -/
def pumpPp (s : State) : State := pumpRsp 4096 (pumpPeer 4096 s)

/-- Put an outbound request into the egress queue. -/
def sendPeer (r : PeerReq) (s : State) : State := pumpPp { s with peer := { s.peer with queue := s.peer.queue ++ [r] } }

/-! ### Outbound requests (R392) -/

/-- A local request into the peer range is refused: recorded and answered (R99, R392). -/
def peerRefused (r : Req) (window : Bool) (s : State) : State :=
  let t := recordFault r.ctx (faultSrc r) (r.op != .rd) window (firstByte r) s
  match r.src with
  | .unit _ => arrive ⟨r, [], true, if window then .window r.addr else .access r.addr⟩ t
  | _ => answerPort r (if window then rtWindow else rtAccess) r.addr t

/-- PEER_OUTBOUND_REQUEST: the oldest matched request of requester m enters the egress queue, or is answered (R392). -/
def peerOutbound (m : Nat) (s : State) : State :=
  match s.peer.inbox.find? fun x => x.1.m == m with
  | none => s
  | some x =>
    let t := { s with peer := { s.peer with inbox := s.peer.inbox.erase x } }
    match x.2 with
    | .fault window => peerRefused x.1 window t
    | .ok q =>
      if !ppReady s then peerSilent x.1 t
      else if unitReq x.1 then sendPeer q t
      else sendPeer q { t with live := mset t.live x.1.uid ⟨x.1, [], 0, [], 0, false, false⟩ }

/-! ### Inbound requests (R385, R386, R395, R396) -/

/-- The reason of FORMAT_ERR of a received slot, or 0. -/
def ppFormat (w : BitVec 256) : Nat :=
  let op := slotF w 0 4
  let z := fun lo n => slotF w lo n == 0
  let ext : Bool := match op with
    | 2 => true
    | 3 => slotF w 224 2 ≤ 1 && slotF w 226 2 ≤ 2 && z 228 28
    | 4 => z 196 60
    | _ => z 192 64
  if 6 ≤ op then 1
  else if slotF w 96 6 ≠ 0 then 3
  else if op = 2 && slotF w 192 64 ≠ 2 ^ 64 - 1 && slotF w 20 6 ≠ 0 then 4
  else if !(z 5 3 && z 30 2 && decide (slotF w 32 6 < 36) && z 38 2 && z 60 4 && z 84 12 && z 138 6 && z 160 32 && ext) ||
      (op ≠ 4 && slotF w 26 4 ≠ 0) || (op = 4 && slotF w 26 4 = 0) then 5
  else 0

def ppBeats (w : BitVec 256) : Nat := slotF w 20 6 + 1
def ppSrc (w : BitVec 256) : Nat := slotF w 40 20
def ppOff (w : BitVec 256) : Nat := slotF w 96 42

/-- The peer-range address as the sender named it (R387). -/
def ppAddr (w : BitVec 256) : Nat := ppOff w + slotF w 64 20 * 2 ^ 42 + 2 ^ 63

/-- Answer a received request without data. -/
def ppAnswer (w : BitVec 256) (rt info fr : Nat) (s : State) : State :=
  ppRespond w rt 0 info fr (myNode s) (rd WIN_GEN.GEN s) [] s

/-- A received request fails with WINDOW_FAULT or ACCESS_FAULT: recorded and counted (R395). What is recorded is the peer-range address,
as for every fault that is found before the address is translated. (DESIGN CHOICE, log entry 88.) -/
def ppFault (w : BitVec 256) (window : Bool) (fr : Nat) (s : State) : State :=
  let t := recordFault 0 17 (slotF w 0 4 != 1) window (ppAddr w) s
  let t := emit 0x604 1 none none none none (bump WIN_STATUS.FAULTS_IN 1 t)
  ppAnswer w (if window then rtWindow else rtAccess) (ppAddr w) fr t

/-- Checks 1 to 6 of R395, then the continuation with the matched window (none for RELAY). -/
def ppCheck (w : BitVec 256) (s : State) (k : Option Nat → State → State) : State :=
  let f := ppFormat w
  if f ≠ 0 then ppAnswer w rtFormat f 0 s
  else if slotF w 64 20 ≠ myNode s then ppFault w true 4 s
  else if slotF w 0 4 = 5 then (if on PEER_CFG.RELAY_EN s then k none s else ppFault w true 7 s)
  else if slotF w 4 1 = 1 && slotF w 144 16 ≠ rd WIN_GEN.GEN s then ppFault w true 3 s
  else
    match winMatch 1 (ppSrc w) (ppOff w) (ppBeats w) s with
    | none => ppFault w true 1 s
    | some x => if on (kindField (slotF w 0 4) x) s then k (some x) s else ppFault w true 2 s

/-- Identities of inbound requests that have not completed. -/
def inboundLive (u : Nat) (s : State) : Bool :=
  (mfind s.live u).any (fun l => !l.answered) || (port 17 s).ing.any (fun r => r.uid == u) || s.peer.bcasts.any fun b => b.uid == u

/-- Forget the generations of completed inbound requests. -/
def trimGen (s : State) : State := { s with peer := { s.peer with inGen := mkeep s.peer.inGen fun u => inboundLive u s } }

/-- The bytes of a received request as beats. -/
def beatsOf : Nat → List Byte → List Beat
  | 0, _ => []
  | n + 1, d => beatOf (d.take 64) :: beatsOf n (d.drop 64)

/-- A permitted request is performed at its translated address as requester 17 (R396). -/
def ppPerform (w : BitVec 256) (op : Op) (x : Nat) (d : List Byte) (s : State) : State :=
  let u := s.nextUid
  let n := ppBeats w
  let be := if slotF w 0 4 = 2 then slotF w 192 64 else 2 ^ 64 - 1
  let r : Req := ⟨u, 17, .pp w, op, slotF w 8 12, n, 0, 0, inAddr x (ppOff w) s, be, false,
    (if op == .wr then beatsOf n d else []), 0, false, rd QOS_CFG.PEER_CLASS s, 0, false, rd (WIN_CTL.DOMAIN x) s, 0, s.fclk⟩
  let t := trimGen s
  waitIngress 17 r { t with
    nextUid := u + 1,
    peer := { t.peer with inGen := mset t.peer.inGen u (rd WIN_GEN.GEN s) } }

/-- A header slot of PP fails parity: the port closes as a compute port does (R60, R63). (DEDUCED, log entry 94.) -/
def ppParityClose (s : State) : State := put PEER_STATUS.READY 0 (closeByParity 17 s)

/-- The data that a received request carries. -/
def ppFlits (w : BitVec 256) : Nat := if slotF w 0 4 = 1 || 6 ≤ slotF w 0 4 then 0 else flitsOf (ppBeats w)

/-- A received packet with its parity bits: a header slot, and the bytes that follow it. -/
structure PpIn where
  slot : BitVec 256
  par : BitVec 32
  data : List Byte
  dpar : List Bool
  deriving DecidableEq, Repr

/-- The bytes of a packet met no parity error (R39). -/
def dataOk (x : PpIn) : Bool := x.dpar == bytesParity x.data

/-- A slot arrives on PP_REQ_IN with the opcode of its command, or a reserved one (R58, R63, R383). It takes its credits, which go back
once the block has dealt with it; those of a request that waits at ingress go back when it leaves (R52). -/
def ppArrive (op : Nat) (x : PpIn) (s : State) (k : State → State) : State :=
  let w := x.slot
  if slotF w 0 4 ≠ op && slotF w 0 4 < 6 then s
  else
    let p := port 17 s
    let flits := ppFlits w
    if !p.ready then (if peerPresent s then portErr (ARB_PORT_ERR.NOT_READY 17) s else s)
    else if slotParity w ≠ x.par then ppParityClose s
    else if p.reqHdr = 0 || p.reqData < flits then portErr (ARB_PORT_ERR.NOCREDIT 17) s
    else
      let t := setPort 17 { p with reqHdr := p.reqHdr - 1, reqData := p.reqData - flits } s
      let t := emit 0x603 (256 * flits) none none none none (emit 0x601 1 none none none none t)
      let n := t.nextUid
      let u := if op ≠ 1 && ppFormat w = 0 && !dataOk x then
          ppAnswer w rtPoison (ones (ppBeats w)) 0 (portErr (ARB_PORT_ERR.DATA_PARITY 17) t)
        else k t
      pumpPp (if (port 17 u).ing.any fun r => decide (n ≤ r.uid) then u else oweCredits 17 1 flits u)

/-- PP_IN_RD. -/
def ppInRead (x : PpIn) (s : State) : State :=
  ppArrive 1 x s fun t => ppCheck x.slot t fun i u => match i with | some i => ppPerform x.slot .rd i [] u | none => u

/-- PP_IN_WR. -/
def ppInWrite (x : PpIn) (s : State) : State :=
  ppArrive 2 x s fun t => ppCheck x.slot t fun i u => match i with | some i => ppPerform x.slot .wr i x.data u | none => u

/-! ### Remote reduction (R400 to R403) -/

/-- The size of the staging area in bytes. -/
def stageSize (s : State) : Nat := min (rd PEER_RED_CFG.STAGE_MIB s) (fwReserve s / 4) * 2 ^ 20

def stageUsed (s : State) : Nat := s.peer.staged.foldl (fun k c => k + c.data.length) 0

/-- The job has ended with a status other than OK, its record not yet written. -/
def endedBadly (j : Nat) (s : State) : Bool := (mfind s.jobs j).any fun v => v.status != 0 && (v.done || v.timedOut)

/-- The open slot that takes packets of a round: those of a job that has ended badly become orphans (R401, R403). -/
def slotRound (r : Nat) (s : State) : Option GatherSlot := s.peer.slots.find? fun g => g.round == r && !endedBadly g.job s

/-- The source nodes that have delivered bytes of a round to its slot. -/
def roundNodes (r : Nat) (l : List Contribution) : List Nat := ((l.filter fun c => c.round == r && !c.orphan).map fun c => c.node).eraseDups

/-- A contribution breaks the range, operation or type of a slot. -/
def breaksSlot (g : GatherSlot) (c : Contribution) : Bool :=
  decide (c.addr < g.dst) || decide (g.dst + g.len < c.addr + c.data.length) || c.rop != g.op || c.etype != g.etype

/-- FREASON of a refused contribution, or 0 (R401). -/
def stageRefusal (c : Contribution) (s : State) : Nat :=
  let dup := s.peer.staged.any fun y => y.round == c.round && y.node == c.node && decide (y.addr < c.addr + c.data.length) &&
    decide (c.addr < y.addr + y.data.length)
  let full := match slotRound c.round s with
    | none => false
    | some g =>
      let ns := roundNodes c.round s.peer.staged
      breaksSlot g c || (!ns.contains c.node && decide (g.count ≤ ns.length))
  if dup || full then 5 else if stageSize s < stageUsed s + c.data.length then 6 else 0

/-- PP_IN_RED. -/
def ppInReduce (p : PpIn) (s : State) : State :=
  let w := p.slot
  let d := p.data
  ppArrive 3 p s fun t => ppCheck w t fun x u =>
    match x with
    | none => u
    | some i =>
      let a := inAddr i (ppOff w) u
      let n := ppBeats w
      let c : Contribution := ⟨slotF w 192 32, ppSrc w, a, slotF w 224 2, slotF w 226 2, (slotRound (slotF w 192 32) u).isNone, padTo (64 * n) d, u.rounds⟩
      if !permitted (rd (WIN_CTL.DOMAIN i) u) true a n u then ppFault w false 0 u
      else
        match stageRefusal c u with
        | 0 =>
          let u := fwWrite .staging (stageUsed u) c.data u
          ppAnswer w rtWrAck 0 0 { u with peer := { u.peer with staged := u.peer.staged ++ [c] } }
        | fr => ppFault w true fr (bump PEER_RED_STAT.REFUSED 1 u)

/-- A slot claims the orphans of its round: those that break it are discarded, and those of more than COUNT nodes. -/
def claimOrphans (g : GatherSlot) (l : List Contribution) : List Contribution :=
  l.foldl (fun acc c =>
    if c.round != g.round || !c.orphan then acc ++ [c]
    else
      let ns := roundNodes g.round acc
      if breaksSlot g c || (!ns.contains c.node && decide (g.count ≤ ns.length)) then acc else acc ++ [{ c with orphan := false }]) []

/-- Open a gather slot for a job (R400): it waits while 16 are open or its round is. -/
def openSlot (g : GatherSlot) (s : State) : Option State :=
  if 16 ≤ s.peer.slots.length || s.peer.slots.any (fun x => x.round == g.round) then none
  else some { s with peer := { s.peer with slots := s.peer.slots ++ [g], staged := claimOrphans g s.peer.staged } }

/-- A GATHER job that ends with a status other than OK loses the contributions staged for it (R403). -/
def discardRound (j : Nat) (s : State) : State :=
  match s.peer.slots.find? fun g => g.job == j with
  | none => s
  | some g =>
    if !endedBadly j s then s
    else { s with peer := { s.peer with staged := s.peer.staged.filter fun c => c.orphan || c.round != g.round } }

/-- Close the slot of a job that has ended and drop what it staged (R400, R402, R403). -/
def closeSlot (j : Nat) (s : State) : State :=
  match s.peer.slots.find? fun g => g.job == j with
  | none => s
  | some g =>
    { s with peer := { s.peer with
      slots := s.peer.slots.filter fun x => x.job != j,
      staged := s.peer.staged.filter fun c => c.orphan || c.round != g.round } }

/-- The operand of a node at a byte address, if it has delivered it. -/
def operandAt (r node a w : Nat) (s : State) : Option Nat :=
  (s.peer.staged.find? fun c => c.round == r && c.node == node && !c.orphan && decide (c.addr ≤ a) && decide (a + w ≤ c.addr + c.data.length)).map
    fun c => leAt c.data (a - c.addr) w

/-- Every one of COUNT nodes has delivered every byte (R402). -/
def roundComplete (g : GatherSlot) (s : State) : Bool :=
  let ns := roundNodes g.round s.peer.staged
  decide (g.count ≤ ns.length) && ns.all fun n =>
    (List.range (g.len / 64)).all fun i => (operandAt g.round n (g.dst + 64 * i) 64 s).isSome

/-- Insert a node with its operand in ascending node order. -/
def insertNode (l : List (Nat × Nat)) (x : Nat × Nat) : List (Nat × Nat) :=
  l.takeWhile (fun y => decide (y.1 ≤ x.1)) ++ [x] ++ l.dropWhile (fun y => decide (y.1 ≤ x.1))

/-- Combine one element over the nodes in ascending order, with the flags of the value written: OVF and SAT of every step, NAN and
INF of the last (R130, R132, R402). (DEDUCED, log entry 51.) -/
def combine (op etype : Nat) (l : List (Nat × Nat)) : Nat × Nat :=
  match l with
  | [] => (0, 0)
  | x :: xs => xs.foldl (fun a y =>
    let v := reduceElem op etype a.1 y.2
    (v.1, v.2 ||| (a.2 &&& 0xC))) (x.2, 0)

/-- The combined bytes of a round from the local contents, and the flags of what is written. -/
def combineRound (g : GatherSlot) (old : List Byte) (s : State) : List Byte × Nat :=
  let w := if g.etype = 2 then 2 else 4
  let ns := roundNodes g.round s.peer.staged
  (List.range (g.len / w)).foldl (fun acc i =>
    let a := g.dst + w * i
    let ops := (ns.filterMap fun n => (operandAt g.round n a w s).map fun v => (n, v)).foldl insertNode [(myNode s, leAt old (w * i) w)]
    let v := combine g.op g.etype ops
    (acc.1 ++ leBytes w v.1, acc.2 ||| v.2)) ([], 0)

/-- An orphan of a round that was not claimed within ORPHAN_MS; 0 acts as 1 (R403, R407). -/
def orphanOld (r : Nat) (s : State) (c : Contribution) : Bool :=
  c.orphan && c.round == r && decide (max 1 (rd PEER_RED_CFG.ORPHAN_MS s) ≤ s.rounds - c.since)

/-- Orphan contributions not claimed within ORPHAN_MS are discarded and counted (ORPHAN_EXPIRY, R403). -/
def orphanExpiry (r : Nat) (s : State) : State :=
  let gone := s.peer.staged.filter (orphanOld r s)
  bump PEER_RED_STAT.ORPHANS gone.length { s with peer := { s.peer with staged := s.peer.staged.filter fun c => !orphanOld r s c } }

/-! ### Broadcast (R404, R405) -/

/-- The children of tree t. -/
def children (t : Nat) (s : State) : List Nat := (List.range (min 8 (rd (PEER_TREE_CFG.NCHILD t) s))).map fun i => rd (PEER_TREE_CHILD.NODE t i) s

/-- A forwarded copy has failed: the first failure stays. -/
def bcastFail (u : Nat) (f : Nat × Nat × Nat) (s : State) : State :=
  { s with peer := { s.peer with bcasts := s.peer.bcasts.map fun b =>
    if b.uid = u then { b with left := b.left - 1, failed := some (b.failed.getD f) } else b } }

/-- Forward a packet to a child with HOPS - 1 (R405); a copy that this node's windows refuse is recorded (R99). -/
def forwardTo (u : Nat) (w : BitVec 256) (d : List Byte) (dom : Nat) (s : State) (child : Nat) : State :=
  let record := fun (window : Bool) => recordFault 0 17 true window (2 ^ 63 + child * 2 ^ 42 + ppOff w) s
  match outMatch dom 4 child (ppOff w) (ppBeats w) s with
  | .noWindow => bcastFail u (rtWindow, myNode s, 1) (record true)
  | .noAccess => bcastFail u (rtAccess, myNode s, 0) (record false)
  | .ok link chk wgen =>
    let r := peerReq (.bcast u) 17 4 link child (ppOff w) (ppBeats w) chk wgen (slotF w 192 4) (slotF w 26 4 - 1) d s
    pumpPp { s with peer := { s.peer with fwd := s.peer.fwd ++ [r] } }

/-- PP_IN_BCAST: the packet is written locally and forwarded to the children of this node's tree; one that R96 does not permit is neither written nor forwarded (R395). -/
def ppInBroadcast (p : PpIn) (s : State) : State :=
  let w := p.slot
  ppArrive 4 p s fun t => ppCheck w t fun x v =>
    match x with
    | none => v
    | some i =>
      if !permitted (rd (WIN_CTL.DOMAIN i) v) true (inAddr i (ppOff w) v) (ppBeats w) v then ppFault w false 0 v
      else
      let u := v.nextUid
      let d := padTo (64 * ppBeats w) p.data
      let kids := if 2 ≤ slotF w 26 4 then children (slotF w 192 4) v else []
      let v1 := ppPerform w .wr i d v
      let v2 := { v1 with peer := { v1.peer with bcasts := v1.peer.bcasts ++ [⟨u, w, rd WIN_GEN.GEN v, false, kids.length, none⟩] } }
      kids.foldl (forwardTo u w d (rd (WIN_CTL.DOMAIN i) v)) v2

/-- BCAST_ACK: the local write is visible and every forwarded copy has been acknowledged or has failed (R405). -/
def bcastAck (u : Nat) (s : State) : State :=
  match s.peer.bcasts.find? fun b => b.uid == u with
  | none => s
  | some b =>
    if !b.wrote || b.left ≠ 0 then s
    else
      let t := { s with peer := { s.peer with bcasts := s.peer.bcasts.filter fun x => x.uid != u } }
      pumpPp (trimGen (match b.failed with
        | none => ppRespond b.slot rtWrAck 0 0 0 (myNode s) b.gen [] t
        | some (rt, node, fr) =>
          ppRespond b.slot rt 0 (if rt = rtPoison then ones (ppBeats b.slot) else ppAddr b.slot) fr node b.gen [] t))

/-- PP_IN_NOP: an empty slot (R386). -/
def ppInEmpty (par : BitVec 32) (w : BitVec 256) (s : State) : State :=
  if (port 17 s).ready && slotParity w != par && slotF w 0 4 == 0 then ppParityClose s else s

/-! ### Link and credits (R383, R384, R59) -/

/-- PP_LINK_DOWN: PP_READY falls; ungranted inbound requests and waiting responses are discarded. -/
def ppLinkLost (s : State) : State :=
  let t := dropUngranted 17 s
  let gone := (port 17 s).ing.map fun r => r.uid
  let t := setPort 17 Port.init { t with peer := { t.peer with
    egress := [], hdrCredit := 0, dataCredit := 0, rspInHdr := 0, rspInData := 0, rspDueHdr := 0, rspDueData := 0, bcasts := t.peer.bcasts.filter fun b => !gone.contains b.uid } }
  trimGen (put PEER_STATUS.READY 0 t)

/-- PP_READY_RISE: PP_LINK_UP is high; PP_READY rises if the ports are open and the node ID is set, and the drain is over. -/
def ppReadyRise (s : State) : State :=
  if !peerPresent s then s
  else
    let t := setPort 17 { port 17 s with linkUp := true } s
    if t.live.any fun x => x.2.req.m == 17 && !x.2.answered then t else ppOpen t

/-- PP_CREDIT_RETURN: the hub returns credits of PP_REQ_OUT and PP_RSP_OUT. -/
def ppCredits (reqHdr reqData rspHdr rspData : Nat) (s : State) : State :=
  if !ppAnswers s then s
  else
    let p := port 17 s
    let t := setPort 17 { p with rspHdr := p.rspHdr + rspHdr, rspData := p.rspData + rspData } s
    pumpPp { t with peer := { t.peer with hdrCredit := t.peer.hdrCredit + reqHdr, dataCredit := t.peer.dataCredit + reqData } }

/-! ### PEER_TIMEOUT (R398) -/

/-- PP_RETRY_BOUND; 0 acts as 65,535 (R65). -/
def retryBound (s : State) : Nat := if s.env.ppRetryBound = 0 then 65535 else s.env.ppRetryBound

/-- PEER_TIMEOUT_WRITE. -/
def peerTimeoutSet (v : Nat) (s : State) : State :=
  let us := v % 2 ^ 20
  if !peerPresent s then s
  else if us < 50 || us ≤ retryBound s then put PEER_STATUS.TMO_REFUSED 1 s else put PEER_TIMEOUT.US us s

/-! ### What registers show (R391, R401, R407) -/

/-- Bring the counts that registers show up to date. -/
def peerShow (s : State) : State :=
  let g := rd WIN_GEN.GEN s
  let old := (s.peer.reqs.filter fun x => x.2.gen != g).length + ((s.peer.queue ++ s.peer.fwd).filter fun r => r.gen != g).length +
    (s.peer.inGen.filter fun x => x.2 != g && inboundLive x.1 s).length
  putAll [(WIN_STATUS.OLD_INFLIGHT, min 65535 old), (PEER_STATUS.OUTSTANDING, s.peer.reqs.length),
    (PEER_RED_USED.KIB, (stageUsed s + 1023) / 1024), (PEER_RED_USED.SLOTS, s.peer.slots.length)] s

end Sys2Proof.Machine
end

