-- ==== Sys2Proof/Machine/Jobs.lean ====
section
/-! DEFINITION. Jobs (R182 to R200, R204): start and descriptor checks, NOP, COPY, FILL_RANGE, PEER_REDUCE and BROADCAST, their
completions through HP and PP, the done report, the timer and the completion record. -/

namespace Sys2Proof.Machine

open Reg

/-! ### Descriptor checks (R185, R186, R187, R190) -/

/-- The bits of words 6 to 15 that a type uses. -/
def usedBits (t i : Nat) : Nat :=
  let all := 2 ^ 32 - 1
  match t, i with
  | 2, 8 => all
  | 2, 9 => all
  | 3, 6 => 0x3F07FF
  | 4, 6 => 0x3F07FF
  | 4, 14 => 2 ^ 25 - 1
  | 5, 8 => 0x1F
  | 5, 9 => 0xFFFFF
  | 5, 10 => all
  | 6, 8 => 0xF
  | t, i => if (t = 3 ∨ t = 4) ∧ 8 ≤ i ∧ i ≤ 13 then all else 0

def isCue (j : Job) : Bool := jType j == 3 || jType j == 4

def jGather (j : Job) : Bool := jType j == 5 && (jWord j 8).testBit 0

/-- A reserved field is not zero, or a field holds a reserved code (reason 2). (DEDUCED, log entry 37.) -/
def badReserved (j : Job) : Bool :=
  bits (jWord j 0) 11 5 != 0 || bits (jWord j 1) 24 8 != 0 ||
    ((List.range 16).any fun i => decide ((if isCue j then 6 else 8) ≤ i) && (jWord j i &&& (2 ^ 32 - 1 - usedBits (jType j) i)) != 0) ||
    (isCue j && decide (4 < jSpan j)) ||
    (jType j == 5 && (decide (1 < bits (jWord j 8) 1 2) || bits (jWord j 8) 3 2 == 3))

/-- An address or length is not aligned to 64 bytes (reason 3). -/
def badAlign (j : Job) : Bool :=
  let a := jSrc j % 64 != 0
  let b := jDst j % 64 != 0
  let n := jLen j % 64 != 0
  match jType j with
  | 1 => a || b || n
  | 2 => b || n
  | 3 => a || b || jWide j 8 % 64 != 0
  | 4 => a || b || jWide j 8 % 64 != 0
  | 5 => (!jGather j && a) || b || n
  | 6 => a || b || n
  | _ => false

/-- The ranges of a COPY overlap in one space (reason 4). -/
def badOverlap (j : Job) : Bool :=
  jType j == 1 && jSrcSpace j == jDstSpace j && decide (0 < jLen j) && decide (jSrc j < jDst j + jLen j) && decide (jDst j < jSrc j + jLen j)

/-- A space code, or an address in the wrong space (reason 6). The reserved space codes 2 and 3 count here and not as reserved codes of
reason 2. (DEDUCED, log entry 36.) -/
def badSpace (hostEn : Bool) (top : Nat) (j : Job) : Bool :=
  let ss := jSrcSpace j
  let ds := jDstSpace j
  let devOnly : Bool := match jType j with
    | 2 => ds == 1
    | 3 => ss == 1
    | 4 => ss == 1
    | 5 => ss == 1 || ds == 1
    | _ => false
  let local_ := fun a => decide (a < top)
  decide (1 < ss) || decide (1 < ds) || ((ss == 1 || ds == 1) && !hostEn) || (jType j == 1 && ss == 1 && ds == 1) || devOnly ||
    (jType j == 5 && (if jGather j then !local_ (jDst j) else !local_ (jSrc j) || !inPeerRange (jDst j)))

/-- A length or count out of range (reason 7). -/
def badLength (j : Job) : Bool :=
  ((jType j == 1 || jType j == 2) && decide (2 ^ 42 < jLen j)) ||
    (isCue j && (jProgLen j == 0 || decide (1024 < jProgLen j))) ||
    (jType j == 4 && (bits (jWord j 14) 0 25 == 0 || decide (2 ^ 24 < bits (jWord j 14) 0 25))) ||
    (jGather j && bits (jWord j 9) 0 20 == 0)

/-- The lowest reason code that applies, or 0. -/
def badReason (hostEn : Bool) (top : Nat) (j : Job) : Nat :=
  if badReserved j then 2
  else if badAlign j then 3
  else if badOverlap j then 4
  else if jTimeout j ≠ 0 && jTimeout j < 20 then 5
  else if badSpace hostEn top j then 6
  else if badLength j then 7
  else 0

/-! ### Starting (R182, R194, R196) -/

/-- Entries of the ledger that have not been released (R477, R479). -/
def ledgerUsed (s : State) : Nat :=
  (s.audit.batches.map fun b => b.2.2.1 + 1 - max b.2.1 s.audit.released).foldl (· + ·) s.audit.entries.length

/-- The ledger buffer is full (R477). -/
def ledgerFull (s : State) : Bool := decide (1048576 ≤ ledgerUsed s)

/-- Jobs of a context whose record has not been written. -/
def recordsDue (x : Nat) (s : State) : Nat := inflight x s

/-- A job with its units' work finished. -/
def finishWork (j : Nat) (s : State) : State :=
  match mfind s.jobs j with
  | some v => setJob j { v with waitRecord := true } s
  | none => s

/-- A job of a context whose descriptor is refused is not issued to units: no timer runs for it (R196). -/
def refuseJob (j status info : Nat) (s : State) : State :=
  match mfind s.jobs j with
  | some v => finishWork j (failJob j status info (setJob j { v with started := false } s))
  | none => s

/-- The conditions of R182 for the first fetched descriptor. -/
def mayStart (x : Nat) (c : Ctx) (v : Job) (s : State) : Bool :=
  let n := recordsDue x s
  decide (n < cInflight c) && decide (ringDist (cCplLog c) c.cplHead c.cplTail + n < 2 ^ cCplLog c) &&
    (!((jWord v 0).testBit 9) || n == 0) &&
    !(jAudit v && cAuditEn c && !on LCS_AUDIT_CFG.FULL_POLICY s && ledgerFull s)

/-- JOB_START: the next fetched descriptor of a context starts (R182), after the checks of R187. -/
def jobStart (x : Nat) (s : State) : State :=
  let c := ctxOf x s
  match c.fetched with
  | [] => s
  | f :: rest =>
    let v := Job.start x f.index f.words c.words (cHome c) (cClass c) (cDomain c) s.fclk
    if c.state != .opened || ctxAway x s || !portsOpen s || !coreReady 2 s then s
    else if !mayStart x c v s then
      (if jAudit v && cAuditEn c && !on LCS_AUDIT_CFG.FULL_POLICY s && ledgerFull s then put LCS_AUDIT_STATUS.HELD 1 s else s)
    else
      let j := s.nextJob
      let t := setCtx x { c with head := (c.head + 1) % 2 ^ (cDescLog c + 1), fetched := rest } s
      let t := { setJob j v t with nextJob := j + 1 }
      let t := emit 0x701 1 none (some v.home) (some v.cls) none t
      let bad := badReason (cHostEn c) (usableTop s) v
      if 6 < jType v then refuseJob j stBadDesc 1 t
      else if 5 ≤ jType v && !peerPresent s then refuseJob j stUnitAbsent 0 t
      else if bad ≠ 0 then refuseJob j stBadDesc bad t
      else t

/-- A job of a type that has started, is not stopped and has not begun its work. -/
def ready (j type : Nat) (s : State) : Option Job :=
  match mfind s.jobs j with
  | some v => if v.started && !v.stopped && !v.waitRecord && v.pos == 0 && v.outstanding == 0 && jType v == type then some v else none
  | none => none

/-- A parity error at the work of a job of a type (R362). -/
def parityOf (p : Parity) (j type : Nat) (s : State) : State := if (ready j type s).isSome then meetParity p j s else s

/-- JOB NOP. -/
def jobNop (j : Nat) (s : State) : State :=
  match ready j 0 s with
  | some _ => finishWork j s
  | none => s

/-! ### Moving data (R27, R186, R197) -/

/-- Where bytes of a job go or come from. -/
inductive Space where
  | device | peer | host
  deriving DecidableEq, Repr

def spaceOf (code a : Nat) : Space := if code = 1 then .host else if inPeerRange a then .peer else .device

/-- Put bytes into a list at a position. -/
def overlay (l : List Byte) (pos : Nat) (d : List Byte) : List Byte := padTo pos l ++ d ++ l.drop (pos + d.length)

/-- Bytes of an audited COPY join the digest input (R204). -/
def digestAt (j pos : Nat) (d : List Byte) (s : State) : State :=
  match mfind s.jobs j with
  | some v => if jAudit v then setJob j { v with bytes := overlay v.bytes pos d } s else s
  | none => s

/-- The bytes of an access that lie in its 4 KiB page: no access of a job crosses one. (DESIGN CHOICE, log entry 90.) -/
def pageRoom (a : Nat) : Nat := 4096 - a % 4096

/-- The piece of a transfer at the job's position: what is left, within a page at each of its addresses. -/
def pieceAt (v : Job) (as : List Nat) : Nat := as.foldl (fun n a => min n (pageRoom (a + v.pos))) (jLen v - v.pos)

/-- Ask for bytes of a job's source: from the host, or on its lane from device memory or the peer range (R27, R392, R505). -/
def readSource (j : Nat) (v : Job) (dest : AccFor) (n : Nat) (s : State) : State :=
  let a := jSrc v + v.pos
  if jSrcSpace v = 1 then
    askHost ⟨a, min n (maxRead s), .copy j v.pos, []⟩ (setJob j { v with outstanding := v.outstanding + 1 } s)
  else askJob j v dest 1 0 0 .rd a (n / 64) (2 ^ 64 - 1) [] s

/-- The pattern of a FILL_RANGE as a beat. -/
def patternBeat (v : Job) : List Byte := (List.replicate 8 (leBytes 8 (jWide v 8))).flatten

/-- The bytes 192 to 255 of the packets of a SEND: round, operation and type (R386). -/
def sendLow (v : Job) : Nat := jWord v 10 + bits (jWord v 8) 1 2 * 2 ^ 32 + bits (jWord v 8) 3 2 * 2 ^ 34

/-- Bytes of a job leave for its destination at its position, in one request, and the position moves on. FILL_RANGE carries no peer
opcode: R392 does not name it. (DEDUCED, log entry 95.) -/
def writePiece (j : Nat) (v : Job) (dest : AccFor) (opcode low : Nat) (d : List Byte) (s : State) : State :=
  askJob j { v with pos := v.pos + d.length } dest opcode low 0 .wr (jDst v + v.pos) (d.length / 64) (2 ^ 64 - 1) d s

/-- The children of a BROADCAST job's tree. -/
def castKids (v : Job) (s : State) : List Nat := children (bits (jWord v 8) 0 4) s

/-- One piece of a BROADCAST to one child of the tree (R404). -/
def castTo (j pos : Nat) (d : List Byte) (s : State) (node : Nat) : State :=
  match mfind s.jobs j with
  | none => s
  | some v =>
    let tree := bits (jWord v 8) 0 4
    askJob j v .jobWrite 4 tree (max 1 (rd (PEER_TREE_CFG.DEPTH tree) s)) .wr (2 ^ 63 + node * 2 ^ 42 + (jDst v + pos) % 2 ^ 42) (d.length / 64)
      (2 ^ 64 - 1) d s

/-- The next piece of a COPY, FILL_RANGE, SEND or BROADCAST, or the end of its work. -/
def jobNext (j : Nat) (s : State) : State :=
  match mfind s.jobs j with
  | none => s
  | some v =>
    if v.stopped then s
    else if jLen v ≤ v.pos || (jType v == 6 && (castKids v s).isEmpty) then finishWork j s
    else
      match jType v with
      | 1 => readSource j v (.copyRead v.pos) (pieceAt v [jSrc v, jDst v]) s
      | 2 =>
        let n := pieceAt v [jDst v]
        writePiece j v .jobWrite 0 0 (List.replicate (n / 64) (patternBeat v)).flatten s
      | 5 => askJob j v (.sendRead v.pos) 0 0 0 .rd (jSrc v + v.pos) (pieceAt v [jSrc v, jDst v] / 64) (2 ^ 64 - 1) [] s
      | _ => readSource j v (.castRead v.pos) (pieceAt v [jSrc v, jDst v]) s

/-- Bytes of a job's source have arrived: they leave for its destination. -/
def sourceArrives (j : Nat) (d : List Byte) (s : State) : State :=
  match mfind s.jobs j with
  | none => s
  | some v =>
    if v.stopped then s
    else
      match jType v with
      | 1 =>
        let t := digestAt j v.pos d s
        let w := (mfind t.jobs j).getD v
        if jDstSpace v = 1 then jobNext j (hostWrite j (jDst v + v.pos) d (setJob j { w with pos := w.pos + d.length } t))
        else writePiece j w .jobWrite 2 0 d t
      | 5 => writePiece j v .jobWrite 3 (sendLow v) d s
      | _ => (castKids v s).foldl (castTo j v.pos d) (setJob j { v with pos := v.pos + d.length } s)

/-- JOB COPY, FILL_RANGE, PEER_REDUCE SEND and BROADCAST begin. -/
def beginMove (type j : Nat) (s : State) : State :=
  match ready j type s with
  | none => s
  | some v => if type = 5 && jGather v then s else jobNext j s

/-- JOB COPY. -/
def copyJob (j : Nat) (s : State) : State := beginMove 1 j s

/-- JOB FILL_RANGE. -/
def fillJob (j : Nat) (s : State) : State := beginMove 2 j s

/-- JOB PEER_REDUCE SEND: LEN bytes from local SRC as RED packets of the round. -/
def reduceSend (j : Nat) (s : State) : State := beginMove 5 j s

/-- JOB BROADCAST: LEN bytes to each child of the tree (R404). -/
def broadcastJob (j : Nat) (s : State) : State := beginMove 6 j s

/-! ### PEER_REDUCE GATHER (R400, R402) -/

/-- JOB PEER_REDUCE GATHER: the job opens its gather slot, or waits until one is free (R400). -/
def reduceGather (j : Nat) (s : State) : State :=
  match ready j 5 s with
  | none => s
  | some v =>
    if !jGather v then s
    else
      match openSlot ⟨j, jWord v 10, jDst v, jLen v, bits (jWord v 8) 1 2, bits (jWord v 8) 3 2, bits (jWord v 9) 0 20⟩ s with
      | none => s
      | some t => setJob j { v with outstanding := 1 } t

/-- The contributions of a round have been used. -/
def dropRound (j : Nat) (s : State) : State :=
  match s.peer.slots.find? fun g => g.job == j with
  | none => s
  | some g => { s with peer := { s.peer with staged := s.peer.staged.filter fun y => y.orphan || y.round != g.round } }

/-- The combined round goes to DST piece by piece; after the last one the work ends. -/
def gatherPut (j : Nat) (s : State) : State :=
  match mfind s.jobs j with
  | none => s
  | some v =>
    if v.stopped then s
    else if jLen v ≤ v.pos then finishWork j (setJob j { v with outstanding := 0 } (dropRound j s))
    else writePiece j v .gatherWrite 0 0 (slice v.bytes v.pos (pieceAt v [jDst v])) s

/-- The local contents of DST are read piece by piece; once all are there the round is combined (R402). -/
def gatherGet (j : Nat) (s : State) : State :=
  match s.peer.slots.find? fun g => g.job == j, mfind s.jobs j with
  | some g, some v =>
    if v.stopped then s
    else if jLen v ≤ v.pos then
      let c := combineRound g v.bytes s
      let t := fwRead .staging 0 (g.count * g.len) s
      gatherPut j (setJob j { v with bytes := c.1, aflags := c.2, pos := 0 } t)
    else
      let n := pieceAt v [jDst v]
      askJob j { v with pos := v.pos + n } (.gatherRead v.pos) 0 0 0 .rd (jDst v + v.pos) (n / 64) (2 ^ 64 - 1) [] s
  | _, _ => s

/-- GATHER_APPLY: every contributor of the round has delivered; the result is written to DST (R402). -/
def gatherApply (j : Nat) (s : State) : State :=
  match s.peer.slots.find? fun g => g.job == j, mfind s.jobs j with
  | some g, some v =>
    if v.stopped || v.waitRecord || v.outstanding ≠ 1 || v.pos ≠ 0 || !v.bytes.isEmpty || !roundComplete g s then s else gatherGet j s
  | _, _ => s

/-! ### Answers to the accesses of jobs (R96, R357, R394, R399) -/

/-- INFO of an uncorrectable block at an address. -/
def addrInfo (a : Nat) (s : State) : Nat := (mapAddr a s).elim a fun q => ueInfo q.n q.c q.off s

/-- The status and INFO of an access that failed. -/
def accFailed (x : Arrival) (s : State) : Option (Nat × Nat) :=
  match x.verdict with
  | .access a => some (stAccess, a)
  | .window a => some (stWindow, a)
  | .poisoned a => some (stUncorrectable, a)
  | .silent node => some (stPeerTimeout, node)
  | .done =>
    match x.got.find? fun b => b.2.isNone with
    | some b => some (stUncorrectable, addrInfo (x.req.addr + 64 * b.1) s)
    | none => if x.failed then some (stUncorrectable, addrInfo x.req.addr s) else none

/-- The bytes that a read returned, up to the first poisoned beat. -/
def accBytes (x : Arrival) : List Byte :=
  ((beatsFrom x.got x.req.beats 0).take ((x.got.find? fun b => b.2.isNone).elim x.req.beats fun b => b.1)).flatMap beatBytes

/-- An access of a job has been answered: the job goes on, or fails. -/
def jobAnswer (j : Nat) (x : Arrival) (k : State → State) (s : State) : State :=
  match mfind s.jobs j with
  | none => s
  | some v =>
    let t := setJob j { v with outstanding := v.outstanding - 1 } s
    if v.stopped then t
    else
      match accFailed x s with
      | some f => failJob j f.1 f.2 t
      | none => k t

/-- A write of a job has been answered: with the last of its piece the next one follows. -/
def writeAnswered (j : Nat) (s : State) : State := if (mfind s.jobs j).any fun v => v.outstanding == 0 then jobNext j s else s

/-- Bytes of a job's destination have arrived for a GATHER. -/
def gatherArrives (j : Nat) (d : List Byte) (s : State) : State :=
  match mfind s.jobs j with
  | none => s
  | some v => gatherGet j (setJob j { v with bytes := v.bytes ++ d } s)

/-! ### Answers from HP (R62, R184, R375, R376) -/

/-- A bus-master read of a job has ended. -/
def ioDone (j : Nat) (s : State) : State :=
  match mfind s.jobs j with
  | some v => setJob j { v with outstanding := v.outstanding - 1 } s
  | none => s

/-- A bus-master read fails (R62): its job fails with HOST_ABORT, or its context halts at the first descriptor that has not arrived. A mailbox fetch is taken up again. -/
def readFails (r : HpRead) (s : State) : State :=
  match r.dest with
  | .copy j _ => failJob j stHostAbort r.addr (ioDone j s)
  | .descriptor x i _ id => fetchEnds x i id (r.got.take (r.got.length / 64 * 64)) (some (stHostAbort, r.addr)) s
  | .mailbox i => { s with fw := { s.fw with mbxFetched := i } }

/-- A bus-master read has all its data. -/
def readArrives (r : HpRead) (s : State) : State :=
  match r.dest with
  | .copy j _ => sourceArrives j r.got (ioDone j s)
  | .descriptor x i _ id => fetchEnds x i id r.got none s
  | .mailbox _ =>
    let n := r.len / 64
    put FWM_MBX_STATUS.REQ_HEAD ((rd FWM_MBX_STATUS.REQ_HEAD s + n) % 2 ^ (mbxLog2 FWM_MBX_REQ_CFG.LOG2 s + 1))
      { fwWrite .requests (64 * ((s.fw.mbxFetched + 256 - n) % 256)) (r.got.take (64 * n)) s with fw := { s.fw with mbxReq := s.fw.mbxReq ++ (List.range n).map fun i => wordsOf (slice r.got (64 * i) 64) } }

/-- HP_COMPLETION: a completion arrives for a bus-master read (R62, R376, R509). -/
def hpCompletion (tag : Nat) (ok poisoned last : Bool) (data : List Byte) (s : State) : State :=
  if s.host.quarantine.contains tag then
    let t := aerSet aerUnexpected (bump ECC_LATE_CNT.HP 1 s)
    if last || !ok then issueReads { t with host := { t.host with quarantine := t.host.quarantine.erase tag } } else t
  else
    match mfind s.host.reads tag with
    | none => aerSet aerUnexpected s
    | some r =>
      if !ok || poisoned then
        let q := if last || !ok then s.host.quarantine else tag :: s.host.quarantine
        issueReads (readFails r { s with host := { s.host with reads := mdel s.host.reads tag, quarantine := q } })
      else
        let r := { r with got := r.got ++ data }
        if last then issueReads (readArrives { r with got := padTo r.len r.got } { s with host := { s.host with reads := mdel s.host.reads tag } })
        else { s with host := { s.host with reads := mset s.host.reads tag r } }

/-- A read fails with its tag quarantined. -/
def abandonRead (tag : Nat) (s : State) : State :=
  match mfind s.host.reads tag with
  | none => s
  | some r => readFails r { s with host := { s.host with reads := mdel s.host.reads tag, quarantine := tag :: s.host.quarantine } }

/-- HP_COMPLETION_TIMEOUT (R375, R376). -/
def hpTimeout (tag : Nat) (s : State) : State :=
  if (mfind s.host.reads tag).isSome then aerSet aerTimeout (abandonRead tag s) else s

/-- TAG_QUARANTINE_EXPIRY (R376). -/
def quarantineExpiry (pp : Bool) (tag : Nat) (s : State) : State :=
  if pp then pumpPp { s with peer := { s.peer with quarantine := s.peer.quarantine.erase tag } }
  else issueReads { s with host := { s.host with quarantine := s.host.quarantine.erase tag } }

/-! ### Answers from PP (R394, R399, R405) -/

/-- The peer-range address of an outbound request. -/
def peerAddr (r : PeerReq) : Nat := 2 ^ 63 + r.node * 2 ^ 42 + r.offset

/-- The answer to a compute-port read; a fault that the other node answers is recorded there alone. (DESIGN CHOICE, log entry 87.) -/
def peerToPort (u rt info : Nat) (d : List Byte) (s : State) : State :=
  match mfind s.live u with
  | none => s
  | some l =>
    match l.req.src with
    | .cp k =>
      let t := { s with live := mdel s.live u }
      if rt = rtRdData || rt = rtPoison then
        egressPut k (.hdr rt l.req.tag (l.req.beats - 1) 0 (if rt = rtPoison then info else 0) true)
          (egressAll k (dataFlits l.req.tag 0 (beatsOf l.req.beats (padTo (64 * l.req.beats) d))) t)
      else egressPut k (.hdr rt l.req.tag 0 0 info true) t
    | _ => s

/-- The answer to an access of a unit (R394, R405). A fault that the other node answers has been recorded there, and this node records
none. No job status bears the name of FORMAT_ERR, which fails the job with ACCESS_FAULT. (DESIGN CHOICE, log entries 51 and 87.) -/
def peerToUnit (q : Req) (r : PeerReq) (rt info node : Nat) (d : List Byte) (s : State) : State :=
  let ends := fun (v : Verdict) => arrive ⟨q, [], true, v⟩ s
  match rt with
  | 0 => arrive ⟨q, (beatsOf r.beats (padTo (64 * r.beats) d)).mapIdx fun i b => (i, some b), false, .done⟩ s
  | 1 => arrive ⟨q, [], false, .done⟩ s
  | 4 => ends (if r.opcode = 4 then .silent node else .poisoned (peerAddr r))
  | 6 => ends (.window info)
  | 7 => ends (.access info)
  | _ => ends (.access (peerAddr r))

/-- A forwarded packet of the relay has been acknowledged: the progress word counts what is not outstanding (R16, R460). -/
def relayAcked (s : State) : State :=
  let r := s.peer.relay
  let n := r.package.length - (s.peer.reqs.foldl (fun k x => if x.2.dest == .relay then k + x.2.data.length else k) 0 +
    s.peer.queue.foldl (fun k x => if x.dest == .relay then k + x.data.length else k) 0)
  if r.forwarding then put FWM_RELAY_PROGRESS.PROGRESS (100 * n / max 1 r.package.length * 2 ^ 24 + n / 1024 % 2 ^ 24) s else s

/-- A response of kind final reaches the request that it answers. -/
def peerAnswer (tag : Nat) (r : PeerReq) (rt info node fr : Nat) (d : List Byte) (s : State) : State :=
  let t := { s with peer := { s.peer with reqs := mdel s.peer.reqs tag } }
  match r.dest with
  | .port u => peerToPort u rt info d t
  | .unit q => peerToUnit q r rt info node d t
  | .bcast u =>
    if rt = rtWrAck then
      { t with peer := { t.peer with bcasts := t.peer.bcasts.map fun b => if b.uid = u then { b with left := b.left - 1 } else b } }
    else bcastFail u (rt, node, fr) t
  | .relay => if rt = rtWrAck then relayAcked t else { s with peer := { s.peer with reqs := mset s.peer.reqs tag { r with got := [1] } } }

/-- A response that has been accepted (R376, R387, R394). -/
def ppAccept (w : BitVec 256) (rt : Nat) (d : List Byte) (s : State) : State :=
  let tag := slotF w 8 12
  if rt = rtBackoff then bump PEER_STATUS.BACKOFF_RX 1 s
  else if s.peer.quarantine.contains tag then
    let t := bump ECC_LATE_CNT.PP 1 s
    if rt = rtRestart then t else pumpPp { t with peer := { t.peer with quarantine := t.peer.quarantine.erase tag } }
  else
    match mfind s.peer.reqs tag with
    | none => s
    | some r =>
      if rt = rtRestart then
        match r.dest with
        | .port u =>
          (match mfind s.live u with
          | some l => (match l.req.src with | .cp k => egressPut k (.hdr rtRestart l.req.tag 0 0 0 false) s | _ => s)
          | none => s)
        | _ => s
      else if 9 < rt then s
      else pumpPp (peerAnswer tag r rt (slotF w 64 64) (slotF w 140 20) (slotF w 180 4) d s)

/-- PP_RSP_IN: a response arrives with its parity bits, takes its credits, and gives them back (R39, R63, R383). Data that meet a parity
error are poisoned, every beat of them. (DEDUCED, log entry 94.) -/
def ppResponse (x : PpIn) (s : State) : State :=
  let w := x.slot
  let p := s.peer
  let flits := (x.data.length + 255) / 256
  if !(ppAnswers s) then portErr (ARB_PORT_ERR.NOT_READY 17) s
  else if slotParity w ≠ x.par then ppParityClose s
  else if p.rspInHdr = 0 || p.rspInData < flits then portErr (ARB_PORT_ERR.NOCREDIT 17) s
  else
    let t := { s with peer := { p with
      rspInHdr := p.rspInHdr - 1, rspInData := p.rspInData - flits, rspDueHdr := p.rspDueHdr + 1, rspDueData := p.rspDueData + flits } }
    if dataOk x then ppAccept w (slotF w 0 4) x.data t
    else
      let w := if slotF w 0 4 = rtRdData then w ||| BitVec.ofNat 256 (ones (slotF w 20 6 + 1) * 2 ^ 64) else w
      ppAccept w (if slotF w 0 4 = rtRdData then rtPoison else slotF w 0 4) x.data (portErr (ARB_PORT_ERR.DATA_PARITY 17) t)

/-- PEER_REQUEST_TIMEOUT (R399, R376, R405). -/
def peerTimeout (tag : Nat) (s : State) : State :=
  match mfind s.peer.reqs tag with
  | none => s
  | some r =>
    let t := emit 0x605 1 none none none none (bump PEER_TMO_CNT.COUNT 1 s)
    let t := { t with peer := { t.peer with quarantine := tag :: t.peer.quarantine } }
    let gone := { t with peer := { t.peer with reqs := mdel t.peer.reqs tag } }
    match r.dest with
    | .port u => peerToPort u rtPoison (ones r.beats) [] gone
    | .unit q => arrive ⟨q, [], true, .silent r.node⟩ gone
    | .bcast u => bcastFail u (rtPoison, r.node, 0) gone
    | .relay => { t with peer := { t.peer with reqs := mset t.peer.reqs tag { r with got := [1] } } }

/-! ### The end of a job (R192, R194, R197, R198, R202) -/

/-- The peer request serves an access of the job. -/
def peerOfJob (j : Nat) (r : PeerReq) : Bool := match r.dest with | .unit q => reqJob q == some j | _ => false

/-- Nothing that a job issued is still in flight: no bus-master read, and no access at ingress, past it, in the peer range or
answered and not taken. -/
def jobQuiet (j : Nat) (s : State) : Bool :=
  !(s.host.reads.any fun x => match x.2.dest with | .copy i _ => i == j | _ => false) &&
    !(s.ports.any fun x => x.2.ing.any fun r => reqJob r == some j) &&
    !(s.live.any fun x => reqJob x.2.req == some j && !x.2.answered) &&
    !(s.peer.inbox.any fun x => reqJob x.1 == some j) && !(s.peer.queue.any (peerOfJob j)) && !(s.peer.reqs.any fun x => peerOfJob j x.2) &&
    !(s.arrived.any fun x => reqJob x.req == some j)

/-- JOB_DONE_REPORT (R198, R403): every unit of the job has reported; a report after the timer event is discarded and counted. -/
def jobDone (j : Nat) (s : State) : State :=
  if 0 < mgetD s.lateJobs j 0 then bump CTX_LATE_CNT.COUNT 1 { s with lateJobs := mset s.lateJobs j (mgetD s.lateJobs j 0 - 1) }
  else
    match mfind s.jobs j with
    | none => s
    | some v =>
      if v.done || v.timedOut || !(v.waitRecord || v.status ≠ 0) || !jobQuiet j s then s
      else discardRound j (jobFinished j (setJob j { v with done := true } s))

/-- JOB_TIMEOUT: the timer of a job that has been issued to its units fires, at the effective TIMEOUT or within 10 µs after it (R196,
R197, R198); INFO is the elapsed time in µs. A failure that its units have not all reported gives way to TIMEOUT. -/
def jobTimeout (j elapsed : Nat) (s : State) : State :=
  match mfind s.jobs j with
  | none => s
  | some v =>
    let lim := if jTimeout v = 0 then cTimeout { Ctx.init with words := v.entry } else jTimeout v
    if !v.started || v.done || v.timedOut || elapsed < lim || lim + 10 < elapsed then s
    else
      let t := failJob j stTimeout elapsed s
      match mfind t.jobs j with
      | none => t
      | some w =>
        let t := setJob j { w with timedOut := true, status := stTimeout, info := elapsed } t
        discardRound j (jobFinished j { t with lateJobs := mset t.lateJobs j (max 1 v.running.length) })

/-- The digest input of R204 beyond what the job collected. -/
def digestInput (v : Job) : List Byte :=
  match jType v with
  | 1 => v.bytes
  | 2 => leBytes 8 (jWide v 8) ++ leBytes 8 (jLen v)
  | 3 => v.image.flatMap (leBytes 8) ++ v.args ++ leBytes 8 (jWide v 10) ++ v.banks.flatMap fun x => x.2
  | 4 => v.image.flatMap (leBytes 8) ++ v.args ++ leBytes 8 (jWide v 10) ++ v.banks.flatMap fun x => x.2
  | _ => wordBytes (v.words.drop 2)

/-- The job's record carries a fingerprint. -/
def audited (v : Job) : Bool := !v.words.isEmpty && jAudit v && cAuditEn { Ctx.init with words := v.entry }

/-- The vector of the record's message, if it has one (R193). -/
def recordVector (v : Job) : Option Nat :=
  let c : Ctx := { Ctx.init with words := v.entry }
  if cIrqEn c && ((!v.words.isEmpty && jIrq v) || decide (2 ≤ v.status)) then some (cVector c) else none

/-- The eight words of a record without its PHASE (R189). -/
def recordWords (v : Job) (s : State) : List Nat :=
  let fp := audited v
  let f := if fp then leNat ((sha384 (digestInput v)).take 8) else 0
  let q := if fp then s.auditSeq % 2 ^ 48 else 0
  [jTag v + v.status * 2 ^ 16 + v.aflags * 2 ^ 24 + b2n fp * 2 ^ 28, v.index, v.info % 2 ^ 32, v.info / 2 ^ 32 % 2 ^ 32,
    f % 2 ^ 32, f / 2 ^ 32, q % 2 ^ 32, q / 2 ^ 32]

/-- The ledger entry of an audited record (R476). -/
def ledgerEntry (v : Job) (ws : List Nat) (s : State) : List Byte :=
  leBytes 6 (ws.getD 6 0 + ws.getD 7 0 * 2 ^ 32) ++ leBytes 2 v.ctx ++ leBytes 4 (ws.getD 4 0) ++ leBytes 4 (ws.getD 5 0) ++
    leBytes 3 v.index ++ leBytes 1 v.status ++ leBytes 2 (jTag v) ++ leBytes 1 (jType v) ++ leBytes 1 v.aflags ++ leBytes 8 (hclk s)

/-- Show the ledger's registers. -/
def showAudit (s : State) : State := put LCS_AUDIT_STATUS.PENDING (ledgerUsed s) s

/-- The round in which the first of the waiting entries was written: its HCLK count tells (R476, R478). -/
def firstWaiting (l : List (Nat × List Byte)) (s : State) : Nat := (l.head?.map fun e => leAt e.2 24 8 / 100000).getD s.rounds

/-- Append to the ledger; with FULL_POLICY 1 a full buffer drops its oldest unsigned entry (R477). -/
def appendLedger (e : List Byte) (s : State) : State :=
  let a := s.audit
  let full := ledgerFull s && !a.entries.isEmpty
  let old := if full then a.entries.drop 1 else a.entries
  let t := { fwWrite .ledger (32 * (s.auditSeq % 1048576)) e s with
    audit := { a with
      entries := old ++ [(s.auditSeq, e)], dropped := a.dropped + b2n full,
      firstRound := firstWaiting old s },
    auditSeq := s.auditSeq + 1 }
  showAudit (if full then bump LCS_AUDIT_DROPPED.COUNT 1 t else t)

/-- The job's record may be written: its units have reported or its timer event was taken, its accesses have ended, its host-bound
writes have left, and the jobs of its context that finished before it have their records (R194). None is written once a shutdown has
started (R428). (DEDUCED, log entry 34.) -/
def recordDue (j : Nat) (v : Job) (s : State) : Bool :=
  (v.done || v.timedOut) && !v.recording && jobQuiet j s && !writesWait j s && s.power.shut.isNone &&
    ((s.finished.find? fun i => (mfind s.jobs i).any fun w => w.ctx == v.ctx) == some j)

/-- A job whose record has been written or spilled is gone. -/
def dropJob (j : Nat) (s : State) : State :=
  closeSlot j { s with jobs := mdel s.jobs j, finished := s.finished.filter fun i => i != j }

/-- COMPLETION_RECORD_WRITE (R192, R193, R202, R476). -/
def recordWrite (j : Nat) (s : State) : State :=
  match mfind s.jobs j with
  | none => s
  | some v =>
    let c := ctxOf v.ctx s
    let away := ctxAway v.ctx s
    if !recordDue j v s || !coreReady 2 s || (!away && (!cplRoom c || (cHome c == 16 && !busMaster s))) then s
    else
      let ws := recordWords v s
      let irq := recordVector v
      let t := if audited v then appendLedger (ledgerEntry v ws s) s else s
      let t := if 2 ≤ v.status then emit 0x703 1 none (some v.home) none none t else t
      if away then let t := dropJob j t; setSpill (t.spill ++ [.record (cHset c) v.ctx ws irq]) (fwWrite .spill (spillUsed t) (wordBytes ws) t)
      else if cHome c = 16 then writeHostRecord v.ctx ws irq (dropJob j t)
      else writeDevRecord j v.ctx ws irq (setJob j { v with recording := true } t)

/-- The write of a device record has ended: the completion tail moves on and the message goes out, or the context halts at the index
of the record (R172). -/
def recordWritten (j x : Nat) (irq : Option Nat) (a : Arrival) (s : State) : State :=
  match mfind s.jobs j with
  | none => s
  | some v =>
    let t := dropJob j s
    match accFailed a s with
    | some f => haltCtx x v.index f.1 t
    | none => recordMsg irq (emit 0x702 1 none (some v.home) none none (setCtx x (bumpTail (ctxOf x t)) t))

/-- The read of descriptors of a device ring has ended (R172, R184). -/
def fetchAnswered (x index id : Nat) (a : Arrival) (s : State) : State := fetchEnds x index id (accBytes a) (accFailed a s) s

end Sys2Proof.Machine
end

