-- ==== Sys2Proof/Machine/CueLoad.lean ====
section
/-! DEFINITION. Cue programs before they run (R206 to R213, R219, R221, R235): the words, the static check, the placement of a
job on the hives of its span, the program store and the beginning of a job on a hive. -/

namespace Sys2Proof.Machine

open Reg

/-! ### Instruction words (R221) -/

def opNop : Nat := 0x00
def opEnd : Nat := 0x01
def opWait : Nat := 0x02
def opLset : Nat := 0x03
def opLoop : Nat := 0x04
def opAset : Nat := 0x08
def opAmov : Nat := 0x09
def opAadd : Nat := 0x0A
def opAmad : Nat := 0x0B
def opMode : Nat := 0x10
def opScale : Nat := 0x11
def opLdact : Nat := 0x18
def opClrc : Nat := 0x19
def opPass : Nat := 0x1A
def opZrb : Nat := 0x1B
def opRed : Nat := 0x1C
def opGather : Nat := 0x1D
def opEmit : Nat := 0x1E
def opKstream : Nat := 0x20
def opVstream : Nat := 0x21
def opSmax : Nat := 0x22

/-- The opcode of a word. -/
def opOf (w : Nat) : Nat := bits w 58 6

/-- The bits of fields given as (lowest bit, width). -/
def fieldMask (l : List (Nat × Nat)) : Nat := l.foldl (fun m x => m ||| ((2 ^ x.2 - 1) * 2 ^ x.1)) 0

/-- The fields of an opcode in the table of R221; none for a reserved opcode. -/
def fieldsOf : Nat → Option (List (Nat × Nat))
  | 0x00 => some []
  | 0x01 => some []
  | 0x02 => some [(52, 1)]
  | 0x03 => some [(50, 2), (0, 20)]
  | 0x04 => some [(50, 2), (0, 10)]
  | 0x08 => some [(48, 4), (0, 48)]
  | 0x09 => some [(48, 4), (0, 3)]
  | 0x0A => some [(48, 4), (44, 4), (0, 44)]
  | 0x0B => some [(48, 4), (44, 4), (40, 4), (0, 32)]
  | 0x10 => some [(52, 4), (48, 4), (46, 2), (44, 2), (37, 7)]
  | 0x11 => some [(0, 32)]
  | 0x18 => some [(48, 4), (43, 5), (38, 5), (30, 8), (22, 8), (21, 1), (19, 2)]
  | 0x19 => some [(43, 5), (38, 5)]
  | 0x1A => some [(52, 1), (53, 1), (54, 1), (55, 1), (48, 4), (37, 11), (22, 15), (17, 5), (0, 10)]
  | 0x1B => some [(55, 1), (10, 11), (0, 10)]
  | 0x1C => some [(55, 1), (21, 3), (10, 11), (0, 10)]
  | 0x1D => some [(55, 1), (21, 3), (10, 11), (0, 10)]
  | 0x1E => some [(52, 4), (56, 1), (57, 1), (48, 4), (38, 10), (27, 11), (22, 5), (19, 3), (18, 1)]
  | 0x20 => some [(54, 1), (55, 1), (48, 4), (37, 11), (22, 15), (17, 5), (0, 10)]
  | 0x21 => some [(53, 1), (54, 1), (55, 1), (48, 4), (38, 10), (28, 10), (13, 15), (8, 5), (0, 8)]
  | 0x22 => some [(52, 2), (55, 1), (10, 11), (0, 10)]
  | _ => none

/-- The MODE that a MODE word sets (R225). -/
def modeOf (w : Nat) : Mode := ⟨bits w 52 4, bits w 48 4, bits w 46 2, bits w 44 2, bits w 37 7⟩

/-- The columns that LDACT and CLRC name. -/
def colFirst (w : Nat) : Nat := bits w 43 5
def colCount (w : Nat) : Nat := bits w 38 5 + 1

/-! ### The static check (R219) -/

/-- Reason 3: a reserved format, scaling or output code, or a format not permitted in its role. -/
def badCode (w : Nat) : Bool :=
  match opOf w with
  | 0x10 => !modeCodesOk (modeOf w)
  | 0x18 => bits w 19 2 == 3
  | 0x1E => decide (2 < bits w 52 4)
  | 0x22 => bits w 52 2 == 3
  | _ => false

/-- Reason 4: MODE fields that form no row of R118. -/
def badMode (w : Nat) : Bool := opOf w == opMode && !modeLegal (modeOf w)

/-- Reason 5: more elements than the bank holds at one byte each; the check with the size in force is made at issue. -/
def badBank (w : Nat) : Bool :=
  match opOf w with
  | 0x1A => decide ((if w.testBit 53 then 8192 else 16384) < bits w 22 15)
  | 0x20 => decide (8192 < bits w 22 15)
  | _ => false

def badCols (v : Nat) : Bool := v == 0 || decide (20 < v)

/-- Reason 6: a count or index outside its range. -/
def badCount (w : Nat) : Bool :=
  match opOf w with
  | 0x03 => bits w 0 20 == 0
  | 0x09 => bits w 0 3 == 0
  | 0x18 => decide (20 < colFirst w + colCount w) || decide ((if w.testBit 21 then 9 else 256) < bits w 22 8 + bits w 30 8 + 1)
  | 0x19 => decide (20 < colFirst w + colCount w)
  | 0x1A => decide (1024 < bits w 37 11) || decide (16384 < bits w 22 15) || badCols (bits w 17 5)
  | 0x1B => decide (1024 < bits w 10 11)
  | 0x1C => decide (1024 < bits w 10 11)
  | 0x1D => decide (1024 < bits w 10 11)
  | 0x1E => decide (1024 < bits w 27 11) || badCols (bits w 22 5)
  | 0x20 => decide (1024 < bits w 37 11) || decide (16384 < bits w 22 15) || badCols (bits w 17 5)
  | 0x21 => decide (1024 < bits w 13 15) || badCols (bits w 8 5)
  | 0x22 => decide (1024 < bits w 10 11)
  | _ => false

/-- Reason 8: a result-buffer range beyond entry 1,023, or G or ESTEP beyond CELLS. -/
def badRange (cells w : Nat) : Bool :=
  let lg := Nat.log2 cells
  let past := fun (base count step : Nat) => decide (0 < count) && decide (1023 < base + (count - 1) * 2 ^ step)
  match opOf w with
  | 0x1A => decide (1024 < bits w 0 10 + bits w 37 11 * cells)
  | 0x1B => decide (1024 < bits w 0 10 + bits w 10 11)
  | 0x1C => decide (lg < bits w 21 3) || decide (1024 < bits w 0 10 + bits w 10 11 * cells)
  | 0x1D => decide (lg < bits w 21 3) || past (bits w 0 10) (bits w 10 11) (bits w 21 3)
  | 0x1E => decide (lg < bits w 19 3) || past (bits w 38 10) (bits w 27 11) (bits w 19 3)
  | 0x20 => decide (1024 < bits w 0 10 + bits w 37 11 * cells)
  | 0x21 => decide (1024 < bits w 38 10 + bits w 0 8 * cells) || decide (1024 < bits w 28 10 + bits w 13 15)
  | 0x22 =>
    decide (1024 < bits w 0 10 + bits w 10 11) || (bits w 52 2 == 2 && bits w 10 11 == 0 && decide (1023 < bits w 0 10 + 1))
  | _ => false

/-- Reason 9: a LOOP whose TARGET is not lower than its own index. -/
def badTarget (i w : Nat) : Bool := opOf w == opLoop && decide (i ≤ bits w 0 10)

/-- The lowest static reason that refuses word i of a program of len words, or 0. -/
def wordReason (attn : Bool) (cells len i w : Nat) : Nat :=
  match fieldsOf (opOf w) with
  | none => 1
  | some l =>
    if w % 2 ^ 58 &&& (2 ^ 58 - 1 - fieldMask l) ≠ 0 then 2
    else if badCode w then 3
    else if badMode w then 4
    else if badBank w then 5
    else if badCount w then 6
    else if badRange cells w then 8
    else if badTarget i w then 9
    else if !attn && (opOf w == opKstream || opOf w == opVstream || opOf w == opSmax) then 0xA
    else if i + 1 = len && opOf w ≠ opEnd then 0xB
    else 0

/-- The first word that the static check refuses, with its reason; the argument block counts as word 0x7FF, after the program. -/
def staticCheck (attn : Bool) (cells : Nat) (ws : List Nat) (arg0 : Nat) : Option (Nat × Nat) :=
  match (ws.mapIdx fun i w => (i, wordReason attn cells ws.length i w)).find? fun x => x.2 != 0 with
  | some x => some x
  | none => if arg0 / 16 ≠ 0 then some (0x7FF, 0xE) else none

/-! ### Refusals (R219, R220, R239) -/

/-- Record a refusal in CUE_REFUSE of a hive. -/
def recordRefuse (n word reason : Nat) (s : State) : State :=
  putAll [(CUE_REFUSE.WORD n, word), (CUE_REFUSE.REASON n, reason), (CUE_REFUSE.VALID n, 1)] s

/-- INFO of PROG_REFUSED. -/
def refuseInfo (word reason : Nat) : Nat := word % 2 ^ 11 + reason * 2 ^ 16

/-! ### The program store (R212) -/

/-- Write words into the store. -/
def storeWords (m : AMap Nat) (base : Nat) : List Nat → AMap Nat
  | [] => m
  | w :: ws => storeWords (mset m base w) (base + 1) ws

/-- The 64-bit words of a program image (R235). -/
def imageWords (n : Nat) (d : List Byte) : List Nat := (List.range n).map fun i => leAt d (8 * i) 8

/-- While a program of at most 512 words runs, the next placed program of at most 512 words is loaded into the other half.
(DEDUCED, log entry 30.) -/
def preloadNext (n : Nat) (s : State) : State :=
  let h := hive n s
  match h.cue, h.preload, h.placed with
  | some c, none, j :: _ =>
    match mfind s.jobs j, mfind s.jobs c.job with
    | some v, some r =>
      if v.image.length ≤ 512 && r.image.length ≤ 512 && keeperReady n s then
        put (CUE_STATUS.PRELOADED n) 1
          (setHive n { h with store := storeWords h.store (512 - c.base) v.image, preload := some j } s)
      else s
    | _, _ => s
  | _, _, _ => s

/-! ### Placement (R188, R206 to R210) -/

/-- The hives of a span, in logical order (R207). -/
def spanHives (v : Job) (base : Nat) (s : State) : List Nat :=
  ((setHives (jIset v) s).drop (base * 2 ^ jSpan v)).take (2 ^ jSpan v)

/-- Place a job on a hive (R209): its pseudo-channels and cells wake (R165, R285). False if PD_C_n is refused. -/
def placeOn (j : Nat) (x : State × Bool) (n : Nat) : State × Bool :=
  let h := hive n x.1
  let t := setHive n { h with placed := h.placed ++ [j] } x.1
  let r := needCells n (wakeHive n t)
  (preloadNext n (showCue n r.1), x.2 && r.2)

/-- Why a span cannot be used (R160, R188, R207, R208), if so: the status and INFO. -/
def spanBad (v : Job) (base : Nat) (s : State) : Option (Nat × Nat) :=
  let hs := spanHives v base s
  if !(setsInUse s).contains (jIset v) || (setHives (jIset v) s).length < (base + 1) * 2 ^ jSpan v then
    some (stSpan, usableMask (jIset v) s)
  else
    match hs.find? fun n => rd (CEL_HIVE_FAILED.CELLS n) s != 0 with
    | some n => some (stCell, cellInfo n (((List.range 32).find? fun c => (rd (CEL_HIVE_FAILED.CELLS n) s).testBit c).getD 0))
    | none =>
      if hs.any fun n => !usableHive n s then some (stSpan, usableMask (jIset v) s)
      else if hs.any fun n => rd (CUE_OWNER.DOMAIN n) s != 0 && rd (CUE_OWNER.DOMAIN n) s != v.domain then some (stAccess, jWide v 8)
      else none

/-- Fail a cue job before it runs an instruction. -/
def refuseSpan (j : Nat) (v : Job) (x : Nat × Nat) (s : State) : State :=
  failJob j x.1 x.2 (if x.1 = stAccess then recordFault v.ctx 18 false false x.2 s else s)

/-- The argument block and the program have been read: the static check, and the placement on the hives of the span. -/
def placeProgram (type j : Nat) (v : Job) (ab : List Byte) (ws : List Nat) (s : State) : State :=
  let argv := (List.range 8).map fun i => leAt ab (8 * i) 8
  let hs := spanHives v (argv.headD 0 % 16) s
  match staticCheck (type == 4) (usedCh (hs.headD 0) s) ws (argv.headD 0) with
  | some x => failJob j stProg (refuseInfo x.1 x.2) (hs.foldl (fun u n => recordRefuse n x.1 x.2 u) s)
  | none =>
    let r := hs.foldl (placeOn j) (setJob j { v with hives := hs, running := hs, args := ab, argv := argv, image := ws } s, true)
    if r.2 then r.1 else failJob j stSpan (usableMask (jIset v) r.1) r.1

/-- The piece of a program image at the job's position is read (R210): within a page, in whole beats. -/
def readImage (j : Nat) (v : Job) (s : State) : State :=
  let n := min ((jProgLen v + 7) / 8) ((v.pos + pageRoom (jSrc v + v.pos)) / 64) - v.pos / 64
  askJob j { v with pos := v.pos + 64 * n } (.cueImage v.pos) 0 0 0 .rd (jSrc v + v.pos) n (2 ^ 64 - 1) [] s

/-- JOB RUN_CUE (type 3) and JOB ATTN_STREAM (type 4): the argument block is read (R210). -/
def placeCue (type j : Nat) (s : State) : State :=
  match ready j type s with
  | none => s
  | some v => askJob j v .cueArgs 0 0 0 .rd (jWide v 8) 1 (2 ^ 64 - 1) [] s

/-- The argument block has been read: the span is checked and the program asked for. -/
def argsArrive (j : Nat) (ab : List Byte) (s : State) : State :=
  match mfind s.jobs j with
  | none => s
  | some v =>
    match spanBad v (leAt ab 0 8 % 16) s with
    | some x => refuseSpan j v x s
    | none => readImage j { v with args := ab } s

/-- A piece of the program image has been read: the next follows, or the program is checked and placed. -/
def imageArrives (j : Nat) (d : List Byte) (s : State) : State :=
  match mfind s.jobs j with
  | none => s
  | some v =>
    let v := { v with bytes := v.bytes ++ d }
    if v.bytes.length < 8 * jProgLen v then readImage j v (setJob j v s)
    else placeProgram (jType v) j { v with bytes := [] } v.args (imageWords (jProgLen v) v.bytes) s

/-! ### The beginning of a job on a hive (R209, R213, R240) -/

/-- A cue sequencer at the beginning of a job. -/
def cueStart (j base : Nat) (attn : Bool) : Cue :=
  ⟨j, base, 0, List.replicate 16 0, List.replicate 4 0, none, 0x3F800000, [], if attn then some kvStart else none, [], false, 0, 0, 0⟩

/-- Words 0 to 6 of the sampling record of a job (R493). -/
def jobSampleWords (v : Job) : List Nat :=
  [v.ctx + v.cls * 2 ^ 16 + v.home * 2 ^ 21 + 2 ^ 26 + 2 ^ 31, v.index, jWide v 8 % 2 ^ 32, jWide v 8 / 2 ^ 32, 0, 0, 0]

/-- The word of the store at which the next program begins (R212): the half loaded ahead, half 0 for a program that takes the
whole store or for the first one, else the half that did not run last. -/
def nextBase (n j : Nat) (len : Nat) (s : State) : Nat :=
  let h := hive n s
  if 512 < len || (h.store.isEmpty && h.preload != some j) then 0 else 512 - 512 * rd (CUE_STATUS.HALF n) s

/-- The first job placed on an idle hive begins, once the cells are on and tested and the keeper can load it. A hive with a
FAILED cell runs no instruction (R160). -/
def beginHead (n : Nat) (s : State) : State :=
  let h := hive n s
  match h.cue, h.placed with
  | none, j :: rest =>
    match mfind s.jobs j with
    | none => s
    | some v =>
      if v.stopped || !cellsReady n s || !h.tests.isEmpty || !h.faults.isEmpty || !keeperReady n s then s
      else if rd (CEL_HIVE_FAILED.CELLS n) s ≠ 0 then
        failJob j stCell (cellInfo n (((List.range 32).find? fun c => (rd (CEL_HIVE_FAILED.CELLS n) s).testBit c).getD 0)) s
      else
        let base := nextBase n j v.image.length s
        let h := { h with
          store := if h.preload == some j then h.store else storeWords h.store base v.image,
          placed := rest, preload := none, cue := some (cueStart j base (jType v == 4)) }
        let t := putAll [(CUE_STATUS.STATE n, 2), (CUE_STATUS.PRELOADED n, 0), (CUE_STATUS.HALF n, base / 512),
          (CUE_STATUS.PC n, 0), (CUE_STATUS.CTX n, v.ctx)] (setHive n h s)
        let t := emit 0x401 1 (some n) none none none t
        preloadNext n (sampleItem n 1 v.home v.cls j v.since (jobSampleWords v) t)
  | _, _ => s

/-- JOB_BEGIN_ON_HIVE, at a job boundary: retirements asked for take effect first (R158). -/
def jobBegin (n : Nat) (s : State) : State := if atBoundary n s then showCells n (beginHead n (applyRetire n s)) else s

end Sys2Proof.Machine
end

