-- ==== Sys2Proof/Machine/Regs.lean ====
section
/-! DEFINITION. Reading a register word of BAR_0, and the plain effect of writing one (R5 to R12, R100 to R102). -/

namespace Sys2Proof.Machine

open Reg

/-! ### Finding a register -/

/-- The indexes of an array element from its distance to the array's first word, and what is left over. -/
def rowIndex : List (Nat × Nat) → Nat → Option (List Nat × Nat)
  | [], d => some ([], d)
  | (n, st) :: ds, d =>
    if d / st < n then (rowIndex ds (d % st)).map fun x => (d / st :: x.1, x.2) else none

/-- A register word: its row's base, its fields, whether it is half of a pair, and which half. -/
structure RegAt where
  base : Nat
  idx : List Nat
  flds : List Fld
  wide : Bool
  hi : Bool
  deriving DecidableEq, Repr

/-- The register word of a row at an offset. -/
def rowWord (off : Nat) (r : Row) : Option RegAt :=
  if off < r.base then none
  else
    match rowIndex r.dims (off - r.base) with
    | none => none
    | some (ix, 0) => some ⟨r.base, ix, r.flds fun k => ix.getD k 0, r.wide, false⟩
    | some (ix, 4) => if r.wide then some ⟨r.base, ix, r.flds fun k => ix.getD k 0, true, true⟩ else none
    | some _ => none

/-- The register word at an offset of BAR_0, if a chapter assigns one. -/
def findWord (off : Nat) : Option RegAt := rows.findSome? fun r => rowWord off r

/-- The hive of a hive-window offset. -/
def windowHive (off : Nat) : Option Nat := if 0x100000 ≤ off && off < 0x500000 then some ((off - 0x100000) / 0x40000) else none

/-- A register of a hive window that PD_CTL holds: the HIV general block, the trims and the summaries of start-up (R302, R370,
R431). -/
def inCtl (rel : Nat) : Bool :=
  decide (rel < 0x1000) || (decide (0x1040 ≤ rel) && decide (rel < 0x2000)) || rel == 0x10424 || rel == 0x30008 || rel == 0x3000C

/-- The supply monitor watches a rail that the variant has: VC_n, VH_n and VQ_j belong to hives (R5, R420). -/
def monitorThere (i : Nat) (s : State) : Bool :=
  if i < 32 then hivePresent (i % 16) s
  else if i < 44 then true
  else (List.range 4).any fun k => hivePresent (4 * (i - 44) + k) s

/-- The register at an offset is there and its domain is on (R5, R20, R291, R381, R416, R514). -/
def visible (off : Nat) (s : State) : Bool :=
  match windowHive off with
  | some n =>
    let rel := off % 0x40000
    let ch : Option Nat :=
      if 0x20000 ≤ rel && rel < 0x30000 then some ((rel - 0x20000) / 0x800)
      else if 0x10800 ≤ rel && rel < 0x10900 then some ((rel - 0x10800) / 8)
      else if 0x12000 ≤ rel && rel < 0x14000 then some ((rel - 0x12000) / 0x100)
      else none
    hivePresent n s && (inCtl rel || hOn n s) && !(inlineCheck n s && ch.any fun c => decide (16 ≤ c))
  | none =>
    if 0x50000 ≤ off && off < 0x60000 then peerPresent s
    else if 0xC0 ≤ off && off < 0x100 then hivePresent ((off - 0xC0) / 4) s
    else if 0x20010 ≤ off && off < 0x20050 then hivePresent ((off - 0x20010) / 4) s
    else if 0x20200 ≤ off && off < 0x202C0 then monitorThere ((off - 0x20200) / 4) s
    else if 0x20300 ≤ off && off < 0x203C0 then monitorThere ((off - 0x20300) / 4) s
    else if off = 0x60020 || off = 0x60024 then on GLB_CAP.ENC_PRESENT s
    else if 0x12000 ≤ off && off < 0x12080 then hivePresent ((off - 0x12000) / 8) s
    else if off = 0x10144 || off = 0x101C4 || off = 0x10244 || off = 0x102C4 || off = 0x40188 || off = 0x4018C then peerPresent s
    else true

/-! ### Reading -/

/-- STATE of a pseudo-channel (R292). -/
def pcCode (n c p : Nat) (s : State) : Nat :=
  if !pcUsed n c p s then 0
  else
    match (pcOf n c p s).st with
    | .off => 0
    | .active => 1
    | .powerDown => 2
    | .selfRefresh => 3
    | .quiesced => 4

/-- The inline encryption unit is available (R474). -/
def encAvailable (s : State) : Bool := on GLB_CAP.ENC_PRESENT s && s.fw.encKeys.isSome && !on LCS_STATE.KEY_DEAD s

/-- LCS_ENC_CFG.EN as it reads (R475, R480). -/
def encEn (s : State) : Bool :=
  encAvailable s && (on LCS_ENC_CFG.EN s || (rd LCS_STATE.STATE s == 2 && on LCS_ENC_CFG.REQUIRED s))

/-- Bring up to date the read-only fields that follow from the rest of the state, for the register at an offset. -/
def refresh (base : Nat) (ix : List Nat) (s : State) : State :=
  let n := ix.getD 0 0
  let c := ix.getD 1 0
  if base = 0x30048 then putAll [(ECC_QUAR.HP, s.host.quarantine.length), (ECC_QUAR.PP, s.peer.quarantine.length)] s
  else if base = 0x40010 then put PMC_TIME.TIME s.fclk s
  else if base = 0x5000c || base = 0x50018 || base = 0x50048 then peerShow s
  else if base = 0x60020 then put LCS_ENC_CFG.EN (b2n (encEn s)) s
  else if base = 0x120000 then
    putAll [(CHC_STATUS.PC0_STATE n c, pcCode n c 0 s), (CHC_STATUS.PC1_STATE n c, pcCode n c 1 s)] s
  else if base = 0x120004 then
    let q0 := pcOf n c 0 s
    let q1 := pcOf n c 1 s
    putAll [(CHC_QUEUE.RDQ_0 n c, q0.rdq.length), (CHC_QUEUE.WRQ_0 n c, q0.wrq.length), (CHC_QUEUE.RDQ_1 n c, q1.rdq.length),
      (CHC_QUEUE.WRQ_1 n c, q1.wrq.length)] s
  else if base = 0x120008 then
    putAll [(CHC_REF_STATUS.OWED_0 n c, ofSigned 5 (pcOf n c 0 s).owed), (CHC_REF_STATUS.OWED_1 n c, ofSigned 5 (pcOf n c 1 s).owed)] s
  else s

/-- The bits of a register word that a field shows. -/
def fieldBits (f : Fld) (s : State) : Nat :=
  match f.acc with
  | .wo => 0
  | _ => rdShadow f s * 2 ^ f.lo

/-- The whole value of a register: 32 bits, or 64 of a pair. -/
def rowValue (w : RegAt) (s : State) : Nat :=
  let t := refresh w.base w.idx s
  w.flds.foldl (fun v f => v + fieldBits f t) 0

/-- The word of the program store at an offset of its window (R239). -/
def storeWord (n rel : Nat) (s : State) : Nat :=
  let v := mgetD (hive n s).store ((rel - 0x6000) / 8) 0
  if rel / 4 % 2 = 0 then v % 2 ^ 32 else v / 2 ^ 32 % 2 ^ 32

/-- The word of the sampling buffer in its window (R495). -/
def sampleWord (n rel : Nat) (s : State) : Nat :=
  let slot := 128 * rd (PMC_SMP_PAGE.PAGE n) s + (rel - 0x3000) / 32
  (mgetD (mgetD s.samplers n Sampler.init).slots slot []).getD ((rel - 0x3000) / 4 % 8) 0

/-- A word of the MSI-X table or of the Pending Bit Array (R508). -/
def msixWord (off : Nat) (s : State) : Nat :=
  if off < 0x78400 then (if off % 16 = 12 then mgetD s.host.msix ((off - 0x78000) / 4) 1 else mgetD s.host.msix ((off - 0x78000) / 4) 0)
  else if off = 0x79000 then s.host.pba % 2 ^ 32
  else if off = 0x79004 then s.host.pba / 2 ^ 32 % 2 ^ 32
  else 0

/-- Words that are no registers: the MSI-X structures, and in a hive window the program store and the sampling buffer. -/
def windowWord (off : Nat) (s : State) : Nat :=
  match windowHive off with
  | none => if 0x78000 ≤ off && off < 0x7A000 then msixWord off s else 0
  | some n =>
    let rel := off % 0x40000
    if 0x3000 ≤ rel && rel < 0x4000 then sampleWord n rel s
    else if 0x6000 ≤ rel && rel < 0x8000 then storeWord n rel s
    else 0

/-- What a read of the aligned word at an offset returns now, leaving the captures of R7 aside. -/
def regWord (off : Nat) (s : State) : Nat :=
  if !visible off s then 0
  else
    match findWord off with
    | none => windowWord off s
    | some w => if w.hi then rowValue w s / 2 ^ 32 % 2 ^ 32 else rowValue w s % 2 ^ 32

/-- The word is the low half of a pair. -/
def isLow (off : Nat) : Bool :=
  match findWord off with
  | some w => w.wide && !w.hi
  | none => (windowHive off).isSome && decide (0x6000 ≤ off % 0x40000) && decide (off % 0x40000 < 0x8000) && off % 8 == 0

/-- A read of the aligned word at an offset: its value, and the state with the halves captured (R7). -/
def regRead (off : Nat) (s : State) : Nat × State :=
  if isLow off then (regWord off s, { s with hiCap := mset s.hiCap off (regWord (off + 4) s) })
  else
    match mfind s.hiCap (off - 4) with
    | some v => if 4 ≤ off && isLow (off - 4) then (v, { s with hiCap := mdel s.hiCap (off - 4) }) else (regWord off s, s)
    | none => (regWord off s, s)

/-! ### The plain effect of a write (R7, R9) -/

/-- Write one field. (DESIGN CHOICE, log entry 75.) -/
def fieldWrite (v : Nat) (s : State) (f : Fld) : State :=
  let x := bits v f.lo f.w
  match f.acc with
  | .rw => put f x s
  | .w1c => put f (rd f s - (rd f s &&& x)) s
  | .rws => putShadow f x s
  | .rwl => put f x s
  | .ro => s
  | .wo => s

/-- Write a register word by its access types; a low half is held until the high half is written (R7). -/
def plainWrite (off v : Nat) (s : State) : State :=
  match findWord off with
  | none => s
  | some w =>
    if !w.wide then w.flds.foldl (fieldWrite v) s
    else if !w.hi then { s with loHeld := mset s.loHeld off v }
    else
      let lo := (mfind s.loHeld (off - 4)).getD (rowValue w s % 2 ^ 32)
      w.flds.foldl (fieldWrite (lo + v % 2 ^ 32 * 2 ^ 32)) { s with loHeld := mdel s.loHeld (off - 4) }

end Sys2Proof.Machine
end

