-- ==== Sys2Proof/Machine/Image.lean ====
section
/-! DEFINITION. One-time-programmable memory as it is decoded (R463, R464), images and their verification (R439), boot records
(R438) and the settings block (R443 to R445). -/

namespace Sys2Proof.Machine

open Reg

/-! ### OTP words (R463, R464) -/

/-- The bitwise majority of three copies. -/
def maj (w : Nat × Nat × Nat) : Nat := (w.1 &&& w.2.1) ||| (w.1 &&& w.2.2) ||| (w.2.1 &&& w.2.2)

/-- Every bit set in any copy. -/
def anyCopy (w : Nat × Nat × Nat) : Nat := w.1 ||| w.2.1 ||| w.2.2

/-- The life-cycle state of a majority word: the last state whose group and all earlier groups are taken. -/
def lcState (m : Nat) : Nat := ((List.range 4).takeWhile fun k => bits m (8 * k) 8 == 0xFF).length

/-- The groups of a state. -/
def lcGroups (st : Nat) : Nat := 2 ^ (8 * st) - 1

/-- A transition is pending. -/
def lcPending (w : Nat × Nat × Nat) : Bool := anyCopy w != lcGroups (lcState (maj w))

/-- Its target: the state of the highest group with any set bit. -/
def lcTarget (w : Nat × Nat × Nat) : Nat :=
  if lcPending w then ((List.range 4).filter fun k => bits (anyCopy w) (8 * k) 8 != 0).foldl (fun t k => max t (k + 1)) 0 else 0

/-- A 256-bit key item is destroyed when every bit is 1. -/
def keyGone (k : Nat) : Bool := k == 2 ^ 256 - 1

/-- A 256-bit key item is programmed. -/
def keySet (k : Nat) : Bool := k != 0 && !keyGone k

/-- The security-version floor. -/
def secFloor (o : Otp) : Nat := popCount 64 (maj o.floor)

/-- The digest of key slot i. -/
def slotDigest (i : Nat) (o : Otp) : Nat := o.digests.getD i 0

/-- A key slot matches keys: it holds a digest and is not revoked. -/
def slotLive (i : Nat) (o : Otp) : Bool := slotDigest i o != 0 && !(maj o.revoke).testBit i

/-- The lowest slot of a range whose digest is that of a public key. -/
def keySlotOf (lo n : Nat) (key : List Byte) (o : Otp) : Option Nat :=
  let d := beNat (sha384 key)
  ((List.range n).map fun i => lo + i).find? fun i => slotLive i o && slotDigest i o == d

/-- A message signed at its end, r and s over all bytes before them, with its key: the image-key slot that accepts it. -/
def signedBy (bs key : List Byte) (o : Otp) : Option Nat :=
  match keySlotOf 0 4 key o with
  | none => none
  | some i => if ecdsaOk key (sha384 (bs.take (bs.length - 96))) (bs.drop (bs.length - 96)) then some i else none

/-! ### Images (R439) -/

def imgMagic : Nat := 0x31464D4C
def imgVer (b : List Byte) : Nat := leAt b 8 8
def imgSec (b : List Byte) : Nat := leAt b 16 4
def imgLen (b : List Byte) : Nat := leAt b 20 4
def imgCount (b : List Byte) : Nat := leAt b 24 2
def imgSetMin (b : List Byte) : Nat := leAt b 26 2
def imgSetMax (b : List Byte) : Nat := leAt b 28 2
def imgKey (b : List Byte) : List Byte := slice b 32 97

/-- The section entries of an image. -/
def imgSections (b : List Byte) : List (List Byte) := (List.range (imgCount b)).map fun k => slice b (256 + 64 * k) 64

/-- A section lies inside the image and matches its digest. -/
def sectionOk (b e : List Byte) : Bool :=
  decide (leAt e 4 4 + leAt e 8 4 ≤ b.length) && sha384 (slice b (leAt e 4 4) (leAt e 8 4)) == slice e 16 48

/-- The code section for a value of CORES. -/
def codeSections (b : List Byte) (k : Nat) : List (List Byte) := (imgSections b).filter fun e => leAt e 0 1 == 1 && leAt e 1 1 == k

/-- The signed digest of an image. -/
def signedDigest (b : List Byte) : List Byte := sha384 (b.take (b.length - 96))

/-- The header and length of an image hold together. -/
def imgForm (b : List Byte) : Bool :=
  leAt b 0 4 == imgMagic && leAt b 4 2 == 1 && imgLen b == b.length && decide (8288 ≤ b.length) && decide (b.length ≤ 0x4000000) &&
    decide (1 ≤ imgCount b) && decide (imgCount b ≤ 64)

/-- An image verifies: the key slot that verified it. -/
def imgVerify (b : List Byte) (o : Otp) : Option Nat :=
  if imgForm b && decide (secFloor o ≤ imgSec b) && (imgSections b).all (fun e => sectionOk b e) &&
      [0, 1, 2, 3].all (fun k => (codeSections b k).length == 1) then signedBy b (imgKey b) o
  else none

/-- The image in a slot, as far as its LENGTH goes. -/
def slotImage (i : Nat) (s : State) : List Byte :=
  let n := leAt (flRead (slotBase i) 32 s) 20 4
  if n ≤ slotSize then flRead (slotBase i) n s else []

/-- Prompt-book formats fit: each target section accepts what the running one writes (R454). -/
def bookOk (run tgt : List Byte) : Bool :=
  [0, 1, 2, 3].all fun k =>
    match codeSections run k, codeSections tgt k with
    | [r], [t] => decide (leAt t 14 2 ≤ leAt r 12 2) && decide (leAt r 12 2 ≤ leAt t 12 2)
    | _, _ => false

/-! ### Boot records (R438) -/

/-- The address of slot j of boot-record sector i. -/
def bootAddr (i j : Nat) : Nat := bootSectors + 4096 * i + 32 * j

/-- The WRITTEN records: sector, ACT_SEQ and bytes. -/
def bootRecords (s : State) : List (Nat × Nat × List Byte) :=
  ([0, 1].flatMap fun i => (List.range 128).map fun j => (i, flRead (bootAddr i j) 32 s)).filterMap fun x =>
    if x.2.headD 0xFF == 0xFF then none else some (x.1, leAt x.2 4 4, x.2)

/-- The record in force: the one with the highest ACT_SEQ. -/
def bootInForce (s : State) : Option (Nat × Nat × List Byte) :=
  (bootRecords s).foldl (fun (a : Option (Nat × Nat × List Byte)) x =>
    match a with
    | none => some x
    | some y => if y.2.1 < x.2.1 then some x else a) none

/-- The EMPTY slots of a sector. -/
def bootEmpty (i : Nat) (s : State) : List Nat := (List.range 128).filter fun j => (flRead (bootAddr i j) 32 s).all fun b => b == 0xFF

/-- Program a record into the first EMPTY slot of a sector: bytes 1 to 31 first, STATE afterwards. -/
def bootProgram (i : Nat) (body : List Byte) (s : State) : State :=
  match bootEmpty i s with
  | [] => s
  | j :: _ => flProg (bootAddr i j) [0x00] (flProg (bootAddr i j + 1) body s)

/-- Write a boot record for a slot with the next ACT_SEQ (R438, R458). -/
def writeBoot (slot : Nat) (img : List Byte) (s : State) : State :=
  let body := fun (q : Nat) => leBytes 1 slot ++ [0xFF, 0xFF] ++ leBytes 4 q ++ leBytes 8 (imgVer img) ++ (signedDigest img).take 16
  match bootInForce s with
  | none => bootProgram 0 (body 1) s
  | some (i, q, old) =>
    if (bootEmpty i s).length < 4 then
      let t := bootProgram (1 - i) (old.drop 1) (if (bootEmpty (1 - i) s).length < 4 then flErase (bootAddr (1 - i) 0) 4096 s else s)
      bootProgram (1 - i) (body (q + 1)) (flErase (bootAddr i 0) 4096 t)
    else bootProgram i (body (q + 1)) s

/-! ### The settings block (R443 to R445) -/

def setMagic : Nat := 0x31534D4C

/-- The bytes of a settings copy, if its header and CRC are valid. -/
def settingsCopy (i : Nat) (s : State) : Option (List Byte) :=
  let n := leAt (flRead (settingsBase i) 32 s) 12 4
  if leAt (flRead (settingsBase i) 32 s) 0 4 ≠ setMagic || n < 32 || 131072 < n then none
  else
    let b := flRead (settingsBase i) n s
    if crc32 (b.take 16 ++ zeros 4 ++ b.drop 20) = leAt b 16 4 then some b else none

/-- The items of a copy by TYPE; of two with one TYPE the later stands. -/
def parseItems : Nat → List Byte → AMap (List Byte) → AMap (List Byte)
  | 0, _, m => m
  | k + 1, b, m =>
    if b.length < 4 then m
    else
      let n := leAt b 2 2
      if b.length < 4 + n then m
      else parseItems k (b.drop (4 + (n + 3) / 4 * 4)) (mset m (leAt b 0 2) (slice b 4 n))

/-- Bytes of the known item types. -/
def itemSize (ty : Nat) : Option Nat := if ty = 1 then some 16 else if ty = 2 then some 32 else if 3 ≤ ty && ty ≤ 5 then some 4 else none

/-- The default of an item (R444); ISETS has none. -/
def itemDefault (ty : Nat) : List Byte := if ty = 1 then zeros 16 else if ty = 3 then leBytes 4 0xC8 else if ty = 2 then [] else zeros 4

/-- An item in force. -/
def itemOf (ty : Nat) (s : State) : List Byte := (mfind s.fw.items ty).getD (itemDefault ty)

/-- The copy in force: index, SEQ and bytes. -/
def settingsInForce (s : State) : Option (Nat × Nat × List Byte) :=
  match settingsCopy 0 s, settingsCopy 1 s with
  | none, none => none
  | some a, none => some (0, leAt a 8 4, a)
  | none, some b => some (1, leAt b 8 4, b)
  | some a, some b => if leAt a 8 4 < leAt b 8 4 then some (1, leAt b 8 4, b) else some (0, leAt a 8 4, a)

/-- One item as it stands in a copy. -/
def itemBytes (x : Nat × List Byte) : List Byte := leBytes 2 x.1 ++ leBytes 2 x.2.length ++ padTo ((x.2.length + 3) / 4 * 4) x.2

/-- The bytes of a copy. -/
def settingsBytes (fmt seq : Nat) (items : AMap (List Byte)) : List Byte :=
  let body := items.flatMap itemBytes
  let head := leBytes 4 setMagic ++ leBytes 2 fmt ++ zeros 2 ++ leBytes 4 seq ++ leBytes 4 (32 + body.length)
  let all := head ++ zeros 16 ++ body
  head ++ leBytes 4 (crc32 all) ++ zeros 12 ++ body

/-- Write a new copy over the copy not in force (R445). -/
def writeSettings (fmt : Nat) (items : AMap (List Byte)) (s : State) : State :=
  match settingsInForce s with
  | none => flProg (settingsBase 0) (settingsBytes fmt 1 items) (flErase (settingsBase 0) 0x20000 s)
  | some (i, q, _) => flProg (settingsBase (1 - i)) (settingsBytes fmt (q + 1) items) (flErase (settingsBase (1 - i)) 0x20000 s)

/-- The items of the block as they would be loaded at a start. -/
def blockItems (s : State) : AMap (List Byte) :=
  match settingsInForce s with
  | none => []
  | some (_, _, b) => (parseItems 32768 (b.drop 32) []).filter fun x => itemSize x.1 == some x.2.length

/-- Load the items into their registers, where they are registers (R444). -/
def loadItems (s : State) : State :=
  let upd := leNat (itemOf 3 s)
  let rel := leNat (itemOf 4 s)
  putAll [(FWM_UPD_CFG.SRC, if peerPresent s then bits upd 0 1 else 0), (FWM_UPD_CFG.AUTO_ACT, bits upd 1 1),
    (FWM_UPD_CFG.SAFE_MS, bits upd 2 8), (FWM_RELAY_CFG.FWD, bits rel 0 1), (FWM_RELAY_CFG.LINK, bits rel 1 6),
    (FWM_RELAY_CFG.NEXT, bits rel 8 20), (FWM_CORE_CLASS.CLASS, bits (leNat (itemOf 5 s)) 0 5)] s

end Sys2Proof.Machine
end

