-- ==== Sys2Proof/Machine/Update.lean ====
section
/-! DEFINITION. The service port (R67 to R70), live update (R451 to R458) and the swarm relay (R459 to R461). -/

namespace Sys2Proof.Machine

open Reg

/-! ### The service port (R68 to R70) -/

/-- Send an SVC message: its FLAGS byte is 0 and its CRC is little-endian, as its other fields are; R68 states neither for what the block
sends. (DEDUCED, log entry 76.) -/
def svcSend (ty : Nat) (payload : List Byte) (s : State) : State :=
  let m := leBytes 1 ty ++ [0] ++ leBytes 2 payload.length ++ payload
  { s with out := { s.out with svc := s.out.svc ++ [m ++ leBytes 4 (crc32 m)] } }

/-- Answer with ERROR. -/
def svcError (reason : Nat) (s : State) : State := svcSend 0xFF [BitVec.ofNat 8 reason] s

/-- Whether the answers to a message leave at once, or the message is processed until the next round, is a free value (R70).
(DESIGN CHOICE, log entry 68.) -/
def svcHold (k : Nat) (s : State) : State :=
  let late := (Config.freeData s.free).getLsbD 0
  let t := freshDraw s
  { t with svcWait := if late then t.out.svc.drop k else [], out := { t.out with svc := if late then t.out.svc.take k else t.out.svc } }

/-- The answers of the message that was being processed leave. -/
def svcFlush (s : State) : State := { s with svcWait := [], out := { s.out with svc := s.out.svc ++ s.svcWait } }

/-- A message arrives on SVC for the command of TYPE `ty`: its form is checked (R68), then what the stage serves (R70, R442,
R466). A message that comes while another is processed is answered with ERROR 6. Where several of the checks fail, the length decides before the CRC and the CRC before the TYPE. A message of
another known TYPE is another command's. (DESIGN CHOICE, log entry 68.) -/
def svcIn (ty : Nat) (msg : List Byte) (rom : Bool) (serve : List Byte → State → State) (s : State) : State :=
  let n := leAt msg 2 2
  if !s.svcWait.isEmpty then svcError 6 s
  else if msg.length < 8 || 4096 < n then svcError 2 s
  else if msg.length ≠ n + 8 || leAt msg (4 + n) 4 ≠ crc32 (msg.take (4 + n)) then svcError 1 s
  else
    let t := leAt msg 0 1
    if t = 0 || 7 < t then svcError 3 s
    else if t ≠ ty then s
    else if (!coreReady 0 s && !rom) || (rd LCS_STATE.STATE s == 4 && ty != 1) then svcError 4 s
    else svcHold s.out.svc.length (serve (slice msg 4 n) s)

/-- The STATUS payload (R451). -/
def statusPayload (s : State) : List Byte :=
  leBytes 4 (regWord 0x4 s) ++ leBytes 4 (regWord 0x20000 s) ++ leBytes 8 (rd FWM_IMG_VER.VER s) ++ leBytes 8 (rd FWM_ALT_VER.VER s) ++
    leBytes 1 (rd FWM_UPD_STATUS.STATE s) ++ leBytes 1 (rd FWM_UPD_STATUS.RESULT s) ++ zeros 2 ++ leBytes 4 (rd FWM_CORE_READY.CORES s)

/-- STATUS_REQ. -/
def statusReq (msg : List Byte) (s : State) : State := svcIn 1 msg true (fun _ t => svcSend 0x81 (statusPayload t) t) s

/-! ### Staging (R451, R452) -/

/-- Answer with UPDATE_PROGRESS; `result` overrides the RESULT shown. -/
def svcProgress (result : Option Nat) (s : State) : State :=
  svcSend 0x83 (leBytes 4 (rd FWM_UPD_PROGRESS.PROGRESS s) ++ leBytes 1 (rd FWM_UPD_STATUS.STATE s) ++
    leBytes 1 (result.getD (rd FWM_UPD_STATUS.RESULT s))) s

def updState (s : State) : Nat := rd FWM_UPD_STATUS.STATE s

/-- The progress word of the update; the percentage never falls within one update (R16, R452). -/
def updProgress (pct bytes : Nat) (s : State) : State :=
  put FWM_UPD_PROGRESS.PROGRESS (max pct (bits (rd FWM_UPD_PROGRESS.PROGRESS s) 24 8) * 2 ^ 24 + bytes / 1024 % 2 ^ 24) s

/-- Start the receipt of a package. -/
def updStart (len : Nat) (full act : Bool) (s : State) : State :=
  let t := putAll [(FWM_UPD_STATUS.STATE, 1), (FWM_UPD_STATUS.RESULT, 0), (FWM_UPD_STATUS.VALID, 0), (FWM_UPD_PROGRESS.PROGRESS, 0)] s
  { t with fw := { t.fw with pkg := [], pkgLen := len, full := full, activate := act, bookBad := false, deferred := none, tries := 0 } }

/-- A RAISE_FLOOR runs (R470): the life-cycle command that shows BUSY stands in CMD, which reads as zero. -/
def raising (s : State) : Bool := on LCS_CMD.BUSY s && rd LCS_CMD.CMD s == 3

/-- UPDATE_BEGIN; result BUSY answers one that comes at the wrong time (R457, R470). -/
def updateBegin (msg : List Byte) (s : State) : State :=
  svcIn 2 msg (on FWM_STATUS.RECOVERY s) (fun p t =>
    if on FWM_UPD_CFG.SRC t && !on FWM_STATUS.RECOVERY t then svcError 5 t
    else if p.length < 9 then svcError 2 t
    else if (updState t ≠ 0 && updState t ≠ 6) || raising t then svcProgress (some 13) t
    else svcProgress none (updStart (leAt p 0 8) ((leAt p 8 1).testBit 0) ((leAt p 8 1).testBit 1) t)) s

/-- Store bytes of the package at an offset; bytes beyond its length are dropped. -/
def stage (m : AMap Byte) (len o : Nat) : List Byte → AMap Byte
  | [] => m
  | b :: bs => stage (if o < len then mset m o b else m) len (o + 1) bs

/-- UPDATE_CHUNK. -/
def updateChunk (msg : List Byte) (s : State) : State :=
  svcIn 3 msg (on FWM_STATUS.RECOVERY s) (fun p t =>
    if p.length < 9 then svcError 2 t
    else if updState t ≠ 1 then svcProgress none t
    else
      let m := stage t.fw.pkg t.fw.pkgLen (leAt p 0 8) (p.drop 8)
      let t := { (if on FWM_STATUS.RECOVERY s then t else fwWrite .package (leAt p 0 8) ((p.drop 8).take (min t.fw.pkgLen (2 ^ 27) - leAt p 0 8)) t) with fw := { t.fw with pkg := m } }
      svcProgress none (updProgress (9 * m.length / max 1 t.fw.pkgLen) m.length t)) s

/-- UPDATE_END. -/
def updateEnd (msg : List Byte) (s : State) : State :=
  svcIn 4 msg (on FWM_STATUS.RECOVERY s) (fun _ t =>
    svcProgress none (if updState t = 1 then put FWM_UPD_STATUS.STATE 2 t else t)) s

/-! ### Delta packages (R451) -/

/-- The bytes of the staged package. -/
def packageBytes (s : State) : List Byte := (List.range s.fw.pkgLen).map fun i => mgetD s.fw.pkg i 0

/-- The target image that operations make of a base, at most `room` bytes more; none if they are not well formed. -/
def applyOps (base : List Byte) : Nat → List Byte → Nat → Option (List Byte)
  | 0, _, _ => none
  | k + 1, ops, room =>
    if ops.isEmpty then some []
    else if ops.length < 8 then none
    else
      let w := leAt ops 0 8
      let n := bits w 0 30
      let rest := ops.drop 8
      if room < n then none
      else if bits w 62 2 = 0 then
        let o := 8 * bits w 32 30
        if base.length < o + n then none else (applyOps base k rest (room - n)).map fun l => slice base o n ++ l
      else if bits w 62 2 = 1 then
        let m := (n + 7) / 8 * 8
        if rest.length < m then none else (applyOps base k (rest.drop m) (room - n)).map fun l => rest.take n ++ l
      else if bits w 62 2 = 2 then
        (applyOps base k rest (room - n)).map fun l => List.replicate n (BitVec.ofNat 8 (bits w 32 8)) ++ l
      else none

/-- The slot that the cores run. -/
def runSlot (s : State) : Nat := rd FWM_STATUS.RUN_SLOT s

/-- The running image. -/
def runImage (s : State) : List Byte := slotImage (runSlot s) s

def deltaOps (p : List Byte) : Nat := leAt p 76 4

/-- The form of a delta package: its length, magic and sizes. -/
def deltaForm (p : List Byte) : Bool :=
  decide (321 ≤ p.length) && decide (p.length ≤ 0x8000000) && leAt p 0 4 == 0x31444D4C && p.length == 321 + deltaOps p

/-- The public key of a delta package. -/
def deltaKey (p : List Byte) : List Byte := slice p (p.length - 193) 97

/-- The target image of a delta package. -/
def deltaTarget (p base : List Byte) : Option (List Byte) :=
  match applyOps base (p.length + 1) (slice p 128 (deltaOps p)) (leAt p 72 4) with
  | some t => if t.length = leAt p 72 4 then some t else none
  | none => none

/-- The check of a delta package against the running image: a failing result of R452, or the target. -/
def checkDelta (p : List Byte) (s : State) : Nat × List Byte :=
  let run := runImage s
  if !deltaForm p then (2, [])
  else if (signedBy p (deltaKey p) s.otp).isNone then (3, [])
  else if leAt p 8 8 ≠ imgVer run || slice p 16 48 ≠ signedDigest run then (4, [])
  else if leAt p 64 8 ≤ imgVer run then (5, [])
  else
    match deltaTarget p run with
    | none => (2, [])
    | some t => if 0x4000000 < t.length then (2, []) else (0, t)

/-- The check of a whole image; in recovery no image runs to compare with. -/
def checkFull (p : List Byte) (s : State) : Nat × List Byte :=
  if !imgForm p then (2, [])
  else if (imgVerify p s.otp).isNone then (3, [])
  else if !on FWM_STATUS.RECOVERY s && decide (imgVer p ≤ imgVer (runImage s)) then (5, [])
  else (0, p)

/-- The check of the staged package: the failing result, or 0 with the target image. (DESIGN CHOICE, log entry 64.) -/
def checkPackage (s : State) : Nat × List Byte :=
  if s.fw.pkg.length ≠ s.fw.pkgLen then (2, [])
  else if s.fw.full then checkFull (packageBytes s) s
  else if on FWM_STATUS.RECOVERY s then (2, [])
  else checkDelta (packageBytes s) s

/-- The end of CHECKING: on to APPLYING, or the end with a result; the flash is untouched (R452). -/
def updChecked (s : State) : State :=
  if updState s ≠ 2 then s
  else
    let r := (checkPackage s).1
    let t := if on FWM_STATUS.RECOVERY s then s else fwRead .package 0 (min s.fw.pkg.length (2 ^ 27)) s
    if r ≠ 0 then updEnd 0 r t else updProgress 10 0 (put FWM_UPD_STATUS.STATE 3 t)

/-! ### Applying, verifying, loading (R452 to R454) -/

/-- The slot that an update programs. -/
def targetSlot (s : State) : Nat := if on FWM_STATUS.RECOVERY s then 0 else 1 - runSlot s

/-- UPDATE_APPLY_DONE: the slot has been erased and programmed; the update pauses outside the window of R423. -/
def updateApplyDone (flashError : Bool) (s : State) : State :=
  if updState s ≠ 3 || !flashOk s then s
  else
    let tgt := (checkPackage s).2
    let t := put FWM_ALT_VER.VER 0 (flErase (slotBase (targetSlot s)) slotSize s)
    if flashError then updEnd 0 7 t
    else updProgress 90 tgt.length (put FWM_UPD_STATUS.STATE 4 (flProg (slotBase (targetSlot s)) tgt t))

/-- The digest that the programmed slot must have. -/
def wantedDigest (s : State) : List Byte :=
  if s.fw.full then sha384 (packageBytes s) else slice (packageBytes s) 80 48

/-- The length that the target image must have. -/
def wantedLen (s : State) : Nat := if s.fw.full then s.fw.pkgLen else leAt (packageBytes s) 72 4

/-- UPDATE_VERIFY_DONE: the slot is read, compared and verified (R452, R439); in recovery a boot record follows (R441). -/
def updateVerifyDone (flashError : Bool) (s : State) : State :=
  if updState s ≠ 4 then s
  else
    let b := flRead (slotBase (targetSlot s)) (wantedLen s) s
    if flashError then updEnd 0 7 s
    else if sha384 b ≠ wantedDigest s || (imgVerify b s.otp).isNone then updEnd 0 6 s
    else if on FWM_STATUS.RECOVERY s then
      if flashOk s then updEnd 0 14 (updProgress 100 b.length (writeBoot 0 b s)) else s
    else updProgress 95 b.length (putAll [(FWM_ALT_VER.VER, imgVer b), (FWM_UPD_STATUS.STATE, 5)] s)

/-- UPDATE_LOAD_DONE: the prompt-book formats fit and the standby banks are loaded (R454). -/
def updateLoadDone (s : State) : State :=
  if updState s ≠ 5 then s
  else
    let tgt := slotImage (targetSlot s) s
    if !bookOk (runImage s) tgt then
      let t := updEnd 0 8 s
      { t with fw := { t.fw with bookBad := true } }
    else
      let t := updProgress 100 tgt.length (put FWM_UPD_STATUS.STATE 6 s)
      { t with fw := { t.fw with activate := t.fw.activate || on FWM_UPD_CFG.AUTO_ACT t } }

/-! ### Activation (R455 to R458) -/

/-- Activation is held (R455). -/
def actHeld (s : State) : Bool :=
  decide (2 ≤ rd THM_STATE.BLOCK s) || (List.range 16).any (fun n => on (HIV_THM_STATE.LEVEL n) s) || on THM_STATE.SHR_LEVEL s ||
    on PWR_EMERG.OPEN s || on THM_STATE.PENDING s || s.power.shut.isSome || !coreReady 1 s

/-- The evaluation of R455 in every round. -/
def evalActivation (s : State) : State :=
  let st := updState s
  if (st ≠ 6 && st ≠ 7) || !s.fw.activate then s
  else if actHeld s then
    let t := put FWM_UPD_STATUS.STATE 7 s
    { t with fw := { t.fw with deferred := some (t.fw.deferred.getD t.rounds) } }
  else put FWM_UPD_STATUS.STATE 8 s

/-- The image-key slot that verified an image: the lowest that holds the digest of its public key. -/
def keyOfImage (img : List Byte) (s : State) : Nat :=
  let d := beNat (sha384 (imgKey img))
  ((List.range 4).find? fun i => slotDigest i s.otp == d).getD s.fw.keySlot

/-- The cores switch to their standby banks in one step and RUN_SLOT changes (R456, step 3), and with it the key slot of the
running image (R471). -/
def switchBanks (s : State) : State :=
  let s := { s with fw := { s.fw with keySlot := keyOfImage (slotImage (1 - runSlot s) s) s } }
  let t := (List.range 21).foldl (fun t i => setCore i { coreOf i t with bank := 1 - (coreOf i t).bank } t) s
  putAll [(FWM_STATUS.RUN_SLOT, 1 - runSlot s), (FWM_IMG_VER.VER, rd FWM_ALT_VER.VER s), (FWM_ALT_VER.VER, rd FWM_IMG_VER.VER s)] t

/-- HANDOVER: `safe` and `stageSafe` say that steps 1 and 2 ended in time, `ready` names the cores that report READY (R456). -/
def handover (safe stageSafe : Bool) (ready : List Nat) (s : State) : State :=
  if updState s ≠ 8 then s
  else if !safe || !stageSafe then
    if s.fw.tries + 1 < 3 then
      let t := put FWM_UPD_STATUS.STATE 6 s
      { t with fw := { t.fw with tries := t.fw.tries + 1 } }
    else updEnd 6 9 s
  else if actHeld s then
    let t := put FWM_UPD_STATUS.STATE 7 s
    { t with fw := { t.fw with deferred := some (t.fw.deferred.getD t.rounds) } }
  else
    let t := put FWM_UPD_STATUS.STATE 9 (switchBanks s)
    ((List.range 21).filter fun i => decide (1 ≤ i) && !ready.contains i && coreReady i t).foldl (fun t i => coreFail i 1 t) t

/-- BOOT_RECORD_WRITE: the record of the new slot is written within the window of R423, and the update ends (R458). -/
def bootRecordWrite (s : State) : State :=
  if updState s ≠ 9 || !flashOk s || !coreReady 0 s then s else updEnd 0 1 (writeBoot (runSlot s) (runImage s) s)

/-- DEFERRAL_TIMEOUT: 10 minutes, in rounds, since the update first entered DEFERRED (R455). -/
def deferralTimeout (s : State) : State :=
  if updState s = 7 && s.fw.deferred.any (fun r => decide (r + 600000 ≤ s.rounds)) then updEnd 6 10 s else s

/-! ### The swarm relay (R459 to R461) -/

def relayOf (s : State) : Relay := s.peer.relay

def setRelay (r : Relay) (s : State) : State := { s with peer := { s.peer with relay := r } }

/-- The relay ends with a result (R462). -/
def relayEnd (result : Nat) (s : State) : State :=
  putAll [(FWM_RELAY_STATUS.RESULT, result), (FWM_RELAY_STATUS.BUSY, 0), (FWM_RELAY_STATUS.VALID, 1)] (setRelay ⟨0, [], 0, false, []⟩ s)

/-- The bytes received from an offset, as far as they go. -/
def relayBytes (m : AMap Byte) (o n : Nat) : List Byte := (List.range n).map fun i => mgetD m (o + i) 0

/-- The packet holds the same first 128 bytes as the package being received. -/
def sameHead (r : Relay) (d : List Byte) : Bool := r.len == 0 || relayBytes r.bytes 0 128 == d.take 128

/-- Buffer the bytes of a packet; OFFSET 0 gives the length of the package, and other first bytes restart the receipt. -/
def relayTake (o : Nat) (d : List Byte) (s : State) : State :=
  let r := relayOf s
  let fresh := r.bytes.isEmpty || (o == 0 && !sameHead r d)
  let r := if o = 0 && !sameHead r d then ⟨0, [], 0, false, []⟩ else r
  let len := if o = 0 then 321 + leAt d 76 4 else r.len
  let s := if fresh then putAll [(FWM_RELAY_STATUS.VALID, 0), (FWM_RELAY_STATUS.BUSY, 1), (FWM_RELAY_STATUS.RESULT, 0)] s else s
  setRelay { r with len := len, bytes := stage r.bytes (if len = 0 then 2 ^ 27 else len) o d } s

/-- A packet at an offset repeats bytes of a package, as far as the package goes. -/
def sameBytes (p : List Byte) (o : Nat) (d : List Byte) : Bool := decide (o < p.length) && slice p o d.length == d.take (p.length - o)

/-- PP_IN_RELAY (R395, R406, R459, R460). While a package is forwarded, only packets that repeat it are acknowledged. -/
def ppInRelay (x : PpIn) (s : State) : State :=
  let w := x.slot
  let d := x.data
  ppArrive 5 x s fun t => ppCheck w t fun _ u =>
    if !on FWM_UPD_CFG.SRC u then ppAnswer w rtWrAck 0 0 (bump FWM_RELAY_STATUS.DISCARDED 1 u)
    else if (relayOf u).forwarding then
      if sameBytes (relayOf u).package (ppOff w) (d.take (64 * ppBeats w)) then ppAnswer w rtWrAck 0 0 u else u
    else ppAnswer w rtWrAck 0 0 (relayTake (ppOff w) (d.take (64 * ppBeats w)) u)

/-- The packets of a package to the next node, in ascending OFFSET. -/
def relayPackets (p : List Byte) (s : State) : List PeerReq :=
  (List.range ((p.length + 4095) / 4096)).map fun i =>
    let d := slice p (4096 * i) 4096
    peerReq .relay 18 5 (rd FWM_RELAY_CFG.LINK s) (rd FWM_RELAY_CFG.NEXT s) (4096 * i) ((d.length + 63) / 64) false 0 0 0
      (padTo ((d.length + 63) / 64 * 64) d) s

/-- A complete relayed package is applied locally from CHECKING onward, unless an update is already under way.
(DESIGN CHOICE, log entry 53.) -/
def relayApply (p : List Byte) (s : State) : State :=
  if updState s ≠ 0 && updState s ≠ 6 then s
  else
    let t := put FWM_UPD_STATUS.STATE 2 (updStart p.length false false s)
    { t with fw := { t.fw with pkg := (p.zipIdx).map fun x => (x.2, x.1) } }

/-- Packets of the relay that have not been answered. -/
def relayOpen (s : State) : Bool :=
  s.peer.reqs.any (fun x => x.2.dest == .relay) || s.peer.queue.any (fun r => r.dest == .relay)

/-- Start forwarding a package in ascending OFFSET, while FWD is 1 and LINK names a link; VALID goes at its first packet. -/
def startForward (p : List Byte) (s : State) : State :=
  let t := setRelay { relayOf s with len := p.length, forwarding := true, package := p, bytes := [], sent := p.length } s
  let t := putAll [(FWM_RELAY_PROGRESS.PROGRESS, 0), (FWM_RELAY_STATUS.BUSY, 1), (FWM_RELAY_STATUS.VALID, 0),
    (FWM_RELAY_STATUS.RESULT, 0)] t
  pumpPp { t with peer := { t.peer with queue := t.peer.queue ++ relayPackets p t } }

/-- The relay forwards packages. -/
def forwards (s : State) : Bool := peerPresent s && on FWM_RELAY_CFG.FWD s && decide (rd FWM_RELAY_CFG.LINK s < 36)

/-- RELAY_FORWARD: a complete package is checked, then forwarded and applied; a forwarding whose packets are all acknowledged
ends (R460). -/
def relayForward (s : State) : State :=
  let r := relayOf s
  if r.forwarding then
    if relayOpen s then s
    else relayEnd 1 (put FWM_RELAY_PROGRESS.PROGRESS (100 * 2 ^ 24 + r.package.length / 1024 % 2 ^ 24) s)
  else if r.len = 0 || r.bytes.length < r.len then s
  else
    let p := relayBytes r.bytes 0 r.len
    if !deltaForm p then relayEnd 4 s
    else if (signedBy p (deltaKey p) s.otp).isNone then relayEnd 2 s
    else
      let t := relayApply p s
      if forwards t then startForward p t else relayEnd 0 t

/-- What the relay does with a delta package that came by SVC (R460). -/
def relayOfSvc (s : State) : State :=
  let p := packageBytes s
  if on FWM_UPD_CFG.SRC s || s.fw.full || s.fw.pkg.length ≠ s.fw.pkgLen || !deltaForm p || (relayOf s).forwarding then s
  else if (signedBy p (deltaKey p) s.otp).isNone then putAll [(FWM_RELAY_STATUS.RESULT, 2), (FWM_RELAY_STATUS.VALID, 1)] s
  else if forwards s then startForward p s
  else s

/-- UPDATE_CHECK_DONE: the package has been checked (R452); one that came by SVC is forwarded as well (R460). -/
def updateCheckDone (s : State) : State := if updState s = 2 then updChecked (relayOfSvc s) else s

/-- RELAY_RESEND: a packet that met a fault or a timeout is sent again, at most three times (R461). -/
def relayResend (tag : Nat) (s : State) : State :=
  match mfind s.peer.reqs tag with
  | none => s
  | some r =>
    if r.dest != .relay || r.got.isEmpty then s
    else
      let t := { s with peer := { s.peer with reqs := mdel s.peer.reqs tag } }
      if !(relayOf t).forwarding then pumpPp t
      else if r.resent < 3 then sendPeer { r with got := [], resent := r.resent + 1 } t
      else
        let t := { t with peer := { t.peer with queue := t.peer.queue.filter fun x => x.dest != .relay } }
        postEvent 11 0 1 [] (relayEnd 3 t)

end Sys2Proof.Machine
end

