-- ==== Sys2Proof/Machine/Mailbox.lean ====
section
/-! DEFINITION. The mailbox (R446, R447), settings writes (R445), the mailbox requests and the interrupt mask (R449). -/

namespace Sys2Proof.Machine

open Reg

/-! ### The request queue (R446) -/

/-- The box office serves the mailbox now. -/
def mbxServing (s : State) : Bool := coreReady 0 s && hasOpened s && !mailboxAway s

/-- A bus-master read of requests is outstanding or waits for a tag. -/
def mbxReading (s : State) : Bool :=
  let is := fun (r : HpRead) => match r.dest with | .mailbox _ => true | _ => false
  s.host.reads.any (fun x => is x.2) || s.host.waiting.any is

/-- Read requests up to the tail: consecutive entries of the queue by one bus-master read, within the request ring's 256 entries. -/
def mbxPump (s : State) : State :=
  let n := 2 ^ mbxLog2 FWM_MBX_REQ_CFG.LOG2 s
  let i := s.fw.mbxFetched % (2 * n)
  let avail := (rd FWM_MBX_REQ_TAIL.TAIL s % (2 * n) + 2 * n - i) % (2 * n)
  let k := min (min avail (n - i % n)) (min (maxRead s / 64) (256 - s.fw.mbxReq.length))
  if !on FWM_MBX_REQ_CFG.EN s || !mbxServing s || mbxReading s || decide (n < avail) || k = 0 then s
  else
    askHost ⟨rd FWM_MBX_REQ_BASE.ADDR s + 64 * (i % n), 64 * k, .mailbox i, []⟩
      { s with fw := { s.fw with mbxFetched := (i + k) % (2 * n) } }

/-! ### Requests and responses (R447) -/

def mbxType (r : List Nat) : Nat := r.getD 0 0 % 256
def mbxTag (r : List Nat) : Nat := bits (r.getD 0 0) 16 16
def mbxArg (r : List Nat) : Nat := r.getD 1 0

def mrOk : Nat := 0
def mrBadType : Nat := 1
def mrBadArg : Nat := 2
def mrBusy : Nat := 3
def mrFlashTemp : Nat := 4
def mrFlashError : Nat := 5

/-- The sixteen words of a response; the payload stands from word 2, the phase bit of R191 in word 15.
(DESIGN CHOICE, log entry 66.) -/
def respWords (result : Nat) (r payload : List Nat) (tail log2 : Nat) : List Nat :=
  [0x80 + result * 2 ^ 8 + mbxTag r * 2 ^ 16, mbxType r] ++ (payload ++ List.replicate 13 0).take 13 ++
    [if tail.testBit log2 then 0 else 2 ^ 31]

/-- Answer the oldest request and take it off the queue. -/
def mbxAnswer (result : Nat) (payload : List Nat) (s : State) : State :=
  match s.fw.mbxReq with
  | [] => s
  | r :: rs =>
    let t := fwRead .requests (64 * ((s.fw.mbxFetched + 256 - s.fw.mbxReq.length) % 256)) 64 s
    evQueueWrite (respWords result r payload) { t with fw := { t.fw with mbxReq := rs } }

/-- The oldest request, if the box office can serve and answer it now. -/
def mbxHead (s : State) : Option (List Nat) :=
  if mbxServing s && evQueueReady s then s.fw.mbxReq.head? else none

/-- Answer leading requests of unknown TYPE. -/
def skipBad : Nat → State → State
  | 0, s => s
  | n + 1, s =>
    match mbxHead s with
    | some r => if mbxType r = 0 || 7 < mbxType r then skipBad n (mbxAnswer mrBadType [] s) else s
    | none => s

/-- The mailbox goes on: unknown requests are answered and further requests are read. -/
def mbxGo (s : State) : State := mbxPump (skipBad s.fw.mbxReq.length s)

/-- Serve the oldest request if it has the TYPE of the command: requests are served in queue order. -/
def mbxServe (ty : Nat) (f : List Nat → State → State) (s : State) : State :=
  let t := mbxGo s
  match mbxHead t with
  | some r => if mbxType r = ty then mbxGo (f r t) else t
  | none => t

/-- MBX_REQ_TAIL_WRITE. -/
def mbxReqTailWrite (v : Nat) (s : State) : State := mbxGo (put FWM_MBX_REQ_TAIL.TAIL v s)

/-- MBX_EVT_HEAD_WRITE: consumed entries return, and waiting events are written. -/
def mbxEvtHeadWrite (v : Nat) (s : State) : State := mbxGo (flushEvents (put FWM_MBX_EVT_HEAD.HEAD v s))

/-- Words from bytes, padded to a whole word. -/
def bytesToWords (b : List Byte) : List Nat := (List.range ((b.length + 3) / 4)).map fun i => leAt b (4 * i) 4

/-- STATUS. -/
def mbxStatus (s : State) : State := mbxServe 1 (fun _ t => mbxAnswer mrOk (bytesToWords (statusPayload t)) t) s

/-- SETTINGS_READ: the item in force, as TYPE, LENGTH and value. -/
def settingsRead (s : State) : State :=
  mbxServe 2 (fun r t =>
    let ty := mbxArg r % 2 ^ 16
    if (itemSize ty).isNone then mbxAnswer mrBadArg [] t
    else mbxAnswer mrOk (bytesToWords (itemBytes (ty, itemOf ty t))) t) s

/-- Store a settings item: a new copy with SEQ + 1, written over the copy not in force (R445). -/
def storeItem (ty : Nat) (v : List Byte) (s : State) : State :=
  writeSettings (imgSetMax (runImage s)) (mset (blockItems s) ty v) s

/-- SETTINGS_WRITE; `flashError` says that the flash failed, which leaves the copy not in force erased. -/
def settingsWrite (flashError : Bool) (s : State) : State :=
  mbxServe 3 (fun r t =>
    let b := wordBytes (r.drop 1)
    let ty := leAt b 0 2
    let n := leAt b 2 2
    if itemSize ty != some n then mbxAnswer mrBadArg [] t
    else if !flashOk t then mbxAnswer mrFlashTemp [] t
    else if flashError then
      mbxAnswer mrFlashError [] (flErase (settingsBase ((settingsInForce t).elim 0 fun x => 1 - x.1)) 0x20000 t)
    else mbxAnswer mrOk [] (storeItem ty (slice b 4 n) t)) s

/-- A core is restarted by request: recorded and posted, without a delay (R433). -/
def coreAsked (i : Nat) (s : State) : State :=
  let t := putAll [(FWM_CORE_ERR.CORE, i), (FWM_CORE_ERR.REASON, 4), (FWM_CORE_ERR.VALID, 1)] s
  let t := coreDown i (postEvent 9 i 4 [] (bump FWM_CORE_ERR.COUNT 1 t))
  setCore i { coreOf i t with restarting := true, waiting := false } t

/-- CORE_RESTART: by parity error (2) or illegal instruction (3) of the named core, or (4) by the oldest mailbox request. -/
def coreRestart (core reason : Nat) (s : State) : State :=
  if reason = 4 then
    mbxServe 4 (fun r t =>
      let i := mbxArg r
      if !corePresent i t || (coreOf i t).retired then mbxAnswer mrBadArg [] t else coreAsked i (mbxAnswer mrOk [] t)) s
  else if 1 ≤ reason && reason ≤ 3 then coreFail core reason s
  else s

/-- Write the boot record of the other slot for the next reset (R454). -/
def coldRecord (s : State) : State :=
  let t := updEnd 0 14 (writeBoot (1 - runSlot s) (slotImage (1 - runSlot s) s) s)
  { t with fw := { t.fw with bookBad := false } }

/-- UPD_ACTIVATE (R454, R455). -/
def updActivate (s : State) : State :=
  mbxServe 5 (fun r t =>
    let st := updState t
    if (mbxArg r).testBit 0 then
      if st ≠ 6 && st ≠ 7 && !(st == 0 && t.fw.bookBad) then mbxAnswer mrBusy [] t
      else if !flashOk t then mbxAnswer mrFlashTemp [] t
      else mbxAnswer mrOk [] (coldRecord t)
    else if st ≠ 6 && st ≠ 7 then mbxAnswer mrBusy [] t
    else mbxAnswer mrOk [] { t with fw := { t.fw with activate := true } }) s

/-- UPD_ABORT (R457). -/
def updAbort (s : State) : State :=
  mbxServe 6 (fun _ t =>
    let st := updState t
    if 8 ≤ st then mbxAnswer mrBusy [] t
    else if st = 0 then mbxAnswer mrOk [] t
    else mbxAnswer mrOk [] (updEnd 0 11 t)) s

/-- EVENT_READ: the record of the flash event log at an index, oldest first. -/
def eventRead (s : State) : State :=
  mbxServe 7 (fun r t =>
    match t.evLog[mbxArg r]? with
    | some e => mbxAnswer mrOk (eventWords e 0 0) t
    | none => mbxAnswer mrBadArg [] t) s

/-! ### The interrupt mask (R449) -/

/-- INT_MASK_WRITE: clearing a mask bit whose status bit is set sends one message. -/
def intMaskWrite (v : Nat) (s : State) : State :=
  let old := rd INT_MASK.MASK s
  let t := put INT_MASK.MASK v s
  let due := (List.range 5).any fun i => old.testBit i && !v.testBit i && on (intField i) s
  if due && !mailboxAway t then sendMsg 0 t else t

end Sys2Proof.Machine
end

