-- ==== Sys2Proof/Machine/LifeCycle.lean ====
section
/-! DEFINITION. The life cycle (R463 to R471), debug authorisation (R472, R473) and the audit ledger (R476 to R479). -/

namespace Sys2Proof.Machine

open Reg

/-! ### Programming OTP words (R467 to R469) -/

/-- One word to program: the item (0 LC, 1 KEY_KILL, 2 SEC_FLOOR, 3 KEY_REVOKE, 4 ENC_ROOT, 5 ID_SEED), its copy, or the 32-bit
word of a key item, and the bits to set. -/
abbrev OtpWord := Nat × Nat × Nat

/-- Set bits in one copy of a triple. -/
def orCopy (w : Nat × Nat × Nat) (copy b : Nat) : Nat × Nat × Nat :=
  match copy with
  | 0 => (w.1 ||| b, w.2.1, w.2.2)
  | 1 => (w.1, w.2.1 ||| b, w.2.2)
  | _ => (w.1, w.2.1, w.2.2 ||| b)

/-- Program a word: bits are only set. -/
def otpProg (o : Otp) (w : OtpWord) : Otp :=
  match w.1 with
  | 0 => { o with lc := orCopy o.lc w.2.1 w.2.2 }
  | 1 => { o with kill := orCopy o.kill w.2.1 w.2.2 }
  | 2 => { o with floor := orCopy o.floor w.2.1 w.2.2 }
  | 3 => { o with revoke := orCopy o.revoke w.2.1 w.2.2 }
  | 4 => { o with encRoot := o.encRoot ||| (w.2.2 * 2 ^ (32 * w.2.1)) }
  | _ => { o with idSeed := o.idSeed ||| (w.2.2 * 2 ^ (32 * w.2.1)) }

/-- Copies A, B and C of an item in order. -/
def copies (item b : Nat) : List OtpWord := [(item, 0, b), (item, 1, b), (item, 2, b)]

/-- The eight words of a key item, each to all ones. -/
def keyWords (item : Nat) : List OtpWord := (List.range 8).map fun i => (item, i, 2 ^ 32 - 1)

/-- The key steps of a transition to a state (R467). -/
def keySteps (target : Nat) : List OtpWord :=
  if target = 3 then copies 1 (2 ^ 32 - 1) ++ keyWords 4
  else if target = 4 then copies 1 (2 ^ 32 - 1) ++ keyWords 4 ++ keyWords 5
  else []

/-- The LC groups from a state up to a target, in ascending order. -/
def groupSteps (from_ target : Nat) : List OtpWord :=
  (List.range target).flatMap fun g => if from_ ≤ g then copies 0 (0xFF * 2 ^ (8 * g)) else []

/-- The words that still have bits to program. -/
def toProgram (ws : List OtpWord) (o : Otp) : List OtpWord := ws.filter fun w => otpProg o w != o

/-- Program words in order: the state after it and the RESULT (0 OK, 3 TEMP, 4 OTP_FAIL). The word that reads back wrong holds
those of its bits that a free value says (R469). -/
def otpRun (run : OtpRun) (ws : List OtpWord) (s : State) : State × Nat :=
  let ws := toProgram ws s.otp
  if ws.isEmpty then (s, 0)
  else if !otpWindow s then (s, 3)
  else
    match run with
    | .whole => ({ s with otp := ws.foldl otpProg s.otp }, 0)
    | .temp k => if ws.length ≤ k then ({ s with otp := ws.foldl otpProg s.otp }, 0)
        else ({ s with otp := (ws.take k).foldl otpProg s.otp }, 3)
    | .fail k =>
      match ws[k]? with
      | none => ({ s with otp := ws.foldl otpProg s.otp }, 0)
      | some w =>
        let some_ := w.2.2 &&& (Config.freeData s.free).toNat
        ({ freshDraw s with otp := otpProg ((ws.take k).foldl otpProg s.otp) (w.1, w.2.1, some_) }, 4)

/-! ### LCS commands (R467 to R471) -/

/-- A life-cycle command has its result, and shows BUSY until the block idles. -/
def lcsDone (r : State × Nat) : State :=
  putAll [(LCS_CMD_STATUS.RESULT, r.2), (LCS_CMD_STATUS.VALID, 0), (LCS_CMD.BUSY, 1), (LCS_CMD.CMD, 0)] r.1

/-- A transition is pending: as decoded at the start, or as the words read now (R464, R465, R469). -/
def lcsPending (s : State) : Bool := on LCS_STATE.TRANSITION_PENDING s || lcPending s.otp.lc

/-- Run a life-cycle command other than RESUME: while a transition is pending it completes with BAD_STATE (R467). The box office
runs the commands. While one shows BUSY, another is ignored and the running one reports OVERRUN (R480, R522).
(DESIGN CHOICE, log entry 69.) -/
def lcsCommand (f : State → State × Nat) (s : State) : State :=
  if !coreReady 0 s then s
  else if on LCS_CMD.BUSY s then put LCS_CMD_STATUS.RESULT 5 s
  else lcsDone (if lcsPending s then (s, 1) else f s)

/-- The condition of a permitted transition; none if it is not permitted (R467). -/
def transitionOk (target : Nat) (s : State) : Option Bool :=
  let st := rd LCS_STATE.STATE s
  let o := s.otp
  if target = 4 && st < 4 then some true
  else if st = 0 && target = 1 then some (o.serial != 0)
  else if st = 1 && target = 2 then
    some (keySet o.encRoot && keySet o.idSeed && (List.range 4).any fun i => slotLive i o)
  else if st = 2 && target = 3 then some (on LCS_STATE.DBG_OPEN s && (rd LCS_STATE.DBG_SCOPE s).testBit 2)
  else none

/-- ADVANCE. -/
def advanceCmd (target : Nat) (run : OtpRun) (s : State) : State :=
  lcsCommand (fun t =>
    match transitionOk target t with
    | none => (t, 1)
    | some false => (t, 2)
    | some true => otpRun run (keySteps target ++ groupSteps (rd LCS_STATE.STATE t) target) t) s

/-- RESUME: every copy up to the target of the pending transition, and the key steps of that target (R468). -/
def resumeLcs (run : OtpRun) (s : State) : State :=
  if !coreReady 0 s then s
  else if on LCS_CMD.BUSY s then put LCS_CMD_STATUS.RESULT 5 s
  else
    let target := max (lcTarget s.otp.lc) (rd LCS_STATE.TARGET s)
    lcsDone (if lcsPending s then otpRun run (groupSteps 0 target ++ keySteps target) s else (s, 1))

/-- Show SEC_FLOOR. -/
def showFloor (s : State) : State := put LCS_STATE.SEC_FLOOR (secFloor s.otp) s

/-- RAISE_FLOOR (R470); it stands in CMD while it runs. -/
def raiseFloorCmd (run : OtpRun) (s : State) : State :=
  let t := lcsCommand (fun t =>
    let want := min 64 (imgSec (runImage t))
    if updState t ≠ 0 then (t, 6)
    else if want ≤ secFloor t.otp then (t, 0)
    else
      let r := otpRun run (copies 2 (2 ^ want - 1)) t
      (showFloor r.1, r.2)) s
  if coreReady 0 s && !on LCS_CMD.BUSY s then put LCS_CMD.CMD 3 t else t

/-- Show the key slots. -/
def showSlots (s : State) : State :=
  let six := List.range 6
  putAll [(LCS_KEY_SLOTS.VALID, six.foldl (fun v i => if slotDigest i s.otp = 0 then v else setBit v i) 0),
    (LCS_KEY_SLOTS.REVOKED, maj s.otp.revoke % 64)] s

/-- The slot verified the running image, or is the last valid image-key slot. -/
def slotInUse (i : Nat) (s : State) : Bool :=
  i == s.fw.keySlot || (decide (i < 4) && slotLive i s.otp && (List.range 4).all fun k => k == i || !slotLive k s.otp)

/-- REVOKE (R471). -/
def revokeCmd (slot : Nat) (run : OtpRun) (s : State) : State :=
  lcsCommand (fun t =>
    if 5 < slot then (t, 1)
    else if slotInUse slot t then (t, 7)
    else
      let r := otpRun run (copies 3 (2 ^ slot)) t
      (showSlots r.1, r.2)) s

/-- DBG_CLOSE (R473). -/
def dbgCloseCmd (s : State) : State :=
  lcsCommand (fun t =>
    if !on LCS_STATE.DBG_OPEN t then (t, 0)
    else (postEvent 9 0 6 [] (putAll [(LCS_STATE.DBG_OPEN, 0), (LCS_STATE.DBG_SCOPE, 0)] t), 0)) s

/-- What the start decodes from OTP, as LCS_STATE and its neighbours show it (R465, R480). -/
def lcsShow (s : State) : State :=
  let o := s.otp
  showSlots (showFloor (putAll [(LCS_STATE.STATE, lcState (maj o.lc)), (LCS_STATE.TRANSITION_PENDING, b2n (lcPending o.lc)),
    (LCS_STATE.TARGET, lcTarget o.lc), (LCS_STATE.KEY_DEAD, b2n (anyCopy o.kill != 0 || keyGone o.encRoot)),
    (LCS_STATE.KEYS_SET, b2n (keySet o.encRoot && keySet o.idSeed)), (LCS_SERIAL.SERIAL, o.serial),
    (LCS_ENC_CFG.REQUIRED, maj o.encReq % 2)] s))

/-! ### Debug authorisation (R472, R473) -/

/-- Send DEBUG_RESULT: the result and the scope now in force. -/
def debugResult (r : Nat) (s : State) : State := svcSend 0x86 (leBytes 1 r ++ leBytes 1 (rd LCS_STATE.DBG_SCOPE s)) s

/-- Bytes 0 to 27 of a challenge. -/
def challengeBytes (nonce : Nat) (scope : Byte) (s : State) : List Byte :=
  leBytes 8 s.otp.serial ++ leBytes 8 nonce ++ [scope] ++ leBytes 1 (rd LCS_STATE.STATE s) ++ leBytes 1 (secFloor s.otp) ++ [0] ++
    leBytes 8 (rd FWM_IMG_VER.VER s)

/-- DEBUG_CHALLENGE_REQ: a fresh NONCE replaces any earlier one. -/
def debugChallengeReq (msg : List Byte) (s : State) : State :=
  svcIn 5 msg true (fun p t =>
    if p.isEmpty then svcError 2 t
    else if on LCS_DBG_STATUS.LOCKOUT t then debugResult 4 t
    else
      let c := challengeBytes ((Config.trng t.free).toNat % 2 ^ 64) (p.headD 0) t
      let u := freshDraw { t with fw := { t.fw with nonce := some c } }
      svcSend 0x85 (c ++ leBytes 4 (crc32 c)) (put LCS_DBG_STATUS.NONCE_LIVE 1 (bump LCS_DBG_STATUS.CHALLENGES 1 u))) s

/-- The result of a response against the live challenge (R472). (DESIGN CHOICE, log entry 70.) -/
def responseResult (p : List Byte) (s : State) : Nat :=
  if rd LCS_STATE.STATE s ≠ 2 then 3
  else
    match s.fw.nonce with
    | none => 2
    | some c =>
      let key := slice p 16 97
      let asked := (c.getD 16 0).toNat
      let given := leAt p 8 1
      if slice p 0 8 ≠ slice c 8 8 then 2
      else if (keySlotOf 4 2 key s.otp).isNone || !ecdsaOk key (sha384 (c ++ p.take 16)) (slice p 113 96) then 1
      else if given &&& asked ≠ given then 1
      else 0

/-- DEBUG_RESPONSE: every response voids the NONCE; three failures lock the exchange out until reset. -/
def debugResponse (msg : List Byte) (s : State) : State :=
  svcIn 6 msg true (fun p t =>
    if p.length ≠ 209 then svcError 2 t
    else if on LCS_DBG_STATUS.LOCKOUT t then debugResult 4 t
    else
      let r := responseResult p t
      let u := put LCS_DBG_STATUS.NONCE_LIVE 0 { t with fw := { t.fw with nonce := none } }
      let u :=
        if r = 0 then
          let v := putAll [(LCS_STATE.DBG_OPEN, 1), (LCS_STATE.DBG_SCOPE, leAt p 8 1)] u
          postEvent 9 0 5 [] { v with fw := { v.fw with debugOpened := true } }
        else if r = 3 then u
        else
          let v := bump LCS_DBG_STATUS.FAILS 1 u
          if rd LCS_DBG_STATUS.FAILS v = 3 then put LCS_DBG_STATUS.LOCKOUT 1 v else v
      debugResult r u) s

/-! ### The audit ledger (R477 to R479) -/

/-- BATCH_MAX in force. -/
def batchMax (s : State) : Nat := min 8192 (max 1 (rd LCS_AUDIT_CFG.BATCH_MAX s))

/-- The header of a batch (R478). -/
def batchHeader (no first last count : Nat) (s : State) : List Byte :=
  let flags := b2n s.fw.debugOpened + 2 * b2n (s.audit.dropped != 0) + 4 * rd LCS_ENC_STATUS.ACTIVE s
  let node := if on PEER_NODE_ID.VALID s then rd PEER_NODE_ID.NODE s else 0
  leBytes 4 0x31414D4C ++ leBytes 2 1 ++ leBytes 1 (rd LCS_STATE.STATE s) ++ leBytes 1 flags ++ leBytes 16 s.fw.startNonce ++
    leBytes 8 (rd FWM_IMG_VER.VER s) ++ leBytes 1 (secFloor s.otp) ++ zeros 3 ++ leBytes 4 node ++ leBytes 6 first ++ leBytes 6 last ++
    leBytes 4 count ++ leBytes 4 no ++ zeros 4 ++ padTo 48 s.audit.digest ++ leBytes 8 s.audit.dropped ++ zeros 8

/-- Close a batch of the oldest waiting entries: it is chained, signed and kept (R478). -/
def closeBatch (s : State) : State :=
  let es := s.audit.entries.take (batchMax s)
  match es with
  | [] => s
  | e :: _ =>
    let no := (rd LCS_AUDIT_BATCH.BATCH_NO s + 1) % 2 ^ 32
    let last := (es.getLast?.getD e).1
    let body := batchHeader no e.1 last es.length s ++ (es.flatMap fun x => x.2) ++
      (leBytes 96 (Config.signature s.free).toNat)
    let a := s.audit
    put LCS_AUDIT_BATCH.BATCH_NO no (freshDraw { fwRead .ledger (32 * (e.1 % 1048576)) (32 * es.length) s with
      audit := { a with
        entries := a.entries.drop (batchMax s), batches := a.batches ++ [(no, e.1, last, body)], digest := sha384 body,
        dropped := 0, firstRound := firstWaiting (a.entries.drop (batchMax s)) s } })

/-- AUDIT_BATCH_CLOSE: BATCH_MAX entries wait, or BATCH_MS have passed since the first. -/
def auditBatchClose (s : State) : State :=
  let n := s.audit.entries.length
  if coreReady 0 s && n != 0 && (decide (batchMax s ≤ n) || decide (s.audit.firstRound + max 1 (rd LCS_AUDIT_CFG.BATCH_MS s) ≤ s.rounds))
  then closeBatch s else s

/-- Close batches until no entry waits. -/
def closeAll : Nat → State → State
  | 0, s => s
  | n + 1, s => if s.audit.entries.isEmpty then s else closeAll n (closeBatch s)

/-- Release the entries below a SEQ; a held start may go on once space is free (R477, R479). -/
def releaseEntries (seq : Nat) (s : State) : State :=
  let a := s.audit
  let r := max a.released (min seq s.auditSeq)
  let t := showAudit { s with audit := { a with released := r, batches := a.batches.filter fun b => decide (r ≤ b.2.2.1) } }
  if ledgerFull t then t else put LCS_AUDIT_STATUS.HELD 0 t

/-- One part of an AUDIT_BATCH answer. -/
def batchPart (no part : Nat) (last : Bool) (d : List Byte) (s : State) : State :=
  svcSend 0x87 (leBytes 4 no ++ leBytes 2 part ++ leBytes 1 (b2n last) ++ [0] ++ d) s

/-- Send a batch in parts of at most 4,088 bytes. -/
def sendBatch (no : Nat) : Nat → Nat → List Byte → State → State
  | 0, _, _, s => s
  | k + 1, i, d, s =>
    if d.length ≤ 4088 then batchPart no i true d s
    else sendBatch no k (i + 1) (d.drop 4088) (batchPart no i false (d.take 4088) s)

/-- AUDIT_FETCH (R479). (DESIGN CHOICE, log entry 70.) -/
def auditFetch (msg : List Byte) (s : State) : State :=
  svcIn 7 msg false (fun p t =>
    if p.length < 9 then svcError 2 t
    else if leAt p 8 1 = 0 then
      let from_ := leAt p 0 8
      let u := releaseEntries from_ (closeAll t.audit.entries.length t)
      match u.audit.batches.find? fun b => decide (from_ ≤ b.2.2.1) with
      | some b => sendBatch b.1 (b.2.2.2.length + 1) 0 b.2.2.2 u
      | none => batchPart 0 0 true [] u
    else if leAt p 8 1 = 1 then
      batchPart 0 0 true (leBytes 8 t.otp.serial ++ leBytes 1 (rd LCS_STATE.STATE t) ++
        leBytes 97 (Config.auditKey (BitVec.ofNat 256 t.otp.idSeed)).toNat) t
    else svcError 3 t) s

end Sys2Proof.Machine
end

