-- ==== Sys2Proof/Machine/Ecc.lean ====
section
/-! DEFINITION. The machinery of data integrity (R353 to R374): re-reads, read-modify-writes, the leak of the error bucket,
lane erasure, remap installs, moves and repair, the checker self-test, the fill and scrub. -/

namespace Sys2Proof.Machine

open Reg

/-! ### Re-reads and partial writes (R355, R359) -/

/-- A re-read supplied its block: to the request, or to scrub. -/
def rereadGood (n c p : Nat) (r : Retry) (left : ErrPat) (fixed : Option (List Nat × Bool)) (s : State) : State :=
  let e := r.ent
  let t := bump (ECC_RETRY_CNT.RECOVERED n) 1 s
  if r.src = 3 then
    match fixed with
    | none => t
    | some x => scrubFix n c p e.off left x.1 x.2 t
  else
    let t := match fixed with
      | none => t
      | some x => corrected n c e.off x.1 x.2 true t
    answerRead n c p r.src e (some (applyErr left (e.data.getD 0))) t

/-- No re-read decoded and none may follow: the block is reported uncorrectable. -/
def rereadFails (n c p : Nat) (r : Retry) (s : State) : State :=
  if r.src = 3 then scrubUe n c r.ent.off r.ent.beat false s
  else answerRead n c p r.src r.ent none (uncorrectable n c r.ent.off r.src false s)

/-- REREAD: the oldest re-read in flight of a pseudo-channel returns, `errs` being what it sees; a block of which none is in flight
and none may issue any more is reported (R355). (DESIGN CHOICE, log entry 40.) -/
def reread (n c p : Nat) (errs : ErrPat) (s : State) : State :=
  let q := pcOf n c p s
  match q.retries.find? fun r => r.asked || !mayReread n q r s with
  | none => s
  | some r =>
    if !pcUsed n c p s then s
    else
      let t := setPc n c p { q with retries := q.retries.filter fun x => x.ent.seq != r.ent.seq } s
      if !r.asked then rereadFails n c p r t
      else
        match decodeErr errs (erasedSymbols n c p t) with
        | .clean left => rereadGood n c p r left none t
        | .corrected left ch er => rereadGood n c p r left (some (ch, er)) t
        | .uncorrectable =>
          if mayReread n q r s then
            setPc n c p { q with retries := q.retries.map fun x => if x.ent.seq = r.ent.seq then { x with asked := false } else x } s
          else rereadFails n c p r t

/-- READ_MODIFY_WRITE: the read of the oldest partial write whose column command has issued returns, `errs` being the errors that it
sees: its bytes are merged, or it is re-read (R359). (DESIGN CHOICE, log entry 40.) -/
def readModifyWrite (n c p : Nat) (errs : ErrPat) (s : State) : State :=
  let q := pcOf n c p s
  match q.wrq.find? fun e => e.mask.isSome && e.asked && !q.retries.any fun r => r.ent.seq == e.seq with
  | none => s
  | some e => if pcUsed n c p s then finishRead n c p 4 e errs s else s

/-- CE_LEAK: the leak timer of a hive reaches LEAK_US (R360). -/
def ceLeak (n : Nat) (s : State) : State :=
  if hOn n s && on (ECC_CE_LEAK.LEAK_US n) s then put (ECC_CE_BUCKET.LEVEL n) (rd (ECC_CE_BUCKET.LEVEL n) s - 1) s else s

/-- LANE_ERASURE of a lane whose corrections of this round reached ERASE_THR (R353). -/
def laneErasure (n c p lane : Nat) (s : State) : State :=
  let thr := rd (ECC_LOCAL_CFG.ERASE_THR n) s
  let cnt := mgetD (pcOf n c p s).laneCnt lane 0
  if !pcUsed n c p s || !keeperReady n s || thr = 0 || decide (cnt < thr) || (erasedLanes n c p s).contains lane then s
  else
    match (List.range 4).find? fun i => !on (eraseFld n c p i).2 s with
    | some i => putAll [((eraseFld n c p i).1, lane), ((eraseFld n c p i).2, 1)] s
    | none => postEvent 3 n 2 [c, p, lane] s

/-! ### Remapping (R363 to R369) -/

/-- Channel-local offset of block i of a placed row. -/
def rowBlock (n p sid bank row i : Nat) (s : State) : Nat := joinOff n ⟨p, bank, unplaceRow n row s, sid, i⟩ s

/-- The key of a placed row among the rows of its pseudo-channel. -/
def placedKey (n sid bank row : Nat) (s : State) : Nat := (sid * 16 + bank) * 2 ^ 18 + unplaceRow n row s

/-- The address is not that of a row that can be remapped (R380). A stack ID that the stack lacks counts as a bad address
(log entry 61). -/
def badRow (n c sid row : Nat) (s : State) : Bool :=
  let d := unplaceRow n row s
  decide (usedCh n s ≤ c) || decide (dRows n s ≤ d) || (inlineCheck n s && row % 9 == 8) ||
    decide (rd (CHC_HIVE_CFG.NSID n) s < sid) || (sid == rd (CHC_HIVE_CFG.NSID n) s && d + 1 == dRows n s)

/-- The lowest free entry of a channel whose spare is not retired (R365). -/
def freeEntry (n c : Nat) (s : State) : Option Nat :=
  (List.range 32).find? fun i => !on (ECC_RMP_ROW.VALID n c i) s && !on (ECC_RMP_STAT.RETIRED n c i) s

/-- Spare row i of a channel: its pseudo-channel and its place (R364). -/
def spareRow (n i : Nat) (s : State) : Nat × Nat × Nat × Nat :=
  (i % 2, rd (CHC_HIVE_CFG.NSID n) s, i / 2, placeRow n (dRows n s - 1) s)

/-- Where the contents of an addressed row lie: in the row itself or in its spare. -/
def rowHome (n c p sid bank row : Nat) (s : State) : Nat × Nat × Nat × Nat :=
  steer n c p sid bank row s

/-- The activates of a copied row, with its check row on HBM3E and HBM3 hives (R93, R281). -/
def homeActs (n c : Nat) (x : Nat × Nat × Nat × Nat) (s : State) : State :=
  let chk := if inlineCheck n s then [(x.2.1, x.2.2.1, checkRowOf x.2.2.2)] else []
  rowActs n c x.1 ((x.2.1, x.2.2.1, x.2.2.2) :: chk) s

/-- One block of a row is copied, with correction; its errors are those of its last re-read (R355, R366). Corrections stay out of the
bucket (R360). -/
def copyBlock (n c off : Nat) (errs : ErrPat) (s : State) : State :=
  let t := settle n c off s
  if isMarked n c off t then markBlock n c off (uncorrectable n c off 5 true t)
  else
    match decodeErr errs (erasedSymbols n c (workPc n c off t) t) with
    | .clean left => writeBlock n c off (applyErr left (readBlock n c off t)) t
    | .corrected left ch er => writeBlock n c off (applyErr left (readBlock n c off t)) (corrected n c off ch er false t)
    | .uncorrectable => markBlock n c off (uncorrectable n c off 5 false t)

/-- The sixteen blocks of a row are copied between the row and its spare: memory is kept by addressed row, so it changes only where a
block is uncorrectable and becomes a marked block (R366). (DESIGN CHOICE, log entry 44.) -/
def copyBlocks (n c p sid bank row : Nat) (errs : List (Nat × ErrPat)) (s : State) : State :=
  (List.range 16).foldl (fun t b => copyBlock n c (rowBlock n p sid bank row b s) ((mfind errs b).getD []) t) s

/-- A row is copied to spare row i (R366). (DESIGN CHOICE, log entry 44.) -/
def copyRow (n c p sid bank row i : Nat) (errs : List (Nat × ErrPat)) (s : State) : State :=
  let t := homeActs n c (spareRow n i s) (homeActs n c (rowHome n c p sid bank row s) s)
  let t := copyBlocks n c p sid bank row errs t
  let q := pcOf n c p t
  let k := placedKey n sid bank row s
  setPc n c p { q with ueRows := q.ueRows.filter fun x => x != k, rowCe := mdel q.rowCe k } t

/-- The queues of pseudo-channel p after a change of the remap table: the entries of both whose accesses now run in it. -/
def takeQueues (n c p : Nat) (own other : Pc) (s : State) : Pc :=
  let mine := fun (off : Nat) => workPc n c off s == p
  let drained := own.drains ++ other.drains.map fun d => (d.1, own.cclk + (d.2 - other.cclk))
  let again := own.retries ++ other.retries.map fun r => { r with since := own.cclk - (other.cclk - r.since) }
  { own with
    rdq := (own.rdq ++ other.rdq).filter fun e => mine e.off
    wrq := (own.wrq ++ other.wrq).filter fun e => mine e.off
    strq := (own.strq ++ other.strq).filter fun e => mine e.off
    stage := (own.stage ++ other.stage).filter fun e => mine e.off
    drains := drained.filter fun d => mine d.1
    retries := again.filter fun r => mine r.ent.off
    scrubs := (own.scrubs ++ other.scrubs).filter mine
    maint := (own.maint.filter fun m => match m with | .scrub _ off _ => mine off | _ => true) ++
      other.maint.filter fun m => match m with | .scrub _ off _ => mine off | _ => false }

/-- A part whose beats to a channel go where their accesses now run. -/
def aimPart (n c : Nat) (s : State) (a : Part) : Part :=
  if a.op == .push then a
  else { a with beats := a.beats.map fun b => if b.c = c then { b with p := workPc n c b.off s } else b }

/-- After a change of the remap table, what waits for the channel goes to the pseudo-channel in which it now runs (R366). -/
def reroute (n c : Nat) (s : State) : State :=
  let a := pcOf n c 0 s
  let b := pcOf n c 1 s
  let g := gate n s
  let t := setPc n c 1 (takeQueues n c 1 b a s) (setPc n c 0 (takeQueues n c 0 a b s) s)
  setGate n { g with
    parts := g.parts.map (aimPart n c s)
    chosen := g.chosen.map fun x => { x with part := aimPart n c s x.part }
    flying := g.flying.map fun x => { x with part := aimPart n c s x.part }
    stage := mmap (fun _ x => { x with parts := x.parts.map (aimPart n c s) }) g.stage } t

/-- Entry i becomes valid for a row, and the keeper records it (R366, R368). -/
def setEntry (n c i p sid bank row source : Nat) (s : State) : State :=
  let t := putAll [(ECC_RMP_ROW.ROW n c i, row), (ECC_RMP_ROW.BANK n c i, bank), (ECC_RMP_ROW.SID n c i, sid),
    (ECC_RMP_ROW.PC n c i, p), (ECC_RMP_ROW.VALID n c i, 1), (ECC_RMP_STAT.SOURCE n c i, source)] s
  reroute n c (recordRemaps { t with remapWant := t.remapWant ++ [[n, c, i, p, sid, bank, row]] })

/-- An entry becomes free and leaves the record (R369). -/
def freeEntryOf (n c i : Nat) (s : State) : State :=
  let t := putAll [(ECC_RMP_ROW.ROW n c i, 0), (ECC_RMP_ROW.BANK n c i, 0), (ECC_RMP_ROW.SID n c i, 0),
    (ECC_RMP_ROW.PC n c i, 0), (ECC_RMP_ROW.VALID n c i, 0), (ECC_RMP_STAT.SOURCE n c i, 0)] s
  reroute n c (recordRemaps { t with remapWant := t.remapWant.filter fun e => e.take 3 != [n, c, i] })

/-- A row calls for an entry or a move: one of its blocks was uncorrectable, or its corrections reached ROW_CE_THR. -/
def rowFails (ue : Bool) (n c p key : Nat) (s : State) : Bool :=
  let q := pcOf n c p s
  let thr := rd (ECC_LOCAL_CFG.ROW_CE_THR n) s
  (ue && q.ueRows.contains key) || (thr != 0 && decide (thr ≤ mgetD q.rowCe key 0))

/-- REMAP_INSTALL by the keeper (R365, R366). (DEDUCED, log entry 46.) -/
def remapInstall (n c p sid bank row : Nat) (errs : List (Nat × ErrPat)) (s : State) : State :=
  if !pcUsed n c p s || !keeperReady n s || badRow n c sid row s || decide (16 ≤ bank) ||
      (remapHit n c p sid bank row s).isSome ||
      !rowFails (on (ECC_LOCAL_CFG.AUTO_REMAP n) s) n c p (placedKey n sid bank row s) s then s
  else
    match freeEntry n c s with
    | none => postEvent 2 n 20 [c, p, sid, bank, row] s
    | some i => setEntry n c i p sid bank row 1 (copyRow n c p sid bank row i errs s)

/-- REMAP_MOVE: the spare row of valid entry i fails, so the entry moves to another free spare (R367). -/
def remapMove (n c i : Nat) (errs : List (Nat × ErrPat)) (s : State) : State :=
  let p := rd (ECC_RMP_ROW.PC n c i) s
  let sid := rd (ECC_RMP_ROW.SID n c i) s
  let bank := rd (ECC_RMP_ROW.BANK n c i) s
  let row := rd (ECC_RMP_ROW.ROW n c i) s
  if !pcUsed n c p s || decide (32 ≤ i) || !keeperReady n s || !on (ECC_RMP_ROW.VALID n c i) s ||
      !rowFails true n c p (placedKey n sid bank row s) s then s
  else
    match freeEntry n c s with
    | none => postEvent 2 n 21 [c, i] s
    | some j =>
      let t := freeEntryOf n c i (copyRow n c p sid bank row j errs s)
      setEntry n c j p sid bank row 1 (put (ECC_RMP_STAT.RETIRED n c i) 1 t)

/-- A remap command has its result, and shows BUSY until the block idles (R380). -/
def rmpDone (n result entry : Nat) (s : State) : State :=
  putAll [(ECC_RMP_CMD.RESULT n, result), (ECC_RMP_CMD.ENTRY n, entry), (ECC_RMP_CMD.VALID n, 0),
    (ECC_RMP_CMD.BUSY n, 1)] s

/-- The running remap command reports OVERRUN (R380, R522). -/
def rmpOverrun (n : Nat) (s : State) : State := put (ECC_RMP_CMD.RESULT n) 6 s

/-- INSTALL: ECC_RMP_CMD with OP INSTALL and GO (R365, R366, R380). -/
def install (n : Nat) (errs : List (Nat × ErrPat)) (s : State) : State :=
  if !hOn n s || decide (16 ≤ n) || !keeperReady n s then s
  else if on (ECC_RMP_CMD.BUSY n) s then rmpOverrun n s
  else
    let s := put (ECC_RMP_CMD.OP n) 1 s
    let c := rd (ECC_RMP_ADDR.CH n) s
    let p := rd (ECC_RMP_ADDR.PC n) s
    let sid := rd (ECC_RMP_ADDR.SID n) s
    let bank := rd (ECC_RMP_ADDR.BANK n) s
    let row := rd (ECC_RMP_ADDR.ROW n) s
    if badRow n c sid row s || !(setsInUse s).any (fun i => (setHives i s).contains n) then rmpDone n 3 0 s
    else
      match remapHit n c p sid bank row s with
      | some i => rmpDone n 0 i s
      | none =>
        match freeEntry n c s with
        | none => postEvent 2 n 20 [c, p, sid, bank, row] (rmpDone n 1 0 s)
        | some i => rmpDone n 0 i (setEntry n c i p sid bank row 2 (copyRow n c p sid bank row i errs s))

/-- The life-cycle state permits what is kept for MANUFACTURE and RETURN (R287, R369). -/
def factoryState (s : State) : Bool := rd LCS_STATE.STATE s == 0 || rd LCS_STATE.STATE s == 3

/-- REPAIR: ECC_RMP_CMD with OP REPAIR and GO; `stackOk` is what the stack reports (R369): the channel is quiesced, and the
row is copied back from its spare. -/
def repair (n : Nat) (stackOk : Bool) (errs : List (Nat × ErrPat)) (s : State) : State :=
  if !hOn n s || decide (16 ≤ n) || !keeperReady n s then s
  else if on (ECC_RMP_CMD.BUSY n) s then rmpOverrun n s
  else
    let s := put (ECC_RMP_CMD.OP n) 2 s
    let c := rd (ECC_RMP_ADDR.CH n) s
    let p := rd (ECC_RMP_ADDR.PC n) s
    let sid := rd (ECC_RMP_ADDR.SID n) s
    let bank := rd (ECC_RMP_ADDR.BANK n) s
    let row := rd (ECC_RMP_ADDR.ROW n) s
    if !factoryState s then rmpDone n 2 0 s
    else if !(mfind s.thermal.stack n).any fun t => decide (t ≤ 85) then rmpDone n 4 0 s
    else if badRow n c sid row s then rmpDone n 3 0 s
    else
      match remapHit n c p sid bank row s with
      | none => rmpDone n 3 0 s
      | some i =>
        let s := quiesce 0 n [c] s
        if stackOk then
          let t := copyBlocks n c p sid bank row errs (homeActs n c (p, sid, bank, row) (homeActs n c (spareRow n i s) s))
          rmpDone n 0 i (freeEntryOf n c i t)
        else rmpDone n 5 i s

/-! ### Checker self-test and fill (R370, R371) -/

/-- The hive passed training and its domain is on. -/
def hiveUp (n : Nat) (s : State) : Bool := hOn n s && on (GLB_HIVE_CAP.CAP n) s

/-- Every present hive has ended its training. -/
def trainingEnded (s : State) : Bool :=
  (List.range 16).all fun n => !hivePresent n s || on (PHY_TRAIN_SUMMARY.VALID n) s

/-- The lesser of two pairs of channel and pseudo-channel. -/
def lowerPc (a b : Nat × Nat) : Nat × Nat := if a.1 < b.1 || (a.1 == b.1 && decide (a.2 ≤ b.2)) then a else b

/-- The self-test of one hive; `fails` names hive, encoder or decoder, channel and pseudo-channel. -/
def checkHive (fails : List (Nat × Bool × Nat × Nat)) (s : State) (n : Nat) : State :=
  if !hiveUp n s then s
  else
    let mine := fails.filter fun f => f.1 == n && decide (f.2.2.1 < usedCh n s) && decide (f.2.2.2 < 2)
    let enc := !mine.any fun f => f.2.1
    let dec := !mine.any fun f => !f.2.1
    let first := match mine.map fun f => f.2.2 with
      | [] => (0, 0)
      | x :: xs => xs.foldl lowerPc x
    let t := putAll [(ECC_ST_SUMMARY.ENC_OK n, b2n enc), (ECC_ST_SUMMARY.DEC_OK n, b2n dec), (ECC_ST_SUMMARY.FAIL_CH n, first.1),
      (ECC_ST_SUMMARY.FAIL_PC n, first.2), (ECC_ST_SUMMARY.VALID n, 1)] s
    if mine.isEmpty then t else postEvent 2 n 22 [first.1, first.2] (hiveOff n (put (GLB_HIVE_CAP.CAP n) 0 t))

/-- CHECKER_SELF_TEST on all hives at once (R370). -/
def checkerSelfTest (fails : List (Nat × Bool × Nat × Nat)) (s : State) : State :=
  if rd GLB_STATUS.PHASE s ≠ 2 || !trainingEnded s then s
  else (List.range 16).foldl (checkHive fails) (put GLB_STATUS.PHASE 3 s)

/-- MiB of DRAM in a hive, check rows, spare rows and remap reserves included. (DEDUCED, log entry 78.) -/
def rawMiB (n : Nat) (s : State) : Nat := usedCh n s * 32 * (rd (CHC_HIVE_CFG.NSID n) s + 1) * 2 ^ rd (CHC_HIVE_CFG.ROWBITS n) s / 1024

/-- FILL: every block of every used channel of the passing hives is zero and CLEAN (R371). -/
def fill (s : State) : State :=
  if rd GLB_STATUS.PHASE s ≠ 3 then s
  else
    let up := fun n => hiveUp n s
    let total := ((List.range 16).filter up).foldl (fun k n => k + rawMiB n s) 0
    let t := put GLB_STATUS.PHASE 4 s
    put ECC_FILL_PROGRESS.PROGRESS (progressWord total total)
      { t with mem := t.mem.filter (fun x => !up (x.1 / 2 ^ 40)), marked := t.marked.filter fun k => !up (64 * k / 2 ^ 40) }

/-! ### Scrub (R372 to R374) -/

/-- The scrub queue entry of a block; it wakes a sleeping pseudo-channel (R285). -/
def queueScrub (a : Nat) (s : State) : State :=
  match mapAddr a s with
  | none => s
  | some x =>
    let p := workPc x.n x.c x.off s
    if !pcUsed x.n x.c p s then s
    else
      let s := wake x.n x.c p s
      let q := pcOf x.n x.c p s
      { setPc x.n x.c p { q with maint := q.maint ++ [.scrub s.nextUid x.off a] } s with nextUid := s.nextUid + 1 }

/-- No scrub read waits for a re-read. -/
def scrubSettled (s : State) : Bool := s.pcs.all fun x => x.2.retries.all fun r => r.src != 3

/-- A scrub read is in flight. -/
def scrubFlying (s : State) : Bool := s.pcs.any fun x => !x.2.scrubs.isEmpty

/-- Drop the scrub entries that have not been read. -/
def dropScrubs (s : State) : State :=
  { s with pcs := mmap (fun _ q => { q with
      maint := q.maint.filter (fun m => match m with | .scrub _ _ _ => false | _ => true) }) s.pcs }

/-- The run ends: VALID is set (R374). -/
def scrubEnd (s : State) : State :=
  { putAll [(ECC_SCRUB_SUMMARY.VALID, 1), (ECC_SCRUB_CTRL.BUSY, 0)] s with scrubRun := none }

/-- SCRUB_GO (R372). -/
def scrubGo (s : State) : State :=
  if on ECC_SCRUB_CTRL.BUSY s || s.fw.stage = 0 then s
  else
    let b := rd ECC_SCRUB_BASE.ADDR s / 64 * 64
    let l := rd ECC_SCRUB_LIMIT.ADDR s / 64 * 64
    let t := putAll [(ECC_SCRUB_SUMMARY.VALID, 0), (ECC_SCRUB_SUMMARY.CORRECTED, 0), (ECC_SCRUB_SUMMARY.RESULT, 0),
      (ECC_SCRUB_UE.COUNT, 0), (ECC_SCRUB_UE_ADDR.ADDR, 0), (ECC_SCRUB_PROGRESS.PROGRESS, 0), (ECC_SCRUB_CTRL.BUSY, 1)] s
    if rd GLB_MEM_TOP.TOP s * 2 ^ 20 ≤ l || l < b then scrubEnd (put ECC_SCRUB_SUMMARY.RESULT 1 t)
    else queueScrub b { t with scrubRun := some (b, b, l) }

/-- SCRUB_STOP: the run ends after the blocks already read, with RESULT STOPPED (R372). (DESIGN CHOICE, log entry 45.) -/
def scrubStop (s : State) : State :=
  match s.scrubRun with
  | none => s
  | some (b, a, l) =>
    let t := dropScrubs (put ECC_SCRUB_SUMMARY.RESULT 2 s)
    if l < a then t
    else if scrubFlying t then { t with scrubRun := some (b, a, a) }
    else if scrubSettled t then scrubEnd t
    else { t with scrubRun := some (b, b + 64, b) }

/-- The run goes on to the next block. -/
def scrubNext (b a l : Nat) (s : State) : State :=
  let done := a + 64 - b
  let w := 100 * done / (l + 64 - b) * 2 ^ 24 + done / 2 ^ 20 % 2 ^ 24
  let t := { put ECC_SCRUB_PROGRESS.PROGRESS w s with scrubRun := some (b, a + 64, l) }
  if a + 64 ≤ l then queueScrub (a + 64) t else t

/-- SCRUB_READ: the scrub read of the run's next block, whose column command has issued, completes (R373). A block that maps to no
hive that is on is passed over. -/
def scrubRead (errs : ErrPat) (s : State) : State :=
  match s.scrubRun with
  | none => s
  | some (b, a, l) =>
    if l < a then s
    else
      match mapAddr a s with
      | none => scrubNext b a l s
      | some x =>
        let p := workPc x.n x.c x.off s
        if !pcUsed x.n x.c p s then scrubNext b a l s
        else
          let q := pcOf x.n x.c p s
          if !q.scrubs.contains x.off then s
          else scrubNext b a l (finishScrub x.n x.c p x.off a errs (setPc x.n x.c p { q with scrubs := q.scrubs.erase x.off } s))

/-- SCRUB_RUN_END: the last block has been handled (R374); a stopped run keeps its RESULT. -/
def scrubRunEnd (s : State) : State :=
  match s.scrubRun with
  | none => s
  | some (_, a, l) => if l < a && scrubSettled s then scrubEnd s else s

end Sys2Proof.Machine
end

