-- ==== Sys2Proof/Machine/Modes.lean ====
section
/-! DEFINITION. Mode-register commands and the commit of a hive's timing and scheduling settings (R287 to R290). -/

namespace Sys2Proof.Machine

open Reg

/-! ### Mode registers and commits (R287 to R290) -/

/-- A mode-register command has its result, and shows BUSY until the block idles. -/
def mrDone (n result : Nat) (s : State) : State :=
  putAll [(CHC_MR_DATA.RESULT n, result), (CHC_MR_DATA.VALID n, 0), (CHC_MR_CMD.BUSY n, 1)] s

/-- The channels that CHC_MR_CMD names. -/
def mrChannels (n : Nat) (s : State) : List Nat :=
  if on (CHC_MR_CMD.ALLCH n) s then List.range (usedCh n s)
  else (List.range (usedCh n s)).filter fun c => c == rd (CHC_MR_CMD.CH n) s

/-- Start a mode-register command: the channels it names are quiesced, and resume tMOD after it (R288). -/
def mrStart (write : Nat) (n : Nat) (s : State) : State :=
  quiesce (rd (CHC_T_3.tMOD n) s) n (mrChannels n s) (putAll [(CHC_MR_CMD.WRITE n, write), (CHC_MR_DATA.VALID n, 0)] s)

/-- The running mode-register command reports OVERRUN (R288, R522). -/
def mrOverrun (n : Nat) (s : State) : State := put (CHC_MR_DATA.RESULT n) 3 s

/-- MODE_REGISTER_READ: `known` says that the stack has the register and `value` what it returns (R287, R288).
(DESIGN CHOICE, log entry 41.) -/
def modeRegisterRead (n : Nat) (known : Bool) (value : Byte) (s : State) : State :=
  if !hOn n s || decide (16 ≤ n) then s
  else if on (CHC_MR_CMD.BUSY n) s then mrOverrun n s
  else
    let t := mrStart 0 n s
    if !known then mrDone n 2 t
    else mrDone n 0 (if (mrChannels n t).isEmpty then t else put (CHC_MR_DATA.DATA n) value.toNat t)

/-- MODE_REGISTER_WRITE: performed in MANUFACTURE and RETURN, else LOCKED with nothing changed (R287). -/
def modeRegisterWrite (n : Nat) (known : Bool) (s : State) : State :=
  if !hOn n s || decide (16 ≤ n) then s
  else if on (CHC_MR_CMD.BUSY n) s then mrOverrun n s
  else if !factoryState s then mrDone n 1 (put (CHC_MR_CMD.WRITE n) 1 s)
  else mrDone n (if known then 0 else 2) (mrStart 1 n s)

/-- CHC_COMMIT: every used channel is quiesced, and COMMIT_PENDING shows until the RWS group takes effect as they resume (R290). -/
def chcCommit (n : Nat) (s : State) : State :=
  if !hOn n s || decide (16 ≤ n) then s
  else quiesce 0 n (List.range (usedCh n s)) (put (CHC_HIVE_STATUS.COMMIT_PENDING n) 1 s)

end Sys2Proof.Machine
end

