-- ==== Sys2Proof/Machine/Pmc.lean ====
section
/-! DEFINITION. Performance counters, bandwidth windows and precise sampling (R481 to R497). -/

namespace Sys2Proof.Machine

open Reg

/-! ### Counters (R482 to R487) -/

/-- The filters that the event table marks: requester, class, channel (R487). -/
def eventFilters (e : Nat) : Bool × Bool × Bool :=
  if [0x001, 0x002, 0x003, 0x004, 0x100, 0x101, 0x701].contains e then (true, true, false)
  else if [0x005, 0x006, 0x007, 0x103, 0x104, 0x105, 0x106, 0x107, 0x108, 0x700, 0x702, 0x703, 0x704].contains e then
    (true, false, false)
  else if 0x200 ≤ e && e < 0x400 || 0x500 ≤ e && e < 0x600 then (false, false, true)
  else (false, false, false)

/-- The event belongs to a hive: groups 0x1 to 0x5 (R486). -/
def hiveGroup (e : Nat) : Bool := decide (0x100 ≤ e) && decide (e < 0x600)

/-- A counter's selection: event, requester filter, class filter, channel filter and hive. -/
structure Sel where
  event : Nat
  src : Option Nat
  cls : Option Nat
  ch : Option Nat
  hive : Option Nat
  deriving DecidableEq, Repr

/-- A filter that is off, not marked for the event, or met. -/
def filterOk (marked : Bool) (want have_ : Option Nat) : Bool :=
  !marked || (match want with
    | none => true
    | some v => have_ == some v)

/-- What an occurrence adds to a counter. -/
def occAdds (c : Sel) (o : Occ) : Nat :=
  let f := eventFilters c.event
  if o.event == c.event && filterOk f.1 c.src o.src && filterOk f.2.1 c.cls o.cls && filterOk f.2.2 c.ch o.ch &&
      filterOk (hiveGroup c.event) c.hive o.hive then o.count else 0

/-- A value that is used only if its enable is set. -/
def ifOn (en v : Fld) (s : State) : Option Nat := if on en s then some (rd v s) else none

/-- The selection of block counter i. -/
def blockSel (i : Nat) (s : State) : Sel :=
  ⟨rd (PMC_BSEL.EVENT i) s, ifOn (PMC_BSEL.SRC_EN i) (PMC_BSEL.SRC i) s, ifOn (PMC_BSEL.CLASS_EN i) (PMC_BSEL.CLASS i) s, none,
    ifOn (PMC_BSEL.HIVE_EN i) (PMC_BSEL.HIVE i) s⟩

/-- The selection of counter i of hive n. -/
def hiveSel (n i : Nat) (s : State) : Sel :=
  ⟨rd (PMC_SEL.EVENT n i) s, ifOn (PMC_SEL.SRC_EN n i) (PMC_SEL.SRC n i) s, ifOn (PMC_SEL.CLASS_EN n i) (PMC_SEL.CLASS n i) s,
    ifOn (PMC_SEL.CH_EN n i) (PMC_SEL.CH n i) s, some n⟩

/-- The sum of what the occurrences add. -/
def addsOf (c : Sel) (occ : List Occ) : Nat := occ.foldl (fun k o => k + occAdds c o) 0

/-- Add to a counter; a carry out of bit 47 sets its overflow bit, and freezes every counter if FRZ_ON_OVF asks for it (R484,
R485). The flag carries an overflow on to the end of the update. -/
def countInto (cnt ovf : Fld) (bit k : Nat) (x : State × Bool) : State × Bool :=
  if k = 0 then x
  else
    let v := rd cnt x.1 + k
    let t := put cnt v x.1
    if v < 2 ^ 48 then (t, x.2) else (put ovf (setBit (rd ovf t) bit) t, true)

/-- Update block counter i. -/
def countBlock (occ : List Occ) (x : State × Bool) (i : Nat) : State × Bool :=
  if !on (PMC_BSEL.EN i) x.1 then x
  else countInto (PMC_BCNT.COUNT i) (PMC_OVF_B.OVF (i / 32)) (i % 32) (addsOf (blockSel i x.1) occ) x

/-- Update counter i of hive n: it counts events of groups 0x1 to 0x5 only. -/
def countHive (occ : List Occ) (n : Nat) (x : State × Bool) (i : Nat) : State × Bool :=
  let c := hiveSel n i x.1
  if !on (PMC_SEL.EN n i) x.1 || !hiveGroup c.event then x
  else countInto (PMC_CNT.COUNT n i) (PMC_OVF.OVF n) i (addsOf c occ) x

/-- PMC_COUNT_UPDATE: one FCLK. Each enabled counter adds what has reached it; FREEZE loses it (R483, R485).
(DESIGN CHOICE, log entry 10.) -/
def pmcCountUpdate (s : State) : State :=
  let occ := s.occ ++ [⟨0x000, 1, none, none, none, none⟩]
  let t := { s with occ := [], fclk := s.fclk + 1 }
  if on PMC_CTL.FREEZE s then t
  else
    let x := (List.range 64).foldl (countBlock occ) (t, false)
    let x := (List.range 16).foldl (fun x n => if hOn n x.1 then (List.range 32).foldl (countHive occ n) x else x) x
    if x.2 && on PMC_CTL.FRZ_ON_OVF s then put PMC_CTL.FREEZE 1 x.1 else x.1

/-- The register field holds a counter or an overflow bit. -/
def isCounterKey (k : Nat) : Bool :=
  let off := k / 8
  let rel := off % 0x40000
  (decide (0x41000 ≤ off) && decide (off < 0x41200)) || off == 0x40008 || off == 0x4000C ||
    ((windowHive off).isSome && ((decide (0x2000 ≤ rel) && decide (rel < 0x2100)) || rel == 0x2180))

/-- CLEAR: every counter and overflow bit becomes zero, and increments of that FCLK are lost (R485). -/
def pmcClear (s : State) : State := { s with regs := s.regs.filter fun x => !isCounterKey x.1, occ := [] }

/-! ### Bandwidth windows (R490, R491) -/

/-- BW_WINDOW_END: the units of every requester and the sequence number, in one step. -/
def bwWindowEnd (s : State) : State :=
  if !on PMC_BW_CFG.WIN_US s then s
  else
    let t := (List.range 18).foldl (fun t m =>
      putAll [(PMC_BW_RD.UNITS m, mgetD s.bwBytes (2 * m) 0 / 256), (PMC_BW_WR.UNITS m, mgetD s.bwBytes (2 * m + 1) 0 / 256)] t) s
    { put PMC_BW_SEQ.SEQ (rd PMC_BW_SEQ.SEQ s + 1) t with bwBytes := [] }

/-- PMC_BW_CFG_WRITE: the partial window is discarded and a new one starts. -/
def pmcBwCfgWrite (v : Nat) (s : State) : State := { put PMC_BW_CFG.WIN_US v s with bwBytes := [] }

/-! ### Sampling (R492 to R495) -/

def samplerOf (n : Nat) (s : State) : Sampler := mgetD s.samplers n Sampler.init

/-- The sampler starts: write pointer, count, sequence and drop count at zero, the countdown at N; the slots stay (R492, R494).
(DEDUCED, log entry 71.) -/
def samplerStart (n : Nat) (s : State) : State :=
  let t := putAll [(PMC_SMP_STATUS.WPTR n, 0), (PMC_SMP_STATUS.COUNT n, 0), (PMC_SMP_STATUS.FULL n, 0), (PMC_SMP_DROP.COUNT n, 0)] s
  let q := samplerOf n t
  { t with samplers := mset t.samplers n { q with count := max 1 (rd (PMC_SMP_CFG.N n) t), seq := 0, written := 0 } }

/-- A write to PMC_SMP_CFG of hive n. -/
def pmcSmpWrite (n v : Nat) (s : State) : State :=
  if 16 ≤ n || !hivePresent n s || !hOn n s then s
  else
    let old := on (PMC_SMP_CFG.EN n) s
    let t := putAll [(PMC_SMP_CFG.EN n, bits v 0 1), (PMC_SMP_CFG.KIND n, bits v 1 1), (PMC_SMP_CFG.WRAP n, bits v 2 1),
      (PMC_SMP_CFG.N n, bits v 3 20)] s
    if !old && on (PMC_SMP_CFG.EN n) t then samplerStart n t else t

/-- The words of a record as it is written: its TIME joins them (R493). -/
def recordTime (ws : List Nat) (s : State) : List Nat :=
  ws.mapIdx fun i w => if i = 5 then s.fclk % 2 ^ 32 else if i = 6 then w + s.fclk / 2 ^ 32 % 2 ^ 16 else w

/-- SAMPLE_RECORD_WRITE: the completed item that is oldest in completion order writes its record, or it is dropped (R494). -/
def sampleRecordWrite (n : Nat) (s : State) : State :=
  let q := samplerOf n s
  match q.items.find? fun x => x.done with
  | none => s
  | some x =>
    if 16 ≤ n || !hOn n s then s
    else
      let q := { q with items := q.items.erase x }
      if !on (PMC_SMP_CFG.WRAP n) s && decide (4096 ≤ q.written) then
        bump (PMC_SMP_DROP.COUNT n) 1 (put (PMC_SMP_STATUS.FULL n) 1 { s with samplers := mset s.samplers n q })
      else
        let p := rd (PMC_SMP_STATUS.WPTR n) s
        let q := { q with slots := mset q.slots p (recordTime x.words s), written := q.written + 1 }
        let t := { s with samplers := mset s.samplers n q }
        putAll [(PMC_SMP_STATUS.WPTR n, (p + 1) % 4096), (PMC_SMP_STATUS.COUNT n, min 4096 (rd (PMC_SMP_STATUS.COUNT n) s + 1)),
          (PMC_SMP_STATUS.FULL n, if !on (PMC_SMP_CFG.WRAP n) s && q.written == 4096 then 1 else rd (PMC_SMP_STATUS.FULL n) s)] t

end Sys2Proof.Machine
end

