-- ==== Sys2Proof/Machine/RegWrite.lean ====
section
/-! DEFINITION. Writing a register of BAR_0: its access types, its locks and what its write starts (R5 to R12, R90, R100). -/

namespace Sys2Proof.Machine

open Reg

/-- The ROM code has passed step 2 of R511, from whose end BAR_0 answers (R514). -/
def barsOpen (s : State) : Bool := s.fw.stage != 0 || on FWM_STATUS.RECOVERY s

/-- The write is ignored because the map is fixed while the ports are open (R90, R265). (DEDUCED, log entry 23.) -/
def mapWrite (off v : Nat) (s : State) : State := if portsOpen s then put GLB_STATUS.MAP_WR_IGNORED 1 s else plainWrite off v s

/-- A throttle floor is written: the level is never below it (R416). -/
def floorWrite (g off v : Nat) (s : State) : State :=
  let t := plainWrite off v s
  putLevel g (max (floorOf g t) (levelOf g t)) t

/-- ECC_SCRUB_CTRL. -/
def scrubCtrlWrite (off v : Nat) (s : State) : State :=
  let t := plainWrite off v s
  let t := if v.testBit 0 then scrubGo t else t
  if v.testBit 1 then scrubStop t else t

/-- LCS_CMD: the codes of R480; others are ignored. -/
def lcsCmdWrite (v : Nat) (s : State) : State :=
  match bits v 0 3 with
  | 1 => advanceCmd (bits v 4 3) .whole s
  | 2 => resumeLcs .whole s
  | 3 => raiseFloorCmd .whole s
  | 4 => dbgCloseCmd s
  | 5 => revokeCmd (bits v 7 3) .whole s
  | _ => s

/-- LCS_ENC_CFG.EN is locked (R480). -/
def encLocked (s : State) : Bool :=
  decide (3 ≤ rd LCS_STATE.STATE s) || (rd LCS_STATE.STATE s == 2 && on LCS_ENC_CFG.REQUIRED s) || portsOpen s

/-- FWM_UPD_CFG: without the peer unit SRC stays 0 (R459); AUTO_ACT written while an update is READY requests activation (R455).
(DESIGN CHOICE, log entry 65.) -/
def updCfgWrite (v : Nat) (s : State) : State :=
  let t := putAll [(FWM_UPD_CFG.SRC, if peerPresent s then bits v 0 1 else 0), (FWM_UPD_CFG.AUTO_ACT, bits v 1 1),
    (FWM_UPD_CFG.SAFE_MS, bits v 2 8)] s
  if v.testBit 1 && updState t == 6 then { t with fw := { t.fw with activate := true } } else t

/-- FWM_MBX_REQ_CFG and FWM_MBX_EVT_CFG: while EN is 1 only EN can be written (R462). -/
def mbxCfgWrite (en : Fld) (off v : Nat) (s : State) : State :=
  mbxGo (flushEvents (if on en s then put en (bits v 31 1) s else plainWrite off v s))

/-- A write of an MSI-X table word; of the vector control only the mask bit is kept (R508). -/
def msixWrite (off v : Nat) (s : State) : State :=
  if 0x78400 ≤ off then s
  else
    let w := if off % 16 = 12 then v % 2 else v
    { s with host := { s.host with msix := mset s.host.msix ((off - 0x78000) / 4) w } }

/-- A register outside the hive windows. -/
def blockWrite (off v : Nat) (s : State) : State :=
  if off = 0x14 || off = 0x18 || (decide (0x20 ≤ off) && decide (off < 0x40)) || (decide (0x80 ≤ off) && decide (off < 0xA4)) then mapWrite off v s
  else if off = 0x100 then (if v.testBit 0 then glbCommit s else s)
  else if off = 0x104 then (if v % 256 = 0 then s else plainWrite off v s)
  else if off = 0x10000 then (if v.testBit 0 then arbCommit s else s)
  else if off = 0x1001C then qosTokenReset (BitVec.ofNat 32 v) s
  else if off = 0x20004 then floorWrite 16 off v s
  else if off = 0x20110 then (if v.testBit 0 then softShutdown s else s)
  else if off = 0x30020 then scrubCtrlWrite off v s
  else if off = 0x40000 then (if v.testBit 2 then pmcClear (plainWrite off v s) else plainWrite off v s)
  else if off = 0x40020 then pmcBwCfgWrite v s
  else if off = 0x50008 then peerTimeoutSet v s
  else if off = 0x50040 then (if v.testBit 0 then winCommit s else s)
  else if off = 0x60004 then lcsCmdWrite v s
  else if off = 0x60020 then (if encLocked s || !encAvailable s then s else plainWrite off v s)
  else if off = 0x70030 then updCfgWrite v s
  else if off = 0x70080 || off = 0x70084 then (if on FWM_MBX_REQ_CFG.EN s then s else plainWrite off v s)
  else if off = 0x70088 then mbxCfgWrite FWM_MBX_REQ_CFG.EN off v s
  else if off = 0x7008C then mbxReqTailWrite v s
  else if off = 0x70090 || off = 0x70094 then (if on FWM_MBX_EVT_CFG.EN s then s else plainWrite off v s)
  else if off = 0x70098 then mbxCfgWrite FWM_MBX_EVT_CFG.EN off v s
  else if off = 0x7009C then mbxEvtHeadWrite v s
  else if off = 0x70104 then intMaskWrite v s
  else if 0x78000 ≤ off && off < 0x7A000 then msixWrite off v s
  else if off = 0x80004 then (if 1 ≤ bits v 0 3 && bits v 0 3 ≤ 6 then ctxCommand (bits v 0 3) s else s)
  else if off = 0x80010 then
    (if s.ctxs.any fun x => x.2.state != .free && decide (cHome x.2 < 16) then s else plainWrite off v s)
  else if off = 0x80014 then (if (List.range 64).any fun h => setAway h s then s else plainWrite off v s)
  else if 0x81000 ≤ off && off < 0x81400 && off % 16 = 0 then hbCfgWrite ((off - 0x81000) / 16) (bits v 0 16) s
  else if 0x81000 ≤ off && off < 0x81400 && off % 16 = 4 then
    let h := (off - 0x81000) / 16
    match bits v 16 2 with
    | 1 => ackWait false h (bits v 0 16) s
    | 2 => ackWait true h (bits v 0 16) s
    | _ => put (CTX_HB_STATUS.ACK_REJECTED h) 1 s
  else plainWrite off v s

/-- CHC_MR_CMD: the command's fields are taken, and GO starts it; what the stack answers is a free value (R287, R288). -/
def mrCmdWrite (n off v : Nat) (s : State) : State :=
  if on (CHC_MR_CMD.BUSY n) s then mrOverrun n s
  else
    let t := plainWrite off v s
    if !v.testBit 13 then t
    else if v.testBit 6 then modeRegisterWrite n true t
    else modeRegisterRead n true (BitVec.ofNat 8 (Config.freeData t.free).toNat) (freshDraw t)

/-- A register of hive n at an offset within its window. -/
def hiveRegWrite (n rel off v : Nat) (s : State) : State :=
  if rel = 0x4 then floorWrite n off v s
  else if rel = 0x2190 then pmcSmpWrite n v s
  else if (decide (0x8000 ≤ rel) && decide (rel < 0x10400)) && rel % 0x400 = 4 then
    let c := (rel - 0x8000) / 0x400
    let t := if v.testBit 0 then retireWrite n c s else s
    if v.testBit 1 then testStartWrite n c t else t
  else if rel = 0x1042C then
    if on (ECC_RMP_CMD.BUSY n) s then (if v.testBit 2 then rmpOverrun n s else s)
    else
      let t := plainWrite off v s
      if !v.testBit 2 then t
      else
        match bits v 0 2 with
        | 1 => install n [] t
        | 2 => repair n ((Config.freeData t.free).getLsbD 0) [] (freshDraw t)
        | _ => t
  else if rel = 0x20408 then (if v.testBit 0 then chcCommit n s else s)
  else if 0x20410 ≤ rel && rel < 0x20424 then mapWrite off v s
  else if rel = 0x20470 then mrCmdWrite n off v s
  else if rel = 0x30004 then
    let t := plainWrite off v s
    if v.testBit 0 then recalNow n t else t
  else if rel = 0x30020 then captureLane n (plainWrite off v s)
  else plainWrite off v s

/-- A write of the aligned word at an offset of BAR_0. (DESIGN CHOICE, log entry 11.) -/
def regWrite (off v : Nat) (s : State) : State :=
  let v := v % 2 ^ 32
  if !visible off s then s
  else
    match windowHive off with
    | some n => hiveRegWrite n (off % 0x40000) off v s
    | none => blockWrite off v s

/-- REGISTER_WRITE: a whole, aligned word (R6, R9); nothing answers before step 2 of R511 has ended (R514). -/
def registerWriteOp (off v : Nat) (s : State) : State := if barsOpen s && off % 4 = 0 && off < 2 ^ 24 then regWrite off v (settleBut off 4 s) else s

end Sys2Proof.Machine
end

