-- ==== Sys2Proof/Machine/Host.lean ====
section
/-! DEFINITION. The PCIe function as a target: BAR accesses, configuration space, MSI-X and function reset (R6, R61, R62, R98,
R177, R357, R488, R489, R498 to R510, R514). -/

namespace Sys2Proof.Machine

open Reg

/-- The BARs answer: step 2 of R511 has ended, Memory Space Enable is 1 and the function is in D0 (R501, R514). -/
def memEnabled (s : State) : Bool := barsOpen s && (cfgD 0x04 s).testBit 1 && decide (cfgD 0x44 s % 4 ≠ 3)

/-- An unsupported request: a non-posted one is answered, and AER records it (R509). -/
def unsupported (posted : Bool) (tag : Nat) (s : State) : State :=
  let t := aerSet aerUnsupported s
  if posted then t else sendTlp (.unsupported tag) t

/-! ### BAR_0 (R6, R508) -/

/-- The MSI-X structures take aligned accesses of 4 and 8 bytes (R508). -/
def msixArea (off : Nat) : Bool := decide (0x78000 ≤ off) && decide (off < 0x7A000)

def pageAligned (off len : Nat) : Bool := (len == 4 || len == 8) && off % len == 0

/-- Read n words from a word index; a word outside the access's bytes [lo, hi) reads as zero (R6). -/
def readWords (lo hi : Nat) : Nat → Nat → State → List Byte × State
  | 0, _, s => ([], s)
  | n + 1, w, s =>
    let r := if lo ≤ 4 * w && 4 * w + 4 ≤ hi then regRead (4 * w) s else (0, s)
    let rest := readWords lo hi n (w + 1) r.2
    (leBytes 4 r.1 ++ rest.1, rest.2)

/-- The number of words that bytes [off, off + len) touch. -/
def wordsTouched (off len : Nat) : Nat := if len = 0 then 0 else (off + len - 1) / 4 - off / 4 + 1

/-- A read of BAR_0. -/
def bar0Read (off len : Nat) (s : State) : List Byte × State :=
  if msixArea off && !pageAligned off len then (zeros len, s)
  else
    let r := readWords off (off + len) (wordsTouched off len) (off / 4) s
    (slice r.1 (off % 4) len, r.2)

/-- Write the whole words of n words from a word index. -/
def writeWords (lo : Nat) (d : List Byte) : Nat → Nat → State → State
  | 0, _, s => s
  | n + 1, w, s =>
    let t := if lo ≤ 4 * w && 4 * w + 4 ≤ lo + d.length then regWrite (4 * w) (leAt d (4 * w - lo) 4) s else s
    writeWords lo d n (w + 1) t

/-- A write of BAR_0. -/
def bar0Write (off : Nat) (d : List Byte) (s : State) : State :=
  if msixArea off && !pageAligned off d.length then s else writeWords off d (wordsTouched off d.length) (off / 4) s

/-! ### BAR_2 (R177, R488, R489) -/

/-- A word of the doorbell page of context x. -/
def bellWord (x o : Nat) (s : State) : Nat :=
  let c := ctxOf x s
  if o = 0 then c.tail
  else if o = 8 then c.cplHead
  else if o = 0x20 then c.head + stateCode c.state * 2 ^ 17 + b2n (ctxAway x s) * 2 ^ 19
  else 0

/-- The 64 bits at an aligned offset of the counter page (R488). -/
def counterQuad (o : Nat) (s : State) : Nat :=
  let lo := on PMC_USER_EN.BLK_LO s
  let hi := on PMC_USER_EN.BLK_HI s
  if o < 0x200 then (if (if o < 0x100 then lo else hi) then rd (PMC_BCNT.COUNT (o / 8)) s else 0)
  else if o = 0x200 then
    (if lo then rd (PMC_OVF_B.OVF 0) s else 0) + (if hi then rd (PMC_OVF_B.OVF 1) s else 0) * 2 ^ 32
  else if o = 0x208 then (if on PMC_USER_EN.TIME s then s.fclk % 2 ^ 48 else 0)
  else if 0x400 ≤ o && o < 0xC00 then
    let n := (o - 0x400) / 0x80
    if on PMC_USER_EN.HIVE s && hivePresent n s && hOn n s then rd (PMC_CNT.COUNT n (16 + (o - 0x400) % 0x80 / 8)) s else 0
  else 0

/-- A read of BAR_2. -/
def bar2Read (off len : Nat) (s : State) : List Byte :=
  let x := off / 0x4000
  let o := off % 0x4000
  if !pageAligned o len then zeros len
  else if o < 0x1000 then
    (leBytes 4 (bellWord x o s) ++ (if len = 8 then leBytes 4 (bellWord x (o + 4) s) else []))
  else if o < 0x2000 then
    let q := leBytes 8 (counterQuad ((o - 0x1000) / 8 * 8) s)
    slice q (o % 8) len
  else zeros len

/-- A write of BAR_2: a doorbell of an open host context (R177). -/
def bar2Write (off : Nat) (d : List Byte) (s : State) : State :=
  let x := off / 0x4000
  let o := off % 0x4000
  let v := leNat d
  if d.length ≠ 4 || o % 4 ≠ 0 || (o ≠ 0 && o ≠ 8 && o ≠ 0x10) then s
  else if cHome (ctxOf x s) ≠ 16 || !belled x s then badState s
  else if o = 0 then descTail x v s
  else if o = 8 then cplHead x v s
  else heartbeat x (v % 2 ^ 16) s

/-! ### BAR_4 (R87, R98, R503, R514) -/

/-- The device address of an offset of BAR_4. -/
def bar4Addr (off : Nat) (s : State) : Nat := rdMap GLB_BAR4_BASE.BASE s * 2 ^ 20 + off

/-- The size of BAR_4. -/
def bar4Size (s : State) : Nat := 2 ^ (20 + bits (cfgD 0x188 s) 8 6)

/-- A request of HP through BAR_4 waits at ingress as requester 16 (R316). -/
def hpRequest (src : Src) (op : Op) (a beats be : Nat) (d : List Beat) (s : State) : State :=
  waitIngress 16 ⟨s.nextUid, 16, src, op, 0, beats, 0, 0, a, be, false, d, 0, false, 0, 0, false, 0, 0, s.fclk⟩
    { s with nextUid := s.nextUid + 1 }

/-- A read of BAR_4. (DEDUCED, log entry 74.) -/
def bar4Read (off len tag : Nat) (s : State) : State :=
  let a := bar4Addr off s
  if !hasOpened s then sendTlp (.abort tag) (aerSet aerAbort (recordFault 0 16 false false a s))
  else if s.power.shut.isSome then sendTlp (.abort tag) (aerSet aerAbort s)
  else hpRequest (.hp tag (a % 64) len) .rd (a / 64 * 64) ((a % 64 + max 1 len + 63) / 64) (2 ^ 64 - 1) [] s

/-- The write requests of bytes at an address: beats written in part stand alone under a byte mask. -/
def bar4Writes : Nat → Nat → List Byte → State → State
  | 0, _, _, s => s
  | n + 1, a, d, s =>
    if d.isEmpty then s
    else
      let o := a % 64
      if o = 0 && 64 ≤ d.length then
        let k := d.length / 64
        bar4Writes n (a + 64 * k) (d.drop (64 * k)) (hpRequest (.hp 0 0 0) .wr a k (2 ^ 64 - 1) (beatsOf k d) s)
      else
        let k := min d.length (64 - o)
        bar4Writes n (a + k) (d.drop k)
          (hpRequest (.hp 0 0 0) .wr (a - o) 1 ((2 ^ k - 1) * 2 ^ o) [beatOf (zeros o ++ d.take k ++ zeros (64 - o - k))] s)

/-- A write of BAR_4. -/
def bar4Write (off : Nat) (d : List Byte) (s : State) : State :=
  let a := bar4Addr off s
  if !hasOpened s then recordFault 0 16 true false a s
  else if s.power.shut.isSome then s
  else bar4Writes 4 a d s

/-! ### Memory requests -/

/-- The access lies in its BAR. -/
def inBar (bar off len : Nat) (s : State) : Bool :=
  decide (off + len ≤ (if bar = 0 then 2 ^ 24 else if bar = 2 then 2 ^ 30 else if bar = 4 then bar4Size s else 0))

/-- HP_MEM_READ. -/
def hpMemRead (bar off len tag : Nat) (s : State) : State :=
  if !memEnabled s || !inBar bar off len s then unsupported false tag s
  else if bar = 0 then
    let r := bar0Read off len (idleTick s)
    sendCompletion tag off r.1 false r.2
  else if bar = 2 then sendCompletion tag off (bar2Read off len s) false s
  else bar4Read off len tag s

/-- HP_MEM_WRITE: a poisoned write is discarded and reported (R62). -/
def hpMemWrite (bar off : Nat) (d : List Byte) (poisoned : Bool) (s : State) : State :=
  if !memEnabled s || !inBar bar off d.length s then unsupported true 0 s
  else if poisoned then aerSet aerPoisoned s
  else if bar = 0 then bar0Write off d (settleBut off d.length s)
  else if bar = 2 then bar2Write off d s
  else bar4Write off d s

/-- HP_UNSUPPORTED_REQUEST (R61, R509). -/
def hpUnsupported (kind : UrKind) (tag : Nat) (s : State) : State :=
  match kind with
  | .message => unsupported true tag s
  | .barAccess => if memEnabled s then s else unsupported false tag s
  | _ => unsupported false tag s

/-! ### Configuration space (R498 to R503) -/

/-- A configuration dword as it reads: the live copies of R502 and the rest. -/
def cfgValue (off : Nat) (s : State) : Nat :=
  if off = 0x1B0 then regWord 0x8 s
  else if off = 0x1B4 then s.otp.serial % 2 ^ 32
  else if off = 0x1B8 then s.otp.serial / 2 ^ 32 % 2 ^ 32
  else if off = 0x1BC then regWord 0x4 s
  else cfgD off s

/-- The mask of the bytes that a byte-enable nibble names. -/
def beMask (be : Nat) : Nat := (List.range 4).foldl (fun m i => if be.testBit i then m + 0xFF * 2 ^ (8 * i) else m) 0

/-- Merge written bits under a mask of writable bits. -/
def mergeCfg (old v mask : Nat) : Nat := old - (old &&& mask) + (v &&& mask)

/-- The writable bits of a configuration dword. -/
def cfgMask (off : Nat) (s : State) : Nat :=
  if off = 0x04 then 0x546
  else if off = 0x10 then 0xFF000000
  else if off = 0x18 then 0xC0000000
  else if off = 0x20 then 2 ^ 32 - min (2 ^ 32) (bar4Size s)
  else if off = 0x24 then 2 ^ 32 - max 1 (bar4Size s / 2 ^ 32)
  else if off = 0x58 then 0x79FF
  else if off = 0x78 then 0x1000
  else if off = 0xB0 then 0xC0000000
  else if off = 0x14 || off = 0x1C || off = 0x108 || off = 0x10C || off = 0x114 then 0xFFFFFFFF
  else 0

/-- The registers whose bits a 1 clears: Device Status, and the AER status registers. -/
def cfgW1c (off : Nat) : Nat := if off = 0x58 then 0xF0000 else if off = 0x104 || off = 0x110 then 0xFFFFFFFF else 0

/-- The size field of the Resizable BAR control (R503); a new size clears the address bits below it. -/
def resizeBar (v : Nat) (s : State) : State :=
  let n := bits v 8 6
  if n < 10 || 22 < n || (cfgD 0x04 s).testBit 1 then s
  else
    let t := cfgPut 0x188 (cfgD 0x188 s % 2 ^ 8 + n * 2 ^ 8) s
    cfgPut 0x24 (cfgD 0x24 t &&& cfgMask 0x24 t) (cfgPut 0x20 ((cfgD 0x20 t &&& cfgMask 0x20 t) + 0xC) t)

/-! ### Function reset (R507) -/

/-- A host context set enters LOST, whatever its state was. -/
def dropSet (s : State) (h : Nat) : State :=
  if rd (CTX_HB_STATUS.STATE h) s = 3 then { put (CTX_HB_STATUS.STATE h) 2 s with acks := mdel s.acks h } else loseSet h s

/-- The AER registers that a function reset leaves as they are, since the specification makes them sticky. -/
def stickyCfg (off : Nat) : Bool := decide (0x104 ≤ off) && decide (off ≤ 0x128)

/-- FUNCTION_RESET: steps 1 to 3 and 5 of R507. (DESIGN CHOICE, log entry 73.) -/
def functionResetOp (s : State) : State :=
  let t := { s with host := { s.host with cfg := mkeep s.host.cfg stickyCfg, ready := false } }
  let t := (s.host.reads.map fun x => x.1).foldl (fun u k => abandonRead k u) t
  (List.range 64).foldl dropSet t

/-! ### Configuration requests -/

/-- The effect of a configuration write under its byte enables. -/
def cfgWrite (off be v : Nat) (s : State) : State :=
  let m := beMask be
  let w := v &&& m
  if off = 0x188 then (if be.testBit 1 then resizeBar v s else s)
  else if off = 0x44 then (if be.testBit 0 && (v % 4 = 0 || v % 4 = 3) then cfgPut 0x44 (cfgD 0x44 s / 4 * 4 + v % 4) s else s)
  else if cfgMask off s = 0 && cfgW1c off = 0 then s
  else
    let old := cfgD off s
    let t := cfgPut off (mergeCfg (old - (old &&& w &&& cfgW1c off)) w (cfgMask off s &&& m)) s
    if off = 0x58 && w.testBit 15 then functionResetOp t else t

/-- HP_CONFIG_READ (R498, R514): Retry Status before step 2 of R511 ends and after a function reset (R507). -/
def hpConfigRead (off be tag : Nat) (s : State) : State :=
  if !s.host.ready then sendTlp (.cfgRetry tag) s else sendTlp (.cfgCompletion tag (cfgValue (off / 4 * 4) s &&& beMask be)) s

/-- HP_CONFIG_WRITE: what it permits again goes out (R506). A poisoned one is discarded and reported (R62); its completion has the status
of an unsupported request. (PRESUMED, log entry 97.) -/
def hpConfigWrite (off be v tag : Nat) (poisoned : Bool) (s : State) : State :=
  if poisoned then sendTlp (.unsupported tag) (aerSet aerPoisoned s)
  else if !s.host.ready then sendTlp (.cfgRetry tag) s
  else hostResume (sendTlp (.cfgCompletion tag 0) (cfgWrite (off / 4 * 4) be v s))

/-! ### MSI-X (R508) -/

/-- MSIX_PENDING_RELEASE: the condition that held the messages of a vector ends. -/
def msixRelease (v : Nat) (s : State) : State :=
  if s.host.pba.testBit v && !msgBlocked v s then
    sendMsgNow v { s with host := { s.host with pba := clrBit s.host.pba v } }
  else s

end Sys2Proof.Machine
end

