-- ==== Sys2Proof/Machine/Jtg.lean ====
section
/-! DEFINITION. The test access port (R74 to R76, R466, R472). -/

namespace Sys2Proof.Machine

open Reg

/-- The IDCODE register (R75). -/
def idcode (s : State) : Nat :=
  1 + s.env.idcodeMfr % 2 ^ 11 * 2 + rd GLB_ID.PART s * 2 ^ 12 + rd GLB_ID.REV s * 2 ^ 28

/-- The life cycle permits debug access (bit 0 of a session's scope) or the IEEE 1500 relay (bit 1): open in MANUFACTURE,
PERSONALISE and RETURN, by a debug session in FIELD, closed in END (R466, R472). -/
def debugPermitted (bit : Nat) (s : State) : Bool :=
  match rd LCS_STATE.STATE s with
  | 2 => on LCS_STATE.DBG_OPEN s && (rd LCS_STATE.DBG_SCOPE s).testBit bit
  | 4 => false
  | _ => true

/-- What leaves on TDO. -/
def tdo (v : Nat) (s : State) : State := { s with out := { s.out with jtg := s.out.jtg ++ [v % 2 ^ 32] } }

/-- Program a word of the items that DBG_ACCESS programs (R463): 0 the key digests, with 12 times the slot and the word in `index`,
1 ENC_REQUIRED, with its copy, and else SERIAL, with its word. Bits are only set. -/
def debugProg (item index v : Nat) (o : Otp) : Otp :=
  match item with
  | 0 => { o with digests := (List.range (max 6 o.digests.length)).map fun i =>
      o.digests.getD i 0 ||| (if index / 12 = i then v * 2 ^ (32 * (index % 12)) else 0) }
  | 1 => { o with encReq := orCopy o.encReq index v }
  | _ => { o with serial := o.serial ||| (v * 2 ^ (32 * (index % 2))) }

/-- A word of OTP is programmed through DBG_ACCESS: in MANUFACTURE, ENC_REQUIRED in PERSONALISE too, within the window of R423. -/
def debugOtp (item index v : Nat) (s : State) : State :=
  let st := rd LCS_STATE.STATE s
  if otpWindow s && (st == 0 || (st == 1 && item == 1)) then { s with otp := debugProg item index v s.otp } else s

/-- A scan through DBG_ACCESS, debug access to the cores and registers (R74): which read or write of a register of BAR_0, or which OTP
word (R463), its bits ask for, and what leaves on TDO otherwise, are free values. What a core's memories hold is not in the model.
(DESIGN CHOICE, log entry 16.) -/
def debugAccess (tdi : BitVec 32) (s : State) : State :=
  let w := (Config.debugAccess tdi).toNat
  let off := bits w 2 22 * 4
  let other := freshDraw (tdo (Config.freeData s.free).toNat s)
  match bits w 0 2 with
  | 1 => tdo (regRead off s).1 (regRead off s).2
  | 2 => regWrite off (bits w 32 32) other
  | 3 => debugOtp (bits w 64 2) (bits w 66 8) (bits w 32 32) other
  | _ => other

/-- A scan through STACK_1500: the keeper of a hive passes the bits to its stack's IEEE 1500 port, and no other way leads there (R66).
Which hive's, and what comes back, are free values. (DESIGN CHOICE, log entry 16.) -/
def stackRelay (tdi : BitVec 32) (s : State) : State :=
  let n := (Config.stackRelay tdi).toNat
  let t := freshDraw (tdo (Config.freeData s.free).toNat s)
  if keeperReady n s && hOn n s then { t with out := { t.out with stack := t.out.stack ++ [(n, tdi.toNat)] } } else t

/-- A scan that is not permitted reaches nothing; what leaves on TDO is a free value. (DESIGN CHOICE, log entry 16.) -/
def closedScan (s : State) : State := freshDraw (tdo (Config.freeData s.free).toNat s)

/-- JTG_ACCESS: an instruction is loaded, and 32 bits are scanned through the data register that it selects (R74). BYPASS, and every
code without a name, delays by one bit. -/
def jtgScan (ir : BitVec 8) (tdi : BitVec 32) (s : State) : State :=
  let s := { s with jtgIr := ir.toNat }
  if ir = 0x20 then (if debugPermitted 0 s then debugAccess tdi s else closedScan s)
  else if ir = 0x30 then (if debugPermitted 1 s then stackRelay tdi s else closedScan s)
  else if ir = 0x01 then tdo (idcode s) s
  else tdo (2 * tdi.toNat) s

end Sys2Proof.Machine
end

