-- ==== Sys2Proof/Machine/Start.lean ====
section
/-! DEFINITION. Reset and start-up: the ROM code, the release of the cores, port opening, the held events and the housekeeping
round (R77 to R79, R88, R89, R411, R440 to R444, R511 to R520), and the end of an orderly shutdown (R428). -/

namespace Sys2Proof.Machine

open Reg

/-! ### Reset (R77, R78) -/

/-- GLB_ID and GLB_CAP of the variant (R3, R103). -/
def variantRegs (s : State) : State :=
  match s.env.variant with
  | .mls1600 => putAll [(GLB_ID.PART, 0x1600), (GLB_CAP.HIVE_PRESENT, 0xFFFF), (GLB_CAP.PEER_PRESENT, 1), (GLB_CAP.ENC_PRESENT, 1),
      (GLB_CAP.VARIANT, 1)] s
  | .mls1600s => putAll [(GLB_ID.PART, 0x1601), (GLB_CAP.HIVE_PRESENT, 0xFFFF), (GLB_CAP.PEER_PRESENT, 0), (GLB_CAP.ENC_PRESENT, 0),
      (GLB_CAP.VARIANT, 2)] s
  | .mls0800 => putAll [(GLB_ID.PART, 0x0800), (GLB_CAP.HIVE_PRESENT, 0x00FF), (GLB_CAP.PEER_PRESENT, 1), (GLB_CAP.ENC_PRESENT, 1),
      (GLB_CAP.VARIANT, 3)] s

/-- The sensor trims, which OTP holds (R409, R463). -/
def trimFields : List Fld :=
  ((List.range 16).flatMap fun k => [THM_SHRTRIM_P.N0 k, THM_SHRTRIM_P.SLOPE k, THM_SHRTRIM_S.N0 k, THM_SHRTRIM_S.SLOPE k]) ++
    (List.range 16).flatMap fun n => (List.range 8).flatMap fun k =>
      [THM_TRIM_P.N0 n k, THM_TRIM_P.SLOPE n k, THM_TRIM_S.N0 n k, THM_TRIM_S.SLOPE n k]

/-- The seeds, whose written value the next reset takes (R281, R329). (DEDUCED, log entry 18.) -/
def seedFields : List Fld := ARB_LFSR_SEED.SEED :: (List.range 16).map fun n => CHC_NR_SEED.SEED n

/-- Keep the listed entries of some fields. -/
def keepFields (fs : List Fld) (m : AMap Nat) : AMap Nat := mkeep m fun k => fs.any fun f => f.key == k

/-- What a reset leaves in the flash: while an update erases and programs a slot (R452), the device leaves the slot programmed up to a
point that the spec does not give, a free value (R73, R78). (DESIGN CHOICE, log entry 100.) -/
def tornFlash (s : State) : AMap Byte :=
  if updState s ≠ 3 then s.flash
  else
    let tgt := (checkPackage s).2
    flashProg (flashErase s.flash (slotBase (targetSlot s)) slotSize) (slotBase (targetSlot s)) (tgt.take (Config.freeData s.free).toNat)

/-- RESET: everything returns to reset but what flash and OTP hold. The commands that wait stand outside the block. The PWR_ACK_d inputs
are taken to be low after it, as the requests are; the spec is silent on a hub that still holds one high.
(DESIGN CHOICE, log entry 17.) -/
def resetOp (porst : Bool) (s : State) : State :=
  let b := State.blank s.env
  let t : State := { b with
    pending := s.pending, free := s.free + 1,
    regs := mset (keepFields trimFields s.regs) PEER_TIMEOUT.US.key (resetTimeout s.env), force := keepFields seedFields s.regs,
    otp := s.otp, flash := tornFlash s, evLog := s.evLog, remapLog := s.remapLog, remapWant := s.remapLog, out := s.out,
    thermal := { b.thermal with recSeq := s.thermal.recSeq } }
  lcsShow (putAll [(GLB_RESET_CAUSE.PORST, b2n porst), (GLB_RESET_CAUSE.HUB_RST, b2n (!porst))] (variantRegs t))

/-! ### The ROM code (R440, R441, R443, R520) -/

/-- The start stops in ROM verification (R79, R466, R441): `stage` 3, or 0 in recovery. -/
def romStop (st : Nat) (s : State) : State := { s with fw := { s.fw with stage := st }, host := { s.host with ready := true } }

/-- The slots in the order in which the ROM code tries them, with the digest that the first must show (R441). -/
def slotOrder (s : State) : List (Nat × Option (List Byte)) :=
  match bootInForce s with
  | none => [(0, none), (1, none)]
  | some (_, _, r) => if leAt r 1 1 = 1 then [(1, some (slice r 16 16)), (0, none)] else [(0, some (slice r 16 16)), (1, none)]

/-- The image of a slot verifies and shows the digest that its record names. -/
def slotGood (s : State) (x : Nat × Option (List Byte)) : Bool :=
  (imgVerify (slotImage x.1 s) s.otp).isSome && x.2.all fun d => (signedDigest (slotImage x.1 s)).take 16 == d

/-- The first slot of an order that verifies, and whether it is not the slot of the record. -/
def chooseSlot (s : State) : Option (Nat × Bool) :=
  match slotOrder s with
  | [a, b] => if slotGood s a then some (a.1, false) else if slotGood s b then some (b.1, a.2.isSome) else none
  | _ => none

/-- The default items (R444). -/
def defaultItems : AMap (List Byte) := [1, 3, 4, 5].map fun t => (t, itemDefault t)

/-- Write the defaults back once R423 permits (R443). -/
def writeDefaults (s : State) : State :=
  if s.fw.setOwed && flashOk s then
    let t := writeSettings (imgSetMax (runImage s)) defaultItems s
    { t with fw := { t.fw with setOwed := false } }
  else s

/-- Read the settings block (R443). -/
def loadSettings (s : State) : State :=
  let img := runImage s
  let bad := fun (owed : Bool) => writeDefaults (put FWM_STATUS.SETTINGS_RESET 1 { s with fw := { s.fw with items := [], setOwed := owed } })
  match settingsInForce s with
  | none => bad true
  | some (_, _, b) =>
    if leAt b 4 2 < imgSetMin img then bad true
    else if imgSetMax img < leAt b 4 2 then bad false
    else { s with fw := { s.fw with items := blockItems s } }

/-- ROM_BOOT: steps 1 to 4 of R440, after the first round. The flash goes to 8D-8D-8D if its parameter header is valid (R72), of which
the spec gives no layout: whether it is, is a free value of its first page. (DESIGN CHOICE, log entry 100.) `flashFails` says that the flash fails
or is busy in the scan of the shutdown record (R426). (DESIGN CHOICE, log entry 59.) -/
def romBoot (flashFails : Bool) (s : State) : State :=
  if s.rounds = 0 || s.fw.stage ≠ 0 || on FWM_STATUS.RECOVERY s || rd GLB_STATUS.PHASE s ≠ 0 then s
  else if 360 < hottest s then romStop 3 (put GLB_STATUS.PHASE 7 (setPower { s.power with shdnReq := true, todo := [] } s))
  else
    let s := lcsShow { s with fw := { s.fw with octal := Config.flashHeader (leNat (flRead 0 256 s)) } }
    if rd LCS_STATE.STATE s = 4 then romStop 3 s
    else
      match chooseSlot s with
      | none => romStop 0 (put FWM_STATUS.RECOVERY 1 s)
      | some (i, other) =>
        let t := putAll [(FWM_STATUS.RUN_SLOT, i), (FWM_STATUS.FALLBACK, b2n other)] s
        let t := { t with fw := { t.fw with keySlot := (imgVerify (slotImage i t) t.otp).getD 0 } }
        let t := if flashFails then postEvent 7 0 1 [] t else consumeShutRec t
        romStop 1 (loadSettings t)

/-! ### Core loading (R440, step 5; R444, R463, R474, R478) -/

/-- Program a key item with random bits, if its value is blank. -/
def programKey (item old : Nat) (s : State) : State :=
  if old = 0 then
    let k := (Config.trng s.free).toNat
    let ws : List OtpWord := (List.range 8).map fun i => (item, i, k / 2 ^ (32 * i) % 2 ^ 32)
    freshDraw { s with otp := ws.foldl otpProg s.otp }
  else s

/-- Program ENC_ROOT and ID_SEED at the first start in PERSONALISE, if blank and within the window of R423. -/
def programKeys (s : State) : State :=
  if rd LCS_STATE.STATE s = 1 && otpWindow s then
    let t := programKey 4 s.otp.encRoot s
    programKey 5 t.otp.idSeed t
  else s

/-- Derive the keys of the inline encryption unit, if it is present and ENC_ROOT is programmed and not destroyed.
(PRESUMED, log entry 58.) -/
def deriveKeys (s : State) : State :=
  if on GLB_CAP.ENC_PRESENT s && keySet s.otp.encRoot && !on LCS_STATE.KEY_DEAD s then
    let salt := leBytes 32 (Config.trng s.free).toNat
    let k := hkdf salt (leBytes 32 s.otp.encRoot) [0x4D, 0x4C, 0x53, 0x2D, 0x6D, 0x65, 0x64, 0x69, 0x61] 64
    put LCS_ENC_STATUS.KEY_READY 1 (freshDraw { s with fw := { s.fw with encKeys := some (leAt k 0 32, leAt k 32 32) } })
  else s

/-- CORE_RELEASE: every core of the variant starts from bank 0 and reports READY, and the settings go into their registers.
(DEDUCED, log entry 62.) -/
def coreRelease (s : State) : State :=
  if s.fw.stage ≠ 1 || rd GLB_STATUS.PHASE s ≠ 0 then s
  else
    let t := put GLB_STATUS.PHASE 1 { s with fw := { s.fw with stage := 2 }, cores := [] }
    let t := programKeys (deriveKeys (loadItems t))
    let t := freshDraw { t with fw := { t.fw with startNonce := (Config.trng t.free).toNat % 2 ^ 128 } }
    let other := slotImage (1 - runSlot t) t
    let t := putAll [(FWM_IMG_VER.VER, imgVer (runImage t)),
      (FWM_ALT_VER.VER, if (imgVerify other t.otp).isSome then imgVer other else 0)] t
    ((List.range 21).filter fun i => corePresent i t).foldl coreUp t

/-! ### Interleave sets (R88, R89) -/

/-- A set to be written: hives, GRAN and VALID. -/
abbrev ISet := List Nat × Nat × Bool

/-- Generation, pin rate and data capacity of a hive. -/
def hiveKind (n : Nat) (s : State) : Nat × Nat × Nat := (rd (GLB_HIVE_CAP.GEN n) s, rd (PHY_CFG.RATE n) s, rd (GLB_HIVE_CAP.CAP n) s)

/-- The hives that passed training and the checker self-test. -/
def goodHives (s : State) : List Nat :=
  (List.range 16).filter fun n => hivePresent n s && hOn n s && on (GLB_HIVE_CAP.CAP n) s

/-- Put a hive into the group of its kind. -/
def addToGroup (k : Nat × Nat × Nat) (n : Nat) : List ((Nat × Nat × Nat) × List Nat) → List ((Nat × Nat × Nat) × List Nat)
  | [] => [(k, [n])]
  | g :: gs => if g.1 = k then (k, g.2 ++ [n]) :: gs else g :: addToGroup k n gs

/-- Insert a group by descending hive count, after the groups of equal count that are there. -/
def insertGroup (g : List Nat) : List (List Nat) → List (List Nat)
  | [] => [g]
  | x :: xs => if x.length < g.length then g :: x :: xs else x :: insertGroup g xs

/-- Split a group into sets whose hive counts are powers of two, largest first. -/
def splitGroup : Nat → List Nat → List (List Nat)
  | 0, _ => []
  | k + 1, l => if l.isEmpty then [] else l.take (2 ^ Nat.log2 l.length) :: splitGroup k (l.drop (2 ^ Nat.log2 l.length))

/-- The sets that the box office forms: groups by lowest hive first, then by descending count, split and cut to eight. -/
def formSets (s : State) : List ISet :=
  let gs := ((goodHives s).foldl (fun l n => addToGroup (hiveKind n s) n l) []).map fun g => g.2
  let ordered := gs.foldl (fun l g => insertGroup g l) []
  ((ordered.flatMap fun g => splitGroup 16 g).take 8).map fun hs => (hs, 0, true)

/-- The explicit list of the settings block, if it has one. (DEDUCED, log entry 24.) -/
def explicitSets (s : State) : Option (List ISet) :=
  (mfind s.fw.items 2).map fun b => (List.range 8).map fun i =>
    let w := leAt b (4 * i) 4
    (onesBelow 16 w, bits w 16 3, w.testBit 31)

/-- The sets in use: those before the first invalid one. -/
def usedSets (l : List ISet) : List ISet := l.takeWhile fun x => x.2.2

/-- A list satisfies R89. -/
def setsOk (l : List ISet) (s : State) : Bool :=
  let u := usedSets l
  let all := u.flatMap fun x => x.1
  decide (all.eraseDups.length = all.length) && u.all fun x =>
    [1, 2, 4, 8, 16].contains x.1.length && x.1.all fun n => (goodHives s).contains n && hiveKind n s == hiveKind (x.1.headD 0) s

/-- MiB of a set. -/
def setMiB (x : ISet) (s : State) : Nat := x.1.length * rd (GLB_HIVE_CAP.CAP (x.1.headD 0)) s

/-- Write one set's registers. -/
def writeSet (i base size : Nat) (x : ISet) (s : State) : State :=
  putAll [(GLB_ISET.HIVES i, x.1.foldl setBit 0), (GLB_ISET.GRAN i, x.2.1), (GLB_ISET.VALID i, b2n x.2.2),
    (GLB_ISET_BASE.BASE i, base), (GLB_ISET_SIZE.SIZE i, size)] s

/-- Write the sets from i on, laid end to end while they are in use. -/
def writeSets : List ISet → Nat → Nat → Bool → State → State
  | [], _, top, _, s => put GLB_MEM_TOP.TOP top s
  | x :: xs, i, top, used, s =>
    let u := used && x.2.2
    let m := if u then setMiB x s else 0
    writeSets xs (i + 1) (top + m) u (writeSet i (if u then top else 0) m x s)

/-- Step 1 of R517: form or take the sets and write the map. -/
def layMap (s : State) : State :=
  let formed := formSets s
  let r : List ISet × Bool := match explicitSets s with
    | none => (formed, false)
    | some l => if setsOk l s then (l, false) else (formed, true)
  let inUse := (usedSets r.1).flatMap fun x => x.1
  let t := writeSets ((r.1 ++ List.replicate 8 ([], 0, false)).take 8) 0 0 true s
  putAll [(GLB_STATUS.SETS_REJECTED, b2n r.2), (GLB_STATUS.HIVES_UNUSED, ((goodHives s).filter fun n => !inUse.contains n).length)] t

/-! ### Port opening (R517 to R519) -/

/-- Steps 3, 4 and 6 of R517; the events held so far move into the event ring (R87). -/
def openAll (cpLinks : BitVec 16) (ppLink : Bool) (s : State) : State :=
  let t := s.held.foldl ringWrite (takeMap (putAll [(GLB_STATUS.PORTS_OPEN, 1), (GLB_STATUS.PHASE, 5)] s))
  let t := (onesBelow 16 cpLinks.toNat).foldl (fun u k => openPort k u) t
  if ppLink && peerPresent t then ppOpen (setPort 17 { port 17 t with linkUp := true } t) else t

/-- PORT_OPENING: `cpLinks` and `ppLink` are the link-up inputs. A start without enough memory stops (R519). -/
def portOpening (cpLinks : BitVec 16) (ppLink : Bool) (s : State) : State :=
  if rd GLB_STATUS.PHASE s ≠ 4 || s.fw.opening || !coreReady 0 s then s
  else
    let t := layMap { s with fw := { s.fw with opening := true } }
    if rd GLB_MEM_TOP.TOP t ≤ fwReserve t then t
    else openAll cpLinks ppLink (put LCS_ENC_STATUS.ACTIVE (b2n (encEn t)) t)

/-- HELD_EVENT_FLUSH (R516). -/
def heldEventFlush (s : State) : State := flushEvents s

/-! ### The rest of an orderly shutdown (R428) -/

/-- Perform a part that no queue holds yet, directly. -/
def performPart (a : Part) (s : State) : State :=
  match mfind s.live a.uid with
  | none => s
  | some l =>
    match a.op with
    | .rd => a.beats.foldl (fun t b => deliver a.n a.uid b.i (directRead a.n b.c b.off [] (settle a.n b.c b.off t)) t) s
    | .wr => a.beats.foldl (fun t b =>
        let u := settle a.n b.c b.off t
        let d := mergeBytes l.req.byteEn (readBlock a.n b.c b.off u) (l.req.data.getD b.i 0)
        ackWrite a.n a.uid true (writeBlock a.n b.c b.off d u)) s
    | _ => ackWrite a.n a.uid true s

/-- Complete a part that has been transferred: its reads still queued, and its read-modify-writes. -/
def performQueued (a : Part) (s : State) : State :=
  match a.op with
  | .rd => a.beats.foldl (fun t b =>
      if (mfind t.live a.uid).any (fun v => (mfind v.got b.i).isSome) then t
      else
        let u := settle a.n b.c b.off t
        let e := (pcOf a.n b.c b.p u).rdq.find? fun e => e.uid == a.uid && e.beat == b.i
        deliver a.n a.uid b.i ((e.bind fun e => e.data).orElse fun _ => directRead a.n b.c b.off [] u) u) s
  | .wr => a.beats.foldl (fun t b =>
      let q := pcOf a.n b.c b.p t
      match (q.wrq ++ q.stage).find? fun e => e.uid == a.uid && e.beat == b.i && e.mask.isSome with
      | none => t
      | some e =>
        let u := settle a.n b.c b.off t
        let u := answerPart a.n b.c b.p e (some (readBlock a.n b.c b.off u)) u
        settle a.n b.c b.off u) s
  | _ => s

/-- Apply every queued write of a hive. -/
def settleAll (s : State) : State :=
  s.pcs.foldl (fun t x => x.2.wrq.foldl (fun u e => settle (x.1 / 64) (x.1 % 64 / 2) e.off u) t) s

/-- The writes that wait in a gate's staging come first in the queues of their pseudo-channel. -/
def unstage (q : Pc) : Pc := { q with wrq := q.wrq ++ q.stage, stage := [], drains := [] }

/-- A pseudo-channel whose stack has entered self-refresh with nothing queued (R267, R286). -/
def sleepPc (q : Pc) : Pc :=
  { writeBackAll q with
    st := .selfRefresh, refWake := false, rdq := [], wrq := [], strq := [], maint := [], stage := [], drains := [], retries := [],
    scrubs := [], banks := [] }

/-- CP_k sends the responses that its credits cover. -/
def drainEgress (s : State) (k : Nat) : State := (port k s).egress.foldl (fun t _ => responseSend k t) s

/-- Step 2 of R428: the requests past ingress complete; responses for which there is no credit are discarded. -/
def finishRequests (s : State) : State :=
  let s := { s with pcs := mmap (fun _ q => unstage q) s.pcs }
  let ns := List.range 16
  let t := (ns.flatMap fun n => (partsAt n s).2).foldl (fun u a => performQueued a u) s
  let t := settleAll ((ns.flatMap fun n => (partsAt n s).1).foldl (fun u a => performPart a u) t)
  let t := pumpRsp 4096 ((List.range 16).foldl drainEgress t)
  { t with
    ports := mmap (fun _ p => { p with egress := [], tags := [] }) t.ports, live := [], gates := [], arrived := [],
    peer := { t.peer with egress := [] } }

/-- Step 3 of R428: dirty check rows are written back and every pseudo-channel enters self-refresh. -/
def sleepStacks (s : State) : State :=
  let t := s.pcs.foldl (fun u x => rowActs (x.1 / 64) (x.1 % 64 / 2) (x.1 % 2) (dirtyRows x.2) u) s
  { t with pcs := mmap (fun _ q => sleepPc q) t.pcs }

/-- ORDERLY_SHUTDOWN: steps 2 to 6 of R428 as far as they can run: requests past ingress complete, the stacks enter
self-refresh, the cells go off, and SHDN_REQ rises once they are off and a held record is written or has waited 100 rounds.
(DESIGN CHOICE, log entry 56.) -/
def orderlyShutdown (s : State) : State :=
  match s.power.shut with
  | none => s
  | some sh =>
    if sh.step = 1 then
      let t := sleepStacks (finishRequests s)
      let t := (List.range 16).foldl (fun u n => requestOff (16 + n) u) t
      setPower { t.power with shut := some { sh with step := 5, since := t.rounds } } t
    else
      let off := (List.range 16).all fun n => settledOff (16 + n) s
      let held := sh.thermal && s.thermal.due.isSome && decide (s.rounds < sh.since + 100)
      if off && !held then setPower { s.power with shdnReq := true } s else s

/-! ### The housekeeping round (R411, R450, R455, R487) -/

/-- Append the waiting records to the event log in flash, within R423 (R450). -/
def logEvents (s : State) : State :=
  if released s && coreReady 0 s && flashOk s then { s with evLog := s.evLog ++ s.logWait, logWait := [] } else s

/-- What the firmware does once a round: cores that were restarted report READY, the log and the defaults are written, and a
READY update is considered. -/
def firmwareRound (s : State) : State :=
  if released s then recordRemaps (mbxGo (evalActivation (writeDefaults (logEvents (finishRestarts s))))) else s

/-- The counted events of a round. -/
def roundEvents (s : State) : State :=
  let t := emit 0x800 1 none none none none s
  if (List.range 16).any fun n => on (HIV_THM_STATE.LEVEL n) t then emit 0x801 1 none none none none t else t

/-- The function answers configuration requests again, once the ROM code has done so at all (R507, R514). -/
def readyRound (s : State) : State :=
  if s.fw.stage ≠ 0 || on FWM_STATUS.RECOVERY s then { s with host := { s.host with ready := true } } else s

/-- HOUSEKEEPING_ROUND. (DESIGN CHOICE, log entry 54.) -/
def housekeepingRound (obs : RoundObs) (s : State) : State := 
  readyRound (firmwareRound (roundEvents (thermalRound obs (idleTick (svcFlush s)))))

end Sys2Proof.Machine
end

