-- ==== Sys2Proof/Machine/CueExec.lean ====
section
/-! DEFINITION. The instructions of a cue program (R214 to R233, R236): control, address registers, columns, PASS and the reduce
unit. One command executes the next word of one hive. -/

namespace Sys2Proof.Machine

open Reg

/-! ### Issue (R215, R222) -/

/-- The sequencer of hive n, its job and the word at its pc, if that word has the opcode and the job runs. -/
def issue (op n : Nat) (s : State) : Option (Cue × Job × Nat) :=
  match (hive n s).cue with
  | none => none
  | some c =>
    match mfind s.jobs c.job with
    | none => none
    | some v =>
      let w := mgetD (hive n s).store (c.base + c.pc) 0
      if v.stopped || c.atSync || opOf w ≠ op then none else some (c, v, w)

/-- A word with a parity error is read again from the image before it issues, and counted (R218). -/
def refetch (parityError : Bool) (n : Nat) (word : Option (Cue × Job × Nat)) (s : State) : State :=
  if parityError && word.isSome then emit 0x403 1 (some n) none none none (bump (CUE_PERR.COUNT n) 1 s) else s

/-- A parity error at the issue of a word: one of the program store is read again, another fails the job (R218, R259, R362). -/
def meetAtIssue (p : Parity) (n : Nat) (word : Option (Cue × Job × Nat)) (s : State) : State :=
  match word with
  | none => s
  | some x => meetParity p x.1.job (refetch (p == .store) n word s)

/-- The word has issued: the sequencer goes on at pc. -/
def goOn (n pc : Nat) (c : Cue) (s : State) : State :=
  emit 0x400 1 (some n) none none none (put (CUE_STATUS.PC n) pc (setHive n { hive n s with cue := some { c with pc := pc } } s))

/-- The instruction at the pc is refused when it issues (R219, R220). -/
def refuseWord (n : Nat) (c : Cue) (reason : Nat) (s : State) : State :=
  failJob c.job stProg (refuseInfo c.pc reason) (recordRefuse n c.pc reason s)

/-- The first reason of a list whose condition holds. -/
def firstReason (l : List (Nat × Bool)) : Option Nat := (l.find? fun x => x.2).map fun x => x.1

/-- Every earlier instruction of the hive has finished: its streams have ended and its loads and EMIT writes have been answered
(R214, R222). -/
def drained (n : Nat) (s : State) : Option State :=
  if (hive n s).cue.all fun c => c.loads == 0 && c.writes == 0 then drainStreams n s else none

/-- The sequencer as it now stands. -/
def cueOf (n : Nat) (s : State) : Cue := ((hive n s).cue).getD (cueStart 0 0 false)

/-- The word at the pc, with the opcode, once the streams before it have ended. -/
def issueAfter (op n : Nat) (s : State) : Option (State × Cue × Job × Nat) :=
  match issue op n s with
  | none => none
  | some (_, v, w) => (drainStreams n s).map fun t => (t, cueOf n t, v, w)

/-! ### Control (R222, R223) -/

/-- CUE_NOP. -/
def nopOp (n : Nat) (s : State) : State :=
  match issue opNop n s with
  | none => s
  | some (c, _, _) => goOn n (c.pc + 1) c s

/-- The job leaves a hive at END, which is at a job boundary: retirements and self-tests take effect, and pushes that waited are
performed (R158, R161, R214, R243). -/
def leaveHive (n j : Nat) (s : State) : State :=
  boundary n (sampleJob j n 0 (showCue n (setHive n { hive n s with cue := none } s)))

/-- The hive has completed END: the job is finished when every hive of its span has. -/
def hiveEnds (n j : Nat) (s : State) : State :=
  match mfind s.jobs j with
  | none => s
  | some w =>
    let t := setJob j { w with running := w.running.erase n } s
    if (w.running.erase n).isEmpty then finishWork j t else t

/-- CUE_END (R214). -/
def endOp (n : Nat) (s : State) : State :=
  match issue opEnd n s, drained n s with
  | some (c, _, _), some t => hiveEnds n c.job (leaveHive n c.job (emit 0x400 1 (some n) none none none t))
  | _, _ => s

/-- CUE_WAIT: with SPAN = 1 the hive waits at the synchronisation point. -/
def waitOp (n : Nat) (s : State) : State :=
  match issue opWait n s, drained n s with
  | some (_, _, w), some t =>
    if w.testBit 52 then setHive n { hive n t with cue := some { cueOf n t with atSync := true } } t
    else goOn n ((cueOf n t).pc + 1) (cueOf n t) t
  | _, _ => s

/-- CUE_LSET. -/
def lsetOp (n : Nat) (s : State) : State :=
  match issue opLset n s with
  | none => s
  | some (c, _, w) => goOn n (c.pc + 1) { c with lc := c.lc.set (bits w 50 2) (bits w 0 20) } s

/-- CUE_LOOP. -/
def loopOp (n : Nat) (s : State) : State :=
  match issue opLoop n s with
  | none => s
  | some (c, _, w) =>
    let k := c.lc.getD (bits w 50 2) 0
    if k = 0 then refuseWord n c 9 s
    else goOn n (if k = 1 then c.pc + 1 else bits w 0 10) { c with lc := c.lc.set (bits w 50 2) (k - 1) } s

/-! ### Address registers (R224) -/

def areg (c : Cue) (i : Nat) : Nat := c.areg.getD i 0

/-- Write an address register, modulo 2^64. -/
def setAreg (i v : Nat) (c : Cue) : Cue := { c with areg := c.areg.set i (v % 2 ^ 64) }

/-- CUE_ASET. -/
def asetOp (n : Nat) (s : State) : State :=
  match issue opAset n s with
  | none => s
  | some (c, _, w) => goOn n (c.pc + 1) (setAreg (bits w 48 4) (bits w 0 48) c) s

/-- CUE_AMOV. -/
def amovOp (n : Nat) (s : State) : State :=
  match issue opAmov n s with
  | none => s
  | some (c, v, w) => goOn n (c.pc + 1) (setAreg (bits w 48 4) (v.argv.getD (bits w 0 3) 0) c) s

/-- CUE_AADD. -/
def aaddOp (n : Nat) (s : State) : State :=
  match issue opAadd n s with
  | none => s
  | some (c, _, w) =>
    goOn n (c.pc + 1) (setAreg (bits w 48 4) (areg c (bits w 44 4) + ofSigned 64 (toSigned 44 (bits w 0 44))) c) s

/-- CUE_AMAD. -/
def amadOp (n : Nat) (s : State) : State :=
  match issue opAmad n s with
  | none => s
  | some (c, _, w) =>
    goOn n (c.pc + 1) (setAreg (bits w 48 4) (areg c (bits w 44 4) + areg c (bits w 40 4) * bits w 0 32) c) s

/-! ### Mode and scale (R225, R226) -/

/-- CUE_MODE. -/
def modeOp (n : Nat) (s : State) : State :=
  match issue opMode n s with
  | none => s
  | some (c, _, w) => goOn n (c.pc + 1) { c with mode := some (modeOf w) } s

/-- CUE_SCALE. -/
def scaleOp (n : Nat) (s : State) : State :=
  match issue opScale n s with
  | none => s
  | some (c, _, w) => goOn n (c.pc + 1) { c with mul := bits w 0 32 } s

/-! ### Columns (R227, R228) -/

/-- The position of a hive in its span. -/
def logicalHive (n : Nat) (v : Job) : Nat := v.hives.findIdx fun x => x == n

/-- A stream of hive n that has not ended reads one of the columns, in the beats that would be written. -/
def colsInUse (n scl first count beat beats : Nat) (s : State) : Bool :=
  let h := hive n s
  let h := { h with cue := h.cue.map fun c => { c with kv := none } }
  (List.range (usedCh n s)).any fun l => (List.range count).any fun j => (List.range beats).any fun b =>
    beatInUse h l scl (first + j) (beat + b)

/-- Where the streams hold what an instruction writes, the state once they have ended; none while they have not. -/
def freeIf (b : Bool) (n : Nat) (s : State) : Option State := if b then drainStreams n s else some s

/-- Write the beats of one column. -/
def writeColumn (n c scl col off : Nat) (d : List Byte) (beats : Nat) (s : State) : State :=
  (List.range beats).foldl (fun t b => writeColBeat n c scl col (off + b) (slice d (64 * b) 64) t) s

/-- The columns of one cell from data that holds them one after another. -/
def writeColumns (n c scl col nc off beats : Nat) (d : List Byte) (s : State) : State :=
  (List.range nc).foldl (fun t j => writeColumn n c scl (col + j) off (slice d (j * beats * 64) (beats * 64)) beats t) s

/-- The columns that an LDACT word fills, the beats of each, and the units of its source (R227): where they begin and how many they
are. -/
structure Load where
  scl : Nat
  col : Nat
  nc : Nat
  off : Nat
  beats : Nat
  unit0 : Nat
  units : Nat
  deriving DecidableEq, Repr

def loadOf (n : Nat) (v : Job) (w : Nat) (s : State) : Load :=
  let l := logicalHive n v
  ⟨bits w 21 1, colFirst w, colCount w, bits w 22 8, bits w 30 8 + 1,
    (match bits w 19 2 with | 0 => 0 | 1 => l | _ => l * usedCh n s), if bits w 19 2 = 2 then usedCh n s else 1⟩

/-- Beat q of the source of an LDACT enters its column, in every cell or in the cell of its unit. -/
def loadBeat (n : Nat) (x : Load) (q : Nat) (d : List Byte) (s : State) : State :=
  let r := q % (x.nc * x.beats)
  (if x.units = 1 then List.range (usedCh n s) else [q / (x.nc * x.beats)]).foldl
    (fun t l => writeColBeat n l x.scl (x.col + r / x.beats) (x.off + r % x.beats) d t) s

/-- The requests of an LDACT: from beat q of its source, k beats, each at most 64 and within a page. -/
def loadPieces (a : Nat) : Nat → Nat → Nat → List (Nat × Nat)
  | 0, _, _ => []
  | fuel + 1, q, k =>
    if k = 0 then []
    else
      let m := min k (pageRoom ((a + 64 * q) % 2 ^ 64) / 64)
      (q, m) :: loadPieces a fuel (q + m) (k - m)

/-- An access of the job that runs on a hive, counted as a load or as a write of the hive. -/
def askCue (n : Nat) (dest : AccFor) (load : Bool) (opcode : Nat) (op : Op) (a k byteEn : Nat) (d : List Byte) (s : State) : State :=
  match (hive n s).cue with
  | none => s
  | some c =>
    match mfind s.jobs c.job with
    | none => s
    | some v =>
      askJob c.job v dest opcode 0 0 op a k byteEn d
        (onCue n (fun c => if load then { c with loads := c.loads + 1 } else { c with writes := c.writes + 1 }) s)

/-- CUE_LDACT: the source of the columns is asked for, and the sequencer goes on once all of it has arrived. -/
def ldactOp (n : Nat) (s : State) : State :=
  match issue opLdact n s with
  | none => s
  | some (c, v, w) =>
    let a := areg c (bits w 48 4)
    let x := loadOf n v w s
    if 0 < c.loads then s
    else if a % 64 ≠ 0 then refuseWord n c 7 s
    else
      match freeIf (colsInUse n x.scl x.col x.nc x.off x.beats s) n s with
      | none => s
      | some t =>
        let a0 := (a + x.unit0 * (x.nc * x.beats) * 64) % 2 ^ 64
        (loadPieces a0 (x.units * x.nc * x.beats) 0 (x.units * x.nc * x.beats)).foldl
          (fun u q => askCue n (.ldact n c.pc q.1) true 0 .rd ((a0 + 64 * q.1) % 2 ^ 64) q.2 (2 ^ 64 - 1) [] u) t

/-- Beats of an LDACT have arrived, from beat q of its source on. -/
def ldactArrives (j n pc q : Nat) (d : List Byte) (s : State) : State :=
  match (hive n s).cue, mfind s.jobs j with
  | some c, some v =>
    if c.job ≠ j || c.pc ≠ pc || c.loads = 0 then s
    else
      let x := loadOf n v (mgetD (hive n s).store (c.base + c.pc) 0) s
      let t := (List.range (d.length / 64)).foldl (fun u i => loadBeat n x (q + i) (slice d (64 * i) 64) u) s
      let t := onCue n (fun c => { c with loads := c.loads - 1 }) t
      if c.loads = 1 then goOn n (c.pc + 1) (cueOf n t) t else t
  | _, _ => s

/-- CUE_CLRC. -/
def clrcOp (n : Nat) (s : State) : State :=
  match issue opClrc n s with
  | none => s
  | some (c, _, w) =>
    let col := colFirst w
    let nc := colCount w
    let both := colsInUse n 0 col nc 0 256 s || colsInUse n 1 col nc 0 9 s
    match freeIf both n s with
    | none => s
    | some t =>
      let cells := (List.range (usedCh n t)).map fun i => physCell n i t
      let keep := (hive n t).cols.filter fun x =>
        !(cells.contains (x.1 / 2 ^ 20) && decide (col ≤ x.1 / 2 ^ 14 % 32) && decide (x.1 / 2 ^ 14 % 32 < col + nc))
      let t := setHive n { hive n t with cols := keep } t
      goOn n (c.pc + 1) (cueOf n t) t

/-! ### Weight operands (R236, R363) -/

/-- The end of what a weight operand may use of a channel: its capacity without the remap reserve (R236, R363). -/
def operandEnd (n : Nat) (s : State) : Nat := chanBytes n s - 32768

/-! ### Streams (R217, R228 to R231) -/

/-- The elements of one entry may not exceed 2^24 (R120). -/
def maxCount : Nat := 2 ^ 24

/-- Fields that PASS and KSTREAM share. -/
structure StreamArgs where
  acc : Bool
  rb : Nat
  addr : Nat
  rows : Nat
  k : Nat
  ncol : Nat
  rbase : Nat
  split : Bool
  bank : Nat
  deriving DecidableEq, Repr

def passArgs (c : Cue) (w : Nat) : StreamArgs :=
  ⟨w.testBit 54, bits w 55 1, areg c (bits w 48 4), bits w 37 11, bits w 22 15, bits w 17 5, bits w 0 10, w.testBit 53,
    if w.testBit 53 then bits w 52 1 else 0⟩

/-- The entries that a stream adds into. -/
def addedInto (cells : Nat) (a : StreamArgs) (c : Cue) : List Entry :=
  if a.acc then (List.range (a.rows * cells)).filterMap fun i => mfind c.ents (entKey a.rb (a.rbase + i)) else []

/-- Two MODEs are the same for entries (R219): CSEG has no effect in the exact class (R225). -/
def sameMode (a b : Mode) : Bool := a == b || (exactClass a && { a with cseg := 0 } == { b with cseg := 0 })

/-- An entry cannot be added into under a MODE (R219). The exact class has no sum of an accumulator and an FP32 value. (DEDUCED, log
entry 27.) -/
def cannotAdd (m : Mode) (e : Entry) : Bool := !(e.mode.any fun x => sameMode x m) || (e.kind32 && exactClass m)

/-- The entries as the streams that run will leave them, in what the checks of a later stream ask of them. -/
def foreseen (cells : Nat) (c : Cue) : AMap Entry :=
  (c.streams.foldl (fun d x =>
    if x.v then finishValues cells x d
    else
      { d with ents := (List.range cells).foldl (fun es l =>
          let first := (mfind x.takers l).elim 0 fun t => t.row
          (List.range (x.rows - first)).foldl (fun es i =>
            let k := entKey x.rb (x.rbase + (first + i) * cells + l)
            mset es k (newEntry x.acc x.keep (mfind es k) x.mode x.k none [] false (List.replicate x.ncol []))) es) d.ents }) c).ents

/-- Why a stream instruction is refused when it issues (R219), the lowest reason first. -/
def streamReason (n cells : Nat) (m : Mode) (a : StreamArgs) (c : Cue) (s : State) : Option Nat :=
  let old := addedInto cells a { c with ents := foreseen cells c }
  firstReason [
    (5, decide ((if a.split then 8192 else 16384) < a.k * (fmtWidth m.af / 8)) || old.any fun e => decide (maxCount < e.count + a.k)),
    (7, a.addr % 64 != 0),
    (8, operandBytes m a.rows a.k != 0 && decide (operandEnd n s < a.addr + operandBytes m a.rows a.k)),
    (0xC, old.any (cannotAdd m)),
    (0xD, old.any fun e => decide (e.vals.length < a.ncol))]

/-- The stream of a checked instruction of PASS's kind, before a cell has its place in it. -/
def streamOf (m : Mode) (a : StreamArgs) (keep : Bool) (seq : Option (Nat × Nat)) (c : Cue) : Stream :=
  { v := false, mode := m, mul := c.mul, acc := a.acc, rb := a.rb, rbase := a.rbase, addr := a.addr, rows := a.rows, k := a.k, ncol := a.ncol,
    split := a.split, bank := a.bank, keep := keep, seq := seq, hide := [], more := 0, ovfCols := [], sums := [], scales := [], takers := [],
    replays := [] }

/-- A checked stream instruction runs behind the streams before it, and the sequencer goes on. Without rows it does nothing (R230).
(DESIGN CHOICE, log entry 28.) -/
def runStream (n : Nat) (x : Stream) (c : Cue) (s : State) : State :=
  let t := goOn n (c.pc + 1) c s
  if x.rows = 0 then t else addStream n x t

/-- The column banks that a PASS reads on a hive join the digest input of an audited job (R204); a PASS without rows reads none
(R230). -/
def digestBanks (n : Nat) (v : Job) (c : Cue) (a : StreamArgs) (s : State) : State :=
  if !audited v || a.rows = 0 then s
  else
    let len := if a.split then 8192 else 16384
    let bank := fun (i j : Nat) => colBytes (hive n s).cols (colKey (physCell n i s) 0 j (8192 * a.bank)) len
    let d := (List.range (usedCh n s)).flatMap fun i => (List.range a.ncol).flatMap fun j => bank i j
    setJob c.job { v with banks := mset v.banks (16 * c.passes + logicalHive n v) d } s

/-- CUE_PASS. -/
def passOp (n : Nat) (s : State) : State :=
  match issue opPass n s with
  | none => s
  | some (c, v, w) =>
    match c.mode with
    | none => refuseWord n c 0xC s
    | some m =>
      let a := passArgs c w
      match streamReason n (usedCh n s) m a c s with
      | some r => refuseWord n c r s
      | none => runStream n (streamOf m a false none c) { c with passes := c.passes + 1 } (digestBanks n v c a s)

/-! ### The reduce unit (R232) -/

/-- CUE_ZRB. -/
def zrbOp (n : Nat) (s : State) : State :=
  match issueAfter opZrb n s with
  | none => s
  | some (t, c, _, w) =>
    let lo := entKey (bits w 55 1) (bits w 0 10)
    goOn n (c.pc + 1) { c with ents := mkeep c.ents fun k => decide (k < lo) || decide (lo + bits w 10 11 ≤ k) } t

/-- The zero of the kind of an entry's values. -/
def zeroLike (v : EVal) : EVal := match v with | .fp32 _ _ => .fp32 0 false | _ => .zeroExact

/-- Why operands cannot be combined (R219): 5 for more than 2^24 elements, 0xC for different modes. (DEDUCED, log entry 27.) -/
def combineBad (l : List (Option Entry)) : Option Nat :=
  let es := l.filterMap fun x => x
  let apart := fun (x e : Entry) =>
    match x.mode, e.mode with
    | some a, some b => !sameMode a b || (exactClass a && x.kind32 != e.kind32)
    | a, b => a != b
  firstReason [(5, decide (maxCount < es.foldl (fun k e => k + e.count) 0)), (0xC, es.any fun e => es.head?.any fun x => apart x e)]

/-- Combine operands by the pairwise tree (R232, R244, R245). -/
def combineEnts (l : List (Option Entry)) : Option Entry :=
  match l.filterMap fun x => x with
  | [] => none
  | e :: es =>
    let ncol := es.foldl (fun k x => min k x.vals.length) e.vals.length
    let zero := zeroLike (e.vals.headD .zeroExact)
    let col := fun (j : Nat) => treeFold EVal.plus zero (l.map fun x => x.elim zero fun y => y.vals.getD j zero)
    some { e with
      vals := (List.range ncol).map col, count := (e :: es).foldl (fun k x => k + x.count) 0, aScales := e.aScales.take ncol,
      masked := false }

/-- Set an entry, or make it zero. -/
def setEnt (es : AMap Entry) (k : Nat) (e : Option Entry) : AMap Entry :=
  match e with
  | some x => mset es k x
  | none => mdel es k

/-- The operand keys of each group of RED. -/
def redGroups (w cells : Nat) : List (List Nat) :=
  let g := 2 ^ bits w 21 3
  (List.range (bits w 10 11 * (cells / g))).map fun i =>
    (List.range g).map fun j => entKey (bits w 55 1) (bits w 0 10 + i * g + j)

/-- Combine the entries of one group into the first. -/
def redGroup (es : AMap Entry) (ks : List Nat) : AMap Entry :=
  let r := combineEnts (ks.map fun k => mfind es k)
  setEnt (ks.foldl (fun m k => mdel m k) es) (ks.headD 0) r

/-- CUE_RED. -/
def redOp (n : Nat) (s : State) : State :=
  match issueAfter opRed n s with
  | none => s
  | some (t, c, _, w) =>
    let gs := redGroups w (usedCh n s)
    match (gs.filterMap fun ks => combineBad (ks.map fun k => mfind c.ents k)).head? with
    | some r => refuseWord n c r t
    | none => goOn n (c.pc + 1) { c with ents := gs.foldl redGroup c.ents } t

/-- CUE_GATHER: the hive contributes to the exchange (R246). -/
def gatherOp (n : Nat) (s : State) : State :=
  match issueAfter opGather n s with
  | none => s
  | some (t, c, _, _) => setHive n { hive n t with cue := some { c with atSync := true } } t

/-! ### EMIT (R125, R127, R226, R233) -/

/-- The elements of an EMIT: element bytes and flags, entry by entry. -/
def emitRows (ot ecol mul : Nat) (es : List (Option Entry)) : List (List (Nat × Nat)) :=
  es.map fun e => (List.range ecol).map fun j =>
    emitValue ot (scaled e j mul) (e.any fun x => (x.vals.getD j .zeroExact).ovf)

/-- The bytes of an EMIT with their offsets from DST + AREG[S] (R233): runs of consecutive bytes. -/
def emitRuns (osize ecol total g0 : Nat) (cmaj : Bool) (rows : List (List (Nat × Nat))) : List (Nat × List Byte) :=
  let put1 := fun (x : Nat × Nat) => leBytes osize x.1
  if cmaj then (List.range ecol).map fun j => ((j * total + g0) * osize, rows.flatMap fun r => put1 (r.getD j (0, 0)))
  else [(g0 * ecol * osize, rows.flatMap fun r => r.flatMap put1)]

/-- Bytes of an EMIT leave for its destination: to the host, or a request for each beat (R392, R505). -/
def emitBytes (n j : Nat) (v : Job) (s : State) (x : Nat × List Byte) : State :=
  if x.2.isEmpty then s
  else if jDstSpace v = 1 then hostWrite j x.1 x.2 s
  else (beatParts (x.2.length + 1) x.1 x.2).foldl (fun t b => askCue n (.emit n) false 2 .wr b.1 1 b.2.1 b.2.2 t) s

/-- A write of an EMIT has been answered. -/
def emitAnswered (j n : Nat) (s : State) : State :=
  onCue n (fun c => if c.job = j then { c with writes := c.writes - 1 } else c) s

/-- Why an EMIT is refused (R219). A zero entry is never the cause. -/
def emitReason (ot ecol off osize : Nat) (es : List (Option Entry)) : Option Nat :=
  let l := es.filterMap fun x => x
  firstReason [(4, ot == 0 && l.any fun e => e.kind32 || !(e.mode.any firstRow)), (7, off % osize != 0),
    (0xD, l.any fun e => decide (e.vals.length < ecol))]

/-- The entries that an EMIT word reads (R233). -/
def emitEnts (c : Cue) (w : Nat) : List (Option Entry) :=
  (List.range (bits w 27 11)).map fun i => mfind c.ents (entKey (bits w 18 1) (bits w 38 10 + i * 2 ^ bits w 19 3))

/-- The bytes of an element that an EMIT word writes. -/
def emitSize (w : Nat) : Nat := if bits w 52 4 = 2 then 2 else 4

/-- The reason for which the program checks refuse an EMIT. -/
def emitBad (c : Cue) (w : Nat) : Option Nat :=
  emitReason (bits w 52 4) (bits w 22 5) (areg c (bits w 48 4)) (emitSize w) (emitEnts c w)

/-- The elements that an EMIT converts, a row for each entry, each with its flags. -/
def emitValues (c : Cue) (w : Nat) : List (List (Nat × Nat)) := emitRows (bits w 52 4) (bits w 22 5) c.mul (emitEnts c w)

/-- The byte runs of an EMIT, each with its offset in the destination. -/
def emitPlan (n : Nat) (c : Cue) (v : Job) (w : Nat) : List (Nat × List Byte) :=
  let h0 := w.testBit 57
  let count := bits w 27 11
  let total := if h0 then count else count * 2 ^ jSpan v
  (emitRuns (emitSize w) (bits w 22 5) total (if h0 then 0 else logicalHive n v * count) (w.testBit 56) (emitValues c w)).map
    fun (x : Nat × List Byte) => (areg c (bits w 48 4) + x.1, x.2)

/-- A run of an EMIT that reaches past the destination. (DEDUCED, log entry 29.) -/
def emitBeyond (v : Job) (runs : List (Nat × List Byte)) : Option (Nat × List Byte) :=
  runs.find? fun x => decide (0 < x.2.length) && decide (jWide v 12 < x.1 + x.2.length)

/-- The flags that the conversions of an EMIT raise (R130). (DEDUCED, log entry 26.) -/
def emitFlags (c : Cue) (w : Nat) : Nat := (emitValues c w).foldl (fun k r => r.foldl (fun k x => k ||| x.2) k) 0

/-- The writes of an EMIT leave, and the sequencer goes on. -/
def emitWrite (n : Nat) (c : Cue) (v : Job) (w : Nat) (s : State) : State :=
  let t := goOn n (c.pc + 1) c (setJob c.job { v with aflags := v.aflags ||| emitFlags c w } s)
  (emitPlan n c v w).foldl (fun u x => emitBytes n c.job v u ((jDst v + x.1) % 2 ^ 64, x.2)) t

/-- CUE_EMIT. An EMIT that would write outside DST to DST + DST_LIMIT - 1 writes nothing; INFO is the first byte outside (R186,
R233). -/
def emitOp (n : Nat) (s : State) : State :=
  match issueAfter opEmit n s with
  | none => s
  | some (t, c, v, w) =>
    if w.testBit 57 && logicalHive n v ≠ 0 then goOn n (c.pc + 1) c t
    else
      match emitBad c w with
      | some r => refuseWord n c r t
      | none =>
        match emitBeyond v (emitPlan n c v w) with
        | some x =>
          let a := (jDst v + max x.1 (jWide v 12)) % 2 ^ 64
          failJob c.job stAccess a (recordFault v.ctx 18 true false a t)
        | none => emitWrite n c v w t

end Sys2Proof.Machine
end

