-- ==== Sys2Proof/Machine/Attention.lean ====
section
/-! DEFINITION. KV-stream mode (R240 to R258): KSTREAM, the staged softmax, VSTREAM, and the exchange of a span at its
synchronisation points (R222, R246). -/

namespace Sys2Proof.Machine

open Reg

/-! ### KSTREAM (R247 to R249) -/

def kstreamArgs (c : Cue) (w : Nat) : StreamArgs :=
  ⟨w.testBit 54, bits w 55 1, areg c (bits w 48 4), bits w 37 11, bits w 22 15, bits w 17 5, bits w 0 10, true, 0⟩

/-- KBASE and KNEXT of a KSTREAM (R248). -/
def kstreamKv (a : StreamArgs) (cells span : Nat) (kv : Kv) : Kv :=
  if a.acc then kv else { kv with kbase := kv.knext, knext := min (kv.knext + a.rows * cells * 2 ^ span) (2 ^ 32 - 1) }

/-- CUE_KSTREAM. -/
def kstreamOp (n : Nat) (s : State) : State :=
  match issue opKstream n s with
  | none => s
  | some (c, v, w) =>
    match c.mode with
    | none => refuseWord n c 0xC s
    | some m =>
      let a := kstreamArgs c w
      let cells := usedCh n s
      match streamReason n cells m a c s with
      | some r => refuseWord n c r s
      | none =>
        let kv := kstreamKv a cells (jSpan v) (kvOf c)
        let seq := if a.acc then none else some (bits (jWord v 14) 0 25, kv.kbase + logicalHive n v * cells * a.rows)
        runStream n (streamOf m a a.acc seq c) { c with kv := some kv } s

/-! ### FP32 values of entries (R250) -/

/-- The values of all columns of an entry. -/
def values32 (mul : Nat) (e : Option Entry) : List (Nat × Bool) := (List.range (ncolOf e)).map fun j => value32 e j mul

/-- An entry of FP32 kind with given values, keeping the rest of an entry. -/
def asKind32 (e : Option Entry) (vals : List (Nat × Bool)) : Entry :=
  let l := vals.map fun x => EVal.fp32 x.1 x.2
  match e with
  | some x => { x with vals := l, kind32 := true, wScale := none, aScales := [] }
  | none => ⟨l, 0, none, true, none, [], false⟩

/-- A stage takes the value of an entry: one of neither FP32 kind nor zero is rewritten. -/
def takeValue (mul : Nat) (es : AMap Entry) (k : Nat) : AMap Entry :=
  match mfind es k with
  | none => es
  | some x => if x.kind32 then es else mset es k (asKind32 (some x) (values32 mul (some x)))

/-- The keys of the entries of an SMAX_STAGE. -/
def smaxKeys (w : Nat) : List Nat := (List.range (bits w 10 11)).map fun i => entKey (bits w 55 1) (bits w 0 10 + i)

/-- The operands of one column, an entry without the column giving the identity. -/
def columnVals (es : AMap Entry) (ks : List Nat) (mul j : Nat) (e : Nat × Bool) : List (Nat × Bool) :=
  ks.map fun k => if j < ncolOf (mfind es k) then value32 (mfind es k) j mul else e

/-! ### SMAX_STAGE (R252 to R254) -/

def smaxStage (w : Nat) : Nat := bits w 52 2

/-- The word at the pc of a hive is SMAX_STAGE of the given stage. -/
def issueStage (stage n : Nat) (s : State) : Option (Cue × Job × Nat) := (issue opSmax n s).filter fun x => smaxStage x.2.2 == stage

/-- The same, once the streams before it have ended. -/
def issueSmax (stage n : Nat) (s : State) : Option (State × Cue × Job × Nat) :=
  (issueAfter opSmax n s).filter fun x => smaxStage x.2.2.2 == stage

/-- The hive maximum of column j (R252, step 2). -/
def hiveMax (c : Cue) (w j : Nat) : Nat × Bool := treeFold maxFlag minusInf (columnVals c.ents (smaxKeys w) c.mul j minusInf)

/-- SMAX_STAGE_MAX: the hive takes its values and contributes its maxima. -/
def smaxMaxOp (n : Nat) (s : State) : State :=
  match issueSmax 0 n s with
  | none => s
  | some (t, c, _, w) =>
    setHive n { hive n t with cue := some { c with ents := (smaxKeys w).foldl (takeValue c.mul) c.ents, atSync := true } } t

/-- The probability of a column of an entry (R253, step 2). -/
def probability (mul : Nat) (kv : Kv) (e : Option Entry) (j : Nat) : Nat × Bool :=
  if e.any fun x => x.masked then (0, false) else expDiff (value32 e j mul) (kv.m.getD j minusInf)

/-- L and RL after stage 1 (R253, step 4). -/
def newL (kv : Kv) (sums : List (Nat × Bool)) : Kv :=
  let l := (List.range 20).map fun j =>
    fold32 (bring (kv.l.getD j (0, false)) (kv.rl.getD j minusInf) (kv.m.getD j minusInf)) (sums.getD j (0, false))
  { kv with l := l, rl := kv.m }

/-- SMAX_STAGE_EXP. -/
def smaxExpOp (n : Nat) (s : State) : State :=
  match issueSmax 1 n s with
  | none => s
  | some (t, c, _, w) =>
    let kv := kvOf c
    let step := fun (es : AMap Entry) (k : Nat) =>
      let e := mfind es k
      mset es k (asKind32 e ((List.range (ncolOf e)).map fun j => probability c.mul kv e j))
    let es := (smaxKeys w).foldl step c.ents
    let qs := fun (j : Nat) => (smaxKeys w).map fun k =>
      match mfind es k with
      | some x => if j < x.vals.length then (match x.vals.getD j .zeroExact with | .fp32 b o => (b, o) | _ => (0, false)) else (0, false)
      | none => (0, false)
    let sums := (List.range 20).map fun j => treeFold fold32 (0, false) (qs j)
    goOn n (c.pc + 1) { c with ents := es, kv := some (newL kv sums) } t

/-- R254, step 1: RO takes its first value, and L is brought to RO. -/
def closeKv (kv : Kv) : Kv :=
  let ro := (List.range 20).map fun j => if (kv.ro.getD j minusInf).1 = minusInf.1 then kv.rl.getD j minusInf else kv.ro.getD j minusInf
  let l := (List.range 20).map fun j => bring (kv.l.getD j (0, false)) (kv.rl.getD j minusInf) (ro.getD j minusInf)
  { kv with l := l, rl := ro, ro := ro }

/-- SMAX_STAGE_CLOSE: the hive contributes its sums. -/
def smaxCloseOp (n : Nat) (s : State) : State :=
  match issueSmax 2 n s with
  | none => s
  | some (t, c, _, _) => setHive n { hive n t with cue := some { c with kv := some (closeKv (kvOf c)), atSync := true } } t

/-! ### VSTREAM (R257, R258) -/

/-- The fields of VSTREAM. -/
structure VArgs where
  acc : Bool
  ob : Nat
  pb : Nat
  addr : Nat
  pbase : Nat
  obase : Nat
  d : Nat
  ncol : Nat
  tok : Nat
  deriving DecidableEq, Repr

def vArgs (c : Cue) (w : Nat) : VArgs :=
  ⟨w.testBit 53, bits w 54 1, bits w 55 1, areg c (bits w 48 4), bits w 38 10, bits w 28 10, bits w 13 15, bits w 8 5, bits w 0 8⟩

/-- The probability entry of a token of a cell. -/
def probEntry (a : VArgs) (cells : Nat) (es : AMap Entry) (cell t : Nat) : Option Entry :=
  mfind es (entKey a.pb (a.pbase + t * cells + cell))

def isMaskedEnt (e : Option Entry) : Bool := e.any fun x => x.masked

/-- Tokens that are not masked, over all cells. -/
def liveTokens (a : VArgs) (cells : Nat) (es : AMap Entry) : Nat :=
  ((List.range cells).flatMap fun i => (List.range a.tok).filter fun t => !isMaskedEnt (probEntry a cells es i t)).length

/-- Why a VSTREAM is refused when it issues (R219, R258). -/
def vReason (n cells : Nat) (m : Mode) (a : VArgs) (c : Cue) (s : State) : Option Nat :=
  let old := if a.acc then (List.range a.d).filterMap fun d => mfind c.ents (entKey a.ob (a.obase + d)) else []
  let probs := (List.range (a.tok * cells)).filterMap fun i => mfind c.ents (entKey a.pb (a.pbase + i))
  let more := liveTokens a cells c.ents
  firstReason [
    (3, m.af == 2),
    (5, old.any fun e => decide (maxCount < e.count + more)),
    (7, a.addr % 64 != 0),
    (8, operandBytes m a.d a.tok != 0 && decide (operandEnd n s < a.addr + operandBytes m a.d a.tok)),
    (0xC, old.any fun e => e.mode.any fun x => !sameMode x m),
    (0xD, (probs ++ old).any fun e => decide (e.vals.length < a.ncol))]

/-- The probability of a token for column j, converted to the activation format (R258); one that becomes NaN
for want of an infinity carries no OVF of its own (R130). -/
def convertProb (m : Mode) (e : Option Entry) (j mul : Nat) : Nat × Bool :=
  let v := value32 e j mul
  let r := roundFp (fpFmt m.af) (f32 v.1)
  (r.1, v.2 || (r.2 && (fpFmt m.af).infCode.isSome))

/-- R257, step 1: the probabilities of one cell enter bytes 8,192 on of its columns. -/
def placeProbs (n cell cells : Nat) (m : Mode) (a : VArgs) (c : Cue) (s : State) : State :=
  let size := fmtWidth m.af / 8
  (List.range a.ncol).foldl (fun t j =>
    let d := (List.range a.tok).flatMap fun i => leBytes size (convertProb m (probEntry a cells c.ents cell i) j c.mul).1
    let h := hive n t
    setHive n { h with cols := colWrite h.cols (colKey (physCell n cell t) 0 j 8192) d } t) s

/-- The columns that a probability with OVF enters, over all cells (R130). -/
def probOver (cells : Nat) (m : Mode) (a : VArgs) (c : Cue) : List Bool :=
  (List.range a.ncol).map fun j => (List.range cells).any fun i => (List.range a.tok).any fun t =>
    !isMaskedEnt (probEntry a cells c.ents i t) && (convertProb m (probEntry a cells c.ents i t) j c.mul).2

/-- The stream of a VSTREAM, before a cell has its place in it. -/
def vStream (cells : Nat) (m : Mode) (a : VArgs) (c : Cue) : Stream :=
  { v := true, mode := m, mul := c.mul, acc := a.acc, rb := a.ob, rbase := a.obase, addr := a.addr, rows := a.d, k := a.tok, ncol := a.ncol,
    split := true, bank := 1, keep := false, seq := none,
    hide := (List.range cells).map fun i => (i, (List.range a.tok).map fun t => isMaskedEnt (probEntry a cells c.ents i t)),
    more := liveTokens a cells c.ents, ovfCols := probOver cells m a c, sums := [], scales := [], takers := [], replays := [] }

/-- CUE_VSTREAM: the probabilities are placed, and the value rows stream behind them (R257). -/
def vstreamOp (n : Nat) (s : State) : State :=
  match issueAfter opVstream n s with
  | none => s
  | some (t, c, _, w) =>
    match c.mode with
    | none => refuseWord n c 0xC t
    | some m =>
      let a := vArgs c w
      let cells := usedCh n t
      match vReason n cells m a c t with
      | some r => refuseWord n c r t
      | none =>
        if a.d = 0 then goOn n (c.pc + 1) c t
        else runStream n (vStream cells m a c) c ((List.range cells).foldl (fun u i => placeProbs n i cells m a c u) t)

/-! ### The exchange (R222, R246) -/

/-- Every hive of the span goes on after the exchange; the ECLK that it has waited are counted (R487). -/
def goOnAll (hs : List Nat) (s : State) : State :=
  hs.foldl (fun t n => let c := cueOf n t; goOn n (c.pc + 1) { c with atSync := false } (emitSome 0x402 n none t)) s

/-- Set or clear an entry on every hive: logical hive 0 gets it, the others become zero. -/
def leaveIn0 (hs : List Nat) (k : Nat) (e : Option Entry) (s : State) : State :=
  hs.foldl (fun t n => onCue n (fun c => { c with ents := setEnt c.ents k (if n = hs.headD 16 then e else none) }) t) s

/-- GATHER's exchange (R232). -/
def gatherExchange (j : Nat) (hs : List Nat) (w : Nat) (s : State) : State :=
  let ks := (List.range (bits w 10 11)).map fun i => entKey (bits w 55 1) (bits w 0 10 + i * 2 ^ bits w 21 3)
  let ops := fun (t : State) (k : Nat) => hs.map fun n => mfind (cueOf n t).ents k
  if hs.length = 1 then goOnAll hs s
  else
    match (ks.filterMap fun k => combineBad (ops s k)).head? with
    | some r =>
      let n := hs.headD 0
      failJob j stProg (refuseInfo (cueOf n s).pc r) (hs.foldl (fun t i => recordRefuse i (cueOf n s).pc r t) s)
    | none => goOnAll hs (ks.foldl (fun t k => leaveIn0 hs k (combineEnts (ops t k)) t) s)

/-- SMAX_STAGE 0's exchange (R252, steps 3 and 4). -/
def maxExchange (hs : List Nat) (w : Nat) (s : State) : State :=
  let m := (List.range 20).map fun j => treeFold maxFlag minusInf (hs.map fun n => hiveMax (cueOf n s) w j)
  let upd := fun (c : Cue) =>
    let kv := kvOf c
    { c with kv := some { kv with m := (List.range 20).map fun j => maxFlag (kv.m.getD j minusInf) (m.getD j minusInf) } }
  goOnAll hs (hs.foldl (fun t n => onCue n upd t) s)

/-- The quotient of R254, step 3. -/
def divide (v l : Nat × Bool) : Nat × Bool :=
  let r := round32 ((f32 v.1).div (f32 l.1))
  (r.1, v.2 || l.2 || r.2)

/-- An entry of FP32 kind with twenty columns (R254, step 4). -/
def plainEntry (vals : List (Nat × Bool)) : Entry := ⟨vals.map fun x => .fp32 x.1 x.2, 0, none, true, none, [], false⟩

/-- SMAX_STAGE 2's exchange (R254, steps 2 to 5). -/
def closeExchange (hs : List Nat) (w : Nat) (s : State) : State :=
  let n0 := hs.headD 0
  let c0 := cueOf n0 s
  let lam := (List.range 20).map fun j =>
    treeFold fold32 (0, false) (hs.map fun n => (kvOf (cueOf n s)).l.getD j (0, false))
  let t :=
    if bits w 10 11 = 0 then
      let k := entKey (bits w 55 1) (bits w 0 10)
      leaveIn0 hs (k + 1) (some (plainEntry lam)) (leaveIn0 hs k (some (plainEntry (kvOf c0).ro)) s)
    else
      (smaxKeys w).foldl (fun t k =>
        let e := mfind c0.ents k
        let vals := (values32 c0.mul e).mapIdx fun j v => divide v (lam.getD j (0, false))
        leaveIn0 hs k (some { asKind32 e vals with masked := false }) t) s
  goOnAll hs (hs.foldl (fun u n => onCue n (fun c => { c with kv := some kvStart }) u) t)

/-- SPAN_SYNC_COMPLETE: every hive of the span has reached the same synchronisation point, and the exchange is performed. -/
def spanSync (j : Nat) (s : State) : State :=
  match mfind s.jobs j with
  | none => s
  | some v =>
    let n0 := v.hives.headD 16
    let c0 := cueOf n0 s
    let here := fun (n : Nat) => (hive n s).cue.any fun c => c.job == j && c.atSync && c.pc == c0.pc
    if v.stopped || v.hives.isEmpty || !v.hives.all here then s
    else
      let w := mgetD (hive n0 s).store (c0.base + c0.pc) 0
      match opOf w with
      | 0x02 => goOnAll v.hives s
      | 0x1D => gatherExchange j v.hives w s
      | _ => if smaxStage w = 0 then maxExchange v.hives w s else closeExchange v.hives w s

end Sys2Proof.Machine
end

