-- ==== Sys2Proof/Machine/Units.lean ====
section
/-! DEFINITION. What the units do when their accesses have been answered (R27, R28, R172) and when blocks of a stream have arrived
(R141): every command that may answer an access ends with it. -/

namespace Sys2Proof.Machine

/-- An access of a unit has been answered. -/
def settleUnit (x : Arrival) (u : UnitAcc) (s : State) : State :=
  let j := u.owner
  match u.dest with
  | .copyRead _ => jobAnswer j x (sourceArrives j (accBytes x)) s
  | .sendRead _ => jobAnswer j x (sourceArrives j (accBytes x)) s
  | .castRead _ => jobAnswer j x (sourceArrives j (accBytes x)) s
  | .jobWrite => jobAnswer j x (writeAnswered j) s
  | .gatherRead _ => jobAnswer j x (gatherArrives j (accBytes x)) s
  | .gatherWrite => jobAnswer j x (gatherPut j) s
  | .cueArgs => jobAnswer j x (argsArrive j (accBytes x)) s
  | .cueImage _ => jobAnswer j x (imageArrives j (accBytes x)) s
  | .ldact n pc q => jobAnswer j x (ldactArrives j n pc q (accBytes x)) s
  | .emit n => jobAnswer j x (emitAnswered j n) s
  | .fetch i _ id => fetchAnswered j i id x s
  | .record job irq => recordWritten job j irq x s
  | .firmware _ => if (accFailed x s).isSome then postEvent 12 0 2 [x.req.addr % 2 ^ 32, x.req.addr / 2 ^ 32] s else s

/-- Every answered access reaches its unit. -/
def settleUnits (s : State) : State :=
  s.arrived.foldl (fun t x => match x.req.src with | .unit u => settleUnit x u t | _ => t) { s with arrived := [] }

/-- The cells of every hive take what has arrived for them. -/
def settleCells (s : State) : State := (List.range 16).foldl (fun t n => advance n t) s

/-- What follows in the block when accesses have been answered and blocks have arrived. -/
def settled (s : State) : State := settleUnits (settleCells s)

end Sys2Proof.Machine
end

