-- ==== Sys2Proof/Machine/Meanings.lean ====
section
/-! DEFINITION. The meaning of each command, one definition for each row of spec/opcode_table.json: what it does to everything but
the queue. The work stands in the operations of the families. -/

namespace Sys2Proof.Machine

/-! ### Reset and start-up -/

/-- RESET (R78). -/
def execReset (porst : Bool) (s : State) : Host.Outcome State Fault Refusal := .next (resetOp porst s)

/-- ROM_BOOT (R440). -/
def execRomBoot (flashFails : Bool) (s : State) : Host.Outcome State Fault Refusal := .next (romBoot flashFails s)

/-- CORE_RELEASE (R440). -/
def execCoreRelease (s : State) : Host.Outcome State Fault Refusal := .next (coreRelease s)

/-- DOMAIN_SEQUENCE (R421). -/
def execDomainSequence (s : State) : Host.Outcome State Fault Refusal := .next (domainSequence s)

/-- HIVE_TRAINING (R298). -/
def execHiveTraining (n : Nat) (obs : TrainObs) (s : State) : Host.Outcome State Fault Refusal := .next (settled (hiveTraining n obs s))

/-- CHECKER_SELF_TEST (R370). -/
def execCheckerSelfTest (fails : List (Nat × Bool × Nat × Nat)) (s : State) : Host.Outcome State Fault Refusal :=
  .next (settled (checkerSelfTest fails s))

/-- FILL (R371). -/
def execFill (s : State) : Host.Outcome State Fault Refusal := .next (fill s)

/-- PORT_OPENING (R517). -/
def execPortOpening (cpLinks : BitVec 16) (ppLink : Bool) (s : State) : Host.Outcome State Fault Refusal :=
  .next (portOpening cpLinks ppLink s)

/-- HELD_EVENT_FLUSH (R516). -/
def execHeldEventFlush (s : State) : Host.Outcome State Fault Refusal := .next (heldEventFlush s)

/-! ### Temperature, throttling and power -/

/-- HOUSEKEEPING_ROUND (R411). -/
def execHousekeepingRound (obs : RoundObs) (s : State) : Host.Outcome State Fault Refusal := .next (housekeepingRound obs s)

/-- THROTTLE_LEVEL_STEP (R416). -/
def execThrottleLevelStep (g : Nat) (s : State) : Host.Outcome State Fault Refusal := .next (levelStep g s)

/-- SHUTDOWN_RECORD_WRITE (R424). -/
def execShutdownRecordWrite (s : State) : Host.Outcome State Fault Refusal := .next (shutdownRecordWrite s)

/-- SHUTDOWN_RECORD_CLEAR (R424). -/
def execShutdownRecordClear (s : State) : Host.Outcome State Fault Refusal := .next (shutdownRecordClear s)

/-- ORDERLY_SHUTDOWN (R428). -/
def execOrderlyShutdown (s : State) : Host.Outcome State Fault Refusal := .next (settled (orderlyShutdown s))

/-- SHUTDOWN (R427). -/
def execShutdown (s : State) : Host.Outcome State Fault Refusal := .next (softShutdown s)

/-- PWR_ACK_RISE (R80). -/
def execPwrAckRise (d : Nat) (s : State) : Host.Outcome State Fault Refusal := ackRise d s

/-- PWR_ACK_FALL (R80). -/
def execPwrAckFall (d : Nat) (s : State) : Host.Outcome State Fault Refusal := .next (settled (ackFall d s))

/-- PWR_ACK_TIMEOUT (R81). -/
def execPwrAckTimeout (d : Nat) (s : State) : Host.Outcome State Fault Refusal := .next (settled (ackTimeout d s))

/-- DOMAIN_LOSS (R422). -/
def execDomainLoss (d : Nat) (s : State) : Host.Outcome State Fault Refusal := .next (settled (domainLost d s))

/-- PD_C_IDLE_POWER_DOWN (R164). -/
def execPdCIdlePowerDown (n : Nat) (s : State) : Host.Outcome State Fault Refusal := .next (idlePowerDown n s)

/-- PD_C_WAKE (R165). -/
def execPdCWake (n : Nat) (s : State) : Host.Outcome State Fault Refusal := .next (cellsWake n s)

/-! ### Compute ports -/

/-- CP_LINK_DOWN (R59). -/
def execCpLinkDown (k : Nat) (s : State) : Host.Outcome State Fault Refusal := .next (settled (linkDown k s))

/-- CP_PORT_REOPEN (R59). -/
def execCpPortReopen (k : Nat) (s : State) : Host.Outcome State Fault Refusal := .next (portReopen k s)

/-- CP_HEADER_FLIT (R55). -/
def execCpHeaderFlit (k : Nat) (flit : BitVec 2048) (par : BitVec 256) (s : State) : Host.Outcome State Fault Refusal :=
  .next (headerFlit k flit par s)

/-- CP_RD (R43). -/
def execCpRd (k : Nat) (s : State) : Host.Outcome State Fault Refusal := .next (decodeHead .rd k s)

/-- CP_WR (R43). -/
def execCpWr (k : Nat) (parityError : Bool) (s : State) : Host.Outcome State Fault Refusal :=
  .next (losePath parityError k (headUid k s) (decodeHead .wr k s))

/-- CP_ACT_PUSH (R237). -/
def execCpActPush (k : Nat) (parityError : Bool) (s : State) : Host.Outcome State Fault Refusal :=
  .next (losePath parityError k (headUid k s) (decodeHead .push k s))

/-- CP_DATA_FLIT (R52). -/
def execCpDataFlit (k : Nat) (flit : BitVec 2048) (par : BitVec 256) (s : State) : Host.Outcome State Fault Refusal :=
  .next (dataFlit k flit par s)

/-- CP_RSP_CREDIT_RETURN (R53). -/
def execCpRspCreditReturn (k : Nat) (hdr data : Nat) (s : State) : Host.Outcome State Fault Refusal :=
  .next (rspCredits k hdr data s)

/-- RESPONSE_SEND (R53). -/
def execResponseSend (k : Nat) (s : State) : Host.Outcome State Fault Refusal := .next (responseSend k s)

/-! ### Regulation and hive gates -/

/-- REGULATION_CHECK (R321). -/
def execRegulationCheck (urg : BitVec 32) (s : State) : Host.Outcome State Fault Refusal := .next (settled (rspCreditCycle (regulationCheck urg s)))

/-- CURTAIN_COMPLETE (R335). -/
def execCurtainComplete (n k : Nat) (parityError : Bool) (s : State) : Host.Outcome State Fault Refusal :=
  .next (settled (curtainComplete n k (stageParityIf parityError n k s)))

/-- CURTAIN_WATCHDOG_EXPIRY (R338). -/
def execCurtainWatchdogExpiry (k : Nat) (s : State) : Host.Outcome State Fault Refusal := .next (settled (curtainWatchdog k s))

/-- GATE_DRAW (R326). -/
def execGateDraw (n : Nat) (urg : BitVec 32) (s : State) : Host.Outcome State Fault Refusal := .next (settled (gateDraw n urg s))

/-- BACKOFF_EXPIRY (R330). -/
def execBackoffExpiry (n m : Nat) (s : State) : Host.Outcome State Fault Refusal := .next (backoffExpiry n m s)

/-- CURTAIN_COMMIT (R336). -/
def execCurtainCommit (n : Nat) (s : State) : Host.Outcome State Fault Refusal := .next (settled (curtainCommit n s))

/-! ### Channel controllers -/

/-- CHC_COMMAND_ISSUE (R272). -/
def execChcCommandIssue (n c p : Nat) (errs : List (Nat × Byte)) (parityError : Bool) (s : State) : Host.Outcome State Fault Refusal :=
  .next (settled (commandIssue n c p errs parityError s))

/-- REFRESH_INTERVAL (R277). -/
def execRefreshInterval (n c p : Nat) (s : State) : Host.Outcome State Fault Refusal := .next (refreshInterval n c p s)

/-- NEIGHBOUR_REFRESH_MANDATORY (R282). -/
def execNeighbourRefreshMandatory (n c p : Nat) (s : State) : Host.Outcome State Fault Refusal :=
  .next (neighbourMandatory n c p s)

/-- ROW_CLOSE_IDLE (R274). -/
def execRowCloseIdle (n c p bank : Nat) (s : State) : Host.Outcome State Fault Refusal := .next (rowCloseIdle n c p bank s)

/-- POWER_DOWN_ENTRY (R283). -/
def execPowerDownEntry (n c p : Nat) (s : State) : Host.Outcome State Fault Refusal := .next (powerDownEntry n c p s)

/-- SELF_REFRESH_ENTRY (R283). -/
def execSelfRefreshEntry (n c p : Nat) (s : State) : Host.Outcome State Fault Refusal := .next (selfRefreshEntry n c p s)

/-- PSEUDO_CHANNEL_WAKE (R285). -/
def execPseudoChannelWake (n c p : Nat) (s : State) : Host.Outcome State Fault Refusal := .next (pseudoChannelWake n c p s)

/-- CHECK_CACHE_PARITY_ERROR (R268). -/
def execCheckCacheParityError (n c p i : Nat) (s : State) : Host.Outcome State Fault Refusal := .next (cacheParity n c p i s)

/-- CHC_COMMIT (R290). -/
def execChcCommit (n : Nat) (s : State) : Host.Outcome State Fault Refusal := .next (chcCommit n s)

/-- MODE_REGISTER_READ (R288). -/
def execModeRegisterRead (n : Nat) (known : Bool) (value : Byte) (s : State) : Host.Outcome State Fault Refusal :=
  .next (modeRegisterRead n known value s)

/-- MODE_REGISTER_WRITE (R287). -/
def execModeRegisterWrite (n : Nat) (known : Bool) (s : State) : Host.Outcome State Fault Refusal :=
  .next (modeRegisterWrite n known s)

/-! ### Data integrity -/

/-- REREAD (R355). -/
def execReread (n c p : Nat) (errs : List (Nat × Byte)) (s : State) : Host.Outcome State Fault Refusal :=
  .next (settled (reread n c p errs s))

/-- READ_MODIFY_WRITE (R359). -/
def execReadModifyWrite (n c p : Nat) (errs : List (Nat × Byte)) (s : State) : Host.Outcome State Fault Refusal :=
  .next (settled (readModifyWrite n c p errs s))

/-- CE_LEAK (R360). -/
def execCeLeak (n : Nat) (s : State) : Host.Outcome State Fault Refusal := .next (ceLeak n s)

/-- LANE_ERASURE (R353). -/
def execLaneErasure (n c p lane : Nat) (s : State) : Host.Outcome State Fault Refusal := .next (laneErasure n c p lane s)

/-- REMAP_INSTALL (R366). -/
def execRemapInstall (n c p sid bank row : Nat) (errs : List (Nat × ErrPat)) (s : State) : Host.Outcome State Fault Refusal :=
  .next (remapInstall n c p sid bank row errs s)

/-- INSTALL (R365). -/
def execInstall (n : Nat) (errs : List (Nat × ErrPat)) (s : State) : Host.Outcome State Fault Refusal := .next (install n errs s)

/-- REPAIR (R369). -/
def execRepair (n : Nat) (stackOk : Bool) (errs : List (Nat × ErrPat)) (s : State) : Host.Outcome State Fault Refusal :=
  .next (repair n stackOk errs s)

/-- REMAP_MOVE (R367). -/
def execRemapMove (n c i : Nat) (errs : List (Nat × ErrPat)) (s : State) : Host.Outcome State Fault Refusal := .next (remapMove n c i errs s)

/-- SCRUB_GO (R372). -/
def execScrubGo (s : State) : Host.Outcome State Fault Refusal := .next (scrubGo s)

/-- SCRUB_STOP (R372). -/
def execScrubStop (s : State) : Host.Outcome State Fault Refusal := .next (scrubStop s)

/-- SCRUB_READ (R373). -/
def execScrubRead (errs : List (Nat × Byte)) (s : State) : Host.Outcome State Fault Refusal := .next (scrubRead errs s)

/-- SCRUB_RUN_END (R374). -/
def execScrubRunEnd (s : State) : Host.Outcome State Fault Refusal := .next (scrubRunEnd s)

/-! ### PHY calibration -/

/-- RECAL_ROUND (R306). -/
def execRecalRound (n : Nat) (obs : List LaneObs) (s : State) : Host.Outcome State Fault Refusal := .next (recalRound n obs s)

/-- RECAL_NOW (R306). -/
def execRecalNow (n : Nat) (s : State) : Host.Outcome State Fault Refusal := .next (recalNow n s)

/-- RECAL_DEADLINE (R309). -/
def execRecalDeadline (n c p : Nat) (s : State) : Host.Outcome State Fault Refusal := .next (recalDeadline n c p s)

/-- LANE_MOVE (R305). -/
def execLaneMove (n c p lane : Nat) (obs : LaneObs) (s : State) : Host.Outcome State Fault Refusal :=
  .next (laneMove n c p lane obs s)

/-- DLY_RAMP_STEP (R312). -/
def execDlyRampStep (n c p : Nat) (s : State) : Host.Outcome State Fault Refusal := .next (dlyRamp n c p s)

/-! ### The host endpoint -/

/-- HP_MEM_READ (R503). -/
def execHpMemRead (bar : Nat) (off : BitVec 64) (len tag : Nat) (s : State) : Host.Outcome State Fault Refusal :=
  .next (hpMemRead bar off.toNat len tag s)

/-- HP_MEM_WRITE (R503). -/
def execHpMemWrite (bar : Nat) (off : BitVec 64) (data : List Byte) (poisoned parityError : Bool) (s : State) :
    Host.Outcome State Fault Refusal :=
  .next (losePath parityError 16 ((List.range 4).map fun i => s.nextUid + i) (hpMemWrite bar off.toNat data poisoned s))

/-- HP_CONFIG_READ (R498). -/
def execHpConfigRead (off be tag : Nat) (s : State) : Host.Outcome State Fault Refusal := .next (hpConfigRead off be tag s)

/-- HP_CONFIG_WRITE (R498). -/
def execHpConfigWrite (off be : Nat) (value : BitVec 32) (tag : Nat) (poisoned : Bool) (s : State) : Host.Outcome State Fault Refusal :=
  .next (hpConfigWrite off be value.toNat tag poisoned s)

/-- HP_UNSUPPORTED_REQUEST (R61). -/
def execHpUnsupportedRequest (kind : UrKind) (tag : Nat) (s : State) : Host.Outcome State Fault Refusal :=
  .next (hpUnsupported kind tag s)

/-- HP_COMPLETION (R62). -/
def execHpCompletion (tag : Nat) (ok poisoned last : Bool) (data : List Byte) (s : State) : Host.Outcome State Fault Refusal :=
  .next (hpCompletion tag ok poisoned last data s)

/-- HP_COMPLETION_TIMEOUT (R375). -/
def execHpCompletionTimeout (tag : Nat) (s : State) : Host.Outcome State Fault Refusal := .next (hpTimeout tag s)

/-- TAG_QUARANTINE_EXPIRY (R376). -/
def execTagQuarantineExpiry (pp : Bool) (tag : Nat) (s : State) : Host.Outcome State Fault Refusal :=
  .next (quarantineExpiry pp tag s)

/-- FUNCTION_RESET (R507). -/
def execFunctionReset (_cause : FlrCause) (s : State) : Host.Outcome State Fault Refusal := .next (functionResetOp s)

/-- MSIX_PENDING_RELEASE (R508). -/
def execMsixPendingRelease (v : Nat) (s : State) : Host.Outcome State Fault Refusal := .next (msixRelease v s)

/-! ### Contexts and doorbells -/

/-- DESC_TAIL (R180). -/
def execDescTail (x : Nat) (value : BitVec 32) (s : State) : Host.Outcome State Fault Refusal :=
  .next (descTail x value.toNat s)

/-- CPL_HEAD (R180). -/
def execCplHead (x : Nat) (value : BitVec 32) (s : State) : Host.Outcome State Fault Refusal := .next (cplHead x value.toNat s)

/-- HEARTBEAT (R201). -/
def execHeartbeat (x : Nat) (gen : BitVec 16) (s : State) : Host.Outcome State Fault Refusal := .next (heartbeat x gen.toNat s)

/-- HEARTBEAT_TIMEOUT (R202). -/
def execHeartbeatTimeout (hs : Nat) (s : State) : Host.Outcome State Fault Refusal := .next (heartbeatTimeout hs s)

/-- CTX_HB_CFG_WRITE (R201). -/
def execCtxHbCfgWrite (hs : Nat) (value : BitVec 32) (s : State) : Host.Outcome State Fault Refusal :=
  .next (hbCfgWrite hs (value.toNat % 2 ^ 16) s)

/-- ACK_DRAIN (R203). -/
def execAckDrain (hs : Nat) (gen : BitVec 16) (s : State) : Host.Outcome State Fault Refusal :=
  .next (ackWait false hs gen.toNat s)

/-- ACK_DISCARD (R203). -/
def execAckDiscard (hs : Nat) (gen : BitVec 16) (s : State) : Host.Outcome State Fault Refusal :=
  .next (ackWait true hs gen.toNat s)

/-- DRAIN_COMPLETE (R203). -/
def execDrainComplete (hs : Nat) (s : State) : Host.Outcome State Fault Refusal := .next (drainComplete hs s)

/-- OPEN (R174). -/
def execCtxOpen (s : State) : Host.Outcome State Fault Refusal := .next (ctxCommand 1 s)

/-- CLOSE (R174). -/
def execCtxClose (s : State) : Host.Outcome State Fault Refusal := .next (ctxCommand 2 s)

/-- CLOSE_COMPLETE (R174). -/
def execCloseComplete (x : Nat) (s : State) : Host.Outcome State Fault Refusal := .next (closeComplete x s)

/-- RESUME (R174). -/
def execCtxResume (s : State) : Host.Outcome State Fault Refusal := .next (ctxCommand 3 s)

/-- RESUME_DISCARD (R174). -/
def execCtxResumeDiscard (s : State) : Host.Outcome State Fault Refusal := .next (ctxCommand 4 s)

/-- RESUME_COMMIT (R174). -/
def execResumeCommit (x : Nat) (s : State) : Host.Outcome State Fault Refusal := .next (commitResume x s)

/-- READ (R174). -/
def execCtxRead (s : State) : Host.Outcome State Fault Refusal := .next (ctxCommand 5 s)

/-- MODIFY (R174). -/
def execCtxModify (s : State) : Host.Outcome State Fault Refusal := .next (ctxCommand 6 s)

/-! ### Jobs -/

/-- DESCRIPTOR_FETCH (R182). -/
def execDescriptorFetch (x : Nat) (s : State) : Host.Outcome State Fault Refusal := .next (descriptorFetch x s)

/-- JOB_START (R182). -/
def execJobStart (x : Nat) (s : State) : Host.Outcome State Fault Refusal := .next (jobStart x s)

/-- NOP (R186). -/
def execJobNop (j : Nat) (parity : Parity) (s : State) : Host.Outcome State Fault Refusal :=
  .next (jobNop j (parityOf parity j 0 s))

/-- COPY (R186). -/
def execCopy (j : Nat) (parity : Parity) (s : State) : Host.Outcome State Fault Refusal :=
  .next (copyJob j (parityOf parity j 1 s))

/-- FILL_RANGE (R186). -/
def execFillRange (j : Nat) (parity : Parity) (s : State) : Host.Outcome State Fault Refusal :=
  .next (fillJob j (parityOf parity j 2 s))

/-- RUN_CUE (R210). -/
def execRunCue (j : Nat) (parity : Parity) (s : State) : Host.Outcome State Fault Refusal :=
  .next (placeCue 3 j (parityOf parity j 3 s))

/-- ATTN_STREAM (R240). -/
def execAttnStream (j : Nat) (parity : Parity) (s : State) : Host.Outcome State Fault Refusal :=
  .next (placeCue 4 j (parityOf parity j 4 s))

/-- PEER_REDUCE_SEND (R186). -/
def execPeerReduceSend (j : Nat) (parity : Parity) (s : State) : Host.Outcome State Fault Refusal :=
  .next (reduceSend j (parityOf parity j 5 s))

/-- PEER_REDUCE_GATHER (R400). -/
def execPeerReduceGather (j : Nat) (parity : Parity) (s : State) : Host.Outcome State Fault Refusal :=
  .next (reduceGather j (parityOf parity j 5 s))

/-- BROADCAST (R404). -/
def execBroadcast (j : Nat) (parity : Parity) (s : State) : Host.Outcome State Fault Refusal :=
  .next (broadcastJob j (parityOf parity j 6 s))

/-- JOB_BEGIN_ON_HIVE (R209). -/
def execJobBeginOnHive (n : Nat) (s : State) : Host.Outcome State Fault Refusal := .next (jobBegin n s)

/-- JOB_DONE_REPORT (R198). -/
def execJobDoneReport (j : Nat) (s : State) : Host.Outcome State Fault Refusal := .next (jobDone j s)

/-- JOB_TIMEOUT (R197). -/
def execJobTimeout (j elapsedUs : Nat) (s : State) : Host.Outcome State Fault Refusal := .next (jobTimeout j elapsedUs s)

/-- COMPLETION_RECORD_WRITE (R192). -/
def execCompletionRecordWrite (j : Nat) (s : State) : Host.Outcome State Fault Refusal := .next (recordWrite j s)

/-- AUDIT_BATCH_CLOSE (R478). -/
def execAuditBatchClose (s : State) : Host.Outcome State Fault Refusal := .next (auditBatchClose s)

/-! ### Cue programs -/

/-- CUE_NOP (R221). -/
def execCueNop (n : Nat) (parity : Parity) (s : State) : Host.Outcome State Fault Refusal :=
  .next (nopOp n (meetAtIssue parity n (issue opNop n s) s))

/-- END (R214). -/
def execCueEnd (n : Nat) (parity : Parity) (s : State) : Host.Outcome State Fault Refusal :=
  .next (endOp n (meetAtIssue parity n (issue opEnd n s) s))

/-- WAIT (R222). -/
def execCueWait (n : Nat) (parity : Parity) (s : State) : Host.Outcome State Fault Refusal :=
  .next (waitOp n (meetAtIssue parity n (issue opWait n s) s))

/-- LSET (R223). -/
def execCueLset (n : Nat) (parity : Parity) (s : State) : Host.Outcome State Fault Refusal :=
  .next (lsetOp n (meetAtIssue parity n (issue opLset n s) s))

/-- LOOP (R223). -/
def execCueLoop (n : Nat) (parity : Parity) (s : State) : Host.Outcome State Fault Refusal :=
  .next (loopOp n (meetAtIssue parity n (issue opLoop n s) s))

/-- ASET (R224). -/
def execCueAset (n : Nat) (parity : Parity) (s : State) : Host.Outcome State Fault Refusal :=
  .next (asetOp n (meetAtIssue parity n (issue opAset n s) s))

/-- AMOV (R224). -/
def execCueAmov (n : Nat) (parity : Parity) (s : State) : Host.Outcome State Fault Refusal :=
  .next (amovOp n (meetAtIssue parity n (issue opAmov n s) s))

/-- AADD (R224). -/
def execCueAadd (n : Nat) (parity : Parity) (s : State) : Host.Outcome State Fault Refusal :=
  .next (aaddOp n (meetAtIssue parity n (issue opAadd n s) s))

/-- AMAD (R224). -/
def execCueAmad (n : Nat) (parity : Parity) (s : State) : Host.Outcome State Fault Refusal :=
  .next (amadOp n (meetAtIssue parity n (issue opAmad n s) s))

/-- MODE (R225). -/
def execCueMode (n : Nat) (parity : Parity) (s : State) : Host.Outcome State Fault Refusal :=
  .next (modeOp n (meetAtIssue parity n (issue opMode n s) s))

/-- SCALE (R226). -/
def execCueScale (n : Nat) (parity : Parity) (s : State) : Host.Outcome State Fault Refusal :=
  .next (scaleOp n (meetAtIssue parity n (issue opScale n s) s))

/-- LDACT (R227). -/
def execCueLdact (n : Nat) (parity : Parity) (s : State) : Host.Outcome State Fault Refusal :=
  .next (ldactOp n (meetAtIssue parity n (issue opLdact n s) s))

/-- CLRC (R227). -/
def execCueClrc (n : Nat) (parity : Parity) (s : State) : Host.Outcome State Fault Refusal :=
  .next (clrcOp n (meetAtIssue parity n (issue opClrc n s) s))

/-- PASS (R229). -/
def execCuePass (n : Nat) (parity : Parity) (s : State) : Host.Outcome State Fault Refusal :=
  .next (passOp n (meetAtIssue parity n (issue opPass n s) s))

/-- ZRB (R232). -/
def execCueZrb (n : Nat) (parity : Parity) (s : State) : Host.Outcome State Fault Refusal :=
  .next (zrbOp n (meetAtIssue parity n (issue opZrb n s) s))

/-- RED (R232). -/
def execCueRed (n : Nat) (parity : Parity) (s : State) : Host.Outcome State Fault Refusal :=
  .next (redOp n (meetAtIssue parity n (issue opRed n s) s))

/-- GATHER (R232). -/
def execCueGather (n : Nat) (parity : Parity) (s : State) : Host.Outcome State Fault Refusal :=
  .next (gatherOp n (meetAtIssue parity n (issue opGather n s) s))

/-- EMIT (R233). -/
def execCueEmit (n : Nat) (parity : Parity) (s : State) : Host.Outcome State Fault Refusal :=
  .next (emitOp n (meetAtIssue parity n (issue opEmit n s) s))

/-- KSTREAM (R247). -/
def execCueKstream (n : Nat) (parity : Parity) (s : State) : Host.Outcome State Fault Refusal :=
  .next (kstreamOp n (meetAtIssue parity n (issue opKstream n s) s))

/-- VSTREAM (R257). -/
def execCueVstream (n : Nat) (parity : Parity) (s : State) : Host.Outcome State Fault Refusal :=
  .next (vstreamOp n (meetAtIssue parity n (issue opVstream n s) s))

/-- SMAX_STAGE_MAX (R252). -/
def execSmaxStageMax (n : Nat) (parity : Parity) (s : State) : Host.Outcome State Fault Refusal :=
  .next (smaxMaxOp n (meetAtIssue parity n (issueStage 0 n s) s))

/-- SMAX_STAGE_EXP (R253). -/
def execSmaxStageExp (n : Nat) (parity : Parity) (s : State) : Host.Outcome State Fault Refusal :=
  .next (smaxExpOp n (meetAtIssue parity n (issueStage 1 n s) s))

/-- SMAX_STAGE_CLOSE (R254). -/
def execSmaxStageClose (n : Nat) (parity : Parity) (s : State) : Host.Outcome State Fault Refusal :=
  .next (smaxCloseOp n (meetAtIssue parity n (issueStage 2 n s) s))

/-- SPAN_SYNC_COMPLETE (R246). -/
def execSpanSyncComplete (j : Nat) (parity : Parity) (s : State) : Host.Outcome State Fault Refusal :=
  .next (spanSync j (parityAtWork parity j s))

/-! ### Cells -/

/-- ACTIVATION_WRITE_RELEASE (R146). -/
def execActivationWriteRelease (n : Nat) (s : State) : Host.Outcome State Fault Refusal := .next (activationRelease n s)

/-- RESIDUE_FAULT (R151). -/
def execResidueFault (n cell group column : Nat) (s : State) : Host.Outcome State Fault Refusal :=
  .next (residueFault n cell group column s)

/-- LANE_TEST_COMPLETE (R152). -/
def execLaneTestComplete (n cell : Nat) (failed : List Nat) (s : State) : Host.Outcome State Fault Refusal :=
  .next (laneTest n cell failed s)

/-- CELL_TAKEOVER (R158). -/
def execCellTakeover (n cell : Nat) (copyParity : Option Nat) (s : State) : Host.Outcome State Fault Refusal :=
  .next (cellTakeover n cell copyParity s)

/-- CELL_PARITY_ERROR (R156). -/
def execCellParityError (n cell kind column : Nat) (s : State) : Host.Outcome State Fault Refusal :=
  .next (cellParity n cell kind column s)

/-- RETIRE (R157). -/
def execCellRetire (n cell : Nat) (s : State) : Host.Outcome State Fault Refusal := .next (retireWrite n cell s)

/-- TEST_START (R161). -/
def execTestStart (n cell : Nat) (s : State) : Host.Outcome State Fault Refusal := .next (testStartWrite n cell s)

/-- CELL_SELF_TEST (R161). -/
def execCellSelfTest (n cell : Nat) (test : CellTest) (s : State) : Host.Outcome State Fault Refusal :=
  .next (selfTest n cell test s)

/-! ### Commits and guarantees -/

/-- GLB_COMMIT (R97). -/
def execGlbCommit (s : State) : Host.Outcome State Fault Refusal := .next (glbCommit s)

/-- ARB_COMMIT (R342). -/
def execArbCommit (s : State) : Host.Outcome State Fault Refusal := .next (arbCommit s)

/-- QOS_TOKEN_RESET (R323). -/
def execQosTokenReset (mask : BitVec 32) (s : State) : Host.Outcome State Fault Refusal := .next (qosTokenReset mask s)

/-- GUAR_FACTOR_RECOMPUTE (R343). -/
def execGuarFactorRecompute (n : Nat) (s : State) : Host.Outcome State Fault Refusal := .next (guarFactor n s)

/-- QOS_MISS_WINDOW (R344). -/
def execQosMissWindow (n : Nat) (s : State) : Host.Outcome State Fault Refusal := .next (qosMissWindow n s)

/-! ### The peer port -/

/-- WIN_COMMIT (R389). -/
def execWinCommit (s : State) : Host.Outcome State Fault Refusal := .next (winCommit s)

/-- PEER_TIMEOUT_WRITE (R398). -/
def execPeerTimeoutWrite (value : BitVec 32) (s : State) : Host.Outcome State Fault Refusal :=
  .next (peerTimeoutSet value.toNat s)

/-- PP_LINK_DOWN (R384). -/
def execPpLinkDown (s : State) : Host.Outcome State Fault Refusal := .next (settled (ppLinkLost s))

/-- PP_READY_RISE (R384). -/
def execPpReadyRise (s : State) : Host.Outcome State Fault Refusal := .next (ppReadyRise s)

/-- PEER_OUTBOUND_REQUEST (R392). -/
def execPeerOutboundRequest (m : Nat) (s : State) : Host.Outcome State Fault Refusal := .next (settled (peerOutbound m s))

/-- PP_IN_RD (R396). -/
def execPpInRd (slot : BitVec 256) (par : BitVec 32) (s : State) : Host.Outcome State Fault Refusal :=
  .next (ppInRead ⟨slot, par, [], []⟩ s)

/-- PP_IN_WR (R396). -/
def execPpInWr (slot : BitVec 256) (par : BitVec 32) (data : List Byte) (dpar : List Bool) (parityError : Bool) (s : State) :
    Host.Outcome State Fault Refusal :=
  .next (losePath parityError 17 [s.nextUid] (ppInWrite ⟨slot, par, data, dpar⟩ s))

/-- PP_IN_RED (R401). -/
def execPpInRed (slot : BitVec 256) (par : BitVec 32) (data : List Byte) (dpar : List Bool) (s : State) : Host.Outcome State Fault Refusal :=
  .next (ppInReduce ⟨slot, par, data, dpar⟩ s)

/-- PP_IN_BCAST (R405). -/
def execPpInBcast (slot : BitVec 256) (par : BitVec 32) (data : List Byte) (dpar : List Bool) (parityError : Bool) (s : State) :
    Host.Outcome State Fault Refusal :=
  .next (losePath parityError 17 [s.nextUid] (ppInBroadcast ⟨slot, par, data, dpar⟩ s))

/-- PP_IN_RELAY (R406). -/
def execPpInRelay (slot : BitVec 256) (par : BitVec 32) (data : List Byte) (dpar : List Bool) (s : State) : Host.Outcome State Fault Refusal :=
  .next (ppInRelay ⟨slot, par, data, dpar⟩ s)

/-- PP_IN_NOP (R386). -/
def execPpInNop (slot : BitVec 256) (par : BitVec 32) (s : State) : Host.Outcome State Fault Refusal :=
  .next (ppInEmpty par slot s)

/-- PP_RSP_IN (R394). -/
def execPpRspIn (slot : BitVec 256) (par : BitVec 32) (data : List Byte) (dpar : List Bool) (s : State) : Host.Outcome State Fault Refusal :=
  .next (settled (ppResponse ⟨slot, par, data, dpar⟩ s))

/-- PEER_REQUEST_TIMEOUT (R399). -/
def execPeerRequestTimeout (tag : Nat) (s : State) : Host.Outcome State Fault Refusal := .next (settled (peerTimeout tag s))

/-- GATHER_APPLY (R402). -/
def execGatherApply (j : Nat) (parity : Parity) (s : State) : Host.Outcome State Fault Refusal :=
  .next (gatherApply j (parityAtWork parity j s))

/-- ORPHAN_EXPIRY (R403). -/
def execOrphanExpiry (round : Nat) (s : State) : Host.Outcome State Fault Refusal := .next (orphanExpiry round s)

/-- BCAST_ACK (R405). -/
def execBcastAck (uid : Nat) (s : State) : Host.Outcome State Fault Refusal := .next (bcastAck uid s)

/-! ### Firmware and update -/

/-- RELAY_FORWARD (R460). -/
def execRelayForward (s : State) : Host.Outcome State Fault Refusal := .next (relayForward s)

/-- RELAY_RESEND (R461). -/
def execRelayResend (tag : Nat) (s : State) : Host.Outcome State Fault Refusal := .next (relayResend tag s)

/-- STATUS_REQ (R69). -/
def execStatusReq (msg : List Byte) (s : State) : Host.Outcome State Fault Refusal := .next (statusReq msg s)

/-- UPDATE_BEGIN (R451). -/
def execUpdateBegin (msg : List Byte) (s : State) : Host.Outcome State Fault Refusal := .next (updateBegin msg s)

/-- UPDATE_CHUNK (R451). -/
def execUpdateChunk (msg : List Byte) (s : State) : Host.Outcome State Fault Refusal := .next (updateChunk msg s)

/-- UPDATE_END (R452). -/
def execUpdateEnd (msg : List Byte) (s : State) : Host.Outcome State Fault Refusal := .next (updateEnd msg s)

/-- UPDATE_CHECK_DONE (R452). -/
def execUpdateCheckDone (s : State) : Host.Outcome State Fault Refusal := .next (updateCheckDone s)

/-- UPDATE_APPLY_DONE (R453). -/
def execUpdateApplyDone (flashError : Bool) (s : State) : Host.Outcome State Fault Refusal :=
  .next (updateApplyDone flashError s)

/-- UPDATE_VERIFY_DONE (R452). -/
def execUpdateVerifyDone (flashError : Bool) (s : State) : Host.Outcome State Fault Refusal :=
  .next (updateVerifyDone flashError s)

/-- UPDATE_LOAD_DONE (R454). -/
def execUpdateLoadDone (s : State) : Host.Outcome State Fault Refusal := .next (updateLoadDone s)

/-- HANDOVER (R456). -/
def execHandover (safe stageSafe : Bool) (ready : List Nat) (s : State) : Host.Outcome State Fault Refusal :=
  .next (handover safe stageSafe ready s)

/-- BOOT_RECORD_WRITE (R458). -/
def execBootRecordWrite (s : State) : Host.Outcome State Fault Refusal := .next (bootRecordWrite s)

/-- DEFERRAL_TIMEOUT (R455). -/
def execDeferralTimeout (s : State) : Host.Outcome State Fault Refusal := .next (deferralTimeout s)

/-- DEBUG_CHALLENGE_REQ (R472). -/
def execDebugChallengeReq (msg : List Byte) (s : State) : Host.Outcome State Fault Refusal := .next (debugChallengeReq msg s)

/-- DEBUG_RESPONSE (R472). -/
def execDebugResponse (msg : List Byte) (s : State) : Host.Outcome State Fault Refusal := .next (debugResponse msg s)

/-- AUDIT_FETCH (R479). -/
def execAuditFetch (msg : List Byte) (s : State) : Host.Outcome State Fault Refusal := .next (auditFetch msg s)

/-! ### Mailbox and cores -/

/-- MBX_REQ_TAIL_WRITE (R446). -/
def execMbxReqTailWrite (value : BitVec 32) (s : State) : Host.Outcome State Fault Refusal :=
  .next (mbxReqTailWrite value.toNat s)

/-- STATUS (R447). -/
def execMbxStatus (s : State) : Host.Outcome State Fault Refusal := .next (mbxStatus s)

/-- SETTINGS_READ (R447). -/
def execSettingsRead (s : State) : Host.Outcome State Fault Refusal := .next (settingsRead s)

/-- SETTINGS_WRITE (R445). -/
def execSettingsWrite (flashError : Bool) (s : State) : Host.Outcome State Fault Refusal := .next (settingsWrite flashError s)

/-- CORE_RESTART (R433). -/
def execCoreRestart (core reason : Nat) (s : State) : Host.Outcome State Fault Refusal := .next (coreRestart core reason s)

/-- CORE_WATCHDOG_EXPIRY (R433). -/
def execCoreWatchdogExpiry (core : Nat) (s : State) : Host.Outcome State Fault Refusal := .next (coreWatchdog core s)

/-- CORE_RESTART_DELAY_EXPIRY (R433). -/
def execCoreRestartDelayExpiry (core : Nat) (s : State) : Host.Outcome State Fault Refusal := .next (coreDelayEnd core s)

/-- UPD_ACTIVATE (R455). -/
def execUpdActivate (s : State) : Host.Outcome State Fault Refusal := .next (updActivate s)

/-- UPD_ABORT (R457). -/
def execUpdAbort (s : State) : Host.Outcome State Fault Refusal := .next (updAbort s)

/-- EVENT_READ (R447). -/
def execEventRead (s : State) : Host.Outcome State Fault Refusal := .next (eventRead s)

/-- INT_MASK_WRITE (R449). -/
def execIntMaskWrite (value : BitVec 32) (s : State) : Host.Outcome State Fault Refusal := .next (intMaskWrite value.toNat s)

/-! ### Life cycle -/

/-- ADVANCE (R467). -/
def execAdvance (target : Nat) (run : OtpRun) (s : State) : Host.Outcome State Fault Refusal := .next (advanceCmd target run s)

/-- LCS_RESUME (R468). -/
def execLcsResume (run : OtpRun) (s : State) : Host.Outcome State Fault Refusal := .next (resumeLcs run s)

/-- RAISE_FLOOR (R470). -/
def execRaiseFloor (run : OtpRun) (s : State) : Host.Outcome State Fault Refusal := .next (raiseFloorCmd run s)

/-- DBG_CLOSE (R473). -/
def execDbgClose (s : State) : Host.Outcome State Fault Refusal := .next (dbgCloseCmd s)

/-- REVOKE (R471). -/
def execRevoke (slot : Nat) (run : OtpRun) (s : State) : Host.Outcome State Fault Refusal := .next (revokeCmd slot run s)

/-! ### Counters and registers -/

/-- CLEAR (R485). -/
def execPmcClear (s : State) : Host.Outcome State Fault Refusal := .next (pmcClear s)

/-- PMC_COUNT_UPDATE (R483). -/
def execPmcCountUpdate (s : State) : Host.Outcome State Fault Refusal := .next (pmcCountUpdate s)

/-- BW_WINDOW_END (R491). -/
def execBwWindowEnd (s : State) : Host.Outcome State Fault Refusal := .next (bwWindowEnd s)

/-- PMC_BW_CFG_WRITE (R491). -/
def execPmcBwCfgWrite (value : BitVec 32) (s : State) : Host.Outcome State Fault Refusal := .next (pmcBwCfgWrite value.toNat s)

/-- PMC_SMP_ENABLE (R494). -/
def execPmcSmpEnable (n : Nat) (value : BitVec 32) (s : State) : Host.Outcome State Fault Refusal :=
  .next (pmcSmpWrite n value.toNat s)

/-- SAMPLE_RECORD_WRITE (R492). -/
def execSampleRecordWrite (n : Nat) (s : State) : Host.Outcome State Fault Refusal := .next (sampleRecordWrite n s)

/-- REGISTER_WRITE (R9). -/
def execRegisterWrite (off : Nat) (value : BitVec 32) (s : State) : Host.Outcome State Fault Refusal :=
  .next (registerWriteOp off value.toNat s)

/-- PP_CREDIT_RETURN (R383). -/
def execPpCreditReturn (reqHdr reqData rspHdr rspData : Nat) (s : State) : Host.Outcome State Fault Refusal :=
  .next (ppCredits reqHdr reqData rspHdr rspData s)

/-- MBX_EVT_HEAD_WRITE (R446). -/
def execMbxEvtHeadWrite (value : BitVec 32) (s : State) : Host.Outcome State Fault Refusal :=
  .next (mbxEvtHeadWrite value.toNat s)

/-- JTG_ACCESS (R74). -/
def execJtgAccess (ir : BitVec 8) (tdi : BitVec 32) (s : State) : Host.Outcome State Fault Refusal := .next (jtgScan ir tdi s)

end Sys2Proof.Machine
end

