-- ==== Sys2Proof/Machine/Dispatch.lean ====
section
/-! DEFINITION. The meaning of a command by its constructor. -/

namespace Sys2Proof.Machine

def exec (i : Instr) (s : State) : Host.Outcome State Fault Refusal :=
  match i with
  -- Reset and start-up
  | .reset porst => Sys2Proof.Machine.execReset porst s
  | .romBoot flashFails => Sys2Proof.Machine.execRomBoot flashFails s
  | .coreRelease => Sys2Proof.Machine.execCoreRelease s
  | .domainSequence => Sys2Proof.Machine.execDomainSequence s
  | .hiveTraining n obs => Sys2Proof.Machine.execHiveTraining n obs s
  | .checkerSelfTest fails => Sys2Proof.Machine.execCheckerSelfTest fails s
  | .fill => Sys2Proof.Machine.execFill s
  | .portOpening cpLinks ppLink => Sys2Proof.Machine.execPortOpening cpLinks ppLink s
  | .heldEventFlush => Sys2Proof.Machine.execHeldEventFlush s
  -- Temperature, throttling and power
  | .housekeepingRound obs => Sys2Proof.Machine.execHousekeepingRound obs s
  | .throttleLevelStep g => Sys2Proof.Machine.execThrottleLevelStep g s
  | .shutdownRecordWrite => Sys2Proof.Machine.execShutdownRecordWrite s
  | .shutdownRecordClear => Sys2Proof.Machine.execShutdownRecordClear s
  | .orderlyShutdown => Sys2Proof.Machine.execOrderlyShutdown s
  | .shutdown => Sys2Proof.Machine.execShutdown s
  | .pwrAckRise d => Sys2Proof.Machine.execPwrAckRise d s
  | .pwrAckFall d => Sys2Proof.Machine.execPwrAckFall d s
  | .pwrAckTimeout d => Sys2Proof.Machine.execPwrAckTimeout d s
  | .domainLoss d => Sys2Proof.Machine.execDomainLoss d s
  | .pdCIdlePowerDown n => Sys2Proof.Machine.execPdCIdlePowerDown n s
  | .pdCWake n => Sys2Proof.Machine.execPdCWake n s
  -- Compute ports
  | .cpLinkDown k => Sys2Proof.Machine.execCpLinkDown k s
  | .cpPortReopen k => Sys2Proof.Machine.execCpPortReopen k s
  | .cpHeaderFlit k flit par => Sys2Proof.Machine.execCpHeaderFlit k flit par s
  | .cpRd k => Sys2Proof.Machine.execCpRd k s
  | .cpWr k parityError => Sys2Proof.Machine.execCpWr k parityError s
  | .cpActPush k parityError => Sys2Proof.Machine.execCpActPush k parityError s
  | .cpDataFlit k flit par => Sys2Proof.Machine.execCpDataFlit k flit par s
  | .cpRspCreditReturn k hdr data => Sys2Proof.Machine.execCpRspCreditReturn k hdr data s
  | .responseSend k => Sys2Proof.Machine.execResponseSend k s
  -- Regulation and hive gates
  | .regulationCheck urg => Sys2Proof.Machine.execRegulationCheck urg s
  | .curtainComplete n k parityError => Sys2Proof.Machine.execCurtainComplete n k parityError s
  | .curtainWatchdogExpiry k => Sys2Proof.Machine.execCurtainWatchdogExpiry k s
  | .gateDraw n urg => Sys2Proof.Machine.execGateDraw n urg s
  | .backoffExpiry n m => Sys2Proof.Machine.execBackoffExpiry n m s
  | .curtainCommit n => Sys2Proof.Machine.execCurtainCommit n s
  -- Channel controllers
  | .chcCommandIssue n c p errs parityError => Sys2Proof.Machine.execChcCommandIssue n c p errs parityError s
  | .refreshInterval n c p => Sys2Proof.Machine.execRefreshInterval n c p s
  | .neighbourRefreshMandatory n c p => Sys2Proof.Machine.execNeighbourRefreshMandatory n c p s
  | .rowCloseIdle n c p bank => Sys2Proof.Machine.execRowCloseIdle n c p bank s
  | .powerDownEntry n c p => Sys2Proof.Machine.execPowerDownEntry n c p s
  | .selfRefreshEntry n c p => Sys2Proof.Machine.execSelfRefreshEntry n c p s
  | .pseudoChannelWake n c p => Sys2Proof.Machine.execPseudoChannelWake n c p s
  | .checkCacheParityError n c p e => Sys2Proof.Machine.execCheckCacheParityError n c p e s
  | .chcCommit n => Sys2Proof.Machine.execChcCommit n s
  | .modeRegisterRead n known value => Sys2Proof.Machine.execModeRegisterRead n known value s
  | .modeRegisterWrite n known => Sys2Proof.Machine.execModeRegisterWrite n known s
  -- Data integrity
  | .reread n c p errs => Sys2Proof.Machine.execReread n c p errs s
  | .readModifyWrite n c p errs => Sys2Proof.Machine.execReadModifyWrite n c p errs s
  | .ceLeak n => Sys2Proof.Machine.execCeLeak n s
  | .laneErasure n c p lane => Sys2Proof.Machine.execLaneErasure n c p lane s
  | .remapInstall n c p sid bank row errs => Sys2Proof.Machine.execRemapInstall n c p sid bank row errs s
  | .install n errs => Sys2Proof.Machine.execInstall n errs s
  | .repair n stackOk errs => Sys2Proof.Machine.execRepair n stackOk errs s
  | .remapMove n c e errs => Sys2Proof.Machine.execRemapMove n c e errs s
  | .scrubGo => Sys2Proof.Machine.execScrubGo s
  | .scrubStop => Sys2Proof.Machine.execScrubStop s
  | .scrubRead errs => Sys2Proof.Machine.execScrubRead errs s
  | .scrubRunEnd => Sys2Proof.Machine.execScrubRunEnd s
  -- PHY calibration
  | .recalRound n obs => Sys2Proof.Machine.execRecalRound n obs s
  | .recalNow n => Sys2Proof.Machine.execRecalNow n s
  | .recalDeadline n c p => Sys2Proof.Machine.execRecalDeadline n c p s
  | .laneMove n c p lane obs => Sys2Proof.Machine.execLaneMove n c p lane obs s
  | .dlyRampStep n c p => Sys2Proof.Machine.execDlyRampStep n c p s
  -- The host endpoint
  | .hpMemRead bar off len tag => Sys2Proof.Machine.execHpMemRead bar off len tag s
  | .hpMemWrite bar off data poisoned parityError => Sys2Proof.Machine.execHpMemWrite bar off data poisoned parityError s
  | .hpConfigRead off be tag => Sys2Proof.Machine.execHpConfigRead off be tag s
  | .hpConfigWrite off be value tag poisoned => Sys2Proof.Machine.execHpConfigWrite off be value tag poisoned s
  | .hpUnsupportedRequest kind tag => Sys2Proof.Machine.execHpUnsupportedRequest kind tag s
  | .hpCompletion tag ok poisoned last data => Sys2Proof.Machine.execHpCompletion tag ok poisoned last data s
  | .hpCompletionTimeout tag => Sys2Proof.Machine.execHpCompletionTimeout tag s
  | .tagQuarantineExpiry pp tag => Sys2Proof.Machine.execTagQuarantineExpiry pp tag s
  | .functionReset cause => Sys2Proof.Machine.execFunctionReset cause s
  | .msixPendingRelease v => Sys2Proof.Machine.execMsixPendingRelease v s
  -- Contexts and doorbells
  | .descTail x value => Sys2Proof.Machine.execDescTail x value s
  | .cplHead x value => Sys2Proof.Machine.execCplHead x value s
  | .heartbeat x gen => Sys2Proof.Machine.execHeartbeat x gen s
  | .heartbeatTimeout hs => Sys2Proof.Machine.execHeartbeatTimeout hs s
  | .ctxHbCfgWrite hs value => Sys2Proof.Machine.execCtxHbCfgWrite hs value s
  | .ackDrain hs gen => Sys2Proof.Machine.execAckDrain hs gen s
  | .ackDiscard hs gen => Sys2Proof.Machine.execAckDiscard hs gen s
  | .drainComplete hs => Sys2Proof.Machine.execDrainComplete hs s
  | .ctxOpen => Sys2Proof.Machine.execCtxOpen s
  | .ctxClose => Sys2Proof.Machine.execCtxClose s
  | .closeComplete x => Sys2Proof.Machine.execCloseComplete x s
  | .ctxResume => Sys2Proof.Machine.execCtxResume s
  | .ctxResumeDiscard => Sys2Proof.Machine.execCtxResumeDiscard s
  | .resumeCommit x => Sys2Proof.Machine.execResumeCommit x s
  | .ctxRead => Sys2Proof.Machine.execCtxRead s
  | .ctxModify => Sys2Proof.Machine.execCtxModify s
  -- Jobs
  | .descriptorFetch x => Sys2Proof.Machine.execDescriptorFetch x s
  | .jobStart x => Sys2Proof.Machine.execJobStart x s
  | .jobNop j parity => Sys2Proof.Machine.execJobNop j parity s
  | .copy j parity => Sys2Proof.Machine.execCopy j parity s
  | .fillRange j parity => Sys2Proof.Machine.execFillRange j parity s
  | .runCue j parity => Sys2Proof.Machine.execRunCue j parity s
  | .attnStream j parity => Sys2Proof.Machine.execAttnStream j parity s
  | .peerReduceSend j parity => Sys2Proof.Machine.execPeerReduceSend j parity s
  | .peerReduceGather j parity => Sys2Proof.Machine.execPeerReduceGather j parity s
  | .broadcast j parity => Sys2Proof.Machine.execBroadcast j parity s
  | .jobBeginOnHive n => Sys2Proof.Machine.execJobBeginOnHive n s
  | .jobDoneReport j => Sys2Proof.Machine.execJobDoneReport j s
  | .jobTimeout j elapsedUs => Sys2Proof.Machine.execJobTimeout j elapsedUs s
  | .completionRecordWrite j => Sys2Proof.Machine.execCompletionRecordWrite j s
  | .auditBatchClose => Sys2Proof.Machine.execAuditBatchClose s
  -- Cue programs
  | .cueNop n parity => Sys2Proof.Machine.execCueNop n parity s
  | .cueEnd n parity => Sys2Proof.Machine.execCueEnd n parity s
  | .cueWait n parity => Sys2Proof.Machine.execCueWait n parity s
  | .cueLset n parity => Sys2Proof.Machine.execCueLset n parity s
  | .cueLoop n parity => Sys2Proof.Machine.execCueLoop n parity s
  | .cueAset n parity => Sys2Proof.Machine.execCueAset n parity s
  | .cueAmov n parity => Sys2Proof.Machine.execCueAmov n parity s
  | .cueAadd n parity => Sys2Proof.Machine.execCueAadd n parity s
  | .cueAmad n parity => Sys2Proof.Machine.execCueAmad n parity s
  | .cueMode n parity => Sys2Proof.Machine.execCueMode n parity s
  | .cueScale n parity => Sys2Proof.Machine.execCueScale n parity s
  | .cueLdact n parity => Sys2Proof.Machine.execCueLdact n parity s
  | .cueClrc n parity => Sys2Proof.Machine.execCueClrc n parity s
  | .cuePass n parity => Sys2Proof.Machine.execCuePass n parity s
  | .cueZrb n parity => Sys2Proof.Machine.execCueZrb n parity s
  | .cueRed n parity => Sys2Proof.Machine.execCueRed n parity s
  | .cueGather n parity => Sys2Proof.Machine.execCueGather n parity s
  | .cueEmit n parity => Sys2Proof.Machine.execCueEmit n parity s
  | .cueKstream n parity => Sys2Proof.Machine.execCueKstream n parity s
  | .cueVstream n parity => Sys2Proof.Machine.execCueVstream n parity s
  | .smaxStageMax n parity => Sys2Proof.Machine.execSmaxStageMax n parity s
  | .smaxStageExp n parity => Sys2Proof.Machine.execSmaxStageExp n parity s
  | .smaxStageClose n parity => Sys2Proof.Machine.execSmaxStageClose n parity s
  | .spanSyncComplete j parity => Sys2Proof.Machine.execSpanSyncComplete j parity s
  -- Cells
  | .activationWriteRelease n => Sys2Proof.Machine.execActivationWriteRelease n s
  | .residueFault n cell group column => Sys2Proof.Machine.execResidueFault n cell group column s
  | .laneTestComplete n cell failed => Sys2Proof.Machine.execLaneTestComplete n cell failed s
  | .cellTakeover n cell copyParity => Sys2Proof.Machine.execCellTakeover n cell copyParity s
  | .cellParityError n cell kind column => Sys2Proof.Machine.execCellParityError n cell kind column s
  | .cellRetire n cell => Sys2Proof.Machine.execCellRetire n cell s
  | .testStart n cell => Sys2Proof.Machine.execTestStart n cell s
  | .cellSelfTest n cell test => Sys2Proof.Machine.execCellSelfTest n cell test s
  -- Commits and guarantees
  | .glbCommit => Sys2Proof.Machine.execGlbCommit s
  | .arbCommit => Sys2Proof.Machine.execArbCommit s
  | .qosTokenReset mask => Sys2Proof.Machine.execQosTokenReset mask s
  | .guarFactorRecompute n => Sys2Proof.Machine.execGuarFactorRecompute n s
  | .qosMissWindow n => Sys2Proof.Machine.execQosMissWindow n s
  -- The peer port
  | .winCommit => Sys2Proof.Machine.execWinCommit s
  | .peerTimeoutWrite value => Sys2Proof.Machine.execPeerTimeoutWrite value s
  | .ppLinkDown => Sys2Proof.Machine.execPpLinkDown s
  | .ppReadyRise => Sys2Proof.Machine.execPpReadyRise s
  | .peerOutboundRequest m => Sys2Proof.Machine.execPeerOutboundRequest m s
  | .ppInRd slot par => Sys2Proof.Machine.execPpInRd slot par s
  | .ppInWr slot par data dpar parityError => Sys2Proof.Machine.execPpInWr slot par data dpar parityError s
  | .ppInRed slot par data dpar => Sys2Proof.Machine.execPpInRed slot par data dpar s
  | .ppInBcast slot par data dpar parityError => Sys2Proof.Machine.execPpInBcast slot par data dpar parityError s
  | .ppInRelay slot par data dpar => Sys2Proof.Machine.execPpInRelay slot par data dpar s
  | .ppInNop slot par => Sys2Proof.Machine.execPpInNop slot par s
  | .ppRspIn slot par data dpar => Sys2Proof.Machine.execPpRspIn slot par data dpar s
  | .peerRequestTimeout tag => Sys2Proof.Machine.execPeerRequestTimeout tag s
  | .gatherApply j parity => Sys2Proof.Machine.execGatherApply j parity s
  | .orphanExpiry round => Sys2Proof.Machine.execOrphanExpiry round s
  | .bcastAck uid => Sys2Proof.Machine.execBcastAck uid s
  -- Firmware and update
  | .relayForward => Sys2Proof.Machine.execRelayForward s
  | .relayResend tag => Sys2Proof.Machine.execRelayResend tag s
  | .statusReq msg => Sys2Proof.Machine.execStatusReq msg s
  | .updateBegin msg => Sys2Proof.Machine.execUpdateBegin msg s
  | .updateChunk msg => Sys2Proof.Machine.execUpdateChunk msg s
  | .updateEnd msg => Sys2Proof.Machine.execUpdateEnd msg s
  | .updateCheckDone => Sys2Proof.Machine.execUpdateCheckDone s
  | .updateApplyDone flashError => Sys2Proof.Machine.execUpdateApplyDone flashError s
  | .updateVerifyDone flashError => Sys2Proof.Machine.execUpdateVerifyDone flashError s
  | .updateLoadDone => Sys2Proof.Machine.execUpdateLoadDone s
  | .handover safe stageSafe ready => Sys2Proof.Machine.execHandover safe stageSafe ready s
  | .bootRecordWrite => Sys2Proof.Machine.execBootRecordWrite s
  | .deferralTimeout => Sys2Proof.Machine.execDeferralTimeout s
  | .debugChallengeReq msg => Sys2Proof.Machine.execDebugChallengeReq msg s
  | .debugResponse msg => Sys2Proof.Machine.execDebugResponse msg s
  | .auditFetch msg => Sys2Proof.Machine.execAuditFetch msg s
  -- Mailbox and cores
  | .mbxReqTailWrite value => Sys2Proof.Machine.execMbxReqTailWrite value s
  | .mbxStatus => Sys2Proof.Machine.execMbxStatus s
  | .settingsRead => Sys2Proof.Machine.execSettingsRead s
  | .settingsWrite flashError => Sys2Proof.Machine.execSettingsWrite flashError s
  | .coreRestart core reason => Sys2Proof.Machine.execCoreRestart core reason s
  | .coreWatchdogExpiry core => Sys2Proof.Machine.execCoreWatchdogExpiry core s
  | .coreRestartDelayExpiry core => Sys2Proof.Machine.execCoreRestartDelayExpiry core s
  | .updActivate => Sys2Proof.Machine.execUpdActivate s
  | .updAbort => Sys2Proof.Machine.execUpdAbort s
  | .eventRead => Sys2Proof.Machine.execEventRead s
  | .intMaskWrite value => Sys2Proof.Machine.execIntMaskWrite value s
  -- Life cycle
  | .advance target run => Sys2Proof.Machine.execAdvance target run s
  | .lcsResume run => Sys2Proof.Machine.execLcsResume run s
  | .raiseFloor run => Sys2Proof.Machine.execRaiseFloor run s
  | .dbgClose => Sys2Proof.Machine.execDbgClose s
  | .revoke slot run => Sys2Proof.Machine.execRevoke slot run s
  -- Counters and registers
  | .pmcClear => Sys2Proof.Machine.execPmcClear s
  | .pmcCountUpdate => Sys2Proof.Machine.execPmcCountUpdate s
  | .bwWindowEnd => Sys2Proof.Machine.execBwWindowEnd s
  | .pmcBwCfgWrite value => Sys2Proof.Machine.execPmcBwCfgWrite value s
  | .pmcSmpEnable n value => Sys2Proof.Machine.execPmcSmpEnable n value s
  | .sampleRecordWrite n => Sys2Proof.Machine.execSampleRecordWrite n s
  | .registerWrite off value => Sys2Proof.Machine.execRegisterWrite off value s
  | .ppCreditReturn reqHdr reqData rspHdr rspData => Sys2Proof.Machine.execPpCreditReturn reqHdr reqData rspHdr rspData s
  | .mbxEvtHeadWrite value => Sys2Proof.Machine.execMbxEvtHeadWrite value s
  | .jtgAccess ir tdi => Sys2Proof.Machine.execJtgAccess ir tdi s

end Sys2Proof.Machine
end

