-- ==== Sys2Proof/Safety.lean ====
section
/-! DEFINITION. What counts as a safe state and a safe run, in the terms that claims use. -/

namespace Sys2Proof.Machine

/-- Device memory in its canonical form: keys rise strictly and no byte equals what an unlisted address reads as. -/
abbrev Memory.wf (m : List Host.Cell) : Prop := memWf m = true

/-- What every step keeps. -/
def Inv (s : State) : Prop := Memory.wf s.mem

/-- No bit of a word that is set in the first is clear in the second. -/
def bitsKept (a b : Nat) : Prop := ∀ i, a.testBit i → b.testBit i

/-- The same of a word that one-time-programmable memory holds three times (R463). -/
def copiesKept (a b : Nat × Nat × Nat) : Prop := bitsKept a.1 b.1 ∧ bitsKept a.2.1 b.2.1 ∧ bitsKept a.2.2 b.2.2

/-- A step that goes on. -/
def goesOn (s : State) : Bool :=
  match step s with
  | .next _ => true
  | _ => false

/-- A run of n steps that neither stops nor leaves the invariant. -/
def safeFor : Nat → State → Prop
  | 0, s => Inv s
  | n + 1, s => Inv s ∧ match step s with
    | .next t => safeFor n t
    | _ => False

/-- An SVC message of type ty that is whole and in an order that the block serves now: no answer waits to leave, length and CRC-32
agree (R68 to R70) and the box office is there to serve it. -/
def svcArrives (ty : Nat) (msg : List Byte) (s : State) : Prop :=
  s.svcWait = [] ∧ 8 ≤ msg.length ∧ leAt msg 2 2 ≤ 4096 ∧ msg.length = leAt msg 2 2 + 8 ∧
    leAt msg (4 + leAt msg 2 2) 4 = crc32 (msg.take (4 + leAt msg 2 2)) ∧ leAt msg 0 1 = ty ∧ coreReady 0 s = true ∧
    rd Reg.LCS_STATE.STATE s ≠ 4

/-- The payload of an SVC message. -/
def svcPayload (msg : List Byte) : List Byte := slice msg 4 (leAt msg 2 2)

/-- A request that a peer node sends to this node and that the checks of R395 let through: its opcode, the credits, the format, the
node, no generation check, the window and the kind of access. -/
def ppAccepted (op : Nat) (w : BitVec 256) (x : Nat) (s : State) : Prop :=
  slotF w 0 4 = op ∧ (port 17 s).ready = true ∧ 0 < (port 17 s).reqHdr ∧
    (if op = 1 then 0 else (ppBeats w + 3) / 4) ≤ (port 17 s).reqData ∧ ppFormat w = 0 ∧ slotF w 64 20 = myNode s ∧ slotF w 4 1 = 0 ∧
    winMatch 1 (ppSrc w) (ppOff w) (ppBeats w) s = some x ∧ on (kindField op x) s = true

/-- The pieces of State, one for each field. -/
inductive Piece where
  | pending | env | regs | shadow | force | loHeld | hiCap | free | rounds | fclk | nextUid | mem | marked | ports
  | rotation | tokens | gates | live | arrived | fwAccs | pcs | chanLfsr | ceLeaks | lanes | hives | ctxs | ctxHeld
  | jobs | nextJob | lateJobs | finished | hbStart | auditSeq | spill | acks | host | peer | held | ring | eventSeq
  | logWait | evLog | occ | samplers | overruns | power | thermal | recal | recalNext | cores | otp | flash | fw | audit
  | scrubRun | remapLog | remapWant | svcWait | jtgIr | bwBytes | out
  deriving DecidableEq, Repr

/-- A piece is the same in two states. -/
def Piece.same (p : Piece) (s t : State) : Prop :=
  match p with
  | .pending => t.pending = s.pending
  | .env => t.env = s.env
  | .regs => t.regs = s.regs
  | .shadow => t.shadow = s.shadow
  | .force => t.force = s.force
  | .loHeld => t.loHeld = s.loHeld
  | .hiCap => t.hiCap = s.hiCap
  | .free => t.free = s.free
  | .rounds => t.rounds = s.rounds
  | .fclk => t.fclk = s.fclk
  | .nextUid => t.nextUid = s.nextUid
  | .mem => t.mem = s.mem
  | .marked => t.marked = s.marked
  | .ports => t.ports = s.ports
  | .rotation => t.rotation = s.rotation
  | .tokens => t.tokens = s.tokens
  | .gates => t.gates = s.gates
  | .live => t.live = s.live
  | .arrived => t.arrived = s.arrived
  | .fwAccs => t.fwAccs = s.fwAccs
  | .pcs => t.pcs = s.pcs
  | .chanLfsr => t.chanLfsr = s.chanLfsr
  | .ceLeaks => t.ceLeaks = s.ceLeaks
  | .lanes => t.lanes = s.lanes
  | .hives => t.hives = s.hives
  | .ctxs => t.ctxs = s.ctxs
  | .ctxHeld => t.ctxHeld = s.ctxHeld
  | .jobs => t.jobs = s.jobs
  | .nextJob => t.nextJob = s.nextJob
  | .lateJobs => t.lateJobs = s.lateJobs
  | .finished => t.finished = s.finished
  | .hbStart => t.hbStart = s.hbStart
  | .auditSeq => t.auditSeq = s.auditSeq
  | .spill => t.spill = s.spill
  | .acks => t.acks = s.acks
  | .host => t.host = s.host
  | .peer => t.peer = s.peer
  | .held => t.held = s.held
  | .ring => t.ring = s.ring
  | .eventSeq => t.eventSeq = s.eventSeq
  | .logWait => t.logWait = s.logWait
  | .evLog => t.evLog = s.evLog
  | .occ => t.occ = s.occ
  | .samplers => t.samplers = s.samplers
  | .overruns => t.overruns = s.overruns
  | .power => t.power = s.power
  | .thermal => t.thermal = s.thermal
  | .recal => t.recal = s.recal
  | .recalNext => t.recalNext = s.recalNext
  | .cores => t.cores = s.cores
  | .otp => t.otp = s.otp
  | .flash => t.flash = s.flash
  | .fw => t.fw = s.fw
  | .audit => t.audit = s.audit
  | .scrubRun => t.scrubRun = s.scrubRun
  | .remapLog => t.remapLog = s.remapLog
  | .remapWant => t.remapWant = s.remapWant
  | .svcWait => t.svcWait = s.svcWait
  | .jtgIr => t.jtgIr = s.jtgIr
  | .bwBytes => t.bwBytes = s.bwBytes
  | .out => t.out = s.out

/-- Every piece but those listed is the same. -/
def keepsBut (ps : List Piece) (s t : State) : Prop := ∀ p : Piece, p ∉ ps → p.same s t

/-- The pieces of State that a command may change: every other piece is as before when `exec` answers a next state. -/
def mayChange : Instr → List Piece
  | .reset _ =>
    [.regs, .shadow, .force, .loHeld, .hiCap, .free, .rounds, .fclk, .nextUid, .mem, .marked, .ports, .rotation, .tokens,
      .gates, .live, .arrived, .fwAccs, .pcs, .chanLfsr, .ceLeaks, .lanes, .hives, .ctxs, .ctxHeld, .jobs, .nextJob,
      .lateJobs, .finished, .hbStart, .auditSeq, .spill, .acks, .host, .peer, .held, .ring, .eventSeq, .logWait, .occ,
      .samplers, .overruns, .power, .thermal, .recal, .recalNext, .cores, .flash, .fw, .audit, .scrubRun, .remapWant,
      .svcWait, .jtgIr, .bwBytes]
  | .romBoot _ =>
    [.regs, .fwAccs, .host, .held, .ring, .eventSeq, .logWait, .power, .flash, .fw, .out]
  | .coreRelease =>
    [.regs, .free, .fwAccs, .ctxs, .ctxHeld, .overruns, .cores, .otp, .fw]
  | .domainSequence =>
    [.regs, .host, .power, .out]
  | .hiveTraining _ _ =>
    [.regs, .shadow, .force, .free, .nextUid, .ports, .gates, .live, .arrived, .fwAccs, .pcs, .lanes, .hives, .ctxs, .jobs,
      .nextJob, .finished, .spill, .host, .peer, .held, .ring, .eventSeq, .logWait, .occ, .samplers, .power, .recalNext,
      .bwBytes, .out]
  | .checkerSelfTest _ | .pwrAckFall _ | .pwrAckTimeout _ | .domainLoss _ | .reread _ _ _ _ | .readModifyWrite _ _ _ _ =>
    [.regs, .nextUid, .ports, .gates, .live, .arrived, .fwAccs, .pcs, .lanes, .hives, .ctxs, .jobs, .nextJob, .finished,
      .spill, .host, .peer, .held, .ring, .eventSeq, .logWait, .occ, .samplers, .power, .recalNext, .bwBytes, .out]
  | .fill =>
    [.regs, .mem, .marked]
  | .portOpening _ _ =>
    [.regs, .force, .ports, .fwAccs, .peer, .fw]
  | .heldEventFlush =>
    [.regs, .fwAccs, .host, .held, .ring, .out]
  | .housekeepingRound _ =>
    [.regs, .force, .rounds, .ports, .gates, .live, .arrived, .fwAccs, .pcs, .hives, .ctxs, .ctxHeld, .jobs, .host, .peer,
      .held, .ring, .eventSeq, .logWait, .evLog, .occ, .samplers, .overruns, .power, .thermal, .cores, .flash, .fw,
      .remapLog, .svcWait, .out]
  | .throttleLevelStep _ =>
    [.regs, .thermal]
  | .shutdownRecordWrite | .shutdownRecordClear =>
    [.regs, .host, .thermal, .flash, .out]
  | .orderlyShutdown =>
    [.regs, .nextUid, .mem, .marked, .ports, .gates, .live, .arrived, .fwAccs, .pcs, .chanLfsr, .lanes, .hives, .ctxs, .jobs,
      .nextJob, .finished, .spill, .host, .peer, .held, .ring, .eventSeq, .logWait, .occ, .samplers, .power, .recalNext,
      .bwBytes, .out]
  | .shutdown =>
    [.regs, .ports, .gates, .live, .arrived, .fwAccs, .pcs, .hives, .jobs, .host, .peer, .held, .ring, .eventSeq, .logWait,
      .samplers, .power, .out]
  | .pwrAckRise _ =>
    [.regs, .ports, .gates, .live, .arrived, .pcs, .lanes, .hives, .host, .peer, .held, .samplers, .power, .recalNext,
      .bwBytes, .out]
  | .pdCIdlePowerDown _ =>
    [.regs, .ports, .gates, .live, .arrived, .pcs, .lanes, .hives, .peer, .held, .samplers, .power, .recalNext, .bwBytes,
      .out]
  | .pdCWake _ =>
    [.regs, .ports, .gates, .live, .arrived, .hives, .host, .peer, .held, .samplers, .power, .out]
  | .cpLinkDown _ | .curtainComplete _ _ _ | .curtainWatchdogExpiry _ | .ppLinkDown | .peerOutboundRequest _ |
    .ppRspIn _ _ _ _ | .peerRequestTimeout _ =>
    [.regs, .nextUid, .ports, .gates, .live, .arrived, .fwAccs, .pcs, .lanes, .hives, .ctxs, .jobs, .nextJob, .finished,
      .spill, .host, .peer, .held, .ring, .eventSeq, .logWait, .occ, .samplers, .power, .recalNext, .out]
  | .cpPortReopen _ | .cpRspCreditReturn _ _ _ =>
    [.ports]
  | .cpHeaderFlit _ _ _ =>
    [.regs, .nextUid, .ports, .gates, .live, .host, .occ, .out]
  | .cpRd _ | .cpDataFlit _ _ _ | .ppInNop _ _ =>
    [.regs, .ports, .gates, .live, .host, .occ, .out]
  | .cpWr _ _ | .cpActPush _ _ =>
    [.regs, .ports, .gates, .live, .arrived, .host, .peer, .occ, .out]
  | .responseSend _ =>
    [.ports, .occ, .out]
  | .regulationCheck _ =>
    [.regs, .nextUid, .ports, .rotation, .tokens, .gates, .live, .arrived, .fwAccs, .pcs, .lanes, .hives, .ctxs, .jobs,
      .nextJob, .finished, .spill, .host, .peer, .held, .ring, .eventSeq, .logWait, .occ, .samplers, .power, .recalNext,
      .bwBytes, .out]
  | .gateDraw _ _ =>
    [.regs, .nextUid, .ports, .gates, .live, .arrived, .fwAccs, .pcs, .lanes, .hives, .ctxs, .jobs, .nextJob, .finished,
      .spill, .acks, .host, .peer, .held, .ring, .eventSeq, .logWait, .occ, .samplers, .power, .recalNext, .bwBytes, .out]
  | .backoffExpiry _ _ =>
    [.gates]
  | .curtainCommit _ =>
    [.regs, .nextUid, .ports, .gates, .live, .arrived, .fwAccs, .pcs, .lanes, .hives, .ctxs, .jobs, .nextJob, .finished,
      .spill, .acks, .host, .peer, .held, .ring, .eventSeq, .logWait, .occ, .samplers, .power, .recalNext, .out]
  | .chcCommandIssue _ _ _ _ _ =>
    [.regs, .force, .nextUid, .mem, .marked, .ports, .gates, .live, .arrived, .fwAccs, .pcs, .chanLfsr, .lanes, .hives,
      .ctxs, .jobs, .nextJob, .finished, .spill, .host, .peer, .held, .ring, .eventSeq, .logWait, .occ, .samplers, .power,
      .recalNext, .bwBytes, .out]
  | .refreshInterval _ _ _ | .pseudoChannelWake _ _ _ =>
    [.pcs, .lanes, .recalNext]
  | .neighbourRefreshMandatory _ _ _ | .rowCloseIdle _ _ _ _ | .powerDownEntry _ _ _ =>
    [.pcs]
  | .selfRefreshEntry _ _ _ =>
    [.regs, .pcs, .chanLfsr, .occ]
  | .checkCacheParityError _ _ _ _ =>
    [.regs, .fwAccs, .pcs, .chanLfsr, .host, .held, .ring, .eventSeq, .logWait, .occ, .out]
  | .chcCommit _ | .modeRegisterRead _ _ _ | .modeRegisterWrite _ _ =>
    [.regs, .pcs, .lanes, .recalNext]
  | .ceLeak _ | .peerTimeoutWrite _ =>
    [.regs]
  | .laneErasure _ _ _ _ | .cellRetire _ _ | .guarFactorRecompute _ | .dbgClose =>
    [.regs, .fwAccs, .host, .held, .ring, .eventSeq, .logWait, .out]
  | .remapInstall _ _ _ _ _ _ _ | .install _ _ | .remapMove _ _ _ _ =>
    [.regs, .mem, .marked, .gates, .fwAccs, .pcs, .chanLfsr, .host, .held, .ring, .eventSeq, .logWait, .occ, .remapLog,
      .remapWant, .out]
  | .repair _ _ _ =>
    [.regs, .mem, .marked, .gates, .pcs, .chanLfsr, .lanes, .host, .occ, .recalNext, .remapLog, .remapWant, .out]
  | .scrubGo =>
    [.regs, .nextUid, .pcs, .lanes, .recalNext, .scrubRun]
  | .scrubStop =>
    [.regs, .pcs, .scrubRun]
  | .scrubRead _ =>
    [.regs, .nextUid, .pcs, .lanes, .host, .occ, .recalNext, .scrubRun, .out]
  | .scrubRunEnd =>
    [.regs, .scrubRun]
  | .recalRound _ _ =>
    [.regs, .pcs, .lanes, .hives, .recal, .recalNext]
  | .recalNow _ | .recalDeadline _ _ _ =>
    [.regs, .pcs, .hives, .recal]
  | .laneMove _ _ _ _ _ =>
    [.regs, .fwAccs, .pcs, .lanes, .host, .held, .ring, .eventSeq, .logWait, .recalNext, .out]
  | .dlyRampStep _ _ _ =>
    [.lanes]
  | .hpMemRead _ _ _ _ =>
    [.regs, .force, .hiCap, .free, .nextUid, .ports, .pcs, .host, .out]
  | .hpMemWrite _ _ _ _ _ | .registerWrite _ _ =>
    [.regs, .shadow, .force, .loHeld, .free, .nextUid, .mem, .marked, .ports, .tokens, .gates, .live, .arrived, .fwAccs,
      .pcs, .chanLfsr, .lanes, .hives, .ctxs, .ctxHeld, .jobs, .hbStart, .acks, .host, .peer, .held, .ring, .eventSeq,
      .logWait, .occ, .samplers, .overruns, .power, .recal, .recalNext, .otp, .fw, .scrubRun, .remapLog, .remapWant,
      .bwBytes, .out]
  | .hpConfigRead _ _ _ =>
    [.out]
  | .hpConfigWrite _ _ _ _ _ =>
    [.regs, .free, .ports, .gates, .live, .arrived, .fwAccs, .pcs, .hives, .ctxs, .jobs, .nextJob, .finished, .spill, .acks,
      .host, .peer, .held, .ring, .eventSeq, .logWait, .occ, .samplers, .fw, .out]
  | .hpUnsupportedRequest _ _ =>
    [.free, .host, .out]
  | .hpCompletion _ _ _ _ _ =>
    [.regs, .free, .nextUid, .ports, .gates, .live, .arrived, .fwAccs, .pcs, .hives, .ctxs, .jobs, .nextJob, .finished,
      .spill, .host, .peer, .held, .ring, .eventSeq, .logWait, .occ, .samplers, .fw, .out]
  | .hpCompletionTimeout _ =>
    [.regs, .free, .ports, .gates, .live, .arrived, .fwAccs, .pcs, .hives, .ctxs, .jobs, .nextJob, .finished, .host, .peer,
      .held, .ring, .eventSeq, .logWait, .occ, .samplers, .fw, .out]
  | .tagQuarantineExpiry _ _ =>
    [.ports, .host, .peer, .occ, .out]
  | .functionReset _ =>
    [.regs, .ports, .gates, .live, .arrived, .fwAccs, .pcs, .hives, .ctxs, .jobs, .nextJob, .finished, .spill, .acks, .host,
      .peer, .held, .ring, .eventSeq, .logWait, .occ, .samplers, .fw, .out]
  | .msixPendingRelease _ =>
    [.host, .out]
  | .descTail _ _ | .cplHead _ _ =>
    [.regs, .ctxs, .occ]
  | .heartbeat _ _ | .ctxHbCfgWrite _ _ =>
    [.regs, .hbStart]
  | .heartbeatTimeout _ =>
    [.regs, .ports, .gates, .live, .arrived, .fwAccs, .pcs, .hives, .ctxs, .jobs, .spill, .host, .peer, .held, .ring,
      .eventSeq, .logWait, .samplers, .out]
  | .ackDrain _ _ | .ackDiscard _ _ =>
    [.regs, .acks]
  | .drainComplete _ =>
    [.regs, .fwAccs, .ctxs, .hbStart, .spill, .acks, .host, .held, .ring, .occ, .overruns, .out]
  | .ctxOpen | .ctxClose | .ctxResume | .ctxResumeDiscard | .ctxRead | .ctxModify =>
    [.regs, .fwAccs, .ctxs, .ctxHeld, .overruns]
  | .closeComplete _ =>
    [.fwAccs, .ctxs]
  | .resumeCommit _ =>
    [.regs, .ctxs, .overruns]
  | .descriptorFetch _ =>
    [.nextUid, .ports, .ctxs, .host, .out]
  | .jobStart _ =>
    [.regs, .ports, .gates, .live, .arrived, .fwAccs, .pcs, .hives, .ctxs, .jobs, .nextJob, .host, .peer, .held, .ring,
      .eventSeq, .logWait, .occ, .samplers, .out]
  | .jobNop _ _ | .peerReduceGather _ _ | .residueFault _ _ _ _ | .cellParityError _ _ _ _ =>
    [.regs, .ports, .gates, .live, .arrived, .fwAccs, .pcs, .hives, .ctxs, .jobs, .host, .peer, .held, .ring, .eventSeq,
      .logWait, .samplers, .out]
  | .copy _ _ | .fillRange _ _ | .runCue _ _ | .attnStream _ _ | .peerReduceSend _ _ | .broadcast _ _ | .gatherApply _ _ =>
    [.regs, .nextUid, .ports, .gates, .live, .arrived, .fwAccs, .pcs, .hives, .ctxs, .jobs, .host, .peer, .held, .ring,
      .eventSeq, .logWait, .samplers, .out]
  | .jobBeginOnHive _ | .cueNop _ _ | .cueEnd _ _ | .cueWait _ _ | .cueLset _ _ | .cueLoop _ _ | .cueAset _ _ | .cueAmov _ _ |
    .cueAadd _ _ | .cueAmad _ _ | .cueMode _ _ | .cueScale _ _ | .cueClrc _ _ | .cueZrb _ _ | .cueRed _ _ | .cueGather _ _ |
    .smaxStageMax _ _ | .smaxStageExp _ _ | .smaxStageClose _ _ =>
    [.regs, .ports, .gates, .live, .arrived, .fwAccs, .pcs, .hives, .ctxs, .jobs, .host, .peer, .held, .ring, .eventSeq,
      .logWait, .occ, .samplers, .out]
  | .jobDoneReport _ =>
    [.regs, .jobs, .lateJobs, .finished, .peer]
  | .jobTimeout _ _ =>
    [.regs, .ports, .gates, .live, .arrived, .fwAccs, .pcs, .hives, .ctxs, .jobs, .lateJobs, .finished, .host, .peer, .held,
      .ring, .eventSeq, .logWait, .samplers, .out]
  | .completionRecordWrite _ =>
    [.regs, .nextUid, .ports, .fwAccs, .ctxs, .jobs, .finished, .auditSeq, .spill, .host, .peer, .occ, .audit, .out]
  | .auditBatchClose =>
    [.regs, .free, .fwAccs, .audit]
  | .cueLdact _ _ =>
    [.regs, .nextUid, .ports, .gates, .live, .arrived, .fwAccs, .pcs, .hives, .ctxs, .jobs, .host, .peer, .held, .ring,
      .eventSeq, .logWait, .occ, .samplers, .out]
  | .cuePass _ _ | .cueKstream _ _ | .cueVstream _ _ =>
    [.regs, .free, .nextUid, .ports, .gates, .live, .arrived, .fwAccs, .pcs, .lanes, .hives, .ctxs, .jobs, .host, .peer,
      .held, .ring, .eventSeq, .logWait, .occ, .samplers, .recalNext, .out]
  | .cueEmit _ _ =>
    [.regs, .nextUid, .ports, .gates, .live, .arrived, .fwAccs, .pcs, .hives, .ctxs, .jobs, .spill, .host, .peer, .held,
      .ring, .eventSeq, .logWait, .occ, .samplers, .out]
  | .spanSyncComplete _ _ =>
    [.regs, .free, .ports, .gates, .live, .arrived, .fwAccs, .pcs, .hives, .ctxs, .jobs, .host, .peer, .held, .ring,
      .eventSeq, .logWait, .occ, .samplers, .out]
  | .activationWriteRelease _ | .laneTestComplete _ _ _ | .cellTakeover _ _ _ =>
    [.regs, .nextUid, .ports, .gates, .live, .arrived, .fwAccs, .pcs, .lanes, .hives, .ctxs, .jobs, .host, .peer, .held,
      .ring, .eventSeq, .logWait, .occ, .samplers, .recalNext, .out]
  | .testStart _ _ =>
    [.regs, .hives]
  | .cellSelfTest _ _ _ =>
    [.regs, .ports, .gates, .live, .arrived, .fwAccs, .pcs, .lanes, .hives, .host, .peer, .held, .ring, .eventSeq, .logWait,
      .samplers, .recalNext, .out]
  | .glbCommit =>
    [.force]
  | .arbCommit =>
    [.regs, .force, .tokens]
  | .qosTokenReset _ =>
    [.regs, .tokens]
  | .qosMissWindow _ =>
    [.regs, .gates, .fwAccs, .host, .held, .ring, .eventSeq, .logWait, .occ, .out]
  | .winCommit =>
    [.regs, .force, .ports, .peer]
  | .ppReadyRise =>
    [.regs, .ports, .peer]
  | .ppInRd _ _ =>
    [.regs, .nextUid, .ports, .gates, .live, .host, .peer, .occ, .out]
  | .ppInWr _ _ _ _ _ | .ppInBcast _ _ _ _ _ =>
    [.regs, .nextUid, .ports, .gates, .live, .arrived, .host, .peer, .occ, .out]
  | .ppInRed _ _ _ _ =>
    [.regs, .ports, .gates, .live, .fwAccs, .host, .peer, .occ, .out]
  | .ppInRelay _ _ _ _ =>
    [.regs, .ports, .gates, .live, .host, .peer, .occ, .out]
  | .orphanExpiry _ =>
    [.regs, .peer]
  | .bcastAck _ | .ppCreditReturn _ _ _ _ =>
    [.ports, .peer, .occ, .out]
  | .relayForward =>
    [.regs, .ports, .peer, .occ, .fw, .out]
  | .relayResend _ =>
    [.regs, .ports, .fwAccs, .host, .peer, .held, .ring, .eventSeq, .logWait, .occ, .out]
  | .statusReq _ =>
    [.free, .svcWait, .out]
  | .updateBegin _ | .debugChallengeReq _ =>
    [.regs, .free, .fw, .svcWait, .out]
  | .updateChunk _ =>
    [.regs, .free, .fwAccs, .fw, .svcWait, .out]
  | .updateEnd _ =>
    [.regs, .free, .svcWait, .out]
  | .updateCheckDone =>
    [.regs, .ports, .fwAccs, .host, .peer, .held, .ring, .eventSeq, .logWait, .occ, .fw, .out]
  | .updateApplyDone _ | .updateVerifyDone _ | .bootRecordWrite | .updActivate =>
    [.regs, .fwAccs, .host, .held, .ring, .eventSeq, .logWait, .flash, .fw, .out]
  | .updateLoadDone | .deferralTimeout | .updAbort =>
    [.regs, .fwAccs, .host, .held, .ring, .eventSeq, .logWait, .fw, .out]
  | .handover _ _ _ | .coreRestart _ _ | .coreWatchdogExpiry _ =>
    [.regs, .fwAccs, .pcs, .host, .held, .ring, .eventSeq, .logWait, .recal, .cores, .fw, .out]
  | .debugResponse _ =>
    [.regs, .free, .fwAccs, .host, .held, .ring, .eventSeq, .logWait, .fw, .svcWait, .out]
  | .auditFetch _ =>
    [.regs, .free, .fwAccs, .audit, .svcWait, .out]
  | .mbxReqTailWrite _ | .mbxStatus | .settingsRead | .eventRead =>
    [.regs, .fwAccs, .host, .fw, .out]
  | .settingsWrite _ =>
    [.regs, .fwAccs, .host, .flash, .fw, .out]
  | .coreRestartDelayExpiry _ =>
    [.cores]
  | .intMaskWrite _ =>
    [.regs, .host, .out]
  | .advance _ _ | .lcsResume _ | .raiseFloor _ | .revoke _ _ =>
    [.regs, .free, .otp]
  | .pmcClear =>
    [.regs, .occ]
  | .pmcCountUpdate =>
    [.regs, .fclk, .occ]
  | .bwWindowEnd | .pmcBwCfgWrite _ =>
    [.regs, .bwBytes]
  | .pmcSmpEnable _ _ | .sampleRecordWrite _ =>
    [.regs, .samplers]
  | .mbxEvtHeadWrite _ =>
    [.regs, .fwAccs, .host, .held, .ring, .fw, .out]
  | .jtgAccess _ _ =>
    [.regs, .shadow, .force, .loHeld, .hiCap, .free, .nextUid, .mem, .marked, .ports, .tokens, .gates, .live, .arrived,
      .fwAccs, .pcs, .chanLfsr, .lanes, .hives, .ctxs, .ctxHeld, .jobs, .hbStart, .acks, .host, .peer, .held, .ring,
      .eventSeq, .logWait, .occ, .samplers, .overruns, .power, .recal, .recalNext, .otp, .fw, .scrubRun, .remapLog,
      .remapWant, .jtgIr, .bwBytes, .out]

end Sys2Proof.Machine
end

