-- ==== Sys2Proof/Certificates/Slice0/Obligations.lean ====
section
/-! DEFINITION. The statements for the provers. A clause whose conclusion is `∃ t, exec c s = .next t ∧ …` says that the command
completes with the effect that follows. What a command leaves alone stands in `CommandFrame`. -/

open Sys2Proof Sys2Proof.Machine Sys2Proof.Machine.Reg

/-! ### The block as a whole -/

/-- A step takes the command at the front of the queue and runs it with the rest of the queue. The choices of the model that this rests on: log entry 1. -/
def Obligations.StepRunsFrontCommand : Prop :=
  ∀ (c : Instr) (cs : List Instr) (s : State), step { s with pending := c :: cs } = exec c { s with pending := cs }

/-- With no command waiting a step goes on and changes registers only. The choices of the model that this rests on: log entries 3 and 9. -/
def Obligations.EmptyQueueIdles : Prop :=
  ∀ s : State, s.pending = [] → ∃ t, step s = .next t ∧ keepsBut [.regs] s t

/-- Device memory after reset has its canonical form. The choices of the model that this rests on: log entries 5 and 12. -/
def Obligations.ResetMemoryCanonical : Prop := Inv State.reset

/-- Every step keeps the canonical form of device memory: addresses rise strictly and no listed byte is zero. The choices of the model that this rests on: log entry 12. -/
def Obligations.StepKeepsInvariant : Prop := ∀ s t : State, Inv s → step s = .next t → Inv t

/-- No step clears a bit of one-time-programmable memory, and none but a scan of the test access port changes the serial number, the key
digests or ENC_REQUIRED. -/
def Obligations.OtpBitsStay : Prop :=
  ∀ s t : State, step s = .next t →
    copiesKept s.otp.lc t.otp.lc ∧ copiesKept s.otp.kill t.otp.kill ∧ copiesKept s.otp.floor t.otp.floor ∧
    copiesKept s.otp.revoke t.otp.revoke ∧ copiesKept s.otp.encReq t.otp.encReq ∧ bitsKept s.otp.encRoot t.otp.encRoot ∧
    bitsKept s.otp.idSeed t.otp.idSeed ∧ bitsKept s.otp.serial t.otp.serial ∧
    (∀ i, bitsKept (s.otp.digests.getD i 0) (t.otp.digests.getD i 0)) ∧
    ((∀ ir tdi, s.pending.head? ≠ some (.jtgAccess ir tdi)) →
      t.otp.serial = s.otp.serial ∧ t.otp.digests = s.otp.digests ∧ t.otp.encReq = s.otp.encReq)

/-- A command that goes on changes only the pieces of State listed for it. The choices of the model that this rests on: log entries 3 and 4. -/
def Obligations.CommandFrame : Prop := ∀ (c : Instr) (s t : State), exec c s = .next t → keepsBut (mayChange c) s t

/-- Every step removes the command it runs and nothing else from the queue, and leaves the straps alone. -/
def Obligations.StepConsumesOneCommand : Prop := ∀ s t : State, step s = .next t → t.pending = s.pending.tail ∧ t.env = s.env

/-- One case stops the machine: an acknowledge that rises though nothing was requested. Every other command goes on in every state, and
none is refused. The choices of the model that this rests on: log entry 15. -/
def Obligations.OnlyBrokenHandshakeStops : Prop :=
  ∀ (c : Instr) (s : State),
    (∀ f, exec c s = .fault f ↔ f = .hubBrokeHandshake ∧
      ∃ d, c = .pwrAckRise d ∧ d ≤ 32 ∧ s.power.ack.testBit d = false ∧ s.power.req.testBit d = false) ∧
    (∀ r, exec c s ≠ .refused r)

/-! ### Reset and start-up -/

/-- Reset, the start of the ROM, the release of the cores, the domain sequence, the opening of the ports and the events held until then. The choices of the model that this rests on: log entries 4, 12, 17, 59, 60 and 100. -/
def Obligations.StartCommands : Prop :=
  (∀ (porst : Bool) (s : State), ∃ t, exec (.reset porst) s = .next t ∧ t.mem = [] ∧ t.jobs = [] ∧ t.ctxs = [] ∧ t.ports = [] ∧
      t.hives = [] ∧ (updState s ≠ 3 → t.flash = s.flash) ∧ t.otp = s.otp ∧ rd GLB_STATUS.PHASE t = 0 ∧
      rd GLB_RESET_CAUSE.PORST t = b2n porst ∧ rd GLB_RESET_CAUSE.HUB_RST t = b2n (!porst)) ∧
  (∀ (noLog : Bool) (s : State) (i : Nat) (other : Bool), s.rounds ≠ 0 → s.fw.stage = 0 → on FWM_STATUS.RECOVERY s = false →
      rd GLB_STATUS.PHASE s = 0 → hottest s ≤ 360 → rd LCS_STATE.STATE (lcsShow s) ≠ 4 → chooseSlot (lcsShow s) = some (i, other) →
      ∃ t, exec (.romBoot noLog) s = .next t ∧ t.fw.stage = 1 ∧ t.host.ready = true) ∧
  (∀ s : State, s.fw.stage = 1 → rd GLB_STATUS.PHASE s = 0 → s.ctxHeld = none →
      ∃ t, exec .coreRelease s = .next t ∧ ∀ i < 21, corePresent i t = true → coreReady i t = true) ∧
  (∀ s : State, s.power.started = false → rd GLB_STATUS.PHASE s = 1 → stopped s = false → s.power.req = 0 → s.power.ack = 0 →
      s.power.gone = 0 → ∃ t, exec .domainSequence s = .next t ∧ t.power.started = true ∧ t.power.req = 2 ^ 32 ∧
        t.power.todo = ((List.range 16).filter fun n => hivePresent n s) ++ ((List.range 16).filter fun n => hivePresent n s).map (16 + ·)) ∧
  (∀ (cpLinks : BitVec 16) (s : State), rd GLB_STATUS.PHASE s = 4 → s.fw.opening = false → coreReady 0 s = true →
      fwReserve (layMap { s with fw := { s.fw with opening := true } }) < rd GLB_MEM_TOP.TOP (layMap { s with fw := { s.fw with opening := true } }) →
      ∃ t, exec (.portOpening cpLinks false) s = .next t ∧ rd GLB_STATUS.PHASE t = 5 ∧ on GLB_STATUS.PORTS_OPEN t = true ∧
        ∀ k < 16, (cpLinks.toNat.testBit k → (port k t).ready = true)) ∧
  (∀ s : State, evQueueReady s = true → ∃ t, exec .heldEventFlush s = .next t ∧ t.held = [] ∧ t.ring <:+ (s.held ++ s.ring))

/-- A training in which no pseudo-channel fails leaves every one of them active, the self-test of the checkers follows the last training,
and the fill leaves zero in every hive that is up. The choices of the model that this rests on: log entries 4, 12, 42 and 101. -/
def Obligations.TrainingCommands : Prop :=
  (∀ (n : Nat) (obs : TrainObs) (s : State), trainDue n s = true → hOn n s = true → obs.answers = true → knownStack obs = true →
      obs.failStep = 0 → lanesLost n obs (trainIdentity n obs (takePhy n (put GLB_STATUS.PHASE 2 s))) = [] →
      ∃ t, exec (.hiveTraining n obs) s = .next (settled t) ∧
        ∀ c p, c < (if obs.gen = 3 then 32 else 16) → p < 2 → (pcOf n c p t).st = .active) ∧
  (∀ (fails : List (Nat × Bool × Nat × Nat)) (s : State), rd GLB_STATUS.PHASE s = 2 → trainingEnded s = true →
      ∃ t, exec (.checkerSelfTest fails) s = .next (settled t) ∧ rd GLB_STATUS.PHASE t = 3) ∧
  (∀ s : State, rd GLB_STATUS.PHASE s = 3 →
      ∃ t, exec .fill s = .next t ∧ rd GLB_STATUS.PHASE t = 4 ∧
        ∀ k, memByte t.mem k = if hiveUp (k / 2 ^ 40) s = true then 0 else memByte s.mem k)

/-! ### Power and temperature -/

/-- Housekeeping, throttling, shutdown records and the orderly shutdown. The choices of the model that this rests on: log entries 10, 54 and 56. -/
def Obligations.PowerStateCommands : Prop :=
  (∀ (obs : RoundObs) (s : State), ∃ t, exec (.housekeepingRound obs) s = .next t ∧ t.rounds = s.rounds + 1) ∧
  (∀ (g : Nat) (s : State), g ≤ 16 → (g < 16 → hOn g s = true) → emergHolds g s = false → stepEnds g s = true → levelOf g s < 8 → floorOf g s < 8 →
      ∃ t, exec (.throttleLevelStep g) s = .next t ∧ (groupState g s = 2 → levelOf g t = min 7 (levelOf g s + 1)) ∧
        (groupState g s = 0 → levelOf g t = max (floorOf g s) (levelOf g s - 1)) ∧ (groupState g s = 3 → levelOf g t = levelOf g s)) ∧
  (∀ (r : ShutRec) (s : State), s.thermal.due = some r → flashOk s = true → coreReady 1 s = true →
      pendingSlot s = none → freeSlots (eraseShut s) ≠ [] →
      ∃ t, exec .shutdownRecordWrite s = .next t ∧ t.thermal.due = none ∧ t.thermal.recClean = 0) ∧
  (∀ (i : Nat) (s : State), pendingSlot s = some i → 100 ≤ s.thermal.recClean → flashOk s = true → coreReady 1 s = true →
      ∃ t, exec .shutdownRecordClear s = .next t ∧ t.thermal.recClean = 0) ∧
  (∀ s : State, s.power.shut = none → rd GLB_STATUS.PHASE s ≠ 7 →
      ∃ t, exec .shutdown s = .next t ∧ t.power.shut = some ⟨false, portsOpen s, 1, 0⟩) ∧
  (∀ (sh : Shut) (s : State), s.power.shut = some sh → sh.step = 1 →
      ∃ t, exec .orderlyShutdown s = .next (settled t) ∧ t.live = [] ∧ t.gates = [] ∧ ∃ sh', t.power.shut = some sh' ∧ sh'.step = 5)

/-- Edges, timeouts and losses of a domain's acknowledge, and the idle power-down and wake of PD_C. The choices of the model that this rests on: log entries 4 and 15. -/
def Obligations.PowerDomainCommands : Prop :=
  (∀ (d : Nat) (s : State), d ≤ 32 → s.power.req.testBit d = true → s.power.ack.testBit d = false →
      ∃ t, exec (.pwrAckRise d) s = .next t ∧ t.power.ack = setBit s.power.ack d) ∧
  (∀ (d : Nat) (s : State), d ≤ 32 → s.power.ack.testBit d = true → s.power.req.testBit d = false →
      ∃ t, exec (.pwrAckFall d) s = .next (settled t) ∧ t.power.ack = clrBit s.power.ack d) ∧
  (∀ (d : Nat) (s : State), d ≤ 32 → s.power.req.testBit d ≠ s.power.ack.testBit d → s.power.timed.testBit d = false →
      s.power.lost.testBit d = false → d ∉ s.power.todo →
      ∃ t, exec (.pwrAckTimeout d) s = .next (settled t) ∧ t.power.timed.testBit d = true) ∧
  (∀ (d : Nat) (s : State), d ≤ 32 → s.power.req.testBit d = true → s.power.ack.testBit d = true →
      ∃ t, exec (.domainLoss d) s = .next (settled t) ∧ t.power.ack = clrBit s.power.ack d ∧ t.power.lost.testBit d = true ∧
        (d < 16 → t.power.gone.testBit d = true)) ∧
  (∀ (n : Nat) (s : State), cOn n s = true → on (CEL_HIVE_CFG.GATE_EN n) s = true → on (CEL_HIVE_CFG.IDLE_US n) s = true →
      (hive n s).placed = [] → (hive n s).cue = none → (hive n s).held = [] → s.power.req.testBit (16 + n) = true → s.power.ack.testBit (16 + n) = true → n < 16 →
      ∃ t, exec (.pdCIdlePowerDown n) s = .next t ∧ t.power.req = clrBit s.power.req (16 + n)) ∧
  (∀ (n : Nat) (s : State), n < 16 → cOn n s = false → ((hive n s).placed ≠ [] ∨ pushWaits n s = true) →
      requiredOn (16 + n) s = true → stopped s = false → s.power.gone.testBit (16 + n) = false → s.power.ack.testBit (16 + n) = false →
      ∃ t, exec (.pdCWake n) s = .next t ∧ t.power.req.testBit (16 + n) = true)

/-! ### Ports, curtain locks and gates -/

/-- Links, header and data flits, decoded requests, response credits and responses of a compute port. The choices of the model that this rests on: log entries 4, 19, 20, 21, 83 and 86. -/
def Obligations.PortCommands : Prop :=
  (∀ (k : Nat) (s : State), ∃ t, exec (.cpLinkDown k) s = .next (settled t) ∧
      (port k t).ready = false ∧ (port k t).linkUp = false ∧ (port k t).tags = [] ∧ (port k t).rx = [] ∧ (port k t).egress = []) ∧
  (∀ (k : Nat) (s : State), k < 16 → portsOpen s = true → undrained k s = false → (port k s).ready = false →
      (port k s).parityClosed = false →
      ∃ t, exec (.cpPortReopen k) s = .next t ∧ (port k t).ready = true ∧ (port k t).reqHdr = 0 ∧ (port k t).reqData = 0 ∧
        (port k t).hdue = 256 ∧ (port k t).ddue = 512 ∧
        ∀ j, j ≠ k → port j t = port j s) ∧
  (∀ (k : Nat) (flit : BitVec 2048) (w : BitVec 256) (s : State), flitSlots flit = w :: List.replicate 7 0 →
      (port k s).ready = true → 0 < (port k s).reqHdr → 1 ≤ slotF w 0 4 → slotF w 0 4 ≤ 3 → (port k s).tags.contains (slotF w 8 12) = false →
      ∃ t, exec (.cpHeaderFlit k flit (flitParity flit)) s = .next t ∧ (port k t).reqHdr = (port k s).reqHdr - 1 ∧
        (port k t).tags = slotF w 8 12 :: (port k s).tags ∧ (port k t).rx = (port k s).rx ++ [reqOfSlot s.nextUid k s.fclk w]) ∧
  (∀ (k : Nat) (flit : BitVec 2048) (o : Owed) (os : List Owed) (u : Nat) (s : State), (port k s).ready = true →
      0 < (port k s).reqData → (port k s).owed = o :: os → o.owner = some u → (∀ x ∈ (port k s).ing, x.parityBad = false) →
      ∃ t, exec (.cpDataFlit k flit (flitParity flit)) s = .next t ∧ (port k t).reqData = (port k s).reqData - 1 ∧
        (port k t).ing = (port k s).ing.map (feed u (flitBeats flit) true) ∧ (port k t).rx = (port k s).rx.map (feed u (flitBeats flit) true) ∧
        (port k t).owed = (if o.beats ≤ 4 then os else { o with beats := o.beats - 4 } :: os)) ∧
  (∀ (k : Nat) (r : Req) (rest : List Req) (s : State), (port k s).rx = r :: rest → r.op = .rd → k < 16 → formatAt k r s = 0 →
      openOn r.ctx k s = true → r.curt = 0 → (∀ x ∈ (port k s).ing ++ [r], x.parityBad = false) →
      ∃ t, exec (.cpRd k) s = .next t ∧ (port k t).rx = rest ∧ (port k t).ing = (port k s).ing ++ [r]) ∧
  (∀ (k : Nat) (r : Req) (rest : List Req) (s : State), (port k s).rx = r :: rest → r.op = .wr → k < 16 → formatAt k r s = 0 →
      openOn r.ctx k s = true → r.curt = 0 → (∀ x ∈ (port k s).ing ++ [r], x.parityBad = false) →
      ∃ t, exec (.cpWr k false) s = .next t ∧ (port k t).rx = rest ∧ (port k t).ing = (port k s).ing ++ [r]) ∧
  (∀ (k : Nat) (r : Req) (rest : List Req) (s : State), (port k s).rx = r :: rest → r.op = .push → k < 16 → formatAt k r s = 0 →
      openOn r.ctx k s = true → r.curt = 0 → (∀ x ∈ (port k s).ing ++ [r], x.parityBad = false) →
      ∃ t, exec (.cpActPush k false) s = .next t ∧ (port k t).rx = rest ∧ (port k t).ing = (port k s).ing ++ [r]) ∧
  (∀ (k hdr data : Nat) (s : State), (port k s).ready = true →
      exec (.cpRspCreditReturn k hdr data) s = .next (setPort k { port k s with rspHdr := (port k s).rspHdr + hdr, rspData := (port k s).rspData + data } s)) ∧
  (∀ (k : Nat) (e : Egr) (rest : List Egr) (s : State),
      takeSendable (port k s).rspHdr (port k s).rspData [] (port k s).egress = some (e, rest) →
      ∃ t, exec (.responseSend k) s = .next t ∧ (port k t).egress = rest ∧
        t.out.cp = s.out.cp ++ [cpOutOf k (match e with | .hdr .. => (port k s).tornNext | .data .. => false) e])

/-- A malformed request is answered FORMAT_ERR with its reason, one of a context not open at the port ACCESS_FAULT, and neither enters ingress. A fault is recorded unless one is; then only OVERFLOW is set. The choices of the model that this rests on: log entry 19. -/
def Obligations.RefusedRequests : Prop :=
  (∀ (k : Nat) (r : Req) (rest : List Req) (op : Op) (c : Instr) (s : State),
      (op, c) ∈ [(Op.rd, Instr.cpRd k), (Op.wr, Instr.cpWr k false), (Op.push, Instr.cpActPush k false)] →
      (port k s).rx = r :: rest → r.op = op → k < 16 → r.src = .cp k → formatAt k r s ≠ 0 → (port k s).ready = true →
      ∃ t, exec c s = .next t ∧ (port k t).rx = rest ∧ (port k t).ing = (port k s).ing ∧
        (port k t).egress = (port k s).egress ++ [.hdr rtFormat r.tag 0 0 (formatAt k r s) true]) ∧
  (∀ (k : Nat) (r : Req) (rest : List Req) (op : Op) (c : Instr) (s : State),
      (op, c) ∈ [(Op.rd, Instr.cpRd k), (Op.wr, Instr.cpWr k false), (Op.push, Instr.cpActPush k false)] →
      (port k s).rx = r :: rest → r.op = op → k < 16 → r.m = k → r.src = .cp k → formatAt k r s = 0 → openOn r.ctx k s = false →
      (port k s).ready = true →
      ∃ t u, exec c s = .next t ∧ (port k t).rx = rest ∧ (port k t).ing = (port k s).ing ∧
        (port k t).egress = (port k s).egress ++ [.hdr rtAccess r.tag 0 0 r.addr true] ∧
        t = recordFault r.ctx k (r.op != .rd) false (firstByte r) u) ∧
  (∀ (ctx src addr : Nat) (write window : Bool) (s : State), on GLB_FAULT_INFO.VALID s = false →
      on GLB_FAULT_INFO.VALID (recordFault ctx src write window addr s) = true ∧
      rd GLB_FAULT_INFO.CTX (recordFault ctx src write window addr s) = ctx % 2 ^ 16 ∧
      rd GLB_FAULT_INFO.SRC (recordFault ctx src write window addr s) = src % 2 ^ 5 ∧
      on GLB_FAULT_INFO.WRITE (recordFault ctx src write window addr s) = write ∧
      on GLB_FAULT_INFO.WINDOW (recordFault ctx src write window addr s) = window ∧
      rd GLB_FAULT_ADDR.ADDR (recordFault ctx src write window addr s) = addr % 2 ^ GLB_FAULT_ADDR.ADDR.w) ∧
  (∀ (ctx src addr : Nat) (write window : Bool) (s : State), on GLB_FAULT_INFO.VALID s = true →
      recordFault ctx src write window addr s = put GLB_FAULT_INFO.OVERFLOW 1 s)

/-- Regulation checks, curtains, back-off and the draws of a hive gate. The choices of the model that this rests on: log entries 4, 47, 48 and 49. -/
def Obligations.GateCommands : Prop :=
  (∀ (urg : BitVec 32) (s : State), ∃ t, exec (.regulationCheck urg) s = .next (settled t) ∧
      t.rotation % 18 = (s.rotation + 1) % 18) ∧
  (∀ (n k : Nat) (st : Stage) (s : State), mfind (gate n s).stage k = some st → st.complete = false →
      (st.parts.any fun a => (mfind s.live a.uid).any fun l => l.req.curt == 3 || l.req.curt == 4) = true →
      ∃ t, exec (.curtainComplete n k false) s = .next (settled t) ∧ (∃ a, (gate n t).parts = (gate n s).parts ++ [a] ∧ a.curtUid = st.uid) ∧
        mfind (gate n t).stage k = some { st with complete := true }) ∧
  (∀ (k : Nat) (x : Nat × Gate) (st : Stage) (s : State), x ∈ s.gates → mfind x.2.stage k = some st → st.complete = false →
      ∃ t, exec (.curtainWatchdogExpiry k) s = .next (settled t) ∧ (port k t).tornNext = true) ∧
  (∀ (n : Nat) (l : Lock) (s : State), (gate n s).lock = some l →
      ∃ t, exec (.curtainCommit n) s = .next (settled t) ∧ (gate n t).lock = none) ∧
  (∀ (n m c : Nat) (s : State), mfind (gate n s).backoff m = some c →
      exec (.backoffExpiry n m) s = .next (setGate n { gate n s with backoff := mdel (gate n s).backoff m } s)) ∧
  (∀ (n : Nat) (urg : BitVec 32) (a : Part) (s : State), n < 16 → hOn n s = true → (mfind s.gates n).isSome = true →
      (gate n s).parts = [a] → (gate n s).chosen = [] → (gate n s).skip = false → a.m < 18 → eligible n (gate n s) [] a s = true →
      ∃ t, exec (.gateDraw n urg) s = .next (settled t) ∧ (gate n t).chosen.map (fun x => x.part) = [a])

/-! ### Channel controller -/

/-- A column command of a read answers it, one of a stream consumes it, one of a write writes its block or, where the queue entry has a parity error, marks it, and an activate opens the row it names. The choices of the model that this rests on: log entries 13, 28, 38 and 39. -/
def Obligations.ColumnCommands : Prop :=
  (∀ (n c p k : Nat) (o : POp) (e : QEnt) (errs left : ErrPat) (s u : State), pcUsed n c p s = true → (pcOf n c p s).st = .active →
      u = beginCclk n c p s → (pcOf n c p u).hold ≤ (pcOf n c p u).cclk →
      rowPick n c p u = none → colPick n c p u = some (.col o) → o.kind = .read k →
      (pcOf n c p (chargeShare n c p u)).rdq.find? (fun x => x.seq == k) = some e →
      isMarked n c e.off s = false → decodeErr errs (erasedSymbols n c p s) = .clean left →
      ∃ t, exec (.chcCommandIssue n c p errs false) s =
          .next (settled (sleepAgain n c p (deliver n e.uid e.beat (some (applyErr left (e.data.getD (readBlock n c e.off s)))) t))) ∧
        (pcOf n c p t).rdq = (pcOf n c p (chargeShare n c p u)).rdq.filter (fun x => x.seq != k)) ∧
  (∀ (n c p k : Nat) (o : POp) (e : QEnt) (errs left : ErrPat) (s u : State), pcUsed n c p s = true → (pcOf n c p s).st = .active →
      u = beginCclk n c p s → (pcOf n c p u).hold ≤ (pcOf n c p u).cclk →
      rowPick n c p u = none → colPick n c p u = some (.col o) → o.kind = .stream k →
      (pcOf n c p (chargeShare n c p u)).strq.find? (fun x => x.seq == k) = some e →
      isMarked n c e.off s = false → decodeErr errs (erasedSymbols n c p s) = .clean left →
      ∃ t, exec (.chcCommandIssue n c p errs false) s =
          .next (settled (sleepAgain n c p (feedStream n e (some (applyErr left (e.data.getD (readBlock n c e.off s)))) t))) ∧
        (pcOf n c p t).strq = (pcOf n c p (chargeShare n c p u)).strq.filter (fun x => x.seq != k)) ∧
  (∀ (n c p k : Nat) (o : POp) (e : QEnt) (d : Beat) (errs : ErrPat) (s u : State), pcUsed n c p s = true → (pcOf n c p s).st = .active →
      u = beginCclk n c p s → (pcOf n c p u).hold ≤ (pcOf n c p u).cclk →
      rowPick n c p u = none → colPick n c p u = some (.col o) → o.kind = .write k →
      (pcOf n c p (chargeShare n c p u)).wrq.find? (fun x => x.seq == k) = some e → e.applied = false → e.data = some d →
      ∃ t, exec (.chcCommandIssue n c p errs false) s = .next (settled t) ∧ t.mem = (writeBlock n c e.off d s).mem ∧
        t.marked = (writeBlock n c e.off d s).marked) ∧
  (∀ (n c p k : Nat) (o : POp) (e : QEnt) (errs : ErrPat) (s u : State), pcUsed n c p s = true → (pcOf n c p s).st = .active →
      u = beginCclk n c p s → (pcOf n c p u).hold ≤ (pcOf n c p u).cclk →
      rowPick n c p u = none → colPick n c p u = some (.col o) → o.kind = .write k →
      (pcOf n c p (chargeShare n c p u)).wrq.find? (fun x => x.seq == k) = some e →
      ∃ t, exec (.chcCommandIssue n c p errs true) s = .next (settled t) ∧ t.mem = (markBlock n c e.off s).mem ∧
        t.marked = (markBlock n c e.off s).marked) ∧
  (∀ (n c p k : Nat) (o : POp) (s u : State), pcUsed n c p s = true → (pcOf n c p s).st = .active →
      u = beginCclk n c p s → (pcOf n c p u).hold ≤ (pcOf n c p u).cclk →
      rowPick n c p u = some (.act o) → colPick n c p u = none → o.kind = .read k →
      ∃ t, exec (.chcCommandIssue n c p [] false) s = .next (settled t) ∧
        (mgetD (pcOf n c p t).banks (bankKey o.sid o.bank) Bank.init).openRow = some o.row)

/-- Refreshes, idle rows, power states, the check cache, the commit and the mode registers of a channel controller. The choices of the model that this rests on: log entries 9, 38 and 41. -/
def Obligations.ChannelCommands : Prop :=
  (∀ (n c p : Nat) (s : State), pcUsed n c p s = true → (pcOf n c p s).st ≠ .off → (pcOf n c p s).st ≠ .selfRefresh →
      ((pcOf n c p s).st = .powerDown → (pcOf n c p s).owed + 1 < postpone n s) →
      exec (.refreshInterval n c p) s = .next (setPc n c p { pcOf n c p s with owed := min 8 ((pcOf n c p s).owed + 1) } s)) ∧
  (∀ (n c p a b r st : Nat) (ms : List Maint) (s : State), (pcOf n c p s).maint = .neighbour a b r st false :: ms →
      exec (.neighbourRefreshMandatory n c p) s = .next (setPc n c p { pcOf n c p s with maint := .neighbour a b r st true :: ms } s)) ∧
  (∀ (n c p bank r : Nat) (s : State), (mgetD (pcOf n c p s).banks bank Bank.init).openRow = some r → pcUsed n c p s = true →
      hitQueued n c bank r (pcOf n c p s) s = false →
      (mgetD (pcOf n c p s).banks bank Bank.init).lastHit + rd (CHC_ARB.CLOSE_IDLE n) s ≤ (pcOf n c p s).cclk →
      (mgetD (pcOf n c p s).banks bank Bank.init).preAt ≤ (pcOf n c p s).cclk →
      ∃ t, exec (.rowCloseIdle n c p bank) s = .next t ∧ (mgetD (pcOf n c p t).banks bank Bank.init).openRow = none) ∧
  (∀ (n c p : Nat) (s : State), pcUsed n c p s = true → (pcOf n c p s).st = .active → pcIdle n (pcOf n c p s) s = true →
      rd (CHC_PD_TIMER.CCLK n) s ≠ 0 → exec (.powerDownEntry n c p) s = .next (setPc n c p { pcOf n c p s with st := .powerDown } s)) ∧
  (∀ (n c p : Nat) (s : State), pcUsed n c p s = true → (pcOf n c p s).st = .powerDown → rd (CHC_SR_TIMER.US n) s ≠ 0 →
      ∃ t, exec (.selfRefreshEntry n c p) s = .next t ∧ (pcOf n c p t).st = .selfRefresh ∧ (pcOf n c p t).banks = [] ∧
        ∀ e ∈ (pcOf n c p t).cache, e.dirty = false) ∧
  (∀ (n c p : Nat) (s : State), pcUsed n c p s = true → stacksDown s = false → (pcOf n c p s).st = .selfRefresh →
      ∃ t, exec (.pseudoChannelWake n c p) s = .next t ∧ (pcOf n c p t).st = .active ∧ (pcOf n c p t).owed = 0) ∧
  (∀ (n c p i : Nat) (e : CheckRow) (s : State), pcUsed n c p s = true → (pcOf n c p s).cache[i]? = some e → e.dirty = true →
      ∃ t, exec (.checkCacheParityError n c p i) s = .next t ∧ (pcOf n c p t).cache = (pcOf n c p s).cache.set i { e with dirty := false, wb := 0 }) ∧
  (∀ (n : Nat) (s : State), hOn n s = true → n < 16 →
      ∃ t, exec (.chcCommit n) s = .next t ∧ on (CHC_HIVE_STATUS.COMMIT_PENDING n) t = true) ∧
  (∀ (n c p : Nat) (errs : ErrPat) (parityError : Bool) (s : State), pcUsed n c p s = true → (pcOf n c p s).st = .quiesced →
      (pcOf n c p s).hold ≤ (pcOf n c p s).cclk + 1 → on (CHC_HIVE_STATUS.COMMIT_PENDING n) s = true →
      ∃ t, exec (.chcCommandIssue n c p errs parityError) s = .next (settled t) ∧ on (CHC_HIVE_STATUS.COMMIT_PENDING n) t = false ∧
        on (CHC_MR_CMD.BUSY n) t = false) ∧
  (∀ (n : Nat) (value : Byte) (s : State), hOn n s = true → n < 16 → on (CHC_MR_CMD.BUSY n) s = false →
      mrChannels n (mrStart 0 n s) ≠ [] →
      ∃ t, exec (.modeRegisterRead n true value) s = .next t ∧ rd (CHC_MR_DATA.DATA n) t = value.toNat ∧ rd (CHC_MR_DATA.RESULT n) t = 0) ∧
  (∀ (n : Nat) (s : State), hOn n s = true → n < 16 → on (CHC_MR_CMD.BUSY n) s = false → factoryState s = true →
      ∃ t, exec (.modeRegisterWrite n true) s = .next t ∧ rd (CHC_MR_DATA.RESULT n) t = 0 ∧ on (CHC_MR_CMD.BUSY n) t = true)

/-! ### Data integrity -/

/-- A re-read that fails is repeated and the last one reported, a read-modify-write merges its bytes, and the keeper leaks the bucket, erases lanes and installs remap entries. The choices of the model that this rests on: log entries 14, 40, 44 and 46. -/
def Obligations.RereadCommands : Prop :=
  (∀ (n c p : Nat) (r : Retry) (errs : ErrPat) (s : State), pcUsed n c p s = true →
      ((pcOf n c p s).retries.find? fun x => x.asked || !mayReread n (pcOf n c p s) x s) = some r → r.asked = true →
      mayReread n (pcOf n c p s) r s = true → decodeErr errs (erasedSymbols n c p s) = .uncorrectable →
      exec (.reread n c p errs) s = .next (settled (setPc n c p { pcOf n c p s with
        retries := (pcOf n c p s).retries.map fun x => if x.ent.seq = r.ent.seq then { x with asked := false } else x } s))) ∧
  (∀ (n c p : Nat) (r : Retry) (errs : ErrPat) (t s : State), pcUsed n c p s = true →
      (pcOf n c p s).retries.find? (fun r => r.asked || !mayReread n (pcOf n c p s) r s) = some r → r.asked = true →
      t = setPc n c p { pcOf n c p s with retries := (pcOf n c p s).retries.filter fun x => x.ent.seq != r.ent.seq } s →
      decodeErr errs (erasedSymbols n c p t) = .uncorrectable → mayReread n (pcOf n c p s) r s = false → r.src = 1 →
      exec (.reread n c p errs) s = .next (settled (deliver n r.ent.uid r.ent.beat none (uncorrectable n c r.ent.off 1 false t)))) ∧
  (∀ (n c p : Nat) (e : QEnt) (errs left : ErrPat) (s : State), pcUsed n c p s = true →
      ((pcOf n c p s).wrq.find? fun e => e.mask.isSome && e.asked && !(pcOf n c p s).retries.any fun r => r.ent.seq == e.seq) = some e →
      isMarked n c e.off s = false → decodeErr errs (erasedSymbols n c p s) = .clean left →
      ∃ t, exec (.readModifyWrite n c p errs) s = .next (settled t) ∧ (pcOf n c p t).wrq = (pcOf n c p s).wrq.map fun x =>
        if x.seq = e.seq then
          { x with data := some (mergeBytes (x.mask.getD 0) (applyErr left (readBlock n c e.off s)) (x.data.getD 0)), mask := none, asked := false }
        else x) ∧
  (∀ (n : Nat) (s : State), hOn n s = true → on (ECC_CE_LEAK.LEAK_US n) s = true →
      ∃ t, exec (.ceLeak n) s = .next t ∧ rd (ECC_CE_BUCKET.LEVEL n) t = (rd (ECC_CE_BUCKET.LEVEL n) s - 1) % 2 ^ (ECC_CE_BUCKET.LEVEL n).w) ∧
  (∀ (n c p lane i : Nat) (s : State), pcUsed n c p s = true → keeperReady n s = true → rd (ECC_LOCAL_CFG.ERASE_THR n) s ≠ 0 →
      rd (ECC_LOCAL_CFG.ERASE_THR n) s ≤ mgetD (pcOf n c p s).laneCnt lane 0 → (erasedLanes n c p s).contains lane = false →
      (List.range 4).find? (fun i => !on (eraseFld n c p i).2 s) = some i →
      exec (.laneErasure n c p lane) s = .next (putAll [((eraseFld n c p i).1, lane), ((eraseFld n c p i).2, 1)] s)) ∧
  (∀ (n c p sid bank row i : Nat) (s : State), pcUsed n c p s = true → keeperReady n s = true → badRow n c sid row s = false →
      bank < 16 → remapHit n c p sid bank row s = none → rowFails (on (ECC_LOCAL_CFG.AUTO_REMAP n) s) n c p (placedKey n sid bank row s) s = true →
      freeEntry n c s = some i →
      exec (.remapInstall n c p sid bank row []) s = .next (setEntry n c i p sid bank row 1 (copyRow n c p sid bank row i [] s)))

/-- A block reported uncorrectable is counted, recorded unless a record stands, and raises its hive's event bit, whose rise is signalled on vector 0. -/
def Obligations.UncorrectableReport : Prop :=
  ∀ (n c off src : Nat) (marked : Bool) (s : State), n < 16 →
      rd (ECC_UE_CNT.COUNT n) (uncorrectable n c off src marked s) = min (rd (ECC_UE_CNT.COUNT n) s + 1) (2 ^ (ECC_UE_CNT.COUNT n).w - 1) ∧
      (on (ECC_UE_INFO_HI.VALID n) s = true → on (ECC_UE_INFO_HI.OVERFLOW n) (uncorrectable n c off src marked s) = true ∧
        ∀ f ∈ [ECC_UE_INFO_LO.ROW n, ECC_UE_INFO_LO.BANK n, ECC_UE_INFO_LO.SID n, ECC_UE_INFO_LO.PC n, ECC_UE_INFO_LO.CH n, ECC_UE_INFO_HI.SRC n,
          ECC_UE_INFO_HI.VALID n], rd f (uncorrectable n c off src marked s) = rd f s) ∧
      (on (ECC_UE_INFO_HI.VALID n) s = false → on (ECC_UE_INFO_HI.VALID n) (uncorrectable n c off src marked s) = true ∧
        rd (ECC_UE_INFO_HI.OVERFLOW n) (uncorrectable n c off src marked s) = rd (ECC_UE_INFO_HI.OVERFLOW n) s ∧
        ∀ x ∈ [(ECC_UE_INFO_LO.ROW n, placeRow n (splitOff n off s).row s), (ECC_UE_INFO_LO.BANK n, (splitOff n off s).bank),
          (ECC_UE_INFO_LO.SID n, (splitOff n off s).sid), (ECC_UE_INFO_LO.PC n, (splitOff n off s).p), (ECC_UE_INFO_LO.CH n, c),
          (ECC_UE_INFO_HI.SRC n, src)], rd x.1 (uncorrectable n c off src marked s) = x.2 % 2 ^ x.1.w) ∧
      (rd ECC_HIVE_EVENT.UE (uncorrectable n c off src marked s)).testBit n = true ∧
      ((rd ECC_HIVE_EVENT.UE s).testBit n = false → rd FWM_MBX_REQ_CFG.HSET s < 64 → on (intField 3) s = false → (rd INT_MASK.MASK s).testBit 3 = false → mailboxAway s = false →
        msgBlocked 0 s = false →
        on (intField 3) (uncorrectable n c off src marked s) = true ∧
        (uncorrectable n c off src marked s).out.hp = s.out.hp ++ [.message 0 (mgetD s.host.msix 0 0 + mgetD s.host.msix 1 0 * 2 ^ 32) (mgetD s.host.msix 2 0)])

/-- INSTALL, REPAIR and the move of a remap entry. The choices of the model that this rests on: log entries 9, 46 and 61. -/
def Obligations.RemapCommands : Prop :=
  (∀ (n i : Nat) (s : State), hOn n s = true → n < 16 → keeperReady n s = true → on (ECC_RMP_CMD.BUSY n) s = false →
      badRow n (rd (ECC_RMP_ADDR.CH n) s) (rd (ECC_RMP_ADDR.SID n) s) (rd (ECC_RMP_ADDR.ROW n) s) s = false →
      ((setsInUse s).any fun i => (setHives i s).contains n) = true →
      remapHit n (rd (ECC_RMP_ADDR.CH n) s) (rd (ECC_RMP_ADDR.PC n) s) (rd (ECC_RMP_ADDR.SID n) s) (rd (ECC_RMP_ADDR.BANK n) s) (rd (ECC_RMP_ADDR.ROW n) s) s = none →
      freeEntry n (rd (ECC_RMP_ADDR.CH n) s) s = some i →
      ∃ t, exec (.install n []) s = .next t ∧ rd (ECC_RMP_CMD.RESULT n) t = 0 ∧ rd (ECC_RMP_CMD.ENTRY n) t = i % 32 ∧
        t.remapWant = s.remapWant ++ [[n, rd (ECC_RMP_ADDR.CH n) s, i, rd (ECC_RMP_ADDR.PC n) s, rd (ECC_RMP_ADDR.SID n) s, rd (ECC_RMP_ADDR.BANK n) s, rd (ECC_RMP_ADDR.ROW n) s]] ∧
        (flashOk s = true → t.remapLog = t.remapWant)) ∧
  (∀ (n i : Nat) (errs : List (Nat × ErrPat)) (s : State), hOn n s = true → n < 16 → keeperReady n s = true → on (ECC_RMP_CMD.BUSY n) s = false → factoryState s = true →
      ((mfind s.thermal.stack n).any fun t => decide (t ≤ 85)) = true →
      badRow n (rd (ECC_RMP_ADDR.CH n) s) (rd (ECC_RMP_ADDR.SID n) s) (rd (ECC_RMP_ADDR.ROW n) s) s = false →
      remapHit n (rd (ECC_RMP_ADDR.CH n) s) (rd (ECC_RMP_ADDR.PC n) s) (rd (ECC_RMP_ADDR.SID n) s) (rd (ECC_RMP_ADDR.BANK n) s) (rd (ECC_RMP_ADDR.ROW n) s) s = some i →
      ∃ t, exec (.repair n true errs) s = .next t ∧ rd (ECC_RMP_CMD.RESULT n) t = 0 ∧
        t.remapWant = s.remapWant.filter (fun e => e.take 3 != [n, rd (ECC_RMP_ADDR.CH n) s, i])) ∧
  (∀ (n c i j : Nat) (s : State), pcUsed n c (rd (ECC_RMP_ROW.PC n c i) s) s = true → i < 32 → keeperReady n s = true →
      on (ECC_RMP_ROW.VALID n c i) s = true →
      rowFails true n c (rd (ECC_RMP_ROW.PC n c i) s) (placedKey n (rd (ECC_RMP_ROW.SID n c i) s) (rd (ECC_RMP_ROW.BANK n c i) s) (rd (ECC_RMP_ROW.ROW n c i) s) s) s = true →
      freeEntry n c s = some j →
      ∃ t, exec (.remapMove n c i []) s = .next t ∧ t.remapWant = s.remapWant.filter (fun e => e.take 3 != [n, c, i]) ++
        [[n, c, j, rd (ECC_RMP_ROW.PC n c i) s, rd (ECC_RMP_ROW.SID n c i) s, rd (ECC_RMP_ROW.BANK n c i) s, rd (ECC_RMP_ROW.ROW n c i) s]])

/-- A scrub run starts at its base, advances by one block, ends past its limit and stops on request. The choices of the model that this rests on: log entry 45. -/
def Obligations.ScrubCommands : Prop :=
  (∀ s : State, on ECC_SCRUB_CTRL.BUSY s = false → s.fw.stage ≠ 0 →
      rd ECC_SCRUB_LIMIT.ADDR s / 64 * 64 < rd GLB_MEM_TOP.TOP s * 2 ^ 20 → rd ECC_SCRUB_BASE.ADDR s / 64 * 64 ≤ rd ECC_SCRUB_LIMIT.ADDR s / 64 * 64 →
      ∃ t, exec .scrubGo s = .next t ∧ on ECC_SCRUB_CTRL.BUSY t = true ∧
        t.scrubRun = some (rd ECC_SCRUB_BASE.ADDR s / 64 * 64, rd ECC_SCRUB_BASE.ADDR s / 64 * 64, rd ECC_SCRUB_LIMIT.ADDR s / 64 * 64)) ∧
  (∀ (b a l : Nat) (x : Place) (errs : ErrPat) (s : State), s.scrubRun = some (b, a, l) → a ≤ l → mapAddr a s = some x →
      pcUsed x.n x.c (workPc x.n x.c x.off s) s = true → (pcOf x.n x.c (workPc x.n x.c x.off s) s).scrubs.contains x.off = true →
      ∃ t, exec (.scrubRead errs) s = .next t ∧ t.scrubRun = some (b, a + 64, l)) ∧
  (∀ (b a l : Nat) (s : State), s.scrubRun = some (b, a, l) → l < a → scrubSettled s = true →
      ∃ t, exec .scrubRunEnd s = .next t ∧ t.scrubRun = none ∧ on ECC_SCRUB_CTRL.BUSY t = false) ∧
  (∀ (b a l : Nat) (s : State), s.scrubRun = some (b, a, l) → a ≤ l → (∀ x ∈ s.pcs, x.2.retries = [] ∧ x.2.scrubs = []) →
      ∃ t, exec .scrubStop s = .next t ∧ t.scrubRun = none ∧ on ECC_SCRUB_CTRL.BUSY t = false ∧ rd ECC_SCRUB_SUMMARY.RESULT t = 2)

/-! ### PHY calibration -/

/-- Recalibration rounds, lane moves and the ramp of the live delays. The choices of the model that this rests on: log entry 42. -/
def Obligations.PhyCommands : Prop :=
  (∀ (n : Nat) (s : State), hOn n s = true → keeperReady n s = true → rd (PHY_TRAIN_SUMMARY.RESULT n) s = 0 →
      on (PHY_TRAIN_SUMMARY.VALID n) s = true → mfind s.recal n = none → mgetD s.recalNext n [] = [] → recalDue n s = true →
      ((allPcs n s).any fun x => (pcOf n x.1 x.2 s).st == .active) = true →
      ∃ t, exec (.recalRound n []) s = .next t ∧ ∃ r, mfind t.recal n = some r ∧
        r.waiting = ((allPcs n s).filter fun x => (pcOf n x.1 x.2 s).st == .active).map (fun x => 2 * x.1 + x.2)) ∧
  (∀ (n c p : Nat) (r : Recal) (o : LaneObs) (s : State), hOn n s = true → keeperReady n s = true →
      rd (PHY_TRAIN_SUMMARY.RESULT n) s = 0 → on (PHY_TRAIN_SUMMARY.VALID n) s = true → mfind s.recal n = some r → p < 2 → r.waiting = [2 * c + p] →
      (pcOf n c p s).st = .active → probing n c p s = false → o.ch = c → o.pc = p →
      ∃ t, exec (.recalRound n [o]) s = .next t ∧ on (PHY_CAL_SUMMARY.VALID n) t = true) ∧
  (∀ (n : Nat) (s : State), hOn n s = true → keeperReady n s = true → rd (PHY_TRAIN_SUMMARY.RESULT n) s = 0 →
      on (PHY_TRAIN_SUMMARY.VALID n) s = true → mfind s.recal n = none →
      ((allPcs n s).any fun x => (pcOf n x.1 x.2 s).st == .active) = true →
      ∃ t, exec (.recalNow n) s = .next t ∧ ∃ r, mfind t.recal n = some r ∧
        r.waiting = ((allPcs n s).filter fun x => (pcOf n x.1 x.2 s).st == .active).map (fun x => 2 * x.1 + x.2)) ∧
  (∀ (n c p : Nat) (r : Recal) (s : State), mfind s.recal n = some r → r.waiting.contains (2 * c + p) = true →
      ∃ t, exec (.recalDeadline n c p) s = .next t ∧
        rd (PHY_CAL_STAT.ABANDONED n) t = min (rd (PHY_CAL_STAT.ABANDONED n) s + 1) (2 ^ (PHY_CAL_STAT.ABANDONED n).w - 1)) ∧
  (∀ (n c p lane : Nat) (o : LaneObs) (s : State), pcUsed n c p s = true → keeperReady n s = true →
      lane < logLanes (rd (CHC_HIVE_CFG.GEN n) s) → (hive n s).phy.rejLimit ≠ 0 →
      (hive n s).phy.rejLimit ≤ (laneAt n c p (physLane n c p lane s) s).rejects → spareFree n c p lane s = true →
      moveOk n c p lane (heldObs o) (quiesce 0 n [c] s) = true →
      ∃ t, exec (.laneMove n c p lane o) s = .next t ∧
        laneAt n c p (logLanes (rd (CHC_HIVE_CFG.GEN n) s) + spareOf (rd (CHC_HIVE_CFG.GEN n) s) lane) t =
          ⟨(heldObs o).rx1, (heldObs o).rx1, (heldObs o).rxEye, (heldObs o).tx1, (heldObs o).tx1, (heldObs o).txEye, true, false, 0⟩) ∧
  (∀ (n c p lane : Nat) (o : LaneObs) (s : State), pcUsed n c p s = true → keeperReady n s = true →
      lane < logLanes (rd (CHC_HIVE_CFG.GEN n) s) → (hive n s).phy.rejLimit ≠ 0 →
      (hive n s).phy.rejLimit ≤ (laneAt n c p (physLane n c p lane s) s).rejects → spareFree n c p lane s = false →
      ∃ t, exec (.laneMove n c p lane o) s = .next t ∧ (laneAt n c p (physLane n c p lane s) t).rejects = 0 ∧ t.eventSeq = s.eventSeq + 1) ∧
  (∀ (n c p : Nat) (s : State), pcUsed n c p s = true → (pcOf n c p s).st ≠ .selfRefresh → (pcOf n c p s).st ≠ .off →
      ∃ t, exec (.dlyRampStep n c p) s = .next t ∧ t.lanes = mmap (fun k v =>
        if k / 64 = pcKey n c p then { v with rxLive := stepTo v.rxLive v.rxTgt, txLive := stepTo v.txLive v.txTgt } else v) s.lanes)

/-! ### Host endpoint, doorbells and contexts -/

/-- Reads and writes of the BARs and of configuration space, and an unsupported request. The choices of the model that this rests on: log entries 4, 9, 73, 81 and 97. -/
def Obligations.HostAccessCommands : Prop :=
  (∀ (off : BitVec 64) (len tag : Nat) (s : State), memEnabled s = true → off.toNat + len ≤ 2 ^ 24 →
      ∃ t, exec (.hpMemRead 0 off len tag) s = .next t ∧ t.out.hp = s.out.hp ++
        completionTlps (maxPayload s) tag false ((bar0Read off.toNat len (idleTick s)).1.length + 1) off.toNat (bar0Read off.toNat len (idleTick s)).1) ∧
  (∀ (off : BitVec 64) (len tag : Nat) (s : State), memEnabled s = true → off.toNat + len ≤ 2 ^ 30 →
      exec (.hpMemRead 2 off len tag) s = .next (sendCompletion tag off.toNat (bar2Read off.toNat len s) false s)) ∧
  (∀ (off : BitVec 64) (x : Nat) (d : List Byte) (s : State), memEnabled s = true → x < 65536 → off.toNat = 0x4000 * x → d.length = 4 → cHome (ctxOf x s) = 16 →
      belled x s = true → exec (.hpMemWrite 2 off d false false) s = .next (descTail x (leNat d) s)) ∧
  (∀ (off : BitVec 64) (d : List Byte) (s : State), memEnabled s = true → off.toNat + d.length ≤ 2 ^ 24 →
      exec (.hpMemWrite 0 off d false false) s = .next (bar0Write off.toNat d (settleBut off.toNat d.length s))) ∧
  (∀ (off be tag : Nat) (s : State), s.host.ready = true →
      exec (.hpConfigRead off be tag) s = .next (sendTlp (.cfgCompletion tag (cfgValue (off / 4 * 4) s &&& beMask be)) s)) ∧
  (∀ (off be tag : Nat) (v : BitVec 32) (s : State), s.host.ready = true →
      ∃ t, exec (.hpConfigWrite off be v tag false) s = .next t ∧ t.host.cfg = (cfgWrite (off / 4 * 4) be v.toNat s).host.cfg) ∧
  (∀ (kind : UrKind) (tag : Nat) (s : State), kind ≠ .message → kind ≠ .barAccess →
      exec (.hpUnsupportedRequest kind tag) s = .next (sendTlp (.unsupported tag) (aerSet aerUnsupported s)))

/-- Completions and timeouts of the block's own reads, quarantine, function resets, message vectors and the interrupt mask. The choices of the model that this rests on: log entries 4, 73, 81 and 90. -/
def Obligations.HostReadCommands : Prop :=
  (∀ (tag : Nat) (data : List Byte) (r : HpRead) (s : State), s.host.quarantine.contains tag = false → mfind s.host.reads tag = some r →
      ∃ t, exec (.hpCompletion tag true false false data) s = .next t ∧ t.host.reads = mset s.host.reads tag { r with got := r.got ++ data }) ∧
  (∀ (tag i : Nat) (data : List Byte) (r : HpRead) (s : State), s.host.quarantine.contains tag = false → mfind s.host.reads tag = some r →
      r.dest = .mailbox i →
      ∃ t, exec (.hpCompletion tag true false true data) s = .next t ∧ t.fw.mbxReq.length = s.fw.mbxReq.length + r.len / 64) ∧
  (∀ (tag : Nat) (r : HpRead) (s : State), mfind s.host.reads tag = some r →
      ∃ t, exec (.hpCompletionTimeout tag) s = .next t ∧ (cfgD 0x104 t).testBit aerTimeout = true) ∧
  (∀ (tag : Nat) (s : State), ∃ t, exec (.tagQuarantineExpiry false tag) s = .next t ∧
      t.host.quarantine = s.host.quarantine.erase tag) ∧
  (∀ (tag : Nat) (s : State), ∃ t, exec (.tagQuarantineExpiry true tag) s = .next t ∧
      t.peer.quarantine = s.peer.quarantine.erase tag) ∧
  (∀ (cause : FlrCause) (s : State), s.host.reads = [] → ∃ t, exec (.functionReset cause) s = .next t ∧ t.host.ready = false) ∧
  (∀ (v : Nat) (s : State), s.host.pba.testBit v = true → msgBlocked v s = false →
      exec (.msixPendingRelease v) s = .next (sendMsgNow v { s with host := { s.host with pba := clrBit s.host.pba v } })) ∧
  (∀ (v : BitVec 32) (s : State), ∃ t, exec (.intMaskWrite v) s = .next t ∧ rd INT_MASK.MASK t = v.toNat % 2 ^ INT_MASK.MASK.w)

/-- A doorbell whose index the ring admits moves its index; any other index counts as BAD_INDEX, and one to a context that is neither OPEN nor HALTED as BAD_STATE. The choices of the model that this rests on: log entry 32. -/
def Obligations.DoorbellCommands : Prop :=
  (∀ (x : Nat) (v : BitVec 32) (s : State), belled x s = true →
      ringDist (cDescLog (ctxOf x s)) (ctxOf x s).head (ctxOf x s).tail ≤ ringDist (cDescLog (ctxOf x s)) (ctxOf x s).head (v.toNat % 2 ^ (cDescLog (ctxOf x s) + 1)) →
      ringDist (cDescLog (ctxOf x s)) (ctxOf x s).head (v.toNat % 2 ^ (cDescLog (ctxOf x s) + 1)) ≤ 2 ^ cDescLog (ctxOf x s) →
      ∃ t, exec (.descTail x v) s = .next t ∧ ctxOf x t = { ctxOf x s with tail := v.toNat % 2 ^ (cDescLog (ctxOf x s) + 1) }) ∧
  (∀ (x : Nat) (v : BitVec 32) (s : State), belled x s = true →
      ringDist (cCplLog (ctxOf x s)) (ctxOf x s).cplHead (v.toNat % 2 ^ (cCplLog (ctxOf x s) + 1)) ≤ ringDist (cCplLog (ctxOf x s)) (ctxOf x s).cplHead (ctxOf x s).cplTail →
      ∃ t, exec (.cplHead x v) s = .next t ∧ ctxOf x t = { ctxOf x s with cplHead := v.toNat % 2 ^ (cCplLog (ctxOf x s) + 1) }) ∧
  (∀ (x : Nat) (v : BitVec 32) (s : State), belled x s = true →
      (2 ^ cDescLog (ctxOf x s) < ringDist (cDescLog (ctxOf x s)) (ctxOf x s).head (v.toNat % 2 ^ (cDescLog (ctxOf x s) + 1)) ∨
       ringDist (cDescLog (ctxOf x s)) (ctxOf x s).head (v.toNat % 2 ^ (cDescLog (ctxOf x s) + 1)) <
         ringDist (cDescLog (ctxOf x s)) (ctxOf x s).head (ctxOf x s).tail) →
      exec (.descTail x v) s = .next (bump CTX_DB_ERR.BAD_INDEX 1 s)) ∧
  (∀ (x : Nat) (v : BitVec 32) (s : State), belled x s = true →
      ringDist (cCplLog (ctxOf x s)) (ctxOf x s).cplHead (ctxOf x s).cplTail <
        ringDist (cCplLog (ctxOf x s)) (ctxOf x s).cplHead (v.toNat % 2 ^ (cCplLog (ctxOf x s) + 1)) →
      exec (.cplHead x v) s = .next (bump CTX_DB_ERR.BAD_INDEX 1 s)) ∧
  (∀ (x : Nat) (v : BitVec 32) (s : State), belled x s = false →
      exec (.descTail x v) s = .next (bump CTX_DB_ERR.BAD_STATE 1 s) ∧ exec (.cplHead x v) s = .next (bump CTX_DB_ERR.BAD_STATE 1 s))

/-- Heartbeats, their timeout and configuration, and the drain of a lost set. The choices of the model that this rests on: log entries 4 and 32. -/
def Obligations.HeartbeatCommands : Prop :=
  (∀ (x : Nat) (gen : BitVec 16) (s : State), cHome (ctxOf x s) = 16 → belled x s = true →
      rd (CTX_HB_STATUS.STATE (cHset (ctxOf x s))) s = 1 → rd (CTX_HB_STATUS.GEN (cHset (ctxOf x s))) s = gen.toNat →
      hbExpired (cHset (ctxOf x s)) s = false → exec (.heartbeat x gen) s = .next (startHb (cHset (ctxOf x s)) s)) ∧
  (∀ (x : Nat) (gen : BitVec 16) (s : State), cHome (ctxOf x s) = 16 → belled x s = true →
      (rd (CTX_HB_STATUS.STATE (cHset (ctxOf x s))) s ≠ 1 ∨ rd (CTX_HB_STATUS.GEN (cHset (ctxOf x s))) s ≠ gen.toNat ∨
        hbExpired (cHset (ctxOf x s)) s = true) →
      exec (.heartbeat x gen) s = .next (bump (CTX_HB_STATUS.STALE (cHset (ctxOf x s))) 1 s)) ∧
  (∀ (h : Nat) (s : State), h < 64 → rd (CTX_HB_STATUS.STATE h) s = 1 → hbExpired h s = true → s.host.writes = [] →
      ∃ t, exec (.heartbeatTimeout h) s = .next t ∧ rd (CTX_HB_STATUS.STATE h) t = 2 ∧ t.eventSeq = s.eventSeq + 1) ∧
  (∀ (h : Nat) (v : BitVec 32) (s : State), h < 64 → rd (CTX_HB_STATUS.STATE h) s < 2 →
      exec (.ctxHbCfgWrite h v) s =
        .next (startHb h (put (CTX_HB_STATUS.STATE h) (b2n (v.toNat % 2 ^ 16 != 0)) (put (CTX_HB_CFG.TIMEOUT_MS h) (v.toNat % 2 ^ 16) s)))) ∧
  (∀ (h : Nat) (gen : BitVec 16) (s : State), h < 64 → rd (CTX_HB_STATUS.STATE h) s = 2 → rd (CTX_HB_STATUS.GEN h) s ≠ gen.toNat →
      ∃ t, exec (.ackDrain h gen) s = .next t ∧ rd (CTX_HB_STATUS.STATE h) t = 3 ∧ mfind t.acks h = some ⟨gen.toNat, false⟩) ∧
  (∀ (h : Nat) (gen : BitVec 16) (s : State), h < 64 → rd (CTX_HB_STATUS.STATE h) s = 2 → rd (CTX_HB_STATUS.GEN h) s ≠ gen.toNat →
      ∃ t, exec (.ackDiscard h gen) s = .next t ∧ rd (CTX_HB_STATUS.STATE h) t = 3 ∧ mfind t.acks h = some ⟨gen.toNat, true⟩) ∧
  (∀ (h : Nat) (w : AckWait) (s : State), mfind s.acks h = some w → rd (CTX_HB_STATUS.STATE h) s = 3 →
      (s.jobs.any fun x => jobInSet h x.2 s) = false → (w.discard = true ∨ busMaster s = true ∧ s.spill.filter (spillOf h) = []) →
      coreReady 2 s = true → ∃ t, exec (.drainComplete h) s = .next t ∧ t.acks = mdel s.acks h)

/-- The context commands where they succeed, and what completes later. The choices of the model that this rests on: log entries 9, 32, 92 and 93. -/
def Obligations.ContextCommands : Prop :=
  (∀ s : State, on CTX_CMD.BUSY s = false → coreReady 2 s = true → rd CTX_SEL.CTX s ≠ 0 →
      (ctxOf (rd CTX_SEL.CTX s) s).state = .free → entryBadWord (staged s) = none →
      ∃ t, exec .ctxOpen s = .next t ∧ ctxOf (rd CTX_SEL.CTX s) t = { Ctx.init with state := .opened, words := staged s }) ∧
  (∀ s : State, on CTX_CMD.BUSY s = false → coreReady 2 s = true → rd CTX_SEL.CTX s ≠ 0 →
      ((ctxOf (rd CTX_SEL.CTX s) s).state = .opened ∨ (ctxOf (rd CTX_SEL.CTX s) s).state = .halted) → ctxAway (rd CTX_SEL.CTX s) s = false →
      ∃ t, exec .ctxClose s = .next t ∧ (ctxOf (rd CTX_SEL.CTX s) t).state = .closing) ∧
  (∀ (x : Nat) (s : State), (ctxOf x s).state = .closing → inflight x s = 0 → recordSpilled x s = false →
      exec (.closeComplete x) s = .next (tableWrite x (setCtx x Ctx.init s))) ∧
  (∀ (s : State), on CTX_CMD.BUSY s = false → coreReady 2 s = true → rd CTX_SEL.CTX s ≠ 0 →
      s.overruns.contains CTX_CMD.CMD.off = false →
      ∃ t, exec .ctxRead s = .next t ∧ rd CTX_CMD_STATUS.RESULT t = 0 ∧ on CTX_CMD.BUSY t = false ∧ on CTX_CMD_STATUS.VALID t = true ∧
        rd CTX_STATUS_0.STATE t = stateCode (ctxOf (rd CTX_SEL.CTX s) s).state) ∧
  (∀ s : State, on CTX_CMD.BUSY s = false → coreReady 2 s = true → rd CTX_SEL.CTX s ≠ 0 →
      ((ctxOf (rd CTX_SEL.CTX s) s).state = .opened ∨ (ctxOf (rd CTX_SEL.CTX s) s).state = .halted) → entryBadWord (staged s) = none →
      (∀ i < 16, fixedWord i ((staged s).getD i 0) = fixedWord i (cWord (ctxOf (rd CTX_SEL.CTX s) s) i)) →
      ∃ t, exec .ctxModify s = .next t ∧ ctxOf (rd CTX_SEL.CTX s) t = { ctxOf (rd CTX_SEL.CTX s) s with words := staged s }) ∧
  (∀ s : State, on CTX_CMD.BUSY s = false → coreReady 2 s = true → rd CTX_SEL.CTX s ≠ 0 →
      (ctxOf (rd CTX_SEL.CTX s) s).state = .halted → inflight (rd CTX_SEL.CTX s) s = 0 →
      ∃ t, exec .ctxResume s = .next t ∧ (ctxOf (rd CTX_SEL.CTX s) t).state = .opened ∧
        (ctxOf (rd CTX_SEL.CTX s) t).head = (ctxOf (rd CTX_SEL.CTX s) s).head ∧ (ctxOf (rd CTX_SEL.CTX s) t).halt = none) ∧
  (∀ s : State, on CTX_CMD.BUSY s = false → coreReady 2 s = true → rd CTX_SEL.CTX s ≠ 0 →
      (ctxOf (rd CTX_SEL.CTX s) s).state = .halted → inflight (rd CTX_SEL.CTX s) s = 0 →
      ∃ t, exec .ctxResumeDiscard s = .next t ∧ (ctxOf (rd CTX_SEL.CTX s) t).state = .opened ∧
        (ctxOf (rd CTX_SEL.CTX s) t).head = (ctxOf (rd CTX_SEL.CTX s) s).tail ∧ (ctxOf (rd CTX_SEL.CTX s) t).halt = none) ∧
  (∀ (x : Nat) (s : State), (ctxOf x s).waiting = true → (ctxOf x s).state = .halted → inflight x s = 0 →
      ∃ t, exec (.resumeCommit x) s = .next t ∧ ctxOf x t = { ctxOf x s with state := .opened, waiting := false, halt := none, fetched := [] })

/-- A fall of a port's link itself changes the state of no context, and CLOSE is refused with BAD_STATE while the context's host set is LOST or DRAINING. -/
def Obligations.LinkFallKeepsContexts : Prop :=
  (∀ (k x : Nat) (s : State), ∃ t, exec (.cpLinkDown k) s = .next (settled t) ∧ (ctxOf x t).state = (ctxOf x s).state) ∧
  (∀ s : State, on CTX_CMD.BUSY s = false → coreReady 2 s = true → rd CTX_SEL.CTX s ≠ 0 →
      s.overruns.contains CTX_CMD.CMD.off = false → cHome (ctxOf (rd CTX_SEL.CTX s) s) = 16 →
      (rd (CTX_HB_STATUS.STATE (cHset (ctxOf (rd CTX_SEL.CTX s) s))) s = 2 ∨ rd (CTX_HB_STATUS.STATE (cHset (ctxOf (rd CTX_SEL.CTX s) s))) s = 3) →
      ∃ t, exec .ctxClose s = .next t ∧ rd CTX_CMD_STATUS.RESULT t = 1 ∧ (ctxOf (rd CTX_SEL.CTX s) t).state = (ctxOf (rd CTX_SEL.CTX s) s).state)

/-! ### Jobs -/

/-- A descriptor fetch from the host waits for it, one from the device holds its descriptor, and a good descriptor starts its job. The choices of the model that this rests on: log entries 14 and 37. -/
def Obligations.JobStartCommands : Prop :=
  (∀ (x : Nat) (s : State), (ctxOf x s).state = .opened → portsOpen s = true → ctxAway x s = false →
      (ctxOf x s).fetching = none → (ctxOf x s).fetched = [] → coreReady 2 s = true → cDescBase (ctxOf x s) % 64 = 0 →
      ringDist (cDescLog (ctxOf x s)) ((ctxOf x s).head % 2 ^ (cDescLog (ctxOf x s) + 1)) (ctxOf x s).tail ≠ 0 → cHome (ctxOf x s) = 16 →
      busMaster s = true → ∃ t, exec (.descriptorFetch x) s = .next t ∧ (ctxOf x t).fetching = some s.nextUid ∧ t.nextUid = s.nextUid + 1) ∧
  (∀ (x : Nat) (s : State), (ctxOf x s).state = .opened → portsOpen s = true → ctxAway x s = false →
      (ctxOf x s).fetching = none → (ctxOf x s).fetched = [] → coreReady 2 s = true → cDescBase (ctxOf x s) % 64 = 0 →
      ringDist (cDescLog (ctxOf x s)) ((ctxOf x s).head % 2 ^ (cDescLog (ctxOf x s) + 1)) (ctxOf x s).tail ≠ 0 → cHome (ctxOf x s) ≠ 16 →
      ∃ t, exec (.descriptorFetch x) s = .next t ∧ (ctxOf x t).fetching = some s.nextUid ∧
        ∃ r, (port (cHome (ctxOf x s)) t).ing = (port (cHome (ctxOf x s)) s).ing ++ [r] ∧ r.op = .rd ∧
          r.addr = cDescBase (ctxOf x s) + 64 * ((ctxOf x s).head % 2 ^ (cDescLog (ctxOf x s) + 1) % 2 ^ cDescLog (ctxOf x s))) ∧
  (∀ (x : Nat) (f : Fetched) (fs : List Fetched) (s : State), (ctxOf x s).fetched = f :: fs → (ctxOf x s).state = .opened →
      ctxAway x s = false → portsOpen s = true → coreReady 2 s = true →
      mayStart x (ctxOf x s) (Job.start x f.index f.words (ctxOf x s).words (cHome (ctxOf x s)) (cClass (ctxOf x s)) (cDomain (ctxOf x s)) s.fclk) s = true →
      jType (Job.start x f.index f.words (ctxOf x s).words (cHome (ctxOf x s)) (cClass (ctxOf x s)) (cDomain (ctxOf x s)) s.fclk) < 5 →
      badReason (cHostEn (ctxOf x s)) (usableTop s) (Job.start x f.index f.words (ctxOf x s).words (cHome (ctxOf x s)) (cClass (ctxOf x s)) (cDomain (ctxOf x s)) s.fclk) = 0 →
      ∃ t, exec (.jobStart x) s = .next t ∧ t.nextJob = s.nextJob + 1 ∧
        mfind t.jobs s.nextJob = some (Job.start x f.index f.words (ctxOf x s).words (cHome (ctxOf x s)) (cClass (ctxOf x s)) (cDomain (ctxOf x s)) s.fclk) ∧
        ctxOf x t = { ctxOf x s with head := ((ctxOf x s).head + 1) % 2 ^ (cDescLog (ctxOf x s) + 1), fetched := fs })

/-- What a piece of NOP, COPY, FILL, PEER_REDUCE and BROADCAST stores or sends. The choices of the model that this rests on: log entries 14, 36, 90 and 95. -/
def Obligations.DataJobCommands : Prop :=
  (∀ (j : Nat) (v : Job) (s : State), ready j 0 s = some v →
      exec (.jobNop j .clean) s = .next (setJob j { v with waitRecord := true } s)) ∧
  (∀ (j : Nat) (v : Job) (s : State), ready j 1 s = some v → jLen v ≠ 0 → jSrcSpace v = 1 →
      exec (.copy j .clean) s = .next (askHost ⟨jSrc v, min (pieceAt v [jSrc v, jDst v]) (maxRead s), .copy j 0, []⟩ (setJob j { v with outstanding := 1 } s))) ∧
  (∀ (j : Nat) (v : Job) (s : State), ready j 1 s = some v → jLen v ≠ 0 → jSrcSpace v ≠ 1 →
      exec (.copy j .clean) s = .next (askJob j v (.copyRead 0) 1 0 0 .rd (jSrc v) (pieceAt v [jSrc v, jDst v] / 64) (2 ^ 64 - 1) [] s)) ∧
  (∀ (j : Nat) (v : Job) (d : List Byte) (s : State), mfind s.jobs j = some v → v.stopped = false → jType v = 1 →
      jAudit v = false → jDstSpace v ≠ 1 → sourceArrives j d s = writePiece j v .jobWrite 2 0 d s) ∧
  (∀ (j : Nat) (v : Job) (s : State), ready j 2 s = some v → jLen v ≠ 0 →
      exec (.fillRange j .clean) s =
        .next (writePiece j v .jobWrite 0 0 (List.replicate (pieceAt v [jDst v] / 64) (patternBeat v)).flatten s)) ∧
  (∀ (j : Nat) (v : Job) (s : State), ready j 5 s = some v → jGather v = false → jLen v ≠ 0 →
      exec (.peerReduceSend j .clean) s =
        .next (askJob j v (.sendRead 0) 0 0 0 .rd (jSrc v) (pieceAt v [jSrc v, jDst v] / 64) (2 ^ 64 - 1) [] s)) ∧
  (∀ (j : Nat) (v : Job) (t : State) (s : State), ready j 5 s = some v → jGather v = true →
      openSlot ⟨j, jWord v 10, jDst v, jLen v, bits (jWord v 8) 1 2, bits (jWord v 8) 3 2, bits (jWord v 9) 0 20⟩ s = some t →
      exec (.peerReduceGather j .clean) s = .next (setJob j { v with outstanding := 1 } t)) ∧
  (∀ (j : Nat) (v : Job) (s : State), ready j 6 s = some v → jLen v ≠ 0 → castKids v s ≠ [] →
      exec (.broadcast j .clean) s = .next (readSource j v (.castRead 0) (pieceAt v [jSrc v, jDst v]) s))

/-- RUN_CUE and ATTN_STREAM read their arguments and image and place the program on the hives of the span, where it begins. The choices of the model that this rests on: log entries 14, 28, 30, 90 and 99. -/
def Obligations.ProgramJobCommands : Prop :=
  (∀ (j : Nat) (v : Job) (s : State), ready j 3 s = some v →
      exec (.runCue j .clean) s = .next (askJob j v .cueArgs 0 0 0 .rd (jWide v 8) 1 (2 ^ 64 - 1) [] s)) ∧
  (∀ (j : Nat) (v : Job) (s : State), ready j 4 s = some v →
      exec (.attnStream j .clean) s = .next (askJob j v .cueArgs 0 0 0 .rd (jWide v 8) 1 (2 ^ 64 - 1) [] s)) ∧
  (∀ (j : Nat) (ab : List Byte) (v : Job) (s : State), mfind s.jobs j = some v → spanBad v (leAt ab 0 8 % 16) s = none →
      argsArrive j ab s = readImage j { v with args := ab } s) ∧
  (∀ (j : Nat) (d : List Byte) (v : Job) (s : State), mfind s.jobs j = some v → 8 * jProgLen v ≤ (v.bytes ++ d).length →
      imageArrives j d s = placeProgram (jType v) j { v with bytes := [] } v.args (imageWords (jProgLen v) (v.bytes ++ d)) s) ∧
  (∀ (type j : Nat) (v : Job) (ab : List Byte) (ws : List Nat) (s : State),
      staticCheck (type == 4) (usedCh ((spanHives v (leAt ab 0 8 % 16) s).headD 0) s) ws (leAt ab 0 8) = none →
      (∀ n ∈ spanHives v (leAt ab 0 8 % 16) s, cOn n s = true) →
      ∃ w, mfind (placeProgram type j v ab ws s).jobs j = some w ∧ w.image = ws ∧ w.running = spanHives v (leAt ab 0 8 % 16) s) ∧
  (∀ (n j : Nat) (rest : List Nat) (v : Job) (s u : State), (hive n s).cue = none → u = applyRetire n s →
      (hive n u).cue = none → (hive n u).placed = j :: rest → mfind u.jobs j = some v → v.stopped = false → cellsReady n u = true →
      (hive n u).tests = [] → (hive n u).faults = [] → keeperReady n u = true → rd (CEL_HIVE_FAILED.CELLS n) u = 0 →
      ∃ t, exec (.jobBeginOnHive n) s = .next t ∧ (hive n t).cue = some (cueStart j (nextBase n j v.image.length u) (jType v == 4)) ∧
        (hive n t).placed = rest)

/-- A job that ended or timed out reports once, and its record leaves with the job. The choices of the model that this rests on: log entries 34 and 35. -/
def Obligations.JobRecordCommands : Prop :=
  (∀ (j : Nat) (v : Job) (s : State), mgetD s.lateJobs j 0 = 0 → mfind s.jobs j = some v → v.done = false → v.timedOut = false →
      v.waitRecord = true → jobQuiet j s = true →
      exec (.jobDoneReport j) s = .next (discardRound j (jobFinished j (setJob j { v with done := true } s)))) ∧
  (∀ (j : Nat) (s : State), 0 < mgetD s.lateJobs j 0 →
      exec (.jobDoneReport j) s = .next (bump CTX_LATE_CNT.COUNT 1 { s with lateJobs := mset s.lateJobs j (mgetD s.lateJobs j 0 - 1) })) ∧
  (∀ (j elapsed : Nat) (v : Job) (s : State), mfind s.jobs j = some v → v.started = true → v.done = false → v.timedOut = false →
      jTimeout v ≠ 0 → jTimeout v ≤ elapsed → elapsed ≤ jTimeout v + 10 →
      ∃ t, exec (.jobTimeout j elapsed) s = .next t ∧ t.lateJobs = mset s.lateJobs j (max 1 v.running.length) ∧
        ∃ w, mfind t.jobs j = some w ∧ w.timedOut = true ∧ w.status = stTimeout ∧ w.info = elapsed) ∧
  (∀ (j : Nat) (v : Job) (s : State), mfind s.jobs j = some v → recordDue j v s = true → coreReady 2 s = true →
      ctxAway v.ctx s = false → cplRoom (ctxOf v.ctx s) = true → cHome (ctxOf v.ctx s) = 16 → busMaster s = true →
      ∃ t, exec (.completionRecordWrite j) s = .next t ∧ t.jobs = mdel s.jobs j) ∧
  (∀ (j : Nat) (v : Job) (s : State), mfind s.jobs j = some v → recordDue j v s = true → coreReady 2 s = true →
      ctxAway v.ctx s = false → cplRoom (ctxOf v.ctx s) = true → cHome (ctxOf v.ctx s) ≠ 16 →
      ∃ t, exec (.completionRecordWrite j) s = .next t ∧ t.jobs = mset s.jobs j { v with recording := true }) ∧
  (∀ (j : Nat) (v : Job) (s : State), mfind s.jobs j = some v → recordDue j v s = true → coreReady 2 s = true →
      ctxAway v.ctx s = true → ∃ t, exec (.completionRecordWrite j) s = .next t ∧ t.jobs = mdel s.jobs j ∧
        t.spill = s.spill ++ [.record (cHset (ctxOf v.ctx s)) v.ctx (recordWords v s) (recordVector v)]) ∧
  (∀ s : State, coreReady 0 s = true → s.audit.entries ≠ [] → batchMax s ≤ s.audit.entries.length →
      ∃ t, exec .auditBatchClose s = .next t ∧ t.audit.entries = s.audit.entries.drop (batchMax s) ∧
        t.audit.batches.length = s.audit.batches.length + 1 ∧ t.free = s.free + 1)

/-! ### Cue programs -/

/-- The control and address instructions of a cue program. s₀ is the state the command meets and s that state once a parity error p of the word has been met. The choices of the model that this rests on: log entry 28. -/
def Obligations.CueControlCommands : Prop :=
  (∀ (n : Nat) (p : Parity) (c : Cue) (v : Job) (w : Nat) (s₀ s : State), meetAtIssue p n (issue opNop n s₀) s₀ = s →
      issue opNop n s = some (c, v, w) →
      ∃ t, exec (.cueNop n p) s₀ = .next t ∧ (hive n t).cue = some { c with pc := c.pc + 1 }) ∧
  (∀ (n : Nat) (p : Parity) (c : Cue) (v : Job) (w : Nat) (u : State) (s₀ s : State), meetAtIssue p n (issue opEnd n s₀) s₀ = s →
      issue opEnd n s = some (c, v, w) → drained n s = some u →
      exec (.cueEnd n p) s₀ = .next (hiveEnds n c.job (leaveHive n c.job (emit 0x400 1 (some n) none none none u)))) ∧
  (∀ (n j : Nat) (v : Job) (s : State), mfind s.jobs j = some v → ∃ w, mfind (hiveEnds n j s).jobs j = some w ∧
      w.running = v.running.erase n ∧ (v.running.erase n = [] → w.waitRecord = true)) ∧
  (∀ (n : Nat) (p : Parity) (c : Cue) (v : Job) (w : Nat) (u : State) (s₀ s : State), meetAtIssue p n (issue opWait n s₀) s₀ = s →
      issue opWait n s = some (c, v, w) → drained n s = some u →
      w.testBit 52 = false → ∃ t, exec (.cueWait n p) s₀ = .next t ∧ (hive n t).cue = some { cueOf n u with pc := (cueOf n u).pc + 1 }) ∧
  (∀ (n : Nat) (p : Parity) (c : Cue) (v : Job) (w : Nat) (u : State) (s₀ s : State), meetAtIssue p n (issue opWait n s₀) s₀ = s →
      issue opWait n s = some (c, v, w) → drained n s = some u →
      w.testBit 52 = true → ∃ t, exec (.cueWait n p) s₀ = .next t ∧ (hive n t).cue = some { cueOf n u with atSync := true }) ∧
  (∀ (n : Nat) (p : Parity) (c : Cue) (v : Job) (w : Nat) (s₀ s : State), meetAtIssue p n (issue opLset n s₀) s₀ = s →
      issue opLset n s = some (c, v, w) →
      ∃ t, exec (.cueLset n p) s₀ = .next t ∧ (hive n t).cue = some { c with pc := c.pc + 1, lc := c.lc.set (bits w 50 2) (bits w 0 20) }) ∧
  (∀ (n : Nat) (p : Parity) (c : Cue) (v : Job) (w : Nat) (s₀ s : State), meetAtIssue p n (issue opLoop n s₀) s₀ = s →
      issue opLoop n s = some (c, v, w) → 2 ≤ c.lc.getD (bits w 50 2) 0 →
      ∃ t, exec (.cueLoop n p) s₀ = .next t ∧
        (hive n t).cue = some { c with pc := bits w 0 10, lc := c.lc.set (bits w 50 2) (c.lc.getD (bits w 50 2) 0 - 1) }) ∧
  (∀ (n : Nat) (p : Parity) (c : Cue) (v : Job) (w : Nat) (s₀ s : State), meetAtIssue p n (issue opLoop n s₀) s₀ = s →
      issue opLoop n s = some (c, v, w) → c.lc.getD (bits w 50 2) 0 = 1 →
      ∃ t, exec (.cueLoop n p) s₀ = .next t ∧ (hive n t).cue = some { c with pc := c.pc + 1, lc := c.lc.set (bits w 50 2) 0 }) ∧
  (∀ (n : Nat) (p : Parity) (c : Cue) (v : Job) (w : Nat) (s₀ s : State), meetAtIssue p n (issue opMode n s₀) s₀ = s →
      issue opMode n s = some (c, v, w) →
      ∃ t, exec (.cueMode n p) s₀ = .next t ∧ (hive n t).cue = some { c with pc := c.pc + 1, mode := some (modeOf w) }) ∧
  (∀ (n : Nat) (p : Parity) (c : Cue) (v : Job) (w : Nat) (s₀ s : State), meetAtIssue p n (issue opScale n s₀) s₀ = s →
      issue opScale n s = some (c, v, w) →
      ∃ t, exec (.cueScale n p) s₀ = .next t ∧ (hive n t).cue = some { c with pc := c.pc + 1, mul := bits w 0 32 }) ∧
  (∀ (j : Nat) (v : Job) (s : State), mfind s.jobs j = some v → v.stopped = false → v.hives ≠ [] →
      (v.hives.all fun n => (hive n s).cue.any fun c => c.job == j && c.atSync && c.pc == (cueOf (v.hives.headD 16) s).pc) = true →
      opOf (mgetD (hive (v.hives.headD 16) s).store ((cueOf (v.hives.headD 16) s).base + (cueOf (v.hives.headD 16) s).pc) 0) = 0x02 →
      exec (.spanSyncComplete j .clean) s = .next (goOnAll v.hives s)) ∧
  (∀ (n : Nat) (p : Parity) (c : Cue) (v : Job) (w : Nat) (s₀ s : State), meetAtIssue p n (issue opAset n s₀) s₀ = s →
      issue opAset n s = some (c, v, w) →
      ∃ t, exec (.cueAset n p) s₀ = .next t ∧ (hive n t).cue = some { c with pc := c.pc + 1, areg := c.areg.set (bits w 48 4) (bits w 0 48) }) ∧
  (∀ (n : Nat) (p : Parity) (c : Cue) (v : Job) (w : Nat) (s₀ s : State), meetAtIssue p n (issue opAmov n s₀) s₀ = s →
      issue opAmov n s = some (c, v, w) →
      ∃ t, exec (.cueAmov n p) s₀ = .next t ∧
        (hive n t).cue = some { c with pc := c.pc + 1, areg := c.areg.set (bits w 48 4) (v.argv.getD (bits w 0 3) 0 % 2 ^ 64) }) ∧
  (∀ (n : Nat) (p : Parity) (c : Cue) (v : Job) (w : Nat) (s₀ s : State), meetAtIssue p n (issue opAadd n s₀) s₀ = s →
      issue opAadd n s = some (c, v, w) →
      ∃ t, exec (.cueAadd n p) s₀ = .next t ∧ (hive n t).cue = some { c with
        pc := c.pc + 1, areg := c.areg.set (bits w 48 4) ((areg c (bits w 44 4) + ofSigned 64 (toSigned 44 (bits w 0 44))) % 2 ^ 64) }) ∧
  (∀ (n : Nat) (p : Parity) (c : Cue) (v : Job) (w : Nat) (s₀ s : State), meetAtIssue p n (issue opAmad n s₀) s₀ = s →
      issue opAmad n s = some (c, v, w) →
      ∃ t, exec (.cueAmad n p) s₀ = .next t ∧ (hive n t).cue = some { c with
        pc := c.pc + 1, areg := c.areg.set (bits w 48 4) ((areg c (bits w 44 4) + areg c (bits w 40 4) * bits w 0 32) % 2 ^ 64) })

/-- A word of the program store with a parity error is counted in CUE_PERR, and as an event, with no other effect, and the re-read word issues. -/
def Obligations.ProgramStoreParity : Prop :=
  (∀ (n : Nat) (x : Cue × Job × Nat) (s : State),
      rd (CUE_PERR.COUNT n) (meetAtIssue .store n (some x) s) = min (rd (CUE_PERR.COUNT n) s + 1) (2 ^ 16 - 1) ∧
        (∀ f : Fld, f.key ≠ (CUE_PERR.COUNT n).key → rd f (meetAtIssue .store n (some x) s) = rd f s) ∧
        meetAtIssue .store n (some x) s =
          { s with regs := (meetAtIssue .store n (some x) s).regs, occ := s.occ ++ [⟨0x403, 1, some n, none, none, none⟩] }) ∧
  (∀ (n op stage : Nat) (word : Option (Cue × Job × Nat)) (s : State),
      issue op n (meetAtIssue .store n word s) = issue op n s ∧ issueStage stage n (meetAtIssue .store n word s) = issueStage stage n s) ∧
  (∀ (n : Nat) (p : Parity) (word : Option (Cue × Job × Nat)) (s : State), p = .clean ∨ word = none → meetAtIssue p n word s = s)

/-- A parity error that strikes a job's instruction, its start or its exchange anywhere but in the program store fails the job with PARITY and the unit as INFO, and stops it. -/
def Obligations.ParityFailures : Prop :=
  (∀ (n u op : Nat) (p : Parity) (i : Instr) (c : Cue) (v : Job) (w : Nat) (s : State),
      parityUnit p = some u → issue op n s = some (c, v, w) →
      (op, i) ∈ [(opNop, Instr.cueNop n p), (opEnd, .cueEnd n p), (opWait, .cueWait n p), (opLset, .cueLset n p), (opLoop, .cueLoop n p),
        (opAset, .cueAset n p), (opAmov, .cueAmov n p), (opAadd, .cueAadd n p), (opAmad, .cueAmad n p), (opMode, .cueMode n p),
        (opScale, .cueScale n p), (opLdact, .cueLdact n p), (opClrc, .cueClrc n p), (opPass, .cuePass n p), (opZrb, .cueZrb n p),
        (opRed, .cueRed n p), (opGather, .cueGather n p), (opEmit, .cueEmit n p), (opKstream, .cueKstream n p),
        (opVstream, .cueVstream n p)] →
      v.status = 0 → v.done = false → v.timedOut = false →
      ∃ t j, exec i s = .next t ∧ mfind t.jobs c.job = some j ∧ j.status = stParity ∧ j.info = u ∧ j.stopped = true) ∧
  (∀ (n u stage : Nat) (p : Parity) (i : Instr) (c : Cue) (v : Job) (w : Nat) (s : State),
      parityUnit p = some u → issueStage stage n s = some (c, v, w) →
      (stage, i) ∈ [(0, Instr.smaxStageMax n p), (1, .smaxStageExp n p), (2, .smaxStageClose n p)] →
      v.status = 0 → v.done = false → v.timedOut = false →
      ∃ t j, exec i s = .next t ∧ mfind t.jobs c.job = some j ∧ j.status = stParity ∧ j.info = u ∧ j.stopped = true) ∧
  (∀ (j u type : Nat) (p : Parity) (i : Instr) (v : Job) (s : State),
      parityUnit p = some u → ready j type s = some v →
      (type, i) ∈ [(0, Instr.jobNop j p), (1, .copy j p), (2, .fillRange j p), (3, .runCue j p), (4, .attnStream j p),
        (5, .peerReduceSend j p), (5, .peerReduceGather j p), (6, .broadcast j p)] →
      v.status = 0 → v.done = false → v.timedOut = false →
      ∃ t w, exec i s = .next t ∧ mfind t.jobs j = some w ∧ w.status = stParity ∧ w.info = u ∧ w.stopped = true) ∧
  (∀ (j u : Nat) (p : Parity) (i : Instr) (v : Job) (s : State),
      parityUnit p = some u → mfind s.jobs j = some v → i ∈ [Instr.spanSyncComplete j p, .gatherApply j p] →
      v.started = true → v.stopped = false → v.waitRecord = false → v.status = 0 → v.done = false → v.timedOut = false →
      ∃ t w, exec i s = .next t ∧ mfind t.jobs j = some w ∧ w.status = stParity ∧ w.info = u ∧ w.stopped = true)

/-- A write or push that meets a parity error on its way from its port is not performed: it leaves ingress, and one of a compute port completes with POISON. A beat that meets one on its way back is delivered without data, and a curtain whose staging bank shows one is torn. -/
def Obligations.LostPortWrites : Prop :=
  (∀ (k : Nat) (r : Req) (rest : List Req) (op : Op) (c : Instr) (s : State),
      (op, c) ∈ [(Op.wr, Instr.cpWr k true), (Op.push, Instr.cpActPush k true)] →
      (port k s).rx = r :: rest → r.op = op → k < 16 → r.src = .cp k → formatAt k r s = 0 → openOn r.ctx k s = true → r.curt = 0 → r.curtUid = 0 →
      (∀ x ∈ (port k s).ing ++ [r], x.parityBad = false) → (∀ x ∈ (port k s).ing, x.uid ≠ r.uid) → (port k s).ready = true →
      ∃ t, exec c s = .next t ∧ (port k t).rx = rest ∧ (port k t).ing = (port k s).ing ∧
        (port k t).egress = (port k s).egress ++ [.hdr rtPoison r.tag 0 0 (ones r.beats) true] ∧ t.mem = s.mem) ∧
  (∀ (w : BitVec 256) (par : BitVec 32) (d : List Byte) (dpar : List Bool) (x : Nat) (s : State), ppAccepted 2 w x s →
      slotParity w = par → dpar = bytesParity d → (∀ y ∈ (port 17 s).ing, y.uid ≠ s.nextUid) →
      ∃ t, exec (.ppInWr w par d dpar true) s = .next t ∧ (port 17 t).ing = (port 17 s).ing ∧ t.mem = s.mem) ∧
  (∀ (off : BitVec 64) (d : List Byte) (s : State), hasOpened s = true → s.power.shut = none → memEnabled s = true →
      inBar 4 off.toNat d.length s = true → bar4Addr off.toNat s % 64 = 0 → d.length = 64 →
      (∀ y ∈ (port 16 s).ing, y.uid < s.nextUid) →
      ∃ t, exec (.hpMemWrite 4 off d false true) s = .next t ∧ (port 16 t).ing = (port 16 s).ing ∧ t.mem = s.mem) ∧
  (∀ (n c p k : Nat) (o : POp) (e : QEnt) (errs : ErrPat) (s u : State), pcUsed n c p s = true → (pcOf n c p s).st = .active →
      u = beginCclk n c p s → (pcOf n c p u).hold ≤ (pcOf n c p u).cclk →
      rowPick n c p u = none → colPick n c p u = some (.col o) → o.kind = .read k →
      (pcOf n c p (chargeShare n c p u)).rdq.find? (fun x => x.seq == k) = some e →
      ∃ t v, exec (.chcCommandIssue n c p errs true) s = .next (settled (sleepAgain n c p t)) ∧ t = deliver n e.uid e.beat none v ∧
        v.live = u.live ∧ v.mem = u.mem ∧ (pcOf n c p t).retries = (pcOf n c p (chargeShare n c p u)).retries) ∧
  (∀ (n k : Nat) (st : Stage) (s : State), k < 16 → mfind (gate n s).stage k = some st →
      ∃ t, exec (.curtainComplete n k true) s = .next (settled t) ∧ on (ARB_PORT_ERR.CURT_TORN k) t = true ∧ t.mem = s.mem)

/-- LDACT, CLRC, PASS, KSTREAM and VSTREAM: the columns they write and the entries they leave. s₀ is the state the command meets and s that state once a parity error p of the word has been met. The choices of the model that this rests on: log entries 14, 25, 28 and 29. -/
def Obligations.CueStreamCommands : Prop :=
  (∀ (n : Nat) (p : Parity) (c : Cue) (v : Job) (w : Nat) (x : Load) (u s₀ s : State), meetAtIssue p n (issue opLdact n s₀) s₀ = s →
      issue opLdact n s = some (c, v, w) → c.loads = 0 → areg c (bits w 48 4) % 64 = 0 → x = loadOf n v w s →
      freeIf (colsInUse n x.scl x.col x.nc x.off x.beats s) n s = some u →
      exec (.cueLdact n p) s₀ = .next ((loadPieces ((areg c (bits w 48 4) + x.unit0 * (x.nc * x.beats) * 64) % 2 ^ 64) (x.units * x.nc * x.beats) 0
        (x.units * x.nc * x.beats)).foldl (fun t q => askCue n (.ldact n c.pc q.1) true 0 .rd
          (((areg c (bits w 48 4) + x.unit0 * (x.nc * x.beats) * 64) % 2 ^ 64 + 64 * q.1) % 2 ^ 64) q.2 (2 ^ 64 - 1) [] t) u)) ∧
  (∀ (n q : Nat) (d : List Byte) (c : Cue) (v : Job) (s : State), (hive n s).cue = some c → mfind s.jobs c.job = some v →
      c.loads = 1 → ∃ x, (hive n (ldactArrives c.job n c.pc q d s)).cue = some x ∧ x.pc = c.pc + 1) ∧
  (∀ (n : Nat) (p : Parity) (c : Cue) (v : Job) (w : Nat) (u s₀ s : State), meetAtIssue p n (issue opClrc n s₀) s₀ = s →
      issue opClrc n s = some (c, v, w) →
      freeIf (colsInUse n 0 (colFirst w) (colCount w) 0 256 s || colsInUse n 1 (colFirst w) (colCount w) 0 9 s) n s = some u →
      ∃ t, exec (.cueClrc n p) s₀ = .next t ∧ (∃ x, (hive n t).cue = some x ∧ x.pc = c.pc + 1) ∧
        (hive n t).cols = (hive n u).cols.filter fun x => !(((List.range (usedCh n u)).map fun i => physCell n i u).contains (x.1 / 2 ^ 20) &&
          decide (colFirst w ≤ x.1 / 2 ^ 14 % 32) && decide (x.1 / 2 ^ 14 % 32 < colFirst w + colCount w))) ∧
  (∀ (n : Nat) (p : Parity) (c : Cue) (v : Job) (m : Mode) (w : Nat) (s₀ s : State), meetAtIssue p n (issue opPass n s₀) s₀ = s →
      issue opPass n s = some (c, v, w) → c.mode = some m → streamReason n (usedCh n s) m (passArgs c w) c s = none →
      exec (.cuePass n p) s₀ = .next (runStream n (streamOf m (passArgs c w) false none c) { c with passes := c.passes + 1 }
        (digestBanks n v c (passArgs c w) s))) ∧
  (∀ (n : Nat) (x : Stream) (c : Cue) (s : State),
      runStream n x c s = if x.rows = 0 then goOn n (c.pc + 1) c s else addStream n x (goOn n (c.pc + 1) c s)) ∧
  (∀ (n cells l r k : Nat) (b : List Byte) (vals : List (List EVal)) (ws : Option Nat) (as : List Nat) (rest : List Slot) (y : Taker)
      (x : Stream) (xs : List Stream) (c : Cue) (s : State), (hive n s).cue = some c → c.streams = x :: xs → x.v = false →
      mfind x.takers l = some y → y.slots = ⟨r, b, some (vals, ws, as)⟩ :: rest → k = entKey x.rb (x.rbase + r * cells + l) →
      (hive n (passRow n cells l s)).cue = some { c with
        streams := { x with takers := mset x.takers l { y with row := r + 1, slots := rest } } :: xs,
        ents := mset c.ents k (newEntry x.acc x.keep (mfind c.ents k) x.mode x.k ws as (rowMasked x l r) vals) }) ∧
  (∀ (n : Nat) (p : Parity) (c : Cue) (v : Job) (m : Mode) (w : Nat) (kv : Kv) (s₀ s : State), meetAtIssue p n (issue opKstream n s₀) s₀ = s →
      issue opKstream n s = some (c, v, w) → c.mode = some m → streamReason n (usedCh n s) m (kstreamArgs c w) c s = none →
      kv = kstreamKv (kstreamArgs c w) (usedCh n s) (jSpan v) (kvOf c) →
      exec (.cueKstream n p) s₀ = .next (runStream n (streamOf m (kstreamArgs c w) (kstreamArgs c w).acc
        (if (kstreamArgs c w).acc then none else some (bits (jWord v 14) 0 25, kv.kbase + logicalHive n v * usedCh n s * (kstreamArgs c w).rows)) c)
        { c with kv := some kv } s)) ∧
  (∀ (n : Nat) (p : Parity) (c : Cue) (v : Job) (w : Nat) (m : Mode) (u s₀ s : State), meetAtIssue p n (issue opVstream n s₀) s₀ = s →
      issueAfter opVstream n s = some (u, c, v, w) →
      c.mode = some m → vReason n (usedCh n u) m (vArgs c w) c u = none → (vArgs c w).d ≠ 0 →
      exec (.cueVstream n p) s₀ = .next (runStream n (vStream (usedCh n u) m (vArgs c w) c) c
        ((List.range (usedCh n u)).foldl (fun t i => placeProbs n i (usedCh n u) m (vArgs c w) c t) u)))

/-- ZRB, RED, GATHER, EMIT and the three stages of SMAX over the result entries. s₀ is the state the command meets and s that state once a parity error p of the word has been met. The choices of the model that this rests on: log entries 14, 25, 26, 27 and 102. -/
def Obligations.CueResultCommands : Prop :=
  (∀ (n : Nat) (p : Parity) (c : Cue) (v : Job) (w : Nat) (u s₀ s : State), meetAtIssue p n (issue opZrb n s₀) s₀ = s →
      issueAfter opZrb n s = some (u, c, v, w) →
      ∃ t, exec (.cueZrb n p) s₀ = .next t ∧ (hive n t).cue = some { c with
        pc := c.pc + 1, ents := mkeep c.ents fun k => decide (k < entKey (bits w 55 1) (bits w 0 10)) || decide (entKey (bits w 55 1) (bits w 0 10) + bits w 10 11 ≤ k) }) ∧
  (∀ (n : Nat) (p : Parity) (c : Cue) (v : Job) (w : Nat) (u s₀ s : State), meetAtIssue p n (issue opRed n s₀) s₀ = s →
      issueAfter opRed n s = some (u, c, v, w) →
      ((redGroups w (usedCh n s)).filterMap fun ks => combineBad (ks.map fun k => mfind c.ents k)) = [] →
      ∃ t, exec (.cueRed n p) s₀ = .next t ∧ (hive n t).cue = some { c with pc := c.pc + 1, ents := (redGroups w (usedCh n s)).foldl redGroup c.ents }) ∧
  (∀ (n : Nat) (p : Parity) (c : Cue) (v : Job) (w : Nat) (u s₀ s : State), meetAtIssue p n (issue opGather n s₀) s₀ = s →
      issueAfter opGather n s = some (u, c, v, w) →
      exec (.cueGather n p) s₀ = .next (setHive n { hive n u with cue := some { c with atSync := true } } u)) ∧
  (∀ (n : Nat) (p : Parity) (c : Cue) (v : Job) (w : Nat) (u s₀ s : State), meetAtIssue p n (issue opEmit n s₀) s₀ = s →
      issueAfter opEmit n s = some (u, c, v, w) →
      (w.testBit 57 = true → logicalHive n v = 0) → emitBad c w = none → emitBeyond v (emitPlan n c v w) = none →
      exec (.cueEmit n p) s₀ = .next (emitWrite n c v w u)) ∧
  (∀ (n : Nat) (p : Parity) (c : Cue) (v : Job) (w : Nat) (u s₀ s : State), meetAtIssue p n (issue opEmit n s₀) s₀ = s →
      issueAfter opEmit n s = some (u, c, v, w) →
      w.testBit 57 = true → logicalHive n v ≠ 0 →
      exec (.cueEmit n p) s₀ = .next (goOn n (c.pc + 1) c u)) ∧
  (∀ (n : Nat) (p : Parity) (c : Cue) (v : Job) (w : Nat) (u s₀ s : State), meetAtIssue p n (issueStage 0 n s₀) s₀ = s →
      issueSmax 0 n s = some (u, c, v, w) →
      exec (.smaxStageMax n p) s₀ =
        .next (setHive n { hive n u with cue := some { c with ents := (smaxKeys w).foldl (takeValue c.mul) c.ents, atSync := true } } u)) ∧
  (∀ (n : Nat) (p : Parity) (c : Cue) (v : Job) (w : Nat) (u s₀ s : State), meetAtIssue p n (issueStage 1 n s₀) s₀ = s →
      issueSmax 1 n s = some (u, c, v, w) →
      ∃ t, exec (.smaxStageExp n p) s₀ = .next t ∧ ∃ x, (hive n t).cue = some x ∧ x.pc = c.pc + 1 ∧ x.mode = c.mode ∧ x.areg = c.areg) ∧
  (∀ (n : Nat) (p : Parity) (c : Cue) (v : Job) (w : Nat) (u s₀ s : State), meetAtIssue p n (issueStage 2 n s₀) s₀ = s →
      issueSmax 2 n s = some (u, c, v, w) →
      exec (.smaxStageClose n p) s₀ = .next (setHive n { hive n u with cue := some { c with kv := some (closeKv (kvOf c)), atSync := true } } u))

/-- A LOOP whose counter is 0 and a PASS that breaks a check fail the job with PROGRAM_REFUSED, the word and the reason. s₀ is the state the command meets and s that state once a parity error p of the word has been met. The choices of the model that this rests on: log entry 27. -/
def Obligations.CueRefusals : Prop :=
  (∀ (n w : Nat) (p : Parity) (c : Cue) (v : Job) (s₀ s : State), meetAtIssue p n (issue opLoop n s₀) s₀ = s →
      issue opLoop n s = some (c, v, w) → c.lc.getD (bits w 50 2) 0 = 0 →
      v.status = 0 → v.done = false → v.timedOut = false →
      ∃ t j, exec (.cueLoop n p) s₀ = .next t ∧ mfind t.jobs c.job = some j ∧ j.status = stProg ∧ j.info = c.pc % 2 ^ 11 + 9 * 2 ^ 16 ∧ j.stopped = true) ∧
  (∀ (n w reason : Nat) (p : Parity) (c : Cue) (v : Job) (m : Mode) (s₀ s : State), meetAtIssue p n (issue opPass n s₀) s₀ = s →
      issue opPass n s = some (c, v, w) →
      c.mode = some m → streamReason n (usedCh n s) m (passArgs c w) c s = some reason →
      v.status = 0 → v.done = false → v.timedOut = false →
      ∃ t j, exec (.cuePass n p) s₀ = .next t ∧ mfind t.jobs c.job = some j ∧ j.status = stProg ∧ j.info = c.pc % 2 ^ 11 + reason * 2 ^ 16 ∧ j.stopped = true)

/-! ### Cells -/

/-- Residue faults, lane tests, takeovers, parity errors, retirement, self-tests and held activation writes. The choices of the model that this rests on: log entries 28, 31 and 89. -/
def Obligations.CellCommands : Prop :=
  (∀ (n c group column : Nat) (x : Stream) (y : Taker) (s : State), n < 16 → cOn n s = true → takerOf n c s = some (x, y) →
      y.slots.all (fun z => z.bytes.isEmpty) = false → group < 36 → column < x.ncol → mfind (hive n s).faults c = none → c ≠ 32 → mgetD x.replays c 0 < 2 →
      ∃ t, exec (.residueFault n c group column) s = .next t ∧ rd (CEL_STATUS.STATE n c) t = 4 ∧
        mfind (hive n t).faults c = some (group, column)) ∧
  (∀ (n c group column : Nat) (s : State), n < 16 → c ≤ 32 → mfind (hive n s).faults c = some (group, column) →
      (hive n s).takeover.contains c = false → keeperReady n s = true → (retiredLanes n c s).length ≠ 4 →
      ∃ t, exec (.laneTestComplete n c []) s = .next t ∧ mfind (hive n t).faults c = none ∧
        rd (CEL_ERR_CNT.TRANSIENTS n c) t = min (rd (CEL_ERR_CNT.TRANSIENTS n c) s + 1) (2 ^ (CEL_ERR_CNT.TRANSIENTS n c).w - 1)) ∧
  (∀ (n c : Nat) (s : State), n < 16 → c < 32 → (hive n s).takeover.contains c = true → (takerOf n c s).isSome = true →
      ∃ t, exec (.cellTakeover n c none) s = .next t ∧ on (CEL_US_STATUS.ACTIVE n) t = true ∧ rd (CEL_US_STATUS.TARGET n) t = c ∧
        ((hive n s).held = [] → (hive n t).cols =
          ((hive n s).cols.filter fun y => y.1 / 2 ^ 20 == c).foldl (fun m y => mset m (32 * 2 ^ 20 + y.1 % 2 ^ 20) y.2)
            ((hive n s).cols.filter fun y => y.1 / 2 ^ 20 != 32))) ∧
  (∀ (n c kind column : Nat) (x : Stream) (y : Taker) (q : Cue) (v : Job) (s : State), takerOf n c s = some (x, y) → column < 20 →
      (kind == 2 || (kind == 3 && !y.slots.isEmpty) || (kind == 4 && !y.buffer.isEmpty)) = true → (hive n s).cue = some q →
      mfind s.jobs q.job = some v → v.status = 0 → v.done = false → v.timedOut = false →
      ∃ t, exec (.cellParityError n c kind column) s = .next t ∧ ∃ w, mfind t.jobs q.job = some w ∧ w.status = stCell ∧ w.stopped = true) ∧
  (∀ (n c : Nat) (s : State), hOn n s = true → (usedCells n s).contains c = true → (hive n s).cue.isSome = true →
      exec (.cellRetire n c) s =
        .next (if c = 32 then put (CEL_US_STATUS.USABLE n) 0 (put (CEL_CTRL.RETIRE n c) 1 s) else put (CEL_CTRL.RETIRE n c) 1 s)) ∧
  (∀ (n c : Nat) (s : State), hOn n s = true → (usedCells n s).contains c = true → (hive n s).cue = none →
      exec (.cellRetire n c) s = .next (applyRetire n
        (if c = 32 then put (CEL_US_STATUS.USABLE n) 0 (put (CEL_CTRL.RETIRE n c) 1 s) else put (CEL_CTRL.RETIRE n c) 1 s))) ∧
  (∀ (n c : Nat) (s : State), n < 16 → hOn n s = true → (usedCells n s).contains c = true →
      ∃ t, exec (.testStart n c) s = .next t ∧ (hive n t).tests = insertRising (hive n s).tests c ∧
        ((hive n s).cue = none → cOn n s = true → rd (CEL_TEST_SUMMARY.VALID n c) t = 0)) ∧
  (∀ (n c : Nat) (x : CellTest) (s : State), cOn n s = true → (usedCells n s).contains c = true → (hive n s).cue = none →
      ∃ t, exec (.cellSelfTest n c x) s = .next t ∧ (hive n t).tests = (hive n s).tests.erase c) ∧
  (∀ (n : Nat) (s : State),
      exec (.activationWriteRelease n) s = .next (advance n (releaseHeld n (endHead n (passTaken n s)))))

/-! ### Registers -/

/-- GLB_COMMIT puts every shadow copy of its area in force, and no other field changes. The choices of the model that this rests on: log entry 9. -/
def Obligations.CommitTakesShadow : Prop :=
  (∀ s : State, exec .glbCommit s = .next (commitRange 0 0x10000 s)) ∧
  (∀ (f : Fld) (s : State), f.acc = .rws → f.key < 8 * 0x10000 → keysRise s.shadow = true →
      ∃ t, exec .glbCommit s = .next t ∧ rd f t = (mfind s.shadow f.key).getD (rd f s)) ∧
  (∀ (f : Fld) (s : State), (f.acc ≠ .rws ∨ 8 * 0x10000 ≤ f.key) →
      ∃ t, exec .glbCommit s = .next t ∧ rd f t = rd f s)

/-- The commits of the arbitration and window registers, guarantee factors and miss windows. The choices of the model that this rests on: log entries 9 and 50. -/
def Obligations.CommitCommands : Prop :=
  (∀ s : State, on ARB_COMMIT.BUSY s = false → portsOpen s = true → admitted s = true →
      ∃ t, exec .arbCommit s = .next t ∧ t.force = (commitRange 0x10000 0x20000 s).force ∧ rd ARB_COMMIT.STATUS t = 1) ∧
  (∀ s : State, peerPresent s = true → on WIN_COMMIT.BUSY s = false → badWindow s = none → badTree s = none → nodeBusy s = false →
      ∃ t, exec .winCommit s = .next t ∧ t.force = (commitRange 0x50000 0x60000 s).force ∧ rd WIN_COMMIT.STATUS t = 1 ∧
        rd WIN_GEN.GEN t = (if rd WIN_GEN.GEN s = 0xFFFF then 1 else rd WIN_GEN.GEN s + 1) % 2 ^ WIN_GEN.GEN.w) ∧
  (∀ (n : Nat) (s : State), n < 16 → hivePresent n s = true →
      ∃ t, exec (.guarFactorRecompute n) s = .next t ∧ rd (ARB_GUAR_FACTOR.FACTOR n) t = factorOf n s % 2 ^ (ARB_GUAR_FACTOR.FACTOR n).w) ∧
  (∀ (n : Nat) (s : State), n < 16 → hOn n s = true →
      ∃ t, exec (.qosMissWindow n) s = .next t ∧ (gate n t).winBytes = [] ∧ (gate n t).winBusy = [])

/-- A bucket whose rate, size or enable a commit changes is filled, a token reset fills both buckets of its classes, and at reset every bucket is full. -/
def Obligations.BucketCounts : Prop :=
  (∀ s : State, on ARB_COMMIT.BUSY s = false → (portsOpen s = true ∨ guarShadow s = 0) → admitted s = true →
      ∃ t, exec .arbCommit s = .next t ∧ ∀ b < 64,
        (bucketRate b t ≠ bucketRate b s ∨ bucketSize b t ≠ bucketSize b s ∨ bucketEn b t ≠ bucketEn b s) → bucketCount b t = bucketSize b t) ∧
  (∀ (mask : BitVec 32) (c : Nat) (s : State), c < 32 → mask.toNat.testBit c = true →
      ∃ t, exec (.qosTokenReset mask) s = .next t ∧ bucketCount (2 * c) t = bucketSize (2 * c) s ∧ bucketCount (2 * c + 1) t = bucketSize (2 * c + 1) s) ∧
  (∀ (porst : Bool) (s : State), ∃ t, exec (.reset porst) s = .next t ∧ ∀ b < 64, bucketCount b t = bucketSize b t)

/-- What a write leaves in a field by its access type; a map register is locked while ports are open; an unassigned offset reads zero and ignores writes. The choices of the model that this rests on: log entries 11 and 23. -/
def Obligations.RegisterAccess : Prop :=
  (∀ (off : Nat) (v : BitVec 32) (s : State), barsOpen s = true → off % 4 = 0 → off < 2 ^ 24 →
      exec (.registerWrite off v) s = .next (regWrite off v.toNat (settleBut off 4 s))) ∧
  (∀ (f : Fld) (v : Nat) (s : State),
      ((f.acc = .rw ∨ f.acc = .rwl) → rd f (fieldWrite v s f) = v / 2 ^ f.lo % 2 ^ f.w) ∧
      (f.acc = .ro → fieldWrite v s f = s) ∧
      (f.acc = .w1c → rd f s < 2 ^ f.w → ∀ i, (rd f (fieldWrite v s f)).testBit i = ((rd f s).testBit i && !(v / 2 ^ f.lo % 2 ^ f.w).testBit i)) ∧
      (f.acc = .rws → rd f (fieldWrite v s f) = rd f s ∧ rdShadow f (fieldWrite v s f) = v / 2 ^ f.lo % 2 ^ f.w) ∧
      (∀ g : Fld, g.key ≠ f.key → rd g (fieldWrite v s f) = rd g s)) ∧
  (∀ (off : Nat) (v : BitVec 32) (s : State), barsOpen s = true → portsOpen s = true →
      (off = 0x14 ∨ off = 0x18 ∨ (∃ i < 8, off = 0x20 + 4 * i) ∨ ∃ j < 9, off = 0x80 + 4 * j) →
      exec (.registerWrite off v) s = .next (put GLB_STATUS.MAP_WR_IGNORED 1 (settleBut off 4 s))) ∧
  (∀ (off : Nat) (v : BitVec 32) (s : State), barsOpen s = true → off % 4 = 0 → 0x90000 ≤ off → (off < 0x100000 ∨ 0x500000 ≤ off) →
      off < 2 ^ 24 → regWord off s = 0 ∧ exec (.registerWrite off v) s = .next (settleBut off 4 s))

/-! ### Peer port and relay -/

/-- The peer link's loss, its rise, a credit return and a request that passes out to the peer. The choices of the model that this rests on: log entries 51, 85 and 87. -/
def Obligations.PeerLinkCommands : Prop :=
  (∀ s : State, ∃ t, exec .ppLinkDown s = .next (settled t) ∧ port 17 t = Port.init ∧ on PEER_STATUS.READY t = false ∧ t.peer.egress = []) ∧
  (∀ s : State, peerPresent s = true → portsOpen s = true → on PEER_NODE_ID.VALID s = true → (port 17 s).ready = false →
      (port 17 s).parityClosed = false → (s.live.any fun x => x.2.req.m == 17 && !x.2.answered) = false →
      ∃ t, exec .ppReadyRise s = .next t ∧ (port 17 t).ready = true ∧ on PEER_STATUS.READY t = true) ∧
  (∀ (rh rdt sh sd : Nat) (s : State), ppAnswers s = true →
      ∃ t, exec (.ppCreditReturn rh rdt sh sd) s = .next t ∧
        t = pumpPp { setPort 17 { port 17 s with rspHdr := (port 17 s).rspHdr + sh, rspData := (port 17 s).rspData + sd } s with
          peer := { s.peer with hdrCredit := s.peer.hdrCredit + rh, dataCredit := s.peer.dataCredit + rdt } }) ∧
  (∀ (m : Nat) (r : Req) (q : PeerReq) (s : State), (s.peer.inbox.find? fun x => x.1.m == m) = some (r, .ok q) →
      ppReady s = true → unitReq r = false →
      exec (.peerOutboundRequest m) s = .next (settled (sendPeer q { s with
        peer := { s.peer with inbox := s.peer.inbox.erase (r, .ok q) }, live := mset s.live r.uid ⟨r, [], 0, [], 0, false, false⟩ }))) ∧
  (∀ (m : Nat) (r : Req) (window : Bool) (s : State), (s.peer.inbox.find? fun x => x.1.m == m) = some (r, .fault window) →
      exec (.peerOutboundRequest m) s = .next (settled (peerRefused r window { s with peer := { s.peer with inbox := s.peer.inbox.erase (r, .fault window) } })))

/-- PEER_TIMEOUT refuses a value below 50 or not above the retry bound, takes any other, and resets to 1,000 or the bound plus 1. -/
def Obligations.PeerTimeoutRegister : Prop :=
  (∀ (v : BitVec 32) (s : State), peerPresent s = true → (v.toNat % 2 ^ 20 < 50 ∨ v.toNat % 2 ^ 20 ≤ retryBound s) →
      ∃ t, exec (.peerTimeoutWrite v) s = .next t ∧ rd PEER_TIMEOUT.US t = rd PEER_TIMEOUT.US s ∧ on PEER_STATUS.TMO_REFUSED t = true) ∧
  (∀ (v : BitVec 32) (s : State), peerPresent s = true → 50 ≤ v.toNat % 2 ^ 20 → retryBound s < v.toNat % 2 ^ 20 →
      ∃ t, exec (.peerTimeoutWrite v) s = .next t ∧ rd PEER_TIMEOUT.US t = v.toNat % 2 ^ 20 ∧ rd PEER_STATUS.TMO_REFUSED t = rd PEER_STATUS.TMO_REFUSED s) ∧
  (∀ (porst : Bool) (s : State), ∃ t, exec (.reset porst) s = .next t ∧
      rd PEER_TIMEOUT.US t = max 1000 ((if s.env.ppRetryBound = 0 then 65535 else s.env.ppRetryBound) + 1))

/-- An accepted peer request of each type. The choices of the model that this rests on: log entries 14, 51, 84, 88 and 94. -/
def Obligations.PeerRequestCommands : Prop :=
  (∀ (w : BitVec 256) (par : BitVec 32) (x : Nat) (s : State), ppAccepted 1 w x s → slotParity w = par →
      ∃ t, exec (.ppInRd w par) s = .next t ∧ ∃ r, (port 17 t).ing = (port 17 s).ing ++ [r] ∧ r.op = .rd ∧ r.beats = ppBeats w ∧ r.addr = inAddr x (ppOff w) s) ∧
  (∀ (w : BitVec 256) (par : BitVec 32) (d : List Byte) (dpar : List Bool) (x : Nat) (s : State), ppAccepted 2 w x s →
      slotParity w = par → dpar = bytesParity d →
      ∃ t, exec (.ppInWr w par d dpar false) s = .next t ∧ ∃ r, (port 17 t).ing = (port 17 s).ing ++ [r] ∧ r.op = .wr ∧
        r.data = beatsOf (ppBeats w) d ∧ r.addr = inAddr x (ppOff w) s) ∧
  (∀ (w : BitVec 256) (par : BitVec 32) (d : List Byte) (dpar : List Bool) (x : Nat) (c : Contribution) (s : State), ppAccepted 3 w x s →
      slotParity w = par → dpar = bytesParity d →
      permitted (rd (WIN_CTL.DOMAIN x) s) true (inAddr x (ppOff w) s) (ppBeats w) s = true →
      c = ⟨slotF w 192 32, ppSrc w, inAddr x (ppOff w) s, slotF w 224 2, slotF w 226 2, (slotRound (slotF w 192 32) s).isNone, padTo (64 * ppBeats w) d, s.rounds⟩ →
      stageRefusal c s = 0 →
      ∃ t, exec (.ppInRed w par d dpar) s = .next t ∧ t.peer.staged = s.peer.staged ++ [c]) ∧
  (∀ (w : BitVec 256) (par : BitVec 32) (d : List Byte) (dpar : List Bool) (x : Nat) (s : State), ppAccepted 4 w x s → slotF w 26 4 = 1 →
      slotParity w = par → dpar = bytesParity d →
      permitted (rd (WIN_CTL.DOMAIN x) s) true (inAddr x (ppOff w) s) (ppBeats w) s = true →
      ∃ t, exec (.ppInBcast w par d dpar false) s = .next t ∧ (∃ r, (port 17 t).ing = (port 17 s).ing ++ [r] ∧ r.op = .wr) ∧
        ∃ b, t.peer.bcasts = s.peer.bcasts ++ [b] ∧ b.left = 0) ∧
  (∀ (w : BitVec 256) (par : BitVec 32) (d : List Byte) (dpar : List Bool) (s : State), slotF w 0 4 = 5 → (port 17 s).ready = true →
      slotParity w = par → dpar = bytesParity d → 0 < (port 17 s).reqHdr →
      (ppBeats w + 3) / 4 ≤ (port 17 s).reqData → ppFormat w = 0 → slotF w 64 20 = myNode s → on PEER_CFG.RELAY_EN s = true → on FWM_UPD_CFG.SRC s = true →
      s.peer.relay.forwarding = false →
      ∃ t, exec (.ppInRelay w par d dpar) s = .next t ∧ t.peer.relay = (relayTake (ppOff w) (d.take (64 * ppBeats w)) s).peer.relay) ∧
  (∀ (w : BitVec 256) (par : BitVec 32) (s : State), slotParity w = par → exec (.ppInNop w par) s = .next s) ∧
  (∀ (w : BitVec 256) (par : BitVec 32) (s : State), (port 17 s).ready = true → slotF w 0 4 = 0 → slotParity w ≠ par →
      ∃ t, exec (.ppInNop w par) s = .next t ∧ (port 17 t).ready = false ∧ (port 17 t).parityClosed = true ∧ on PEER_STATUS.READY t = false)

/-- A response and a timeout settle the request, a complete gather round is combined and stored, and broadcasts are acknowledged. The choices of the model that this rests on: log entries 14, 51 and 94. -/
def Obligations.PeerResponseCommands : Prop :=
  (∀ (w : BitVec 256) (par : BitVec 32) (d : List Byte) (dpar : List Bool) (r : PeerReq) (u : Nat) (s : State), ppAnswers s = true →
      slotParity w = par → dpar = bytesParity d → 0 < s.peer.rspInHdr → (d.length + 255) / 256 ≤ s.peer.rspInData → slotF w 0 4 = rtWrAck →
      s.peer.quarantine.contains (slotF w 8 12) = false → mfind s.peer.reqs (slotF w 8 12) = some r → r.dest = .bcast u →
      ∃ t, exec (.ppRspIn w par d dpar) s = .next (settled t) ∧
        t.peer.bcasts = s.peer.bcasts.map fun b => if b.uid = u then { b with left := b.left - 1 } else b) ∧
  (∀ (tag u : Nat) (r : PeerReq) (s : State), mfind s.peer.reqs tag = some r → r.dest = .bcast u →
      ∃ t, exec (.peerRequestTimeout tag) s = .next (settled t) ∧ t.peer.quarantine = tag :: s.peer.quarantine ∧ t.peer.reqs = mdel s.peer.reqs tag ∧
        rd PEER_TMO_CNT.COUNT t = min (rd PEER_TMO_CNT.COUNT s + 1) (2 ^ PEER_TMO_CNT.COUNT.w - 1)) ∧
  (∀ (j : Nat) (g : GatherSlot) (v : Job) (s : State),
      (s.peer.slots.find? fun g => g.job == j) = some g → mfind s.jobs j = some v → v.stopped = false → v.waitRecord = false → v.outstanding = 1 →
      v.pos = 0 → v.bytes = [] → roundComplete g s = true → 0 < jLen v →
      exec (.gatherApply j .clean) s = .next (askJob j { v with pos := pieceAt v [jDst v] } (.gatherRead 0) 0 0 0 .rd (jDst v) (pieceAt v [jDst v] / 64) (2 ^ 64 - 1) [] s)) ∧
  (∀ (j : Nat) (g : GatherSlot) (v : Job) (s : State),
      (s.peer.slots.find? fun g => g.job == j) = some g → mfind s.jobs j = some v → v.stopped = false → jLen v ≤ v.pos →
      gatherGet j s = gatherPut j (setJob j { v with bytes := (combineRound g v.bytes s).1, aflags := (combineRound g v.bytes s).2, pos := 0 }
        (fwRead .staging 0 (g.count * g.len) s))) ∧
  (∀ (r : Nat) (s : State), ∃ t, exec (.orphanExpiry r) s = .next t ∧
      t.peer.staged = s.peer.staged.filter fun c => !(c.orphan && c.round == r && decide (max 1 (rd PEER_RED_CFG.ORPHAN_MS s) ≤ s.rounds - c.since))) ∧
  (∀ (u : Nat) (b : BcastWait) (s : State), (s.peer.bcasts.find? fun b => b.uid == u) = some b → b.wrote = true → b.left = 0 →
      ∃ t, exec (.bcastAck u) s = .next t ∧ t.peer.bcasts = s.peer.bcasts.filter fun x => x.uid != u)

/-- A relayed package is applied and forwarded, and the forward ends. The choices of the model that this rests on: log entry 53. -/
def Obligations.RelayCommands : Prop :=
  (∀ s : State, s.peer.relay.forwarding = false → 0 < s.peer.relay.len → s.peer.relay.len ≤ s.peer.relay.bytes.length →
      deltaForm (relayBytes s.peer.relay.bytes 0 s.peer.relay.len) = true →
      (signedBy (relayBytes s.peer.relay.bytes 0 s.peer.relay.len) (deltaKey (relayBytes s.peer.relay.bytes 0 s.peer.relay.len)) s.otp).isSome = true →
      forwards (relayApply (relayBytes s.peer.relay.bytes 0 s.peer.relay.len) s) = true →
      exec .relayForward s = .next (startForward (relayBytes s.peer.relay.bytes 0 s.peer.relay.len)
        (relayApply (relayBytes s.peer.relay.bytes 0 s.peer.relay.len) s))) ∧
  (∀ s : State, s.peer.relay.forwarding = true → relayOpen s = false →
      ∃ t, exec .relayForward s = .next t ∧ rd FWM_RELAY_STATUS.RESULT t = 1 ∧ on FWM_RELAY_STATUS.BUSY t = false ∧ t.peer.relay.forwarding = false)

/-- A relayed packet that faults or times out is marked and sent again three times; then forwarding stops with NEXT_FAILED, an event is posted and the local update goes on. -/
def Obligations.RelayResends : Prop :=
  (∀ (w : BitVec 256) (par : BitVec 32) (d : List Byte) (dpar : List Bool) (r : PeerReq) (s : State), ppAnswers s = true →
      slotParity w = par → dpar = bytesParity d → 0 < s.peer.rspInHdr → (d.length + 255) / 256 ≤ s.peer.rspInData → 4 ≤ slotF w 0 4 → slotF w 0 4 ≤ 9 →
      s.peer.quarantine.contains (slotF w 8 12) = false → mfind s.peer.reqs (slotF w 8 12) = some r → r.dest = .relay →
      ∃ t, exec (.ppRspIn w par d dpar) s = .next (settled t) ∧ mfind t.peer.reqs (slotF w 8 12) = some { r with got := [1] }) ∧
  (∀ (tag : Nat) (r : PeerReq) (s : State), mfind s.peer.reqs tag = some r → r.dest = .relay →
      ∃ t, exec (.peerRequestTimeout tag) s = .next (settled t) ∧ mfind t.peer.reqs tag = some { r with got := [1] }) ∧
  (∀ (tag : Nat) (r : PeerReq) (s : State), mfind s.peer.reqs tag = some r → r.dest = .relay → r.got ≠ [] →
      s.peer.relay.forwarding = true → r.resent < 3 →
      exec (.relayResend tag) s = .next (sendPeer { r with got := [], resent := r.resent + 1 } { s with peer := { s.peer with reqs := mdel s.peer.reqs tag } })) ∧
  (∀ (tag : Nat) (r : PeerReq) (s : State), mfind s.peer.reqs tag = some r → r.dest = .relay → r.got ≠ [] →
      s.peer.relay.forwarding = true → 3 ≤ r.resent →
      ∃ t, exec (.relayResend tag) s = .next t ∧ rd FWM_RELAY_STATUS.RESULT t = 3 ∧ on FWM_RELAY_STATUS.BUSY t = false ∧
        t.peer.relay.forwarding = false ∧ (∀ x ∈ t.peer.queue, x.dest ≠ .relay) ∧ t.eventSeq = s.eventSeq + 1 ∧ t.fw = s.fw ∧ updState t = updState s)

/-! ### Firmware -/

/-- The update messages of the service port and the stages of an update that check, apply, verify and load a package. The choices of the model that this rests on: log entries 58, 64, 68 and 99. -/
def Obligations.UpdateCommands : Prop :=
  (∀ (msg : List Byte) (s : State), svcArrives 2 msg s → on FWM_UPD_CFG.SRC s = false → 9 ≤ (svcPayload msg).length →
      (updState s = 0 ∨ updState s = 6) → raising s = false →
      exec (.updateBegin msg) s = .next (svcHold s.out.svc.length (svcProgress none (updStart (leAt (svcPayload msg) 0 8) ((leAt (svcPayload msg) 8 1).testBit 0)
        ((leAt (svcPayload msg) 8 1).testBit 1) s)))) ∧
  (∀ (msg : List Byte) (s : State), svcArrives 3 msg s → 9 ≤ (svcPayload msg).length → updState s = 1 →
      ∃ t, exec (.updateChunk msg) s = .next t ∧ t.fw.pkg = stage s.fw.pkg s.fw.pkgLen (leAt (svcPayload msg) 0 8) ((svcPayload msg).drop 8)) ∧
  (∀ (msg : List Byte) (s : State), svcArrives 4 msg s → updState s = 1 →
      ∃ t, exec (.updateEnd msg) s = .next t ∧ updState t = 2) ∧
  (∀ s : State, updState s = 2 → (checkPackage (relayOfSvc s)).1 = 0 →
      ∃ t, exec .updateCheckDone s = .next t ∧ updState t = 3) ∧
  (∀ s : State, updState s = 3 → flashOk s = true →
      ∃ t, exec (.updateApplyDone false) s = .next t ∧ updState t = 4 ∧ rd FWM_ALT_VER.VER t = 0) ∧
  (∀ s : State, updState s = 4 → sha384 (flRead (slotBase (targetSlot s)) (wantedLen s) s) = wantedDigest s →
      (imgVerify (flRead (slotBase (targetSlot s)) (wantedLen s) s) s.otp).isSome = true → on FWM_STATUS.RECOVERY s = false →
      ∃ t, exec (.updateVerifyDone false) s = .next t ∧ updState t = 5) ∧
  (∀ s : State, updState s = 5 → bookOk (runImage s) (slotImage (targetSlot s) s) = true →
      ∃ t, exec .updateLoadDone s = .next t ∧ updState t = 6)

/-- STATUS_REQ is answered with the status, a challenge draws a nonce, a good response opens debug and uses the nonce up, and AUDIT_FETCH answers the identity and a closed batch. An answer leaves at once or waits, and a message that arrives while one waits is answered reason 6 (busy). The choices of the model that this rests on: log entries 7, 58, 68, 70 and 76. -/
def Obligations.DebugCommands : Prop :=
  (∀ (msg : List Byte) (s : State), svcArrives 1 msg s →
      exec (.statusReq msg) s = .next (svcHold s.out.svc.length (svcSend 0x81 (statusPayload s) s))) ∧
  (∀ (k : Nat) (s : State), (svcHold k s).out.svc ++ (svcHold k s).svcWait = s.out.svc ∧ (svcHold k s).free = s.free + 1) ∧
  (∀ (msg : List Byte) (s : State), s.svcWait ≠ [] → exec (.statusReq msg) s = .next (svcError 6 s)) ∧
  (∀ (msg : List Byte) (s : State), svcArrives 5 msg s → svcPayload msg ≠ [] → on LCS_DBG_STATUS.LOCKOUT s = false →
      ∃ t, exec (.debugChallengeReq msg) s = .next t ∧
        t.fw.nonce = some (challengeBytes ((Config.trng s.free).toNat % 2 ^ 64) ((svcPayload msg).headD 0) s) ∧ on LCS_DBG_STATUS.NONCE_LIVE t = true) ∧
  (∀ (msg : List Byte) (s : State), svcArrives 6 msg s → (svcPayload msg).length = 209 → on LCS_DBG_STATUS.LOCKOUT s = false →
      responseResult (svcPayload msg) s = 0 →
      ∃ t, exec (.debugResponse msg) s = .next t ∧ on LCS_STATE.DBG_OPEN t = true ∧ rd LCS_STATE.DBG_SCOPE t = leAt (svcPayload msg) 8 1 % 8 ∧
        t.fw.nonce = none ∧ t.fw.debugOpened = true) ∧
  (∀ (msg : List Byte) (s : State), svcArrives 7 msg s → 9 ≤ (svcPayload msg).length → leAt (svcPayload msg) 8 1 = 1 →
      exec (.auditFetch msg) s = .next (svcHold s.out.svc.length (batchPart 0 0 true (leBytes 8 s.otp.serial ++ leBytes 1 (rd LCS_STATE.STATE s) ++
          leBytes 97 (Config.auditKey (BitVec.ofNat 256 s.otp.idSeed)).toNat) s))) ∧
  (∀ (msg : List Byte) (b : Nat × Nat × Nat × List Byte) (s : State), svcArrives 7 msg s → 9 ≤ (svcPayload msg).length →
      leAt (svcPayload msg) 8 1 = 0 → s.audit.entries = [] → s.audit.released = 0 → leAt (svcPayload msg) 0 8 = 0 → s.audit.batches.head? = some b →
      b.2.2.2.length ≤ 4088 →
      ∃ t, exec (.auditFetch msg) s = .next t ∧ t.audit.batches = s.audit.batches ∧ (t.out.svc ++ t.svcWait).length = s.out.svc.length + 1)

/-- Mailbox requests: the status, settings, update and event commands, the answer each leaves, and the end of an activation held too long. The choices of the model that this rests on: log entries 64, 66, 67 and 99. -/
def Obligations.MailboxCommands : Prop :=
  (∀ (v : BitVec 32) (s : State), exec (.mbxReqTailWrite v) s = .next (mbxGo (put FWM_MBX_REQ_TAIL.TAIL v.toNat s))) ∧
  (∀ (v : BitVec 32) (s : State), exec (.mbxEvtHeadWrite v) s = .next (mbxGo (flushEvents (put FWM_MBX_EVT_HEAD.HEAD v.toNat s)))) ∧
  (∀ (r : List Nat) (s : State), mbxHead (mbxGo s) = some r → mbxType r = 1 →
      exec .mbxStatus s = .next (mbxGo (mbxAnswer mrOk (bytesToWords (statusPayload (mbxGo s))) (mbxGo s)))) ∧
  (∀ (r : List Nat) (s : State), mbxHead (mbxGo s) = some r → mbxType r = 2 → (itemSize (mbxArg r % 2 ^ 16)).isSome = true →
      exec .settingsRead s =
        .next (mbxGo (mbxAnswer mrOk (bytesToWords (itemBytes (mbxArg r % 2 ^ 16, itemOf (mbxArg r % 2 ^ 16) (mbxGo s)))) (mbxGo s)))) ∧
  (∀ (r : List Nat) (s : State), mbxHead (mbxGo s) = some r → mbxType r = 3 →
      itemSize (leAt (wordBytes (r.drop 1)) 0 2) = some (leAt (wordBytes (r.drop 1)) 2 2) → flashOk (mbxGo s) = true →
      exec (.settingsWrite false) s = .next (mbxGo (mbxAnswer mrOk []
        (storeItem (leAt (wordBytes (r.drop 1)) 0 2) (slice (wordBytes (r.drop 1)) 4 (leAt (wordBytes (r.drop 1)) 2 2)) (mbxGo s))))) ∧
  (∀ (r : List Nat) (s : State), mbxHead (mbxGo s) = some r → mbxType r = 5 → (mbxArg r).testBit 0 = false →
      (updState (mbxGo s) = 6 ∨ updState (mbxGo s) = 7) →
      exec .updActivate s = .next (mbxGo (mbxAnswer mrOk [] { mbxGo s with fw := { (mbxGo s).fw with activate := true } }))) ∧
  (∀ (r : List Nat) (s : State), mbxHead (mbxGo s) = some r → mbxType r = 5 → (mbxArg r).testBit 0 = true →
      (updState (mbxGo s) = 6 ∨ updState (mbxGo s) = 7) → flashOk (mbxGo s) = true →
      exec .updActivate s = .next (mbxGo (mbxAnswer mrOk [] (coldRecord (mbxGo s))))) ∧
  (∀ (r : List Nat) (s : State), mbxHead (mbxGo s) = some r → mbxType r = 6 → 1 ≤ updState (mbxGo s) → updState (mbxGo s) < 8 →
      exec .updAbort s = .next (mbxGo (mbxAnswer mrOk [] (updEnd 0 11 (mbxGo s))))) ∧
  (∀ (r : Nat) (s : State), updState s = 7 → s.fw.deferred = some r → r + 600000 ≤ s.rounds →
      ∃ t, exec .deferralTimeout s = .next t ∧ updState t = 6 ∧ rd FWM_UPD_STATUS.RESULT t = 10 ∧ t.fw.activate = false) ∧
  (∀ (r : List Nat) (e : Event) (s : State), mbxHead (mbxGo s) = some r → mbxType r = 7 → (mbxGo s).evLog[mbxArg r]? = some e →
      exec .eventRead s = .next (mbxGo (mbxAnswer mrOk (eventWords e 0 0) (mbxGo s)))) ∧
  (∀ (result : Nat) (payload r : List Nat) (rs : List (List Nat)) (s : State), s.fw.mbxReq = r :: rs →
      (mbxAnswer result payload s).fw.mbxReq = rs ∧ (mbxAnswer result payload s).out.hp.length = s.out.hp.length + 2)

/-- A core that fails or is asked to restarts, and waits out its delay; a handover switches every core to the other bank, and the boot record names that bank. The choices of the model that this rests on: log entries 63 and 64. -/
def Obligations.CoreCommands : Prop :=
  (∀ (core reason : Nat) (s : State), 1 ≤ reason → reason ≤ 3 → corePresent core s = true → released s = true → (coreOf core s).retired = false →
      (coreOf core s).waiting = false → (coreOf core s).last = none →
      ∃ t, exec (.coreRestart core reason) s = .next t ∧ (coreOf core t).restarting = true ∧ (coreOf core t).last = some t.rounds) ∧
  (∀ (r : List Nat) (core : Nat) (s : State), mbxHead (mbxGo s) = some r → mbxType r = 4 → corePresent (mbxArg r) (mbxGo s) = true → (coreOf (mbxArg r) (mbxGo s)).retired = false →
      exec (.coreRestart core 4) s = .next (mbxGo (coreAsked (mbxArg r) (mbxAnswer mrOk [] (mbxGo s))))) ∧
  (∀ (core : Nat) (s : State), corePresent core s = true → released s = true → (coreOf core s).retired = false →
      (coreOf core s).waiting = false → (coreOf core s).last = none →
      ∃ t, exec (.coreWatchdogExpiry core) s = .next t ∧ (coreOf core t).restarting = true ∧ (coreOf core t).last = some t.rounds) ∧
  (∀ (core : Nat) (s : State), (coreOf core s).waiting = true → (coreOf core s).ends ≤ s.rounds →
      ∃ t, exec (.coreRestartDelayExpiry core) s = .next t ∧
        coreOf core t = { coreOf core s with restarting := true, waiting := false, last := some s.rounds }) ∧
  (∀ (ready : List Nat) (s : State), updState s = 8 → actHeld s = false → (∀ i < 21, 1 ≤ i → i ∈ ready) →
      ∃ t, exec (.handover true true ready) s = .next t ∧ updState t = 9 ∧ runSlot t = 1 - runSlot s ∧
        ∀ i < 21, (coreOf i t).bank = 1 - (coreOf i s).bank) ∧
  (∀ s : State, updState s = 9 → flashOk s = true → coreReady 0 s = true →
      ∃ t, exec .bootRecordWrite s = .next t ∧ updState t = 0 ∧ rd FWM_UPD_STATUS.RESULT t = 1 ∧
        t.flash = (writeBoot (runSlot s) (runImage s) s).flash)

/-- The restart of a core changes no register outside the FWM/INT area and no hive, lane, port, domain or byte of memory. -/
def Obligations.CoreRestartKeepsHardware : Prop :=
  ∀ (core : Nat) (c : Instr) (s t : State),
      (∃ reason, 1 ≤ reason ∧ reason ≤ 3 ∧ c = .coreRestart core reason) ∨ c = .coreWatchdogExpiry core ∨ c = .coreRestartDelayExpiry core → exec c s = .next t →
      (∀ f : Fld, (f.key < 8 * 0x70000 ∨ 8 * 0x80000 ≤ f.key) → rd f t = rd f s) ∧ t.shadow = s.shadow ∧ t.force = s.force ∧ t.ports = s.ports ∧
        t.hives = s.hives ∧ t.mem = s.mem ∧ t.lanes = s.lanes ∧ t.power = s.power

/-! ### Life cycle -/

/-- The life-cycle commands program exactly the steps they stand for, and DBG_CLOSE closes debug. The choices of the model that this rests on: log entries 9 and 69. -/
def Obligations.LifeCycleCommands : Prop :=
  (∀ (target : Nat) (s : State), coreReady 0 s = true → on LCS_CMD.BUSY s = false → lcsPending s = false →
      transitionOk target s = some true → otpWindow s = true →
      ∃ t, exec (.advance target .whole) s = .next t ∧ rd LCS_CMD_STATUS.RESULT t = 0 ∧
        t.otp = (toProgram (keySteps target ++ groupSteps (rd LCS_STATE.STATE s) target) s.otp).foldl otpProg s.otp) ∧
  (∀ s : State, coreReady 0 s = true → on LCS_CMD.BUSY s = false → lcsPending s = true → otpWindow s = true →
      ∃ t, exec (.lcsResume .whole) s = .next t ∧ rd LCS_CMD_STATUS.RESULT t = 0 ∧
        t.otp = (toProgram (groupSteps 0 (max (lcTarget s.otp.lc) (rd LCS_STATE.TARGET s)) ++ keySteps (max (lcTarget s.otp.lc) (rd LCS_STATE.TARGET s))) s.otp).foldl otpProg s.otp) ∧
  (∀ s : State, coreReady 0 s = true → on LCS_CMD.BUSY s = false → lcsPending s = false → updState s = 0 →
      secFloor s.otp < min 64 (imgSec (runImage s)) → otpWindow s = true →
      ∃ t, exec (.raiseFloor .whole) s = .next t ∧ rd LCS_CMD_STATUS.RESULT t = 0 ∧
        t.otp = (toProgram (copies 2 (2 ^ min 64 (imgSec (runImage s)) - 1)) s.otp).foldl otpProg s.otp) ∧
  (∀ s : State, coreReady 0 s = true → on LCS_CMD.BUSY s = false → lcsPending s = false → on LCS_STATE.DBG_OPEN s = true →
      ∃ t, exec .dbgClose s = .next t ∧ on LCS_STATE.DBG_OPEN t = false ∧ rd LCS_STATE.DBG_SCOPE t = 0 ∧ rd LCS_CMD_STATUS.RESULT t = 0) ∧
  (∀ (slot : Nat) (s : State), coreReady 0 s = true → on LCS_CMD.BUSY s = false → lcsPending s = false → slot ≤ 5 →
      slotInUse slot s = false → otpWindow s = true →
      ∃ t, exec (.revoke slot .whole) s = .next t ∧ rd LCS_CMD_STATUS.RESULT t = 0 ∧ t.otp = (toProgram (copies 3 (2 ^ slot)) s.otp).foldl otpProg s.otp)

/-! ### Counters and the test access port -/

/-- Clearing, updating and sampling the performance counters. The choices of the model that this rests on: log entries 10 and 71. -/
def Obligations.CounterCommands : Prop :=
  (∀ s : State, ∃ t, exec .pmcClear s = .next t ∧ t.occ = [] ∧ ∀ i < 64, rd (PMC_BCNT.COUNT i) t = 0) ∧
  (∀ s : State, ∃ t, exec .pmcCountUpdate s = .next t ∧ t.occ = [] ∧ t.fclk = s.fclk + 1) ∧
  (∀ s : State, on PMC_BW_CFG.WIN_US s = true →
      ∃ t, exec .bwWindowEnd s = .next t ∧ t.bwBytes = [] ∧ rd PMC_BW_SEQ.SEQ t = (rd PMC_BW_SEQ.SEQ s + 1) % 2 ^ PMC_BW_SEQ.SEQ.w) ∧
  (∀ (v : BitVec 32) (s : State), ∃ t, exec (.pmcBwCfgWrite v) s = .next t ∧ t.bwBytes = [] ∧
      rd PMC_BW_CFG.WIN_US t = v.toNat % 2 ^ PMC_BW_CFG.WIN_US.w) ∧
  (∀ (n : Nat) (v : BitVec 32) (s : State), n < 16 → hivePresent n s = true → hOn n s = true → on (PMC_SMP_CFG.EN n) s = false →
      v.toNat.testBit 0 = true →
      ∃ t, exec (.pmcSmpEnable n v) s = .next t ∧ on (PMC_SMP_CFG.EN n) t = true ∧ (samplerOf n t).count = max 1 (bits v.toNat 3 20) ∧
        (samplerOf n t).seq = 0 ∧ (samplerOf n t).written = 0) ∧
  (∀ (n : Nat) (x : Sample) (s : State), n < 16 → hOn n s = true → ((samplerOf n s).items.find? fun x => x.done) = some x →
      (on (PMC_SMP_CFG.WRAP n) s = true ∨ (samplerOf n s).written < 4096) →
      ∃ t, exec (.sampleRecordWrite n) s = .next t ∧ mfind (samplerOf n t).slots (rd (PMC_SMP_STATUS.WPTR n) s) = some (recordTime x.words s) ∧
        (samplerOf n t).written = (samplerOf n s).written + 1 ∧ (samplerOf n t).items = (samplerOf n s).items.erase x)

/-- After a reset of either kind the test access port reads the identity code of the variant. -/
def Obligations.IdentityCode : Prop :=
  ∀ (porst : Bool) (tdi : BitVec 32) (s : State), ∃ t w,
      exec (.reset porst) s = .next t ∧ exec (.jtgAccess 0x01 tdi) t = .next { t with jtgIr := 0x01, out := { t.out with jtg := t.out.jtg ++ [w] } } ∧
      w / 2 ^ 28 = 1 ∧ w / 2 ^ 12 % 2 ^ 16 = (match s.env.variant with | .mls1600 => 0x1600 | .mls1600s => 0x1601 | .mls0800 => 0x0800) ∧
      w / 2 % 2 ^ 11 = s.env.idcodeMfr % 2 ^ 11 ∧ w % 2 = 1

/-- An identity or bypass scan; a scan of the debug or the stack register that is not permitted, whose data are free values; and one that is. The choices of the model that this rests on: log entries 7 and 16. -/
def Obligations.TestAccessCommands : Prop :=
  (∀ (tdi : BitVec 32) (s : State), exec (.jtgAccess 0x01 tdi) s = .next (tdo (idcode s) { s with jtgIr := 0x01 })) ∧
  (∀ (ir : BitVec 8) (tdi : BitVec 32) (s : State), ir ≠ 0x01 → ir ≠ 0x20 → ir ≠ 0x30 →
      exec (.jtgAccess ir tdi) s = .next (tdo (2 * tdi.toNat) { s with jtgIr := ir.toNat })) ∧
  (∀ (ir : BitVec 8) (tdi : BitVec 32) (s : State), (ir = 0x20 ∧ debugPermitted 0 s = false) ∨ (ir = 0x30 ∧ debugPermitted 1 s = false) →
      exec (.jtgAccess ir tdi) s = .next (freshDraw (tdo (Config.freeData s.free).toNat { s with jtgIr := ir.toNat }))) ∧
  (∀ (tdi : BitVec 32) (s : State), debugPermitted 0 s = true →
      exec (.jtgAccess 0x20 tdi) s = .next (debugAccess tdi { s with jtgIr := 0x20 })) ∧
  (∀ (tdi : BitVec 32) (s : State), debugPermitted 1 s = true →
      exec (.jtgAccess 0x30 tdi) s = .next (stackRelay tdi { s with jtgIr := 0x30 }))

/-! ### Device memory -/

/-- A stored block reads back and leaves every other block and byte alone; a marked block reads zero; canonical form stays. The choices of the model that this rests on: log entries 12 and 13. -/
def Obligations.DeviceMemory : Prop :=
  (∀ (n c off : Nat) (d : Beat) (s : State), Inv s →
      readBlock n c off (writeBlock n c off d s) = d ∧ Inv (writeBlock n c off d s) ∧
      (∀ k, k < 64 * blockKey n c off ∨ 64 * blockKey n c off + 64 ≤ k → memByte (writeBlock n c off d s).mem k = memByte s.mem k) ∧
      (∀ n' c' off', blockKey n' c' off' ≠ blockKey n c off → readBlock n' c' off' (writeBlock n c off d s) = readBlock n' c' off' s ∧
        isMarked n' c' off' (writeBlock n c off d s) = isMarked n' c' off' s)) ∧
  (∀ (n c off : Nat) (s : State), Inv s →
      readBlock n c off (markBlock n c off s) = 0 ∧ isMarked n c off (markBlock n c off s) = true ∧
      (∀ n' c' off', blockKey n' c' off' ≠ blockKey n c off → readBlock n' c' off' (markBlock n c off s) = readBlock n' c' off' s ∧
        isMarked n' c' off' (markBlock n c off s) = isMarked n' c' off' s))
end

