-- ==== Sys2Proof/Laws/Frame.lean ====
section
/-! SUPPORT. What an operation may change: `Frame m s t` says that t differs from s at most in the fields of State whose bit of m
is set, that memory in canonical form stays so, and that no OTP bit is lost. Bit k stands for the k-th field of State, and the bit
after the last field for the words of OTP that only debug access programs. -/

namespace Sys2Proof.Machine

/-- Every bit of a triple stays set. -/
def TripleKept (a b : Nat × Nat × Nat) : Prop := a.1 ||| b.1 = b.1 ∧ a.2.1 ||| b.2.1 = b.2.1 ∧ a.2.2 ||| b.2.2 = b.2.2

/-- Every bit of OTP that is set stays set; no digest beyond the six slots counts. -/
structure OtpKept (a b : Otp) : Prop where
  lc : TripleKept a.lc b.lc
  kill : TripleKept a.kill b.kill
  floor : TripleKept a.floor b.floor
  revoke : TripleKept a.revoke b.revoke
  encRoot : a.encRoot ||| b.encRoot = b.encRoot
  idSeed : a.idSeed ||| b.idSeed = b.idSeed
  encReq : TripleKept a.encReq b.encReq
  digests : ∀ i, a.digests.getD i 0 ||| b.digests.getD i 0 = b.digests.getD i 0
  serial : a.serial ||| b.serial = b.serial

/-- The words that debug access alone programs stay as they are. -/
structure OtpFixed (a b : Otp) : Prop where
  encReq : b.encReq = a.encReq
  digests : b.digests = a.digests
  serial : b.serial = a.serial

/-- The frame of an operation. -/
structure Frame (m : Nat) (s t : State) : Prop where
  memOk : memWf s.mem = true → memWf t.mem = true
  otpOk : OtpKept s.otp t.otp
  fixOk : m.testBit 61 = false → OtpFixed s.otp t.otp
  f_pending : m.testBit 0 = false → t.pending = s.pending
  f_env : m.testBit 1 = false → t.env = s.env
  f_regs : m.testBit 2 = false → t.regs = s.regs
  f_shadow : m.testBit 3 = false → t.shadow = s.shadow
  f_force : m.testBit 4 = false → t.force = s.force
  f_loHeld : m.testBit 5 = false → t.loHeld = s.loHeld
  f_hiCap : m.testBit 6 = false → t.hiCap = s.hiCap
  f_free : m.testBit 7 = false → t.free = s.free
  f_rounds : m.testBit 8 = false → t.rounds = s.rounds
  f_fclk : m.testBit 9 = false → t.fclk = s.fclk
  f_nextUid : m.testBit 10 = false → t.nextUid = s.nextUid
  f_mem : m.testBit 11 = false → t.mem = s.mem
  f_marked : m.testBit 12 = false → t.marked = s.marked
  f_ports : m.testBit 13 = false → t.ports = s.ports
  f_rotation : m.testBit 14 = false → t.rotation = s.rotation
  f_tokens : m.testBit 15 = false → t.tokens = s.tokens
  f_gates : m.testBit 16 = false → t.gates = s.gates
  f_live : m.testBit 17 = false → t.live = s.live
  f_arrived : m.testBit 18 = false → t.arrived = s.arrived
  f_fwAccs : m.testBit 19 = false → t.fwAccs = s.fwAccs
  f_pcs : m.testBit 20 = false → t.pcs = s.pcs
  f_chanLfsr : m.testBit 21 = false → t.chanLfsr = s.chanLfsr
  f_ceLeaks : m.testBit 22 = false → t.ceLeaks = s.ceLeaks
  f_lanes : m.testBit 23 = false → t.lanes = s.lanes
  f_hives : m.testBit 24 = false → t.hives = s.hives
  f_ctxs : m.testBit 25 = false → t.ctxs = s.ctxs
  f_ctxHeld : m.testBit 26 = false → t.ctxHeld = s.ctxHeld
  f_jobs : m.testBit 27 = false → t.jobs = s.jobs
  f_nextJob : m.testBit 28 = false → t.nextJob = s.nextJob
  f_lateJobs : m.testBit 29 = false → t.lateJobs = s.lateJobs
  f_finished : m.testBit 30 = false → t.finished = s.finished
  f_hbStart : m.testBit 31 = false → t.hbStart = s.hbStart
  f_auditSeq : m.testBit 32 = false → t.auditSeq = s.auditSeq
  f_spill : m.testBit 33 = false → t.spill = s.spill
  f_acks : m.testBit 34 = false → t.acks = s.acks
  f_host : m.testBit 35 = false → t.host = s.host
  f_peer : m.testBit 36 = false → t.peer = s.peer
  f_held : m.testBit 37 = false → t.held = s.held
  f_ring : m.testBit 38 = false → t.ring = s.ring
  f_eventSeq : m.testBit 39 = false → t.eventSeq = s.eventSeq
  f_logWait : m.testBit 40 = false → t.logWait = s.logWait
  f_evLog : m.testBit 41 = false → t.evLog = s.evLog
  f_occ : m.testBit 42 = false → t.occ = s.occ
  f_samplers : m.testBit 43 = false → t.samplers = s.samplers
  f_overruns : m.testBit 44 = false → t.overruns = s.overruns
  f_power : m.testBit 45 = false → t.power = s.power
  f_thermal : m.testBit 46 = false → t.thermal = s.thermal
  f_recal : m.testBit 47 = false → t.recal = s.recal
  f_recalNext : m.testBit 48 = false → t.recalNext = s.recalNext
  f_cores : m.testBit 49 = false → t.cores = s.cores
  f_otp : m.testBit 50 = false → t.otp = s.otp
  f_flash : m.testBit 51 = false → t.flash = s.flash
  f_fw : m.testBit 52 = false → t.fw = s.fw
  f_audit : m.testBit 53 = false → t.audit = s.audit
  f_scrubRun : m.testBit 54 = false → t.scrubRun = s.scrubRun
  f_remapLog : m.testBit 55 = false → t.remapLog = s.remapLog
  f_remapWant : m.testBit 56 = false → t.remapWant = s.remapWant
  f_svcWait : m.testBit 57 = false → t.svcWait = s.svcWait
  f_jtgIr : m.testBit 58 = false → t.jtgIr = s.jtgIr
  f_bwBytes : m.testBit 59 = false → t.bwBytes = s.bwBytes
  f_out : m.testBit 60 = false → t.out = s.out

theorem TripleKept.refl (a : Nat × Nat × Nat) : TripleKept a a := ⟨Nat.or_self _, Nat.or_self _, Nat.or_self _⟩

theorem or_kept_trans {a b c : Nat} (h : a ||| b = b) (k : b ||| c = c) : a ||| c = c := by
  rw [← k, ← Nat.or_assoc, h]

theorem TripleKept.trans {a b c : Nat × Nat × Nat} (h : TripleKept a b) (k : TripleKept b c) : TripleKept a c :=
  ⟨or_kept_trans h.1 k.1, or_kept_trans h.2.1 k.2.1, or_kept_trans h.2.2 k.2.2⟩

theorem OtpKept.refl (a : Otp) : OtpKept a a :=
  ⟨.refl _, .refl _, .refl _, .refl _, Nat.or_self _, Nat.or_self _, .refl _, fun _ => Nat.or_self _, Nat.or_self _⟩

theorem OtpKept.trans {a b c : Otp} (h : OtpKept a b) (k : OtpKept b c) : OtpKept a c :=
  ⟨h.lc.trans k.lc, h.kill.trans k.kill, h.floor.trans k.floor, h.revoke.trans k.revoke, or_kept_trans h.encRoot k.encRoot,
    or_kept_trans h.idSeed k.idSeed, h.encReq.trans k.encReq, fun i => or_kept_trans (h.digests i) (k.digests i), or_kept_trans h.serial k.serial⟩

theorem OtpFixed.refl (a : Otp) : OtpFixed a a := ⟨rfl, rfl, rfl⟩

theorem OtpFixed.trans {a b c : Otp} (h : OtpFixed a b) (k : OtpFixed b c) : OtpFixed a c :=
  ⟨k.encReq.trans h.encReq, k.digests.trans h.digests, k.serial.trans h.serial⟩

theorem Frame.refl {m : Nat} {s : State} : Frame m s s where
  memOk h := h
  otpOk := .refl _
  fixOk _ := .refl _
  f_pending _ := rfl
  f_env _ := rfl
  f_regs _ := rfl
  f_shadow _ := rfl
  f_force _ := rfl
  f_loHeld _ := rfl
  f_hiCap _ := rfl
  f_free _ := rfl
  f_rounds _ := rfl
  f_fclk _ := rfl
  f_nextUid _ := rfl
  f_mem _ := rfl
  f_marked _ := rfl
  f_ports _ := rfl
  f_rotation _ := rfl
  f_tokens _ := rfl
  f_gates _ := rfl
  f_live _ := rfl
  f_arrived _ := rfl
  f_fwAccs _ := rfl
  f_pcs _ := rfl
  f_chanLfsr _ := rfl
  f_ceLeaks _ := rfl
  f_lanes _ := rfl
  f_hives _ := rfl
  f_ctxs _ := rfl
  f_ctxHeld _ := rfl
  f_jobs _ := rfl
  f_nextJob _ := rfl
  f_lateJobs _ := rfl
  f_finished _ := rfl
  f_hbStart _ := rfl
  f_auditSeq _ := rfl
  f_spill _ := rfl
  f_acks _ := rfl
  f_host _ := rfl
  f_peer _ := rfl
  f_held _ := rfl
  f_ring _ := rfl
  f_eventSeq _ := rfl
  f_logWait _ := rfl
  f_evLog _ := rfl
  f_occ _ := rfl
  f_samplers _ := rfl
  f_overruns _ := rfl
  f_power _ := rfl
  f_thermal _ := rfl
  f_recal _ := rfl
  f_recalNext _ := rfl
  f_cores _ := rfl
  f_otp _ := rfl
  f_flash _ := rfl
  f_fw _ := rfl
  f_audit _ := rfl
  f_scrubRun _ := rfl
  f_remapLog _ := rfl
  f_remapWant _ := rfl
  f_svcWait _ := rfl
  f_jtgIr _ := rfl
  f_bwBytes _ := rfl
  f_out _ := rfl

/-- The mask a lies within the mask m. -/
abbrev Within (a m : Nat) : Prop := Nat.beq (Nat.lor a m) m = true

theorem bit_of_sub {a m k : Nat} (h : Within a m) (hk : m.testBit k = false) : a.testBit k = false := by
  have h : a ||| m = m := Nat.eq_of_beq_eq_true h
  rw [← h, Nat.testBit_or] at hk; exact (Bool.or_eq_false_iff.mp hk).1

theorem within_self {m : Nat} : Within m m := by
  show Nat.beq (m ||| m) m = true
  rw [Nat.or_self]; simp

theorem within_trans {a b m : Nat} (h : Within a b) (k : Within b m) : Within a m := by
  have h : a ||| b = b := Nat.eq_of_beq_eq_true h
  have k : b ||| m = m := Nat.eq_of_beq_eq_true k
  show Nat.beq (a ||| m) m = true
  rw [or_kept_trans h k]; simp

theorem bit_of_within {m k : Nat} (h : Within (2 ^ k) m) (hk : m.testBit k = false) : False := by
  have := bit_of_sub h hk
  simp [Nat.testBit_two_pow_self] at this

/-- One operation after another. -/
theorem Frame.seq {m a : Nat} {s t u : State} (h : Frame m s t) (k : Frame a t u) (ha : Within a m) : Frame m s u where
  memOk w := k.memOk (h.memOk w)
  otpOk := h.otpOk.trans k.otpOk
  fixOk hm := (h.fixOk hm).trans (k.fixOk (bit_of_sub ha hm))
  f_pending hm := (k.f_pending (bit_of_sub ha hm)).trans (h.f_pending hm)
  f_env hm := (k.f_env (bit_of_sub ha hm)).trans (h.f_env hm)
  f_regs hm := (k.f_regs (bit_of_sub ha hm)).trans (h.f_regs hm)
  f_shadow hm := (k.f_shadow (bit_of_sub ha hm)).trans (h.f_shadow hm)
  f_force hm := (k.f_force (bit_of_sub ha hm)).trans (h.f_force hm)
  f_loHeld hm := (k.f_loHeld (bit_of_sub ha hm)).trans (h.f_loHeld hm)
  f_hiCap hm := (k.f_hiCap (bit_of_sub ha hm)).trans (h.f_hiCap hm)
  f_free hm := (k.f_free (bit_of_sub ha hm)).trans (h.f_free hm)
  f_rounds hm := (k.f_rounds (bit_of_sub ha hm)).trans (h.f_rounds hm)
  f_fclk hm := (k.f_fclk (bit_of_sub ha hm)).trans (h.f_fclk hm)
  f_nextUid hm := (k.f_nextUid (bit_of_sub ha hm)).trans (h.f_nextUid hm)
  f_mem hm := (k.f_mem (bit_of_sub ha hm)).trans (h.f_mem hm)
  f_marked hm := (k.f_marked (bit_of_sub ha hm)).trans (h.f_marked hm)
  f_ports hm := (k.f_ports (bit_of_sub ha hm)).trans (h.f_ports hm)
  f_rotation hm := (k.f_rotation (bit_of_sub ha hm)).trans (h.f_rotation hm)
  f_tokens hm := (k.f_tokens (bit_of_sub ha hm)).trans (h.f_tokens hm)
  f_gates hm := (k.f_gates (bit_of_sub ha hm)).trans (h.f_gates hm)
  f_live hm := (k.f_live (bit_of_sub ha hm)).trans (h.f_live hm)
  f_arrived hm := (k.f_arrived (bit_of_sub ha hm)).trans (h.f_arrived hm)
  f_fwAccs hm := (k.f_fwAccs (bit_of_sub ha hm)).trans (h.f_fwAccs hm)
  f_pcs hm := (k.f_pcs (bit_of_sub ha hm)).trans (h.f_pcs hm)
  f_chanLfsr hm := (k.f_chanLfsr (bit_of_sub ha hm)).trans (h.f_chanLfsr hm)
  f_ceLeaks hm := (k.f_ceLeaks (bit_of_sub ha hm)).trans (h.f_ceLeaks hm)
  f_lanes hm := (k.f_lanes (bit_of_sub ha hm)).trans (h.f_lanes hm)
  f_hives hm := (k.f_hives (bit_of_sub ha hm)).trans (h.f_hives hm)
  f_ctxs hm := (k.f_ctxs (bit_of_sub ha hm)).trans (h.f_ctxs hm)
  f_ctxHeld hm := (k.f_ctxHeld (bit_of_sub ha hm)).trans (h.f_ctxHeld hm)
  f_jobs hm := (k.f_jobs (bit_of_sub ha hm)).trans (h.f_jobs hm)
  f_nextJob hm := (k.f_nextJob (bit_of_sub ha hm)).trans (h.f_nextJob hm)
  f_lateJobs hm := (k.f_lateJobs (bit_of_sub ha hm)).trans (h.f_lateJobs hm)
  f_finished hm := (k.f_finished (bit_of_sub ha hm)).trans (h.f_finished hm)
  f_hbStart hm := (k.f_hbStart (bit_of_sub ha hm)).trans (h.f_hbStart hm)
  f_auditSeq hm := (k.f_auditSeq (bit_of_sub ha hm)).trans (h.f_auditSeq hm)
  f_spill hm := (k.f_spill (bit_of_sub ha hm)).trans (h.f_spill hm)
  f_acks hm := (k.f_acks (bit_of_sub ha hm)).trans (h.f_acks hm)
  f_host hm := (k.f_host (bit_of_sub ha hm)).trans (h.f_host hm)
  f_peer hm := (k.f_peer (bit_of_sub ha hm)).trans (h.f_peer hm)
  f_held hm := (k.f_held (bit_of_sub ha hm)).trans (h.f_held hm)
  f_ring hm := (k.f_ring (bit_of_sub ha hm)).trans (h.f_ring hm)
  f_eventSeq hm := (k.f_eventSeq (bit_of_sub ha hm)).trans (h.f_eventSeq hm)
  f_logWait hm := (k.f_logWait (bit_of_sub ha hm)).trans (h.f_logWait hm)
  f_evLog hm := (k.f_evLog (bit_of_sub ha hm)).trans (h.f_evLog hm)
  f_occ hm := (k.f_occ (bit_of_sub ha hm)).trans (h.f_occ hm)
  f_samplers hm := (k.f_samplers (bit_of_sub ha hm)).trans (h.f_samplers hm)
  f_overruns hm := (k.f_overruns (bit_of_sub ha hm)).trans (h.f_overruns hm)
  f_power hm := (k.f_power (bit_of_sub ha hm)).trans (h.f_power hm)
  f_thermal hm := (k.f_thermal (bit_of_sub ha hm)).trans (h.f_thermal hm)
  f_recal hm := (k.f_recal (bit_of_sub ha hm)).trans (h.f_recal hm)
  f_recalNext hm := (k.f_recalNext (bit_of_sub ha hm)).trans (h.f_recalNext hm)
  f_cores hm := (k.f_cores (bit_of_sub ha hm)).trans (h.f_cores hm)
  f_otp hm := (k.f_otp (bit_of_sub ha hm)).trans (h.f_otp hm)
  f_flash hm := (k.f_flash (bit_of_sub ha hm)).trans (h.f_flash hm)
  f_fw hm := (k.f_fw (bit_of_sub ha hm)).trans (h.f_fw hm)
  f_audit hm := (k.f_audit (bit_of_sub ha hm)).trans (h.f_audit hm)
  f_scrubRun hm := (k.f_scrubRun (bit_of_sub ha hm)).trans (h.f_scrubRun hm)
  f_remapLog hm := (k.f_remapLog (bit_of_sub ha hm)).trans (h.f_remapLog hm)
  f_remapWant hm := (k.f_remapWant (bit_of_sub ha hm)).trans (h.f_remapWant hm)
  f_svcWait hm := (k.f_svcWait (bit_of_sub ha hm)).trans (h.f_svcWait hm)
  f_jtgIr hm := (k.f_jtgIr (bit_of_sub ha hm)).trans (h.f_jtgIr hm)
  f_bwBytes hm := (k.f_bwBytes (bit_of_sub ha hm)).trans (h.f_bwBytes hm)
  f_out hm := (k.f_out (bit_of_sub ha hm)).trans (h.f_out hm)

theorem Frame.mono {m a : Nat} {s t : State} (k : Frame a s t) (ha : Within a m) : Frame m s t := .seq .refl k ha

theorem Frame.ite {m : Nat} {s t u : State} {c : Prop} [Decidable c] (h : Frame m s t) (k : Frame m s u) :
    Frame m s (if c then t else u) := by
  by_cases hc : c <;> simp [hc, h, k]

theorem Frame.foldl {m : Nat} {α : Type} {s t : State} {f : State → α → State} {l : List α}
    (hf : ∀ u x, Frame m u (f u x)) (h : Frame m s t) : Frame m s (l.foldl f t) := by
  induction l generalizing t with
  | nil => exact h
  | cons x l ih => exact ih (h.seq (hf t x) within_self)

theorem Frame.foldl_fst {m : Nat} {α β : Type} {s : State} {y : State × β} {f : State × β → α → State × β} {l : List α}
    (hf : ∀ u x, Frame m u.1 (f u x).1) (h : Frame m s y.1) : Frame m s (l.foldl f y).1 := by
  induction l generalizing y with
  | nil => exact h
  | cons x l ih => exact ih (h.seq (hf y x) within_self)

/-- A record update of fields that the mask allows. -/
theorem Frame.upd {m : Nat} {s t u : State} (h : Frame m s t) (hm : u.mem = t.mem) (ho : u.otp = t.otp)
    (h_pending : Within 0x1 m ∨ u.pending = t.pending)
    (h_env : Within 0x2 m ∨ u.env = t.env)
    (h_regs : Within 0x4 m ∨ u.regs = t.regs)
    (h_shadow : Within 0x8 m ∨ u.shadow = t.shadow)
    (h_force : Within 0x10 m ∨ u.force = t.force)
    (h_loHeld : Within 0x20 m ∨ u.loHeld = t.loHeld)
    (h_hiCap : Within 0x40 m ∨ u.hiCap = t.hiCap)
    (h_free : Within 0x80 m ∨ u.free = t.free)
    (h_rounds : Within 0x100 m ∨ u.rounds = t.rounds)
    (h_fclk : Within 0x200 m ∨ u.fclk = t.fclk)
    (h_nextUid : Within 0x400 m ∨ u.nextUid = t.nextUid)
    (h_marked : Within 0x1000 m ∨ u.marked = t.marked)
    (h_ports : Within 0x2000 m ∨ u.ports = t.ports)
    (h_rotation : Within 0x4000 m ∨ u.rotation = t.rotation)
    (h_tokens : Within 0x8000 m ∨ u.tokens = t.tokens)
    (h_gates : Within 0x10000 m ∨ u.gates = t.gates)
    (h_live : Within 0x20000 m ∨ u.live = t.live)
    (h_arrived : Within 0x40000 m ∨ u.arrived = t.arrived)
    (h_fwAccs : Within 0x80000 m ∨ u.fwAccs = t.fwAccs)
    (h_pcs : Within 0x100000 m ∨ u.pcs = t.pcs)
    (h_chanLfsr : Within 0x200000 m ∨ u.chanLfsr = t.chanLfsr)
    (h_ceLeaks : Within 0x400000 m ∨ u.ceLeaks = t.ceLeaks)
    (h_lanes : Within 0x800000 m ∨ u.lanes = t.lanes)
    (h_hives : Within 0x1000000 m ∨ u.hives = t.hives)
    (h_ctxs : Within 0x2000000 m ∨ u.ctxs = t.ctxs)
    (h_ctxHeld : Within 0x4000000 m ∨ u.ctxHeld = t.ctxHeld)
    (h_jobs : Within 0x8000000 m ∨ u.jobs = t.jobs)
    (h_nextJob : Within 0x10000000 m ∨ u.nextJob = t.nextJob)
    (h_lateJobs : Within 0x20000000 m ∨ u.lateJobs = t.lateJobs)
    (h_finished : Within 0x40000000 m ∨ u.finished = t.finished)
    (h_hbStart : Within 0x80000000 m ∨ u.hbStart = t.hbStart)
    (h_auditSeq : Within 0x100000000 m ∨ u.auditSeq = t.auditSeq)
    (h_spill : Within 0x200000000 m ∨ u.spill = t.spill)
    (h_acks : Within 0x400000000 m ∨ u.acks = t.acks)
    (h_host : Within 0x800000000 m ∨ u.host = t.host)
    (h_peer : Within 0x1000000000 m ∨ u.peer = t.peer)
    (h_held : Within 0x2000000000 m ∨ u.held = t.held)
    (h_ring : Within 0x4000000000 m ∨ u.ring = t.ring)
    (h_eventSeq : Within 0x8000000000 m ∨ u.eventSeq = t.eventSeq)
    (h_logWait : Within 0x10000000000 m ∨ u.logWait = t.logWait)
    (h_evLog : Within 0x20000000000 m ∨ u.evLog = t.evLog)
    (h_occ : Within 0x40000000000 m ∨ u.occ = t.occ)
    (h_samplers : Within 0x80000000000 m ∨ u.samplers = t.samplers)
    (h_overruns : Within 0x100000000000 m ∨ u.overruns = t.overruns)
    (h_power : Within 0x200000000000 m ∨ u.power = t.power)
    (h_thermal : Within 0x400000000000 m ∨ u.thermal = t.thermal)
    (h_recal : Within 0x800000000000 m ∨ u.recal = t.recal)
    (h_recalNext : Within 0x1000000000000 m ∨ u.recalNext = t.recalNext)
    (h_cores : Within 0x2000000000000 m ∨ u.cores = t.cores)
    (h_flash : Within 0x8000000000000 m ∨ u.flash = t.flash)
    (h_fw : Within 0x10000000000000 m ∨ u.fw = t.fw)
    (h_audit : Within 0x20000000000000 m ∨ u.audit = t.audit)
    (h_scrubRun : Within 0x40000000000000 m ∨ u.scrubRun = t.scrubRun)
    (h_remapLog : Within 0x80000000000000 m ∨ u.remapLog = t.remapLog)
    (h_remapWant : Within 0x100000000000000 m ∨ u.remapWant = t.remapWant)
    (h_svcWait : Within 0x200000000000000 m ∨ u.svcWait = t.svcWait)
    (h_jtgIr : Within 0x400000000000000 m ∨ u.jtgIr = t.jtgIr)
    (h_bwBytes : Within 0x800000000000000 m ∨ u.bwBytes = t.bwBytes)
    (h_out : Within 0x1000000000000000 m ∨ u.out = t.out) : Frame m s u where
  memOk w := by rw [hm]; exact h.memOk w
  otpOk := by rw [ho]; exact h.otpOk
  fixOk b := by rw [ho]; exact h.fixOk b
  f_mem b := by rw [hm]; exact h.f_mem b
  f_otp b := by rw [ho]; exact h.f_otp b
  f_pending b := (h_pending.resolve_left fun w => bit_of_within (k := 0) w b).trans (h.f_pending b)
  f_env b := (h_env.resolve_left fun w => bit_of_within (k := 1) w b).trans (h.f_env b)
  f_regs b := (h_regs.resolve_left fun w => bit_of_within (k := 2) w b).trans (h.f_regs b)
  f_shadow b := (h_shadow.resolve_left fun w => bit_of_within (k := 3) w b).trans (h.f_shadow b)
  f_force b := (h_force.resolve_left fun w => bit_of_within (k := 4) w b).trans (h.f_force b)
  f_loHeld b := (h_loHeld.resolve_left fun w => bit_of_within (k := 5) w b).trans (h.f_loHeld b)
  f_hiCap b := (h_hiCap.resolve_left fun w => bit_of_within (k := 6) w b).trans (h.f_hiCap b)
  f_free b := (h_free.resolve_left fun w => bit_of_within (k := 7) w b).trans (h.f_free b)
  f_rounds b := (h_rounds.resolve_left fun w => bit_of_within (k := 8) w b).trans (h.f_rounds b)
  f_fclk b := (h_fclk.resolve_left fun w => bit_of_within (k := 9) w b).trans (h.f_fclk b)
  f_nextUid b := (h_nextUid.resolve_left fun w => bit_of_within (k := 10) w b).trans (h.f_nextUid b)
  f_marked b := (h_marked.resolve_left fun w => bit_of_within (k := 12) w b).trans (h.f_marked b)
  f_ports b := (h_ports.resolve_left fun w => bit_of_within (k := 13) w b).trans (h.f_ports b)
  f_rotation b := (h_rotation.resolve_left fun w => bit_of_within (k := 14) w b).trans (h.f_rotation b)
  f_tokens b := (h_tokens.resolve_left fun w => bit_of_within (k := 15) w b).trans (h.f_tokens b)
  f_gates b := (h_gates.resolve_left fun w => bit_of_within (k := 16) w b).trans (h.f_gates b)
  f_live b := (h_live.resolve_left fun w => bit_of_within (k := 17) w b).trans (h.f_live b)
  f_arrived b := (h_arrived.resolve_left fun w => bit_of_within (k := 18) w b).trans (h.f_arrived b)
  f_fwAccs b := (h_fwAccs.resolve_left fun w => bit_of_within (k := 19) w b).trans (h.f_fwAccs b)
  f_pcs b := (h_pcs.resolve_left fun w => bit_of_within (k := 20) w b).trans (h.f_pcs b)
  f_chanLfsr b := (h_chanLfsr.resolve_left fun w => bit_of_within (k := 21) w b).trans (h.f_chanLfsr b)
  f_ceLeaks b := (h_ceLeaks.resolve_left fun w => bit_of_within (k := 22) w b).trans (h.f_ceLeaks b)
  f_lanes b := (h_lanes.resolve_left fun w => bit_of_within (k := 23) w b).trans (h.f_lanes b)
  f_hives b := (h_hives.resolve_left fun w => bit_of_within (k := 24) w b).trans (h.f_hives b)
  f_ctxs b := (h_ctxs.resolve_left fun w => bit_of_within (k := 25) w b).trans (h.f_ctxs b)
  f_ctxHeld b := (h_ctxHeld.resolve_left fun w => bit_of_within (k := 26) w b).trans (h.f_ctxHeld b)
  f_jobs b := (h_jobs.resolve_left fun w => bit_of_within (k := 27) w b).trans (h.f_jobs b)
  f_nextJob b := (h_nextJob.resolve_left fun w => bit_of_within (k := 28) w b).trans (h.f_nextJob b)
  f_lateJobs b := (h_lateJobs.resolve_left fun w => bit_of_within (k := 29) w b).trans (h.f_lateJobs b)
  f_finished b := (h_finished.resolve_left fun w => bit_of_within (k := 30) w b).trans (h.f_finished b)
  f_hbStart b := (h_hbStart.resolve_left fun w => bit_of_within (k := 31) w b).trans (h.f_hbStart b)
  f_auditSeq b := (h_auditSeq.resolve_left fun w => bit_of_within (k := 32) w b).trans (h.f_auditSeq b)
  f_spill b := (h_spill.resolve_left fun w => bit_of_within (k := 33) w b).trans (h.f_spill b)
  f_acks b := (h_acks.resolve_left fun w => bit_of_within (k := 34) w b).trans (h.f_acks b)
  f_host b := (h_host.resolve_left fun w => bit_of_within (k := 35) w b).trans (h.f_host b)
  f_peer b := (h_peer.resolve_left fun w => bit_of_within (k := 36) w b).trans (h.f_peer b)
  f_held b := (h_held.resolve_left fun w => bit_of_within (k := 37) w b).trans (h.f_held b)
  f_ring b := (h_ring.resolve_left fun w => bit_of_within (k := 38) w b).trans (h.f_ring b)
  f_eventSeq b := (h_eventSeq.resolve_left fun w => bit_of_within (k := 39) w b).trans (h.f_eventSeq b)
  f_logWait b := (h_logWait.resolve_left fun w => bit_of_within (k := 40) w b).trans (h.f_logWait b)
  f_evLog b := (h_evLog.resolve_left fun w => bit_of_within (k := 41) w b).trans (h.f_evLog b)
  f_occ b := (h_occ.resolve_left fun w => bit_of_within (k := 42) w b).trans (h.f_occ b)
  f_samplers b := (h_samplers.resolve_left fun w => bit_of_within (k := 43) w b).trans (h.f_samplers b)
  f_overruns b := (h_overruns.resolve_left fun w => bit_of_within (k := 44) w b).trans (h.f_overruns b)
  f_power b := (h_power.resolve_left fun w => bit_of_within (k := 45) w b).trans (h.f_power b)
  f_thermal b := (h_thermal.resolve_left fun w => bit_of_within (k := 46) w b).trans (h.f_thermal b)
  f_recal b := (h_recal.resolve_left fun w => bit_of_within (k := 47) w b).trans (h.f_recal b)
  f_recalNext b := (h_recalNext.resolve_left fun w => bit_of_within (k := 48) w b).trans (h.f_recalNext b)
  f_cores b := (h_cores.resolve_left fun w => bit_of_within (k := 49) w b).trans (h.f_cores b)
  f_flash b := (h_flash.resolve_left fun w => bit_of_within (k := 51) w b).trans (h.f_flash b)
  f_fw b := (h_fw.resolve_left fun w => bit_of_within (k := 52) w b).trans (h.f_fw b)
  f_audit b := (h_audit.resolve_left fun w => bit_of_within (k := 53) w b).trans (h.f_audit b)
  f_scrubRun b := (h_scrubRun.resolve_left fun w => bit_of_within (k := 54) w b).trans (h.f_scrubRun b)
  f_remapLog b := (h_remapLog.resolve_left fun w => bit_of_within (k := 55) w b).trans (h.f_remapLog b)
  f_remapWant b := (h_remapWant.resolve_left fun w => bit_of_within (k := 56) w b).trans (h.f_remapWant b)
  f_svcWait b := (h_svcWait.resolve_left fun w => bit_of_within (k := 57) w b).trans (h.f_svcWait b)
  f_jtgIr b := (h_jtgIr.resolve_left fun w => bit_of_within (k := 58) w b).trans (h.f_jtgIr b)
  f_bwBytes b := (h_bwBytes.resolve_left fun w => bit_of_within (k := 59) w b).trans (h.f_bwBytes b)
  f_out b := (h_out.resolve_left fun w => bit_of_within (k := 60) w b).trans (h.f_out b)

/-- The same for a state written out by its fields. -/
theorem Frame.parts {m : Nat} {s t : State} {x_pending : _} {x_env : _} {x_regs : _} {x_shadow : _} {x_force : _} {x_loHeld : _} {x_hiCap : _} {x_free : _} {x_rounds : _} {x_fclk : _} {x_nextUid : _} {x_mem : _} {x_marked : _} {x_ports : _} {x_rotation : _} {x_tokens : _} {x_gates : _} {x_live : _} {x_arrived : _} {x_fwAccs : _} {x_pcs : _} {x_chanLfsr : _} {x_ceLeaks : _} {x_lanes : _} {x_hives : _} {x_ctxs : _} {x_ctxHeld : _} {x_jobs : _} {x_nextJob : _} {x_lateJobs : _} {x_finished : _} {x_hbStart : _} {x_auditSeq : _} {x_spill : _} {x_acks : _} {x_host : _} {x_peer : _} {x_held : _} {x_ring : _} {x_eventSeq : _} {x_logWait : _} {x_evLog : _} {x_occ : _} {x_samplers : _} {x_overruns : _} {x_power : _} {x_thermal : _} {x_recal : _} {x_recalNext : _} {x_cores : _} {x_otp : _} {x_flash : _} {x_fw : _} {x_audit : _} {x_scrubRun : _} {x_remapLog : _} {x_remapWant : _} {x_svcWait : _} {x_jtgIr : _} {x_bwBytes : _} {x_out : _} (h_mem : x_mem = t.mem) (h_otp : x_otp = t.otp)
    (h_pending : Within 0x1 m ∨ x_pending = t.pending)
    (h_env : Within 0x2 m ∨ x_env = t.env)
    (h_regs : Within 0x4 m ∨ x_regs = t.regs)
    (h_shadow : Within 0x8 m ∨ x_shadow = t.shadow)
    (h_force : Within 0x10 m ∨ x_force = t.force)
    (h_loHeld : Within 0x20 m ∨ x_loHeld = t.loHeld)
    (h_hiCap : Within 0x40 m ∨ x_hiCap = t.hiCap)
    (h_free : Within 0x80 m ∨ x_free = t.free)
    (h_rounds : Within 0x100 m ∨ x_rounds = t.rounds)
    (h_fclk : Within 0x200 m ∨ x_fclk = t.fclk)
    (h_nextUid : Within 0x400 m ∨ x_nextUid = t.nextUid)
    (h_marked : Within 0x1000 m ∨ x_marked = t.marked)
    (h_ports : Within 0x2000 m ∨ x_ports = t.ports)
    (h_rotation : Within 0x4000 m ∨ x_rotation = t.rotation)
    (h_tokens : Within 0x8000 m ∨ x_tokens = t.tokens)
    (h_gates : Within 0x10000 m ∨ x_gates = t.gates)
    (h_live : Within 0x20000 m ∨ x_live = t.live)
    (h_arrived : Within 0x40000 m ∨ x_arrived = t.arrived)
    (h_fwAccs : Within 0x80000 m ∨ x_fwAccs = t.fwAccs)
    (h_pcs : Within 0x100000 m ∨ x_pcs = t.pcs)
    (h_chanLfsr : Within 0x200000 m ∨ x_chanLfsr = t.chanLfsr)
    (h_ceLeaks : Within 0x400000 m ∨ x_ceLeaks = t.ceLeaks)
    (h_lanes : Within 0x800000 m ∨ x_lanes = t.lanes)
    (h_hives : Within 0x1000000 m ∨ x_hives = t.hives)
    (h_ctxs : Within 0x2000000 m ∨ x_ctxs = t.ctxs)
    (h_ctxHeld : Within 0x4000000 m ∨ x_ctxHeld = t.ctxHeld)
    (h_jobs : Within 0x8000000 m ∨ x_jobs = t.jobs)
    (h_nextJob : Within 0x10000000 m ∨ x_nextJob = t.nextJob)
    (h_lateJobs : Within 0x20000000 m ∨ x_lateJobs = t.lateJobs)
    (h_finished : Within 0x40000000 m ∨ x_finished = t.finished)
    (h_hbStart : Within 0x80000000 m ∨ x_hbStart = t.hbStart)
    (h_auditSeq : Within 0x100000000 m ∨ x_auditSeq = t.auditSeq)
    (h_spill : Within 0x200000000 m ∨ x_spill = t.spill)
    (h_acks : Within 0x400000000 m ∨ x_acks = t.acks)
    (h_host : Within 0x800000000 m ∨ x_host = t.host)
    (h_peer : Within 0x1000000000 m ∨ x_peer = t.peer)
    (h_held : Within 0x2000000000 m ∨ x_held = t.held)
    (h_ring : Within 0x4000000000 m ∨ x_ring = t.ring)
    (h_eventSeq : Within 0x8000000000 m ∨ x_eventSeq = t.eventSeq)
    (h_logWait : Within 0x10000000000 m ∨ x_logWait = t.logWait)
    (h_evLog : Within 0x20000000000 m ∨ x_evLog = t.evLog)
    (h_occ : Within 0x40000000000 m ∨ x_occ = t.occ)
    (h_samplers : Within 0x80000000000 m ∨ x_samplers = t.samplers)
    (h_overruns : Within 0x100000000000 m ∨ x_overruns = t.overruns)
    (h_power : Within 0x200000000000 m ∨ x_power = t.power)
    (h_thermal : Within 0x400000000000 m ∨ x_thermal = t.thermal)
    (h_recal : Within 0x800000000000 m ∨ x_recal = t.recal)
    (h_recalNext : Within 0x1000000000000 m ∨ x_recalNext = t.recalNext)
    (h_cores : Within 0x2000000000000 m ∨ x_cores = t.cores)
    (h_flash : Within 0x8000000000000 m ∨ x_flash = t.flash)
    (h_fw : Within 0x10000000000000 m ∨ x_fw = t.fw)
    (h_audit : Within 0x20000000000000 m ∨ x_audit = t.audit)
    (h_scrubRun : Within 0x40000000000000 m ∨ x_scrubRun = t.scrubRun)
    (h_remapLog : Within 0x80000000000000 m ∨ x_remapLog = t.remapLog)
    (h_remapWant : Within 0x100000000000000 m ∨ x_remapWant = t.remapWant)
    (h_svcWait : Within 0x200000000000000 m ∨ x_svcWait = t.svcWait)
    (h_jtgIr : Within 0x400000000000000 m ∨ x_jtgIr = t.jtgIr)
    (h_bwBytes : Within 0x800000000000000 m ∨ x_bwBytes = t.bwBytes)
    (h_out : Within 0x1000000000000000 m ∨ x_out = t.out)
    (h : Frame m s t) : Frame m s ⟨x_pending, x_env, x_regs, x_shadow, x_force, x_loHeld, x_hiCap, x_free, x_rounds, x_fclk, x_nextUid, x_mem, x_marked, x_ports, x_rotation, x_tokens, x_gates, x_live, x_arrived, x_fwAccs, x_pcs, x_chanLfsr, x_ceLeaks, x_lanes, x_hives, x_ctxs, x_ctxHeld, x_jobs, x_nextJob, x_lateJobs, x_finished, x_hbStart, x_auditSeq, x_spill, x_acks, x_host, x_peer, x_held, x_ring, x_eventSeq, x_logWait, x_evLog, x_occ, x_samplers, x_overruns, x_power, x_thermal, x_recal, x_recalNext, x_cores, x_otp, x_flash, x_fw, x_audit, x_scrubRun, x_remapLog, x_remapWant, x_svcWait, x_jtgIr, x_bwBytes, x_out⟩ :=
  h.upd h_mem h_otp h_pending h_env h_regs h_shadow h_force h_loHeld h_hiCap h_free h_rounds h_fclk h_nextUid h_marked h_ports h_rotation h_tokens h_gates h_live h_arrived h_fwAccs h_pcs h_chanLfsr h_ceLeaks h_lanes h_hives h_ctxs h_ctxHeld h_jobs h_nextJob h_lateJobs h_finished h_hbStart h_auditSeq h_spill h_acks h_host h_peer h_held h_ring h_eventSeq h_logWait h_evLog h_occ h_samplers h_overruns h_power h_thermal h_recal h_recalNext h_cores h_flash h_fw h_audit h_scrubRun h_remapLog h_remapWant h_svcWait h_jtgIr h_bwBytes h_out

/-- Device memory is rewritten. -/
theorem Frame.memory {m : Nat} {s t : State} {x : List Host.Cell} {y : List Nat} (hb : Within 0x800 m) (hc : Within 0x1000 m)
    (hx : memWf t.mem = true → memWf x = true) (h : Frame m s t) : Frame m s { t with mem := x, marked := y } where
  memOk w := hx (h.memOk w)
  otpOk := h.otpOk
  fixOk := h.fixOk
  f_pending := h.f_pending
  f_env := h.f_env
  f_regs := h.f_regs
  f_shadow := h.f_shadow
  f_force := h.f_force
  f_loHeld := h.f_loHeld
  f_hiCap := h.f_hiCap
  f_free := h.f_free
  f_rounds := h.f_rounds
  f_fclk := h.f_fclk
  f_nextUid := h.f_nextUid
  f_mem b := (bit_of_within (k := 11) hb b).elim
  f_marked b := (bit_of_within (k := 12) hc b).elim
  f_ports := h.f_ports
  f_rotation := h.f_rotation
  f_tokens := h.f_tokens
  f_gates := h.f_gates
  f_live := h.f_live
  f_arrived := h.f_arrived
  f_fwAccs := h.f_fwAccs
  f_pcs := h.f_pcs
  f_chanLfsr := h.f_chanLfsr
  f_ceLeaks := h.f_ceLeaks
  f_lanes := h.f_lanes
  f_hives := h.f_hives
  f_ctxs := h.f_ctxs
  f_ctxHeld := h.f_ctxHeld
  f_jobs := h.f_jobs
  f_nextJob := h.f_nextJob
  f_lateJobs := h.f_lateJobs
  f_finished := h.f_finished
  f_hbStart := h.f_hbStart
  f_auditSeq := h.f_auditSeq
  f_spill := h.f_spill
  f_acks := h.f_acks
  f_host := h.f_host
  f_peer := h.f_peer
  f_held := h.f_held
  f_ring := h.f_ring
  f_eventSeq := h.f_eventSeq
  f_logWait := h.f_logWait
  f_evLog := h.f_evLog
  f_occ := h.f_occ
  f_samplers := h.f_samplers
  f_overruns := h.f_overruns
  f_power := h.f_power
  f_thermal := h.f_thermal
  f_recal := h.f_recal
  f_recalNext := h.f_recalNext
  f_cores := h.f_cores
  f_otp := h.f_otp
  f_flash := h.f_flash
  f_fw := h.f_fw
  f_audit := h.f_audit
  f_scrubRun := h.f_scrubRun
  f_remapLog := h.f_remapLog
  f_remapWant := h.f_remapWant
  f_svcWait := h.f_svcWait
  f_jtgIr := h.f_jtgIr
  f_bwBytes := h.f_bwBytes
  f_out := h.f_out

/-- OTP words are programmed, others than those of debug access. -/
theorem Frame.set_otp {m : Nat} {s t : State} {x : Otp} (hb : Within 0x4000000000000 m) (hx : OtpKept t.otp x) (hf : OtpFixed t.otp x)
    (h : Frame m s t) : Frame m s { t with otp := x } where
  memOk := h.memOk
  otpOk := h.otpOk.trans hx
  fixOk b := (h.fixOk b).trans hf
  f_pending := h.f_pending
  f_env := h.f_env
  f_regs := h.f_regs
  f_shadow := h.f_shadow
  f_force := h.f_force
  f_loHeld := h.f_loHeld
  f_hiCap := h.f_hiCap
  f_free := h.f_free
  f_rounds := h.f_rounds
  f_fclk := h.f_fclk
  f_nextUid := h.f_nextUid
  f_mem := h.f_mem
  f_marked := h.f_marked
  f_ports := h.f_ports
  f_rotation := h.f_rotation
  f_tokens := h.f_tokens
  f_gates := h.f_gates
  f_live := h.f_live
  f_arrived := h.f_arrived
  f_fwAccs := h.f_fwAccs
  f_pcs := h.f_pcs
  f_chanLfsr := h.f_chanLfsr
  f_ceLeaks := h.f_ceLeaks
  f_lanes := h.f_lanes
  f_hives := h.f_hives
  f_ctxs := h.f_ctxs
  f_ctxHeld := h.f_ctxHeld
  f_jobs := h.f_jobs
  f_nextJob := h.f_nextJob
  f_lateJobs := h.f_lateJobs
  f_finished := h.f_finished
  f_hbStart := h.f_hbStart
  f_auditSeq := h.f_auditSeq
  f_spill := h.f_spill
  f_acks := h.f_acks
  f_host := h.f_host
  f_peer := h.f_peer
  f_held := h.f_held
  f_ring := h.f_ring
  f_eventSeq := h.f_eventSeq
  f_logWait := h.f_logWait
  f_evLog := h.f_evLog
  f_occ := h.f_occ
  f_samplers := h.f_samplers
  f_overruns := h.f_overruns
  f_power := h.f_power
  f_thermal := h.f_thermal
  f_recal := h.f_recal
  f_recalNext := h.f_recalNext
  f_cores := h.f_cores
  f_otp b := (bit_of_within (k := 50) hb b).elim
  f_flash := h.f_flash
  f_fw := h.f_fw
  f_audit := h.f_audit
  f_scrubRun := h.f_scrubRun
  f_remapLog := h.f_remapLog
  f_remapWant := h.f_remapWant
  f_svcWait := h.f_svcWait
  f_jtgIr := h.f_jtgIr
  f_bwBytes := h.f_bwBytes
  f_out := h.f_out

/-- Any OTP words are programmed. -/
theorem Frame.any_otp {m : Nat} {s t : State} {x : Otp} (hb : Within 0x4000000000000 m) (hd : Within 0x2000000000000000 m) (hx : OtpKept t.otp x)
    (h : Frame m s t) : Frame m s { t with otp := x } where
  memOk := h.memOk
  otpOk := h.otpOk.trans hx
  fixOk b := (bit_of_within (k := 61) hd b).elim
  f_pending := h.f_pending
  f_env := h.f_env
  f_regs := h.f_regs
  f_shadow := h.f_shadow
  f_force := h.f_force
  f_loHeld := h.f_loHeld
  f_hiCap := h.f_hiCap
  f_free := h.f_free
  f_rounds := h.f_rounds
  f_fclk := h.f_fclk
  f_nextUid := h.f_nextUid
  f_mem := h.f_mem
  f_marked := h.f_marked
  f_ports := h.f_ports
  f_rotation := h.f_rotation
  f_tokens := h.f_tokens
  f_gates := h.f_gates
  f_live := h.f_live
  f_arrived := h.f_arrived
  f_fwAccs := h.f_fwAccs
  f_pcs := h.f_pcs
  f_chanLfsr := h.f_chanLfsr
  f_ceLeaks := h.f_ceLeaks
  f_lanes := h.f_lanes
  f_hives := h.f_hives
  f_ctxs := h.f_ctxs
  f_ctxHeld := h.f_ctxHeld
  f_jobs := h.f_jobs
  f_nextJob := h.f_nextJob
  f_lateJobs := h.f_lateJobs
  f_finished := h.f_finished
  f_hbStart := h.f_hbStart
  f_auditSeq := h.f_auditSeq
  f_spill := h.f_spill
  f_acks := h.f_acks
  f_host := h.f_host
  f_peer := h.f_peer
  f_held := h.f_held
  f_ring := h.f_ring
  f_eventSeq := h.f_eventSeq
  f_logWait := h.f_logWait
  f_evLog := h.f_evLog
  f_occ := h.f_occ
  f_samplers := h.f_samplers
  f_overruns := h.f_overruns
  f_power := h.f_power
  f_thermal := h.f_thermal
  f_recal := h.f_recal
  f_recalNext := h.f_recalNext
  f_cores := h.f_cores
  f_otp b := (bit_of_within (k := 50) hb b).elim
  f_flash := h.f_flash
  f_fw := h.f_fw
  f_audit := h.f_audit
  f_scrubRun := h.f_scrubRun
  f_remapLog := h.f_remapLog
  f_remapWant := h.f_remapWant
  f_svcWait := h.f_svcWait
  f_jtgIr := h.f_jtgIr
  f_bwBytes := h.f_bwBytes
  f_out := h.f_out

theorem Frame.set_regs {m : Nat} {s t : State} {x : _} (hb : Within 0x4 m) (h : Frame m s t) : Frame m s { t with regs := x } :=
  h.upd rfl rfl (.inr rfl) (.inr rfl) (.inl hb) (.inr rfl) (.inr rfl) (.inr rfl) (.inr rfl) (.inr rfl) (.inr rfl) (.inr rfl) (.inr rfl) (.inr rfl) (.inr rfl) (.inr rfl) (.inr rfl) (.inr rfl) (.inr rfl) (.inr rfl) (.inr rfl) (.inr rfl) (.inr rfl) (.inr rfl) (.inr rfl) (.inr rfl) (.inr rfl) (.inr rfl) (.inr rfl) (.inr rfl) (.inr rfl) (.inr rfl) (.inr rfl) (.inr rfl) (.inr rfl) (.inr rfl) (.inr rfl) (.inr rfl) (.inr rfl) (.inr rfl) (.inr rfl) (.inr rfl) (.inr rfl) (.inr rfl) (.inr rfl) (.inr rfl) (.inr rfl) (.inr rfl) (.inr rfl) (.inr rfl) (.inr rfl) (.inr rfl) (.inr rfl) (.inr rfl) (.inr rfl) (.inr rfl) (.inr rfl) (.inr rfl) (.inr rfl) (.inr rfl) (.inr rfl)

theorem Frame.set_shadow {m : Nat} {s t : State} {x : _} (hb : Within 0x8 m) (h : Frame m s t) : Frame m s { t with shadow := x } :=
  h.upd rfl rfl (.inr rfl) (.inr rfl) (.inr rfl) (.inl hb) (.inr rfl) (.inr rfl) (.inr rfl) (.inr rfl) (.inr rfl) (.inr rfl) (.inr rfl) (.inr rfl) (.inr rfl) (.inr rfl) (.inr rfl) (.inr rfl) (.inr rfl) (.inr rfl) (.inr rfl) (.inr rfl) (.inr rfl) (.inr rfl) (.inr rfl) (.inr rfl) (.inr rfl) (.inr rfl) (.inr rfl) (.inr rfl) (.inr rfl) (.inr rfl) (.inr rfl) (.inr rfl) (.inr rfl) (.inr rfl) (.inr rfl) (.inr rfl) (.inr rfl) (.inr rfl) (.inr rfl) (.inr rfl) (.inr rfl) (.inr rfl) (.inr rfl) (.inr rfl) (.inr rfl) (.inr rfl) (.inr rfl) (.inr rfl) (.inr rfl) (.inr rfl) (.inr rfl) (.inr rfl) (.inr rfl) (.inr rfl) (.inr rfl) (.inr rfl) (.inr rfl) (.inr rfl) (.inr rfl)

theorem Frame.set_force {m : Nat} {s t : State} {x : _} (hb : Within 0x10 m) (h : Frame m s t) : Frame m s { t with force := x } :=
  h.upd rfl rfl (.inr rfl) (.inr rfl) (.inr rfl) (.inr rfl) (.inl hb) (.inr rfl) (.inr rfl) (.inr rfl) (.inr rfl) (.inr rfl) (.inr rfl) (.inr rfl) (.inr rfl) (.inr rfl) (.inr rfl) (.inr rfl) (.inr rfl) (.inr rfl) (.inr rfl) (.inr rfl) (.inr rfl) (.inr rfl) (.inr rfl) (.inr rfl) (.inr rfl) (.inr rfl) (.inr rfl) (.inr rfl) (.inr rfl) (.inr rfl) (.inr rfl) (.inr rfl) (.inr rfl) (.inr rfl) (.inr rfl) (.inr rfl) (.inr rfl) (.inr rfl) (.inr rfl) (.inr rfl) (.inr rfl) (.inr rfl) (.inr rfl) (.inr rfl) (.inr rfl) (.inr rfl) (.inr rfl) (.inr rfl) (.inr rfl) (.inr rfl) (.inr rfl) (.inr rfl) (.inr rfl) (.inr rfl) (.inr rfl) (.inr rfl) (.inr rfl) (.inr rfl) (.inr rfl)

theorem Frame.set_loHeld {m : Nat} {s t : State} {x : _} (hb : Within 0x20 m) (h : Frame m s t) : Frame m s { t with loHeld := x } :=
  h.upd rfl rfl (.inr rfl) (.inr rfl) (.inr rfl) (.inr rfl) (.inr rfl) (.inl hb) (.inr rfl) (.inr rfl) (.inr rfl) (.inr rfl) (.inr rfl) (.inr rfl) (.inr rfl) (.inr rfl) (.inr rfl) (.inr rfl) (.inr rfl) (.inr rfl) (.inr rfl) (.inr rfl) (.inr rfl) (.inr rfl) (.inr rfl) (.inr rfl) (.inr rfl) (.inr rfl) (.inr rfl) (.inr rfl) (.inr rfl) (.inr rfl) (.inr rfl) (.inr rfl) (.inr rfl) (.inr rfl) (.inr rfl) (.inr rfl) (.inr rfl) (.inr rfl) (.inr rfl) (.inr rfl) (.inr rfl) (.inr rfl) (.inr rfl) (.inr rfl) (.inr rfl) (.inr rfl) (.inr rfl) (.inr rfl) (.inr rfl) (.inr rfl) (.inr rfl) (.inr rfl) (.inr rfl) (.inr rfl) (.inr rfl) (.inr rfl) (.inr rfl) (.inr rfl) (.inr rfl)

theorem Frame.set_hiCap {m : Nat} {s t : State} {x : _} (hb : Within 0x40 m) (h : Frame m s t) : Frame m s { t with hiCap := x } :=
  h.upd rfl rfl (.inr rfl) (.inr rfl) (.inr rfl) (.inr rfl) (.inr rfl) (.inr rfl) (.inl hb) (.inr rfl) (.inr rfl) (.inr rfl) (.inr rfl) (.inr rfl) (.inr rfl) (.inr rfl) (.inr rfl) (.inr rfl) (.inr rfl) (.inr rfl) (.inr rfl) (.inr rfl) (.inr rfl) (.inr rfl) (.inr rfl) (.inr rfl) (.inr rfl) (.inr rfl) (.inr rfl) (.inr rfl) (.inr rfl) (.inr rfl) (.inr rfl) (.inr rfl) (.inr rfl) (.inr rfl) (.inr rfl) (.inr rfl) (.inr rfl) (.inr rfl) (.inr rfl) (.inr rfl) (.inr rfl) (.inr rfl) (.inr rfl) (.inr rfl) (.inr rfl) (.inr rfl) (.inr rfl) (.inr rfl) (.inr rfl) (.inr rfl) (.inr rfl) (.inr rfl) (.inr rfl) (.inr rfl) (.inr rfl) (.inr rfl) (.inr rfl) (.inr rfl) (.inr rfl)

theorem Frame.set_free {m : Nat} {s t : State} {x : _} (hb : Within 0x80 m) (h : Frame m s t) : Frame m s { t with free := x } :=
  h.upd rfl rfl (.inr rfl) (.inr rfl) (.inr rfl) (.inr rfl) (.inr rfl) (.inr rfl) (.inr rfl) (.inl hb) (.inr rfl) (.inr rfl) (.inr rfl) (.inr rfl) (.inr rfl) (.inr rfl) (.inr rfl) (.inr rfl) (.inr rfl) (.inr rfl) (.inr rfl) (.inr rfl) (.inr rfl) (.inr rfl) (.inr rfl) (.inr rfl) (.inr rfl) (.inr rfl) (.inr rfl) (.inr rfl) (.inr rfl) (.inr rfl) (.inr rfl) (.inr rfl) (.inr rfl) (.inr rfl) (.inr rfl) (.inr rfl) (.inr rfl) (.inr rfl) (.inr rfl) (.inr rfl) (.inr rfl) (.inr rfl) (.inr rfl) (.inr rfl) (.inr rfl) (.inr rfl) (.inr rfl) (.inr rfl) (.inr rfl) (.inr rfl) (.inr rfl) (.inr rfl) (.inr rfl) (.inr rfl) (.inr rfl) (.inr rfl) (.inr rfl) (.inr rfl) (.inr rfl)

theorem Frame.set_rounds {m : Nat} {s t : State} {x : _} (hb : Within 0x100 m) (h : Frame m s t) : Frame m s { t with rounds := x } :=
  h.upd rfl rfl (.inr rfl) (.inr rfl) (.inr rfl) (.inr rfl) (.inr rfl) (.inr rfl) (.inr rfl) (.inr rfl) (.inl hb) (.inr rfl) (.inr rfl) (.inr rfl) (.inr rfl) (.inr rfl) (.inr rfl) (.inr rfl) (.inr rfl) (.inr rfl) (.inr rfl) (.inr rfl) (.inr rfl) (.inr rfl) (.inr rfl) (.inr rfl) (.inr rfl) (.inr rfl) (.inr rfl) (.inr rfl) (.inr rfl) (.inr rfl) (.inr rfl) (.inr rfl) (.inr rfl) (.inr rfl) (.inr rfl) (.inr rfl) (.inr rfl) (.inr rfl) (.inr rfl) (.inr rfl) (.inr rfl) (.inr rfl) (.inr rfl) (.inr rfl) (.inr rfl) (.inr rfl) (.inr rfl) (.inr rfl) (.inr rfl) (.inr rfl) (.inr rfl) (.inr rfl) (.inr rfl) (.inr rfl) (.inr rfl) (.inr rfl) (.inr rfl) (.inr rfl) (.inr rfl)

theorem Frame.set_fclk {m : Nat} {s t : State} {x : _} (hb : Within 0x200 m) (h : Frame m s t) : Frame m s { t with fclk := x } :=
  h.upd rfl rfl (.inr rfl) (.inr rfl) (.inr rfl) (.inr rfl) (.inr rfl) (.inr rfl) (.inr rfl) (.inr rfl) (.inr rfl) (.inl hb) (.inr rfl) (.inr rfl) (.inr rfl) (.inr rfl) (.inr rfl) (.inr rfl) (.inr rfl) (.inr rfl) (.inr rfl) (.inr rfl) (.inr rfl) (.inr rfl) (.inr rfl) (.inr rfl) (.inr rfl) (.inr rfl) (.inr rfl) (.inr rfl) (.inr rfl) (.inr rfl) (.inr rfl) (.inr rfl) (.inr rfl) (.inr rfl) (.inr rfl) (.inr rfl) (.inr rfl) (.inr rfl) (.inr rfl) (.inr rfl) (.inr rfl) (.inr rfl) (.inr rfl) (.inr rfl) (.inr rfl) (.inr rfl) (.inr rfl) (.inr rfl) (.inr rfl) (.inr rfl) (.inr rfl) (.inr rfl) (.inr rfl) (.inr rfl) (.inr rfl) (.inr rfl) (.inr rfl) (.inr rfl) (.inr rfl)

theorem Frame.set_nextUid {m : Nat} {s t : State} {x : _} (hb : Within 0x400 m) (h : Frame m s t) : Frame m s { t with nextUid := x } :=
  h.upd rfl rfl (.inr rfl) (.inr rfl) (.inr rfl) (.inr rfl) (.inr rfl) (.inr rfl) (.inr rfl) (.inr rfl) (.inr rfl) (.inr rfl) (.inl hb) (.inr rfl) (.inr rfl) (.inr rfl) (.inr rfl) (.inr rfl) (.inr rfl) (.inr rfl) (.inr rfl) (.inr rfl) (.inr rfl) (.inr rfl) (.inr rfl) (.inr rfl) (.inr rfl) (.inr rfl) (.inr rfl) (.inr rfl) (.inr rfl) (.inr rfl) (.inr rfl) (.inr rfl) (.inr rfl) (.inr rfl) (.inr rfl) (.inr rfl) (.inr rfl) (.inr rfl) (.inr rfl) (.inr rfl) (.inr rfl) (.inr rfl) (.inr rfl) (.inr rfl) (.inr rfl) (.inr rfl) (.inr rfl) (.inr rfl) (.inr rfl) (.inr rfl) (.inr rfl) (.inr rfl) (.inr rfl) (.inr rfl) (.inr rfl) (.inr rfl) (.inr rfl) (.inr rfl) (.inr rfl)

theorem Frame.set_marked {m : Nat} {s t : State} {x : _} (hb : Within 0x1000 m) (h : Frame m s t) : Frame m s { t with marked := x } :=
  h.upd rfl rfl (.inr rfl) (.inr rfl) (.inr rfl) (.inr rfl) (.inr rfl) (.inr rfl) (.inr rfl) (.inr rfl) (.inr rfl) (.inr rfl) (.inr rfl) (.inl hb) (.inr rfl) (.inr rfl) (.inr rfl) (.inr rfl) (.inr rfl) (.inr rfl) (.inr rfl) (.inr rfl) (.inr rfl) (.inr rfl) (.inr rfl) (.inr rfl) (.inr rfl) (.inr rfl) (.inr rfl) (.inr rfl) (.inr rfl) (.inr rfl) (.inr rfl) (.inr rfl) (.inr rfl) (.inr rfl) (.inr rfl) (.inr rfl) (.inr rfl) (.inr rfl) (.inr rfl) (.inr rfl) (.inr rfl) (.inr rfl) (.inr rfl) (.inr rfl) (.inr rfl) (.inr rfl) (.inr rfl) (.inr rfl) (.inr rfl) (.inr rfl) (.inr rfl) (.inr rfl) (.inr rfl) (.inr rfl) (.inr rfl) (.inr rfl) (.inr rfl) (.inr rfl) (.inr rfl)

theorem Frame.set_ports {m : Nat} {s t : State} {x : _} (hb : Within 0x2000 m) (h : Frame m s t) : Frame m s { t with ports := x } :=
  h.upd rfl rfl (.inr rfl) (.inr rfl) (.inr rfl) (.inr rfl) (.inr rfl) (.inr rfl) (.inr rfl) (.inr rfl) (.inr rfl) (.inr rfl) (.inr rfl) (.inr rfl) (.inl hb) (.inr rfl) (.inr rfl) (.inr rfl) (.inr rfl) (.inr rfl) (.inr rfl) (.inr rfl) (.inr rfl) (.inr rfl) (.inr rfl) (.inr rfl) (.inr rfl) (.inr rfl) (.inr rfl) (.inr rfl) (.inr rfl) (.inr rfl) (.inr rfl) (.inr rfl) (.inr rfl) (.inr rfl) (.inr rfl) (.inr rfl) (.inr rfl) (.inr rfl) (.inr rfl) (.inr rfl) (.inr rfl) (.inr rfl) (.inr rfl) (.inr rfl) (.inr rfl) (.inr rfl) (.inr rfl) (.inr rfl) (.inr rfl) (.inr rfl) (.inr rfl) (.inr rfl) (.inr rfl) (.inr rfl) (.inr rfl) (.inr rfl) (.inr rfl) (.inr rfl) (.inr rfl)

theorem Frame.set_rotation {m : Nat} {s t : State} {x : _} (hb : Within 0x4000 m) (h : Frame m s t) : Frame m s { t with rotation := x } :=
  h.upd rfl rfl (.inr rfl) (.inr rfl) (.inr rfl) (.inr rfl) (.inr rfl) (.inr rfl) (.inr rfl) (.inr rfl) (.inr rfl) (.inr rfl) (.inr rfl) (.inr rfl) (.inr rfl) (.inl hb) (.inr rfl) (.inr rfl) (.inr rfl) (.inr rfl) (.inr rfl) (.inr rfl) (.inr rfl) (.inr rfl) (.inr rfl) (.inr rfl) (.inr rfl) (.inr rfl) (.inr rfl) (.inr rfl) (.inr rfl) (.inr rfl) (.inr rfl) (.inr rfl) (.inr rfl) (.inr rfl) (.inr rfl) (.inr rfl) (.inr rfl) (.inr rfl) (.inr rfl) (.inr rfl) (.inr rfl) (.inr rfl) (.inr rfl) (.inr rfl) (.inr rfl) (.inr rfl) (.inr rfl) (.inr rfl) (.inr rfl) (.inr rfl) (.inr rfl) (.inr rfl) (.inr rfl) (.inr rfl) (.inr rfl) (.inr rfl) (.inr rfl) (.inr rfl) (.inr rfl)

theorem Frame.set_tokens {m : Nat} {s t : State} {x : _} (hb : Within 0x8000 m) (h : Frame m s t) : Frame m s { t with tokens := x } :=
  h.upd rfl rfl (.inr rfl) (.inr rfl) (.inr rfl) (.inr rfl) (.inr rfl) (.inr rfl) (.inr rfl) (.inr rfl) (.inr rfl) (.inr rfl) (.inr rfl) (.inr rfl) (.inr rfl) (.inr rfl) (.inl hb) (.inr rfl) (.inr rfl) (.inr rfl) (.inr rfl) (.inr rfl) (.inr rfl) (.inr rfl) (.inr rfl) (.inr rfl) (.inr rfl) (.inr rfl) (.inr rfl) (.inr rfl) (.inr rfl) (.inr rfl) (.inr rfl) (.inr rfl) (.inr rfl) (.inr rfl) (.inr rfl) (.inr rfl) (.inr rfl) (.inr rfl) (.inr rfl) (.inr rfl) (.inr rfl) (.inr rfl) (.inr rfl) (.inr rfl) (.inr rfl) (.inr rfl) (.inr rfl) (.inr rfl) (.inr rfl) (.inr rfl) (.inr rfl) (.inr rfl) (.inr rfl) (.inr rfl) (.inr rfl) (.inr rfl) (.inr rfl) (.inr rfl) (.inr rfl)

theorem Frame.set_gates {m : Nat} {s t : State} {x : _} (hb : Within 0x10000 m) (h : Frame m s t) : Frame m s { t with gates := x } :=
  h.upd rfl rfl (.inr rfl) (.inr rfl) (.inr rfl) (.inr rfl) (.inr rfl) (.inr rfl) (.inr rfl) (.inr rfl) (.inr rfl) (.inr rfl) (.inr rfl) (.inr rfl) (.inr rfl) (.inr rfl) (.inr rfl) (.inl hb) (.inr rfl) (.inr rfl) (.inr rfl) (.inr rfl) (.inr rfl) (.inr rfl) (.inr rfl) (.inr rfl) (.inr rfl) (.inr rfl) (.inr rfl) (.inr rfl) (.inr rfl) (.inr rfl) (.inr rfl) (.inr rfl) (.inr rfl) (.inr rfl) (.inr rfl) (.inr rfl) (.inr rfl) (.inr rfl) (.inr rfl) (.inr rfl) (.inr rfl) (.inr rfl) (.inr rfl) (.inr rfl) (.inr rfl) (.inr rfl) (.inr rfl) (.inr rfl) (.inr rfl) (.inr rfl) (.inr rfl) (.inr rfl) (.inr rfl) (.inr rfl) (.inr rfl) (.inr rfl) (.inr rfl) (.inr rfl) (.inr rfl)

theorem Frame.set_live {m : Nat} {s t : State} {x : _} (hb : Within 0x20000 m) (h : Frame m s t) : Frame m s { t with live := x } :=
  h.upd rfl rfl (.inr rfl) (.inr rfl) (.inr rfl) (.inr rfl) (.inr rfl) (.inr rfl) (.inr rfl) (.inr rfl) (.inr rfl) (.inr rfl) (.inr rfl) (.inr rfl) (.inr rfl) (.inr rfl) (.inr rfl) (.inr rfl) (.inl hb) (.inr rfl) (.inr rfl) (.inr rfl) (.inr rfl) (.inr rfl) (.inr rfl) (.inr rfl) (.inr rfl) (.inr rfl) (.inr rfl) (.inr rfl) (.inr rfl) (.inr rfl) (.inr rfl) (.inr rfl) (.inr rfl) (.inr rfl) (.inr rfl) (.inr rfl) (.inr rfl) (.inr rfl) (.inr rfl) (.inr rfl) (.inr rfl) (.inr rfl) (.inr rfl) (.inr rfl) (.inr rfl) (.inr rfl) (.inr rfl) (.inr rfl) (.inr rfl) (.inr rfl) (.inr rfl) (.inr rfl) (.inr rfl) (.inr rfl) (.inr rfl) (.inr rfl) (.inr rfl) (.inr rfl) (.inr rfl)

theorem Frame.set_arrived {m : Nat} {s t : State} {x : _} (hb : Within 0x40000 m) (h : Frame m s t) : Frame m s { t with arrived := x } :=
  h.upd rfl rfl (.inr rfl) (.inr rfl) (.inr rfl) (.inr rfl) (.inr rfl) (.inr rfl) (.inr rfl) (.inr rfl) (.inr rfl) (.inr rfl) (.inr rfl) (.inr rfl) (.inr rfl) (.inr rfl) (.inr rfl) (.inr rfl) (.inr rfl) (.inl hb) (.inr rfl) (.inr rfl) (.inr rfl) (.inr rfl) (.inr rfl) (.inr rfl) (.inr rfl) (.inr rfl) (.inr rfl) (.inr rfl) (.inr rfl) (.inr rfl) (.inr rfl) (.inr rfl) (.inr rfl) (.inr rfl) (.inr rfl) (.inr rfl) (.inr rfl) (.inr rfl) (.inr rfl) (.inr rfl) (.inr rfl) (.inr rfl) (.inr rfl) (.inr rfl) (.inr rfl) (.inr rfl) (.inr rfl) (.inr rfl) (.inr rfl) (.inr rfl) (.inr rfl) (.inr rfl) (.inr rfl) (.inr rfl) (.inr rfl) (.inr rfl) (.inr rfl) (.inr rfl) (.inr rfl)

theorem Frame.set_fwAccs {m : Nat} {s t : State} {x : _} (hb : Within 0x80000 m) (h : Frame m s t) : Frame m s { t with fwAccs := x } :=
  h.upd rfl rfl (.inr rfl) (.inr rfl) (.inr rfl) (.inr rfl) (.inr rfl) (.inr rfl) (.inr rfl) (.inr rfl) (.inr rfl) (.inr rfl) (.inr rfl) (.inr rfl) (.inr rfl) (.inr rfl) (.inr rfl) (.inr rfl) (.inr rfl) (.inr rfl) (.inl hb) (.inr rfl) (.inr rfl) (.inr rfl) (.inr rfl) (.inr rfl) (.inr rfl) (.inr rfl) (.inr rfl) (.inr rfl) (.inr rfl) (.inr rfl) (.inr rfl) (.inr rfl) (.inr rfl) (.inr rfl) (.inr rfl) (.inr rfl) (.inr rfl) (.inr rfl) (.inr rfl) (.inr rfl) (.inr rfl) (.inr rfl) (.inr rfl) (.inr rfl) (.inr rfl) (.inr rfl) (.inr rfl) (.inr rfl) (.inr rfl) (.inr rfl) (.inr rfl) (.inr rfl) (.inr rfl) (.inr rfl) (.inr rfl) (.inr rfl) (.inr rfl) (.inr rfl) (.inr rfl)

theorem Frame.set_pcs {m : Nat} {s t : State} {x : _} (hb : Within 0x100000 m) (h : Frame m s t) : Frame m s { t with pcs := x } :=
  h.upd rfl rfl (.inr rfl) (.inr rfl) (.inr rfl) (.inr rfl) (.inr rfl) (.inr rfl) (.inr rfl) (.inr rfl) (.inr rfl) (.inr rfl) (.inr rfl) (.inr rfl) (.inr rfl) (.inr rfl) (.inr rfl) (.inr rfl) (.inr rfl) (.inr rfl) (.inr rfl) (.inl hb) (.inr rfl) (.inr rfl) (.inr rfl) (.inr rfl) (.inr rfl) (.inr rfl) (.inr rfl) (.inr rfl) (.inr rfl) (.inr rfl) (.inr rfl) (.inr rfl) (.inr rfl) (.inr rfl) (.inr rfl) (.inr rfl) (.inr rfl) (.inr rfl) (.inr rfl) (.inr rfl) (.inr rfl) (.inr rfl) (.inr rfl) (.inr rfl) (.inr rfl) (.inr rfl) (.inr rfl) (.inr rfl) (.inr rfl) (.inr rfl) (.inr rfl) (.inr rfl) (.inr rfl) (.inr rfl) (.inr rfl) (.inr rfl) (.inr rfl) (.inr rfl) (.inr rfl)

theorem Frame.set_chanLfsr {m : Nat} {s t : State} {x : _} (hb : Within 0x200000 m) (h : Frame m s t) : Frame m s { t with chanLfsr := x } :=
  h.upd rfl rfl (.inr rfl) (.inr rfl) (.inr rfl) (.inr rfl) (.inr rfl) (.inr rfl) (.inr rfl) (.inr rfl) (.inr rfl) (.inr rfl) (.inr rfl) (.inr rfl) (.inr rfl) (.inr rfl) (.inr rfl) (.inr rfl) (.inr rfl) (.inr rfl) (.inr rfl) (.inr rfl) (.inl hb) (.inr rfl) (.inr rfl) (.inr rfl) (.inr rfl) (.inr rfl) (.inr rfl) (.inr rfl) (.inr rfl) (.inr rfl) (.inr rfl) (.inr rfl) (.inr rfl) (.inr rfl) (.inr rfl) (.inr rfl) (.inr rfl) (.inr rfl) (.inr rfl) (.inr rfl) (.inr rfl) (.inr rfl) (.inr rfl) (.inr rfl) (.inr rfl) (.inr rfl) (.inr rfl) (.inr rfl) (.inr rfl) (.inr rfl) (.inr rfl) (.inr rfl) (.inr rfl) (.inr rfl) (.inr rfl) (.inr rfl) (.inr rfl) (.inr rfl) (.inr rfl)

theorem Frame.set_ceLeaks {m : Nat} {s t : State} {x : _} (hb : Within 0x400000 m) (h : Frame m s t) : Frame m s { t with ceLeaks := x } :=
  h.upd rfl rfl (.inr rfl) (.inr rfl) (.inr rfl) (.inr rfl) (.inr rfl) (.inr rfl) (.inr rfl) (.inr rfl) (.inr rfl) (.inr rfl) (.inr rfl) (.inr rfl) (.inr rfl) (.inr rfl) (.inr rfl) (.inr rfl) (.inr rfl) (.inr rfl) (.inr rfl) (.inr rfl) (.inr rfl) (.inl hb) (.inr rfl) (.inr rfl) (.inr rfl) (.inr rfl) (.inr rfl) (.inr rfl) (.inr rfl) (.inr rfl) (.inr rfl) (.inr rfl) (.inr rfl) (.inr rfl) (.inr rfl) (.inr rfl) (.inr rfl) (.inr rfl) (.inr rfl) (.inr rfl) (.inr rfl) (.inr rfl) (.inr rfl) (.inr rfl) (.inr rfl) (.inr rfl) (.inr rfl) (.inr rfl) (.inr rfl) (.inr rfl) (.inr rfl) (.inr rfl) (.inr rfl) (.inr rfl) (.inr rfl) (.inr rfl) (.inr rfl) (.inr rfl) (.inr rfl)

theorem Frame.set_lanes {m : Nat} {s t : State} {x : _} (hb : Within 0x800000 m) (h : Frame m s t) : Frame m s { t with lanes := x } :=
  h.upd rfl rfl (.inr rfl) (.inr rfl) (.inr rfl) (.inr rfl) (.inr rfl) (.inr rfl) (.inr rfl) (.inr rfl) (.inr rfl) (.inr rfl) (.inr rfl) (.inr rfl) (.inr rfl) (.inr rfl) (.inr rfl) (.inr rfl) (.inr rfl) (.inr rfl) (.inr rfl) (.inr rfl) (.inr rfl) (.inr rfl) (.inl hb) (.inr rfl) (.inr rfl) (.inr rfl) (.inr rfl) (.inr rfl) (.inr rfl) (.inr rfl) (.inr rfl) (.inr rfl) (.inr rfl) (.inr rfl) (.inr rfl) (.inr rfl) (.inr rfl) (.inr rfl) (.inr rfl) (.inr rfl) (.inr rfl) (.inr rfl) (.inr rfl) (.inr rfl) (.inr rfl) (.inr rfl) (.inr rfl) (.inr rfl) (.inr rfl) (.inr rfl) (.inr rfl) (.inr rfl) (.inr rfl) (.inr rfl) (.inr rfl) (.inr rfl) (.inr rfl) (.inr rfl) (.inr rfl)

theorem Frame.set_hives {m : Nat} {s t : State} {x : _} (hb : Within 0x1000000 m) (h : Frame m s t) : Frame m s { t with hives := x } :=
  h.upd rfl rfl (.inr rfl) (.inr rfl) (.inr rfl) (.inr rfl) (.inr rfl) (.inr rfl) (.inr rfl) (.inr rfl) (.inr rfl) (.inr rfl) (.inr rfl) (.inr rfl) (.inr rfl) (.inr rfl) (.inr rfl) (.inr rfl) (.inr rfl) (.inr rfl) (.inr rfl) (.inr rfl) (.inr rfl) (.inr rfl) (.inr rfl) (.inl hb) (.inr rfl) (.inr rfl) (.inr rfl) (.inr rfl) (.inr rfl) (.inr rfl) (.inr rfl) (.inr rfl) (.inr rfl) (.inr rfl) (.inr rfl) (.inr rfl) (.inr rfl) (.inr rfl) (.inr rfl) (.inr rfl) (.inr rfl) (.inr rfl) (.inr rfl) (.inr rfl) (.inr rfl) (.inr rfl) (.inr rfl) (.inr rfl) (.inr rfl) (.inr rfl) (.inr rfl) (.inr rfl) (.inr rfl) (.inr rfl) (.inr rfl) (.inr rfl) (.inr rfl) (.inr rfl) (.inr rfl)

theorem Frame.set_ctxs {m : Nat} {s t : State} {x : _} (hb : Within 0x2000000 m) (h : Frame m s t) : Frame m s { t with ctxs := x } :=
  h.upd rfl rfl (.inr rfl) (.inr rfl) (.inr rfl) (.inr rfl) (.inr rfl) (.inr rfl) (.inr rfl) (.inr rfl) (.inr rfl) (.inr rfl) (.inr rfl) (.inr rfl) (.inr rfl) (.inr rfl) (.inr rfl) (.inr rfl) (.inr rfl) (.inr rfl) (.inr rfl) (.inr rfl) (.inr rfl) (.inr rfl) (.inr rfl) (.inr rfl) (.inl hb) (.inr rfl) (.inr rfl) (.inr rfl) (.inr rfl) (.inr rfl) (.inr rfl) (.inr rfl) (.inr rfl) (.inr rfl) (.inr rfl) (.inr rfl) (.inr rfl) (.inr rfl) (.inr rfl) (.inr rfl) (.inr rfl) (.inr rfl) (.inr rfl) (.inr rfl) (.inr rfl) (.inr rfl) (.inr rfl) (.inr rfl) (.inr rfl) (.inr rfl) (.inr rfl) (.inr rfl) (.inr rfl) (.inr rfl) (.inr rfl) (.inr rfl) (.inr rfl) (.inr rfl) (.inr rfl)

theorem Frame.set_ctxHeld {m : Nat} {s t : State} {x : _} (hb : Within 0x4000000 m) (h : Frame m s t) : Frame m s { t with ctxHeld := x } :=
  h.upd rfl rfl (.inr rfl) (.inr rfl) (.inr rfl) (.inr rfl) (.inr rfl) (.inr rfl) (.inr rfl) (.inr rfl) (.inr rfl) (.inr rfl) (.inr rfl) (.inr rfl) (.inr rfl) (.inr rfl) (.inr rfl) (.inr rfl) (.inr rfl) (.inr rfl) (.inr rfl) (.inr rfl) (.inr rfl) (.inr rfl) (.inr rfl) (.inr rfl) (.inr rfl) (.inl hb) (.inr rfl) (.inr rfl) (.inr rfl) (.inr rfl) (.inr rfl) (.inr rfl) (.inr rfl) (.inr rfl) (.inr rfl) (.inr rfl) (.inr rfl) (.inr rfl) (.inr rfl) (.inr rfl) (.inr rfl) (.inr rfl) (.inr rfl) (.inr rfl) (.inr rfl) (.inr rfl) (.inr rfl) (.inr rfl) (.inr rfl) (.inr rfl) (.inr rfl) (.inr rfl) (.inr rfl) (.inr rfl) (.inr rfl) (.inr rfl) (.inr rfl) (.inr rfl) (.inr rfl)

theorem Frame.set_jobs {m : Nat} {s t : State} {x : _} (hb : Within 0x8000000 m) (h : Frame m s t) : Frame m s { t with jobs := x } :=
  h.upd rfl rfl (.inr rfl) (.inr rfl) (.inr rfl) (.inr rfl) (.inr rfl) (.inr rfl) (.inr rfl) (.inr rfl) (.inr rfl) (.inr rfl) (.inr rfl) (.inr rfl) (.inr rfl) (.inr rfl) (.inr rfl) (.inr rfl) (.inr rfl) (.inr rfl) (.inr rfl) (.inr rfl) (.inr rfl) (.inr rfl) (.inr rfl) (.inr rfl) (.inr rfl) (.inr rfl) (.inl hb) (.inr rfl) (.inr rfl) (.inr rfl) (.inr rfl) (.inr rfl) (.inr rfl) (.inr rfl) (.inr rfl) (.inr rfl) (.inr rfl) (.inr rfl) (.inr rfl) (.inr rfl) (.inr rfl) (.inr rfl) (.inr rfl) (.inr rfl) (.inr rfl) (.inr rfl) (.inr rfl) (.inr rfl) (.inr rfl) (.inr rfl) (.inr rfl) (.inr rfl) (.inr rfl) (.inr rfl) (.inr rfl) (.inr rfl) (.inr rfl) (.inr rfl) (.inr rfl)

theorem Frame.set_nextJob {m : Nat} {s t : State} {x : _} (hb : Within 0x10000000 m) (h : Frame m s t) : Frame m s { t with nextJob := x } :=
  h.upd rfl rfl (.inr rfl) (.inr rfl) (.inr rfl) (.inr rfl) (.inr rfl) (.inr rfl) (.inr rfl) (.inr rfl) (.inr rfl) (.inr rfl) (.inr rfl) (.inr rfl) (.inr rfl) (.inr rfl) (.inr rfl) (.inr rfl) (.inr rfl) (.inr rfl) (.inr rfl) (.inr rfl) (.inr rfl) (.inr rfl) (.inr rfl) (.inr rfl) (.inr rfl) (.inr rfl) (.inr rfl) (.inl hb) (.inr rfl) (.inr rfl) (.inr rfl) (.inr rfl) (.inr rfl) (.inr rfl) (.inr rfl) (.inr rfl) (.inr rfl) (.inr rfl) (.inr rfl) (.inr rfl) (.inr rfl) (.inr rfl) (.inr rfl) (.inr rfl) (.inr rfl) (.inr rfl) (.inr rfl) (.inr rfl) (.inr rfl) (.inr rfl) (.inr rfl) (.inr rfl) (.inr rfl) (.inr rfl) (.inr rfl) (.inr rfl) (.inr rfl) (.inr rfl) (.inr rfl)

theorem Frame.set_lateJobs {m : Nat} {s t : State} {x : _} (hb : Within 0x20000000 m) (h : Frame m s t) : Frame m s { t with lateJobs := x } :=
  h.upd rfl rfl (.inr rfl) (.inr rfl) (.inr rfl) (.inr rfl) (.inr rfl) (.inr rfl) (.inr rfl) (.inr rfl) (.inr rfl) (.inr rfl) (.inr rfl) (.inr rfl) (.inr rfl) (.inr rfl) (.inr rfl) (.inr rfl) (.inr rfl) (.inr rfl) (.inr rfl) (.inr rfl) (.inr rfl) (.inr rfl) (.inr rfl) (.inr rfl) (.inr rfl) (.inr rfl) (.inr rfl) (.inr rfl) (.inl hb) (.inr rfl) (.inr rfl) (.inr rfl) (.inr rfl) (.inr rfl) (.inr rfl) (.inr rfl) (.inr rfl) (.inr rfl) (.inr rfl) (.inr rfl) (.inr rfl) (.inr rfl) (.inr rfl) (.inr rfl) (.inr rfl) (.inr rfl) (.inr rfl) (.inr rfl) (.inr rfl) (.inr rfl) (.inr rfl) (.inr rfl) (.inr rfl) (.inr rfl) (.inr rfl) (.inr rfl) (.inr rfl) (.inr rfl) (.inr rfl)

theorem Frame.set_finished {m : Nat} {s t : State} {x : _} (hb : Within 0x40000000 m) (h : Frame m s t) : Frame m s { t with finished := x } :=
  h.upd rfl rfl (.inr rfl) (.inr rfl) (.inr rfl) (.inr rfl) (.inr rfl) (.inr rfl) (.inr rfl) (.inr rfl) (.inr rfl) (.inr rfl) (.inr rfl) (.inr rfl) (.inr rfl) (.inr rfl) (.inr rfl) (.inr rfl) (.inr rfl) (.inr rfl) (.inr rfl) (.inr rfl) (.inr rfl) (.inr rfl) (.inr rfl) (.inr rfl) (.inr rfl) (.inr rfl) (.inr rfl) (.inr rfl) (.inr rfl) (.inl hb) (.inr rfl) (.inr rfl) (.inr rfl) (.inr rfl) (.inr rfl) (.inr rfl) (.inr rfl) (.inr rfl) (.inr rfl) (.inr rfl) (.inr rfl) (.inr rfl) (.inr rfl) (.inr rfl) (.inr rfl) (.inr rfl) (.inr rfl) (.inr rfl) (.inr rfl) (.inr rfl) (.inr rfl) (.inr rfl) (.inr rfl) (.inr rfl) (.inr rfl) (.inr rfl) (.inr rfl) (.inr rfl) (.inr rfl)

theorem Frame.set_hbStart {m : Nat} {s t : State} {x : _} (hb : Within 0x80000000 m) (h : Frame m s t) : Frame m s { t with hbStart := x } :=
  h.upd rfl rfl (.inr rfl) (.inr rfl) (.inr rfl) (.inr rfl) (.inr rfl) (.inr rfl) (.inr rfl) (.inr rfl) (.inr rfl) (.inr rfl) (.inr rfl) (.inr rfl) (.inr rfl) (.inr rfl) (.inr rfl) (.inr rfl) (.inr rfl) (.inr rfl) (.inr rfl) (.inr rfl) (.inr rfl) (.inr rfl) (.inr rfl) (.inr rfl) (.inr rfl) (.inr rfl) (.inr rfl) (.inr rfl) (.inr rfl) (.inr rfl) (.inl hb) (.inr rfl) (.inr rfl) (.inr rfl) (.inr rfl) (.inr rfl) (.inr rfl) (.inr rfl) (.inr rfl) (.inr rfl) (.inr rfl) (.inr rfl) (.inr rfl) (.inr rfl) (.inr rfl) (.inr rfl) (.inr rfl) (.inr rfl) (.inr rfl) (.inr rfl) (.inr rfl) (.inr rfl) (.inr rfl) (.inr rfl) (.inr rfl) (.inr rfl) (.inr rfl) (.inr rfl) (.inr rfl)

theorem Frame.set_auditSeq {m : Nat} {s t : State} {x : _} (hb : Within 0x100000000 m) (h : Frame m s t) : Frame m s { t with auditSeq := x } :=
  h.upd rfl rfl (.inr rfl) (.inr rfl) (.inr rfl) (.inr rfl) (.inr rfl) (.inr rfl) (.inr rfl) (.inr rfl) (.inr rfl) (.inr rfl) (.inr rfl) (.inr rfl) (.inr rfl) (.inr rfl) (.inr rfl) (.inr rfl) (.inr rfl) (.inr rfl) (.inr rfl) (.inr rfl) (.inr rfl) (.inr rfl) (.inr rfl) (.inr rfl) (.inr rfl) (.inr rfl) (.inr rfl) (.inr rfl) (.inr rfl) (.inr rfl) (.inr rfl) (.inl hb) (.inr rfl) (.inr rfl) (.inr rfl) (.inr rfl) (.inr rfl) (.inr rfl) (.inr rfl) (.inr rfl) (.inr rfl) (.inr rfl) (.inr rfl) (.inr rfl) (.inr rfl) (.inr rfl) (.inr rfl) (.inr rfl) (.inr rfl) (.inr rfl) (.inr rfl) (.inr rfl) (.inr rfl) (.inr rfl) (.inr rfl) (.inr rfl) (.inr rfl) (.inr rfl) (.inr rfl)

theorem Frame.set_spill {m : Nat} {s t : State} {x : _} (hb : Within 0x200000000 m) (h : Frame m s t) : Frame m s { t with spill := x } :=
  h.upd rfl rfl (.inr rfl) (.inr rfl) (.inr rfl) (.inr rfl) (.inr rfl) (.inr rfl) (.inr rfl) (.inr rfl) (.inr rfl) (.inr rfl) (.inr rfl) (.inr rfl) (.inr rfl) (.inr rfl) (.inr rfl) (.inr rfl) (.inr rfl) (.inr rfl) (.inr rfl) (.inr rfl) (.inr rfl) (.inr rfl) (.inr rfl) (.inr rfl) (.inr rfl) (.inr rfl) (.inr rfl) (.inr rfl) (.inr rfl) (.inr rfl) (.inr rfl) (.inr rfl) (.inl hb) (.inr rfl) (.inr rfl) (.inr rfl) (.inr rfl) (.inr rfl) (.inr rfl) (.inr rfl) (.inr rfl) (.inr rfl) (.inr rfl) (.inr rfl) (.inr rfl) (.inr rfl) (.inr rfl) (.inr rfl) (.inr rfl) (.inr rfl) (.inr rfl) (.inr rfl) (.inr rfl) (.inr rfl) (.inr rfl) (.inr rfl) (.inr rfl) (.inr rfl) (.inr rfl)

theorem Frame.set_acks {m : Nat} {s t : State} {x : _} (hb : Within 0x400000000 m) (h : Frame m s t) : Frame m s { t with acks := x } :=
  h.upd rfl rfl (.inr rfl) (.inr rfl) (.inr rfl) (.inr rfl) (.inr rfl) (.inr rfl) (.inr rfl) (.inr rfl) (.inr rfl) (.inr rfl) (.inr rfl) (.inr rfl) (.inr rfl) (.inr rfl) (.inr rfl) (.inr rfl) (.inr rfl) (.inr rfl) (.inr rfl) (.inr rfl) (.inr rfl) (.inr rfl) (.inr rfl) (.inr rfl) (.inr rfl) (.inr rfl) (.inr rfl) (.inr rfl) (.inr rfl) (.inr rfl) (.inr rfl) (.inr rfl) (.inr rfl) (.inl hb) (.inr rfl) (.inr rfl) (.inr rfl) (.inr rfl) (.inr rfl) (.inr rfl) (.inr rfl) (.inr rfl) (.inr rfl) (.inr rfl) (.inr rfl) (.inr rfl) (.inr rfl) (.inr rfl) (.inr rfl) (.inr rfl) (.inr rfl) (.inr rfl) (.inr rfl) (.inr rfl) (.inr rfl) (.inr rfl) (.inr rfl) (.inr rfl) (.inr rfl)

theorem Frame.set_host {m : Nat} {s t : State} {x : _} (hb : Within 0x800000000 m) (h : Frame m s t) : Frame m s { t with host := x } :=
  h.upd rfl rfl (.inr rfl) (.inr rfl) (.inr rfl) (.inr rfl) (.inr rfl) (.inr rfl) (.inr rfl) (.inr rfl) (.inr rfl) (.inr rfl) (.inr rfl) (.inr rfl) (.inr rfl) (.inr rfl) (.inr rfl) (.inr rfl) (.inr rfl) (.inr rfl) (.inr rfl) (.inr rfl) (.inr rfl) (.inr rfl) (.inr rfl) (.inr rfl) (.inr rfl) (.inr rfl) (.inr rfl) (.inr rfl) (.inr rfl) (.inr rfl) (.inr rfl) (.inr rfl) (.inr rfl) (.inr rfl) (.inl hb) (.inr rfl) (.inr rfl) (.inr rfl) (.inr rfl) (.inr rfl) (.inr rfl) (.inr rfl) (.inr rfl) (.inr rfl) (.inr rfl) (.inr rfl) (.inr rfl) (.inr rfl) (.inr rfl) (.inr rfl) (.inr rfl) (.inr rfl) (.inr rfl) (.inr rfl) (.inr rfl) (.inr rfl) (.inr rfl) (.inr rfl) (.inr rfl)

theorem Frame.set_peer {m : Nat} {s t : State} {x : _} (hb : Within 0x1000000000 m) (h : Frame m s t) : Frame m s { t with peer := x } :=
  h.upd rfl rfl (.inr rfl) (.inr rfl) (.inr rfl) (.inr rfl) (.inr rfl) (.inr rfl) (.inr rfl) (.inr rfl) (.inr rfl) (.inr rfl) (.inr rfl) (.inr rfl) (.inr rfl) (.inr rfl) (.inr rfl) (.inr rfl) (.inr rfl) (.inr rfl) (.inr rfl) (.inr rfl) (.inr rfl) (.inr rfl) (.inr rfl) (.inr rfl) (.inr rfl) (.inr rfl) (.inr rfl) (.inr rfl) (.inr rfl) (.inr rfl) (.inr rfl) (.inr rfl) (.inr rfl) (.inr rfl) (.inr rfl) (.inl hb) (.inr rfl) (.inr rfl) (.inr rfl) (.inr rfl) (.inr rfl) (.inr rfl) (.inr rfl) (.inr rfl) (.inr rfl) (.inr rfl) (.inr rfl) (.inr rfl) (.inr rfl) (.inr rfl) (.inr rfl) (.inr rfl) (.inr rfl) (.inr rfl) (.inr rfl) (.inr rfl) (.inr rfl) (.inr rfl) (.inr rfl)

theorem Frame.set_held {m : Nat} {s t : State} {x : _} (hb : Within 0x2000000000 m) (h : Frame m s t) : Frame m s { t with held := x } :=
  h.upd rfl rfl (.inr rfl) (.inr rfl) (.inr rfl) (.inr rfl) (.inr rfl) (.inr rfl) (.inr rfl) (.inr rfl) (.inr rfl) (.inr rfl) (.inr rfl) (.inr rfl) (.inr rfl) (.inr rfl) (.inr rfl) (.inr rfl) (.inr rfl) (.inr rfl) (.inr rfl) (.inr rfl) (.inr rfl) (.inr rfl) (.inr rfl) (.inr rfl) (.inr rfl) (.inr rfl) (.inr rfl) (.inr rfl) (.inr rfl) (.inr rfl) (.inr rfl) (.inr rfl) (.inr rfl) (.inr rfl) (.inr rfl) (.inr rfl) (.inl hb) (.inr rfl) (.inr rfl) (.inr rfl) (.inr rfl) (.inr rfl) (.inr rfl) (.inr rfl) (.inr rfl) (.inr rfl) (.inr rfl) (.inr rfl) (.inr rfl) (.inr rfl) (.inr rfl) (.inr rfl) (.inr rfl) (.inr rfl) (.inr rfl) (.inr rfl) (.inr rfl) (.inr rfl) (.inr rfl)

theorem Frame.set_ring {m : Nat} {s t : State} {x : _} (hb : Within 0x4000000000 m) (h : Frame m s t) : Frame m s { t with ring := x } :=
  h.upd rfl rfl (.inr rfl) (.inr rfl) (.inr rfl) (.inr rfl) (.inr rfl) (.inr rfl) (.inr rfl) (.inr rfl) (.inr rfl) (.inr rfl) (.inr rfl) (.inr rfl) (.inr rfl) (.inr rfl) (.inr rfl) (.inr rfl) (.inr rfl) (.inr rfl) (.inr rfl) (.inr rfl) (.inr rfl) (.inr rfl) (.inr rfl) (.inr rfl) (.inr rfl) (.inr rfl) (.inr rfl) (.inr rfl) (.inr rfl) (.inr rfl) (.inr rfl) (.inr rfl) (.inr rfl) (.inr rfl) (.inr rfl) (.inr rfl) (.inr rfl) (.inl hb) (.inr rfl) (.inr rfl) (.inr rfl) (.inr rfl) (.inr rfl) (.inr rfl) (.inr rfl) (.inr rfl) (.inr rfl) (.inr rfl) (.inr rfl) (.inr rfl) (.inr rfl) (.inr rfl) (.inr rfl) (.inr rfl) (.inr rfl) (.inr rfl) (.inr rfl) (.inr rfl) (.inr rfl)

theorem Frame.set_eventSeq {m : Nat} {s t : State} {x : _} (hb : Within 0x8000000000 m) (h : Frame m s t) : Frame m s { t with eventSeq := x } :=
  h.upd rfl rfl (.inr rfl) (.inr rfl) (.inr rfl) (.inr rfl) (.inr rfl) (.inr rfl) (.inr rfl) (.inr rfl) (.inr rfl) (.inr rfl) (.inr rfl) (.inr rfl) (.inr rfl) (.inr rfl) (.inr rfl) (.inr rfl) (.inr rfl) (.inr rfl) (.inr rfl) (.inr rfl) (.inr rfl) (.inr rfl) (.inr rfl) (.inr rfl) (.inr rfl) (.inr rfl) (.inr rfl) (.inr rfl) (.inr rfl) (.inr rfl) (.inr rfl) (.inr rfl) (.inr rfl) (.inr rfl) (.inr rfl) (.inr rfl) (.inr rfl) (.inr rfl) (.inl hb) (.inr rfl) (.inr rfl) (.inr rfl) (.inr rfl) (.inr rfl) (.inr rfl) (.inr rfl) (.inr rfl) (.inr rfl) (.inr rfl) (.inr rfl) (.inr rfl) (.inr rfl) (.inr rfl) (.inr rfl) (.inr rfl) (.inr rfl) (.inr rfl) (.inr rfl) (.inr rfl)

theorem Frame.set_logWait {m : Nat} {s t : State} {x : _} (hb : Within 0x10000000000 m) (h : Frame m s t) : Frame m s { t with logWait := x } :=
  h.upd rfl rfl (.inr rfl) (.inr rfl) (.inr rfl) (.inr rfl) (.inr rfl) (.inr rfl) (.inr rfl) (.inr rfl) (.inr rfl) (.inr rfl) (.inr rfl) (.inr rfl) (.inr rfl) (.inr rfl) (.inr rfl) (.inr rfl) (.inr rfl) (.inr rfl) (.inr rfl) (.inr rfl) (.inr rfl) (.inr rfl) (.inr rfl) (.inr rfl) (.inr rfl) (.inr rfl) (.inr rfl) (.inr rfl) (.inr rfl) (.inr rfl) (.inr rfl) (.inr rfl) (.inr rfl) (.inr rfl) (.inr rfl) (.inr rfl) (.inr rfl) (.inr rfl) (.inr rfl) (.inl hb) (.inr rfl) (.inr rfl) (.inr rfl) (.inr rfl) (.inr rfl) (.inr rfl) (.inr rfl) (.inr rfl) (.inr rfl) (.inr rfl) (.inr rfl) (.inr rfl) (.inr rfl) (.inr rfl) (.inr rfl) (.inr rfl) (.inr rfl) (.inr rfl) (.inr rfl)

theorem Frame.set_evLog {m : Nat} {s t : State} {x : _} (hb : Within 0x20000000000 m) (h : Frame m s t) : Frame m s { t with evLog := x } :=
  h.upd rfl rfl (.inr rfl) (.inr rfl) (.inr rfl) (.inr rfl) (.inr rfl) (.inr rfl) (.inr rfl) (.inr rfl) (.inr rfl) (.inr rfl) (.inr rfl) (.inr rfl) (.inr rfl) (.inr rfl) (.inr rfl) (.inr rfl) (.inr rfl) (.inr rfl) (.inr rfl) (.inr rfl) (.inr rfl) (.inr rfl) (.inr rfl) (.inr rfl) (.inr rfl) (.inr rfl) (.inr rfl) (.inr rfl) (.inr rfl) (.inr rfl) (.inr rfl) (.inr rfl) (.inr rfl) (.inr rfl) (.inr rfl) (.inr rfl) (.inr rfl) (.inr rfl) (.inr rfl) (.inr rfl) (.inl hb) (.inr rfl) (.inr rfl) (.inr rfl) (.inr rfl) (.inr rfl) (.inr rfl) (.inr rfl) (.inr rfl) (.inr rfl) (.inr rfl) (.inr rfl) (.inr rfl) (.inr rfl) (.inr rfl) (.inr rfl) (.inr rfl) (.inr rfl) (.inr rfl)

theorem Frame.set_occ {m : Nat} {s t : State} {x : _} (hb : Within 0x40000000000 m) (h : Frame m s t) : Frame m s { t with occ := x } :=
  h.upd rfl rfl (.inr rfl) (.inr rfl) (.inr rfl) (.inr rfl) (.inr rfl) (.inr rfl) (.inr rfl) (.inr rfl) (.inr rfl) (.inr rfl) (.inr rfl) (.inr rfl) (.inr rfl) (.inr rfl) (.inr rfl) (.inr rfl) (.inr rfl) (.inr rfl) (.inr rfl) (.inr rfl) (.inr rfl) (.inr rfl) (.inr rfl) (.inr rfl) (.inr rfl) (.inr rfl) (.inr rfl) (.inr rfl) (.inr rfl) (.inr rfl) (.inr rfl) (.inr rfl) (.inr rfl) (.inr rfl) (.inr rfl) (.inr rfl) (.inr rfl) (.inr rfl) (.inr rfl) (.inr rfl) (.inr rfl) (.inl hb) (.inr rfl) (.inr rfl) (.inr rfl) (.inr rfl) (.inr rfl) (.inr rfl) (.inr rfl) (.inr rfl) (.inr rfl) (.inr rfl) (.inr rfl) (.inr rfl) (.inr rfl) (.inr rfl) (.inr rfl) (.inr rfl) (.inr rfl)

theorem Frame.set_samplers {m : Nat} {s t : State} {x : _} (hb : Within 0x80000000000 m) (h : Frame m s t) : Frame m s { t with samplers := x } :=
  h.upd rfl rfl (.inr rfl) (.inr rfl) (.inr rfl) (.inr rfl) (.inr rfl) (.inr rfl) (.inr rfl) (.inr rfl) (.inr rfl) (.inr rfl) (.inr rfl) (.inr rfl) (.inr rfl) (.inr rfl) (.inr rfl) (.inr rfl) (.inr rfl) (.inr rfl) (.inr rfl) (.inr rfl) (.inr rfl) (.inr rfl) (.inr rfl) (.inr rfl) (.inr rfl) (.inr rfl) (.inr rfl) (.inr rfl) (.inr rfl) (.inr rfl) (.inr rfl) (.inr rfl) (.inr rfl) (.inr rfl) (.inr rfl) (.inr rfl) (.inr rfl) (.inr rfl) (.inr rfl) (.inr rfl) (.inr rfl) (.inr rfl) (.inl hb) (.inr rfl) (.inr rfl) (.inr rfl) (.inr rfl) (.inr rfl) (.inr rfl) (.inr rfl) (.inr rfl) (.inr rfl) (.inr rfl) (.inr rfl) (.inr rfl) (.inr rfl) (.inr rfl) (.inr rfl) (.inr rfl)

theorem Frame.set_overruns {m : Nat} {s t : State} {x : _} (hb : Within 0x100000000000 m) (h : Frame m s t) : Frame m s { t with overruns := x } :=
  h.upd rfl rfl (.inr rfl) (.inr rfl) (.inr rfl) (.inr rfl) (.inr rfl) (.inr rfl) (.inr rfl) (.inr rfl) (.inr rfl) (.inr rfl) (.inr rfl) (.inr rfl) (.inr rfl) (.inr rfl) (.inr rfl) (.inr rfl) (.inr rfl) (.inr rfl) (.inr rfl) (.inr rfl) (.inr rfl) (.inr rfl) (.inr rfl) (.inr rfl) (.inr rfl) (.inr rfl) (.inr rfl) (.inr rfl) (.inr rfl) (.inr rfl) (.inr rfl) (.inr rfl) (.inr rfl) (.inr rfl) (.inr rfl) (.inr rfl) (.inr rfl) (.inr rfl) (.inr rfl) (.inr rfl) (.inr rfl) (.inr rfl) (.inr rfl) (.inl hb) (.inr rfl) (.inr rfl) (.inr rfl) (.inr rfl) (.inr rfl) (.inr rfl) (.inr rfl) (.inr rfl) (.inr rfl) (.inr rfl) (.inr rfl) (.inr rfl) (.inr rfl) (.inr rfl) (.inr rfl)

theorem Frame.set_power {m : Nat} {s t : State} {x : _} (hb : Within 0x200000000000 m) (h : Frame m s t) : Frame m s { t with power := x } :=
  h.upd rfl rfl (.inr rfl) (.inr rfl) (.inr rfl) (.inr rfl) (.inr rfl) (.inr rfl) (.inr rfl) (.inr rfl) (.inr rfl) (.inr rfl) (.inr rfl) (.inr rfl) (.inr rfl) (.inr rfl) (.inr rfl) (.inr rfl) (.inr rfl) (.inr rfl) (.inr rfl) (.inr rfl) (.inr rfl) (.inr rfl) (.inr rfl) (.inr rfl) (.inr rfl) (.inr rfl) (.inr rfl) (.inr rfl) (.inr rfl) (.inr rfl) (.inr rfl) (.inr rfl) (.inr rfl) (.inr rfl) (.inr rfl) (.inr rfl) (.inr rfl) (.inr rfl) (.inr rfl) (.inr rfl) (.inr rfl) (.inr rfl) (.inr rfl) (.inr rfl) (.inl hb) (.inr rfl) (.inr rfl) (.inr rfl) (.inr rfl) (.inr rfl) (.inr rfl) (.inr rfl) (.inr rfl) (.inr rfl) (.inr rfl) (.inr rfl) (.inr rfl) (.inr rfl) (.inr rfl)

theorem Frame.set_thermal {m : Nat} {s t : State} {x : _} (hb : Within 0x400000000000 m) (h : Frame m s t) : Frame m s { t with thermal := x } :=
  h.upd rfl rfl (.inr rfl) (.inr rfl) (.inr rfl) (.inr rfl) (.inr rfl) (.inr rfl) (.inr rfl) (.inr rfl) (.inr rfl) (.inr rfl) (.inr rfl) (.inr rfl) (.inr rfl) (.inr rfl) (.inr rfl) (.inr rfl) (.inr rfl) (.inr rfl) (.inr rfl) (.inr rfl) (.inr rfl) (.inr rfl) (.inr rfl) (.inr rfl) (.inr rfl) (.inr rfl) (.inr rfl) (.inr rfl) (.inr rfl) (.inr rfl) (.inr rfl) (.inr rfl) (.inr rfl) (.inr rfl) (.inr rfl) (.inr rfl) (.inr rfl) (.inr rfl) (.inr rfl) (.inr rfl) (.inr rfl) (.inr rfl) (.inr rfl) (.inr rfl) (.inr rfl) (.inl hb) (.inr rfl) (.inr rfl) (.inr rfl) (.inr rfl) (.inr rfl) (.inr rfl) (.inr rfl) (.inr rfl) (.inr rfl) (.inr rfl) (.inr rfl) (.inr rfl) (.inr rfl)

theorem Frame.set_recal {m : Nat} {s t : State} {x : _} (hb : Within 0x800000000000 m) (h : Frame m s t) : Frame m s { t with recal := x } :=
  h.upd rfl rfl (.inr rfl) (.inr rfl) (.inr rfl) (.inr rfl) (.inr rfl) (.inr rfl) (.inr rfl) (.inr rfl) (.inr rfl) (.inr rfl) (.inr rfl) (.inr rfl) (.inr rfl) (.inr rfl) (.inr rfl) (.inr rfl) (.inr rfl) (.inr rfl) (.inr rfl) (.inr rfl) (.inr rfl) (.inr rfl) (.inr rfl) (.inr rfl) (.inr rfl) (.inr rfl) (.inr rfl) (.inr rfl) (.inr rfl) (.inr rfl) (.inr rfl) (.inr rfl) (.inr rfl) (.inr rfl) (.inr rfl) (.inr rfl) (.inr rfl) (.inr rfl) (.inr rfl) (.inr rfl) (.inr rfl) (.inr rfl) (.inr rfl) (.inr rfl) (.inr rfl) (.inr rfl) (.inl hb) (.inr rfl) (.inr rfl) (.inr rfl) (.inr rfl) (.inr rfl) (.inr rfl) (.inr rfl) (.inr rfl) (.inr rfl) (.inr rfl) (.inr rfl) (.inr rfl)

theorem Frame.set_recalNext {m : Nat} {s t : State} {x : _} (hb : Within 0x1000000000000 m) (h : Frame m s t) : Frame m s { t with recalNext := x } :=
  h.upd rfl rfl (.inr rfl) (.inr rfl) (.inr rfl) (.inr rfl) (.inr rfl) (.inr rfl) (.inr rfl) (.inr rfl) (.inr rfl) (.inr rfl) (.inr rfl) (.inr rfl) (.inr rfl) (.inr rfl) (.inr rfl) (.inr rfl) (.inr rfl) (.inr rfl) (.inr rfl) (.inr rfl) (.inr rfl) (.inr rfl) (.inr rfl) (.inr rfl) (.inr rfl) (.inr rfl) (.inr rfl) (.inr rfl) (.inr rfl) (.inr rfl) (.inr rfl) (.inr rfl) (.inr rfl) (.inr rfl) (.inr rfl) (.inr rfl) (.inr rfl) (.inr rfl) (.inr rfl) (.inr rfl) (.inr rfl) (.inr rfl) (.inr rfl) (.inr rfl) (.inr rfl) (.inr rfl) (.inr rfl) (.inl hb) (.inr rfl) (.inr rfl) (.inr rfl) (.inr rfl) (.inr rfl) (.inr rfl) (.inr rfl) (.inr rfl) (.inr rfl) (.inr rfl) (.inr rfl)

theorem Frame.set_cores {m : Nat} {s t : State} {x : _} (hb : Within 0x2000000000000 m) (h : Frame m s t) : Frame m s { t with cores := x } :=
  h.upd rfl rfl (.inr rfl) (.inr rfl) (.inr rfl) (.inr rfl) (.inr rfl) (.inr rfl) (.inr rfl) (.inr rfl) (.inr rfl) (.inr rfl) (.inr rfl) (.inr rfl) (.inr rfl) (.inr rfl) (.inr rfl) (.inr rfl) (.inr rfl) (.inr rfl) (.inr rfl) (.inr rfl) (.inr rfl) (.inr rfl) (.inr rfl) (.inr rfl) (.inr rfl) (.inr rfl) (.inr rfl) (.inr rfl) (.inr rfl) (.inr rfl) (.inr rfl) (.inr rfl) (.inr rfl) (.inr rfl) (.inr rfl) (.inr rfl) (.inr rfl) (.inr rfl) (.inr rfl) (.inr rfl) (.inr rfl) (.inr rfl) (.inr rfl) (.inr rfl) (.inr rfl) (.inr rfl) (.inr rfl) (.inr rfl) (.inl hb) (.inr rfl) (.inr rfl) (.inr rfl) (.inr rfl) (.inr rfl) (.inr rfl) (.inr rfl) (.inr rfl) (.inr rfl) (.inr rfl)

theorem Frame.set_flash {m : Nat} {s t : State} {x : _} (hb : Within 0x8000000000000 m) (h : Frame m s t) : Frame m s { t with flash := x } :=
  h.upd rfl rfl (.inr rfl) (.inr rfl) (.inr rfl) (.inr rfl) (.inr rfl) (.inr rfl) (.inr rfl) (.inr rfl) (.inr rfl) (.inr rfl) (.inr rfl) (.inr rfl) (.inr rfl) (.inr rfl) (.inr rfl) (.inr rfl) (.inr rfl) (.inr rfl) (.inr rfl) (.inr rfl) (.inr rfl) (.inr rfl) (.inr rfl) (.inr rfl) (.inr rfl) (.inr rfl) (.inr rfl) (.inr rfl) (.inr rfl) (.inr rfl) (.inr rfl) (.inr rfl) (.inr rfl) (.inr rfl) (.inr rfl) (.inr rfl) (.inr rfl) (.inr rfl) (.inr rfl) (.inr rfl) (.inr rfl) (.inr rfl) (.inr rfl) (.inr rfl) (.inr rfl) (.inr rfl) (.inr rfl) (.inr rfl) (.inr rfl) (.inl hb) (.inr rfl) (.inr rfl) (.inr rfl) (.inr rfl) (.inr rfl) (.inr rfl) (.inr rfl) (.inr rfl) (.inr rfl)

theorem Frame.set_fw {m : Nat} {s t : State} {x : _} (hb : Within 0x10000000000000 m) (h : Frame m s t) : Frame m s { t with fw := x } :=
  h.upd rfl rfl (.inr rfl) (.inr rfl) (.inr rfl) (.inr rfl) (.inr rfl) (.inr rfl) (.inr rfl) (.inr rfl) (.inr rfl) (.inr rfl) (.inr rfl) (.inr rfl) (.inr rfl) (.inr rfl) (.inr rfl) (.inr rfl) (.inr rfl) (.inr rfl) (.inr rfl) (.inr rfl) (.inr rfl) (.inr rfl) (.inr rfl) (.inr rfl) (.inr rfl) (.inr rfl) (.inr rfl) (.inr rfl) (.inr rfl) (.inr rfl) (.inr rfl) (.inr rfl) (.inr rfl) (.inr rfl) (.inr rfl) (.inr rfl) (.inr rfl) (.inr rfl) (.inr rfl) (.inr rfl) (.inr rfl) (.inr rfl) (.inr rfl) (.inr rfl) (.inr rfl) (.inr rfl) (.inr rfl) (.inr rfl) (.inr rfl) (.inr rfl) (.inl hb) (.inr rfl) (.inr rfl) (.inr rfl) (.inr rfl) (.inr rfl) (.inr rfl) (.inr rfl) (.inr rfl)

theorem Frame.set_audit {m : Nat} {s t : State} {x : _} (hb : Within 0x20000000000000 m) (h : Frame m s t) : Frame m s { t with audit := x } :=
  h.upd rfl rfl (.inr rfl) (.inr rfl) (.inr rfl) (.inr rfl) (.inr rfl) (.inr rfl) (.inr rfl) (.inr rfl) (.inr rfl) (.inr rfl) (.inr rfl) (.inr rfl) (.inr rfl) (.inr rfl) (.inr rfl) (.inr rfl) (.inr rfl) (.inr rfl) (.inr rfl) (.inr rfl) (.inr rfl) (.inr rfl) (.inr rfl) (.inr rfl) (.inr rfl) (.inr rfl) (.inr rfl) (.inr rfl) (.inr rfl) (.inr rfl) (.inr rfl) (.inr rfl) (.inr rfl) (.inr rfl) (.inr rfl) (.inr rfl) (.inr rfl) (.inr rfl) (.inr rfl) (.inr rfl) (.inr rfl) (.inr rfl) (.inr rfl) (.inr rfl) (.inr rfl) (.inr rfl) (.inr rfl) (.inr rfl) (.inr rfl) (.inr rfl) (.inr rfl) (.inl hb) (.inr rfl) (.inr rfl) (.inr rfl) (.inr rfl) (.inr rfl) (.inr rfl) (.inr rfl)

theorem Frame.set_scrubRun {m : Nat} {s t : State} {x : _} (hb : Within 0x40000000000000 m) (h : Frame m s t) : Frame m s { t with scrubRun := x } :=
  h.upd rfl rfl (.inr rfl) (.inr rfl) (.inr rfl) (.inr rfl) (.inr rfl) (.inr rfl) (.inr rfl) (.inr rfl) (.inr rfl) (.inr rfl) (.inr rfl) (.inr rfl) (.inr rfl) (.inr rfl) (.inr rfl) (.inr rfl) (.inr rfl) (.inr rfl) (.inr rfl) (.inr rfl) (.inr rfl) (.inr rfl) (.inr rfl) (.inr rfl) (.inr rfl) (.inr rfl) (.inr rfl) (.inr rfl) (.inr rfl) (.inr rfl) (.inr rfl) (.inr rfl) (.inr rfl) (.inr rfl) (.inr rfl) (.inr rfl) (.inr rfl) (.inr rfl) (.inr rfl) (.inr rfl) (.inr rfl) (.inr rfl) (.inr rfl) (.inr rfl) (.inr rfl) (.inr rfl) (.inr rfl) (.inr rfl) (.inr rfl) (.inr rfl) (.inr rfl) (.inr rfl) (.inl hb) (.inr rfl) (.inr rfl) (.inr rfl) (.inr rfl) (.inr rfl) (.inr rfl)

theorem Frame.set_remapLog {m : Nat} {s t : State} {x : _} (hb : Within 0x80000000000000 m) (h : Frame m s t) : Frame m s { t with remapLog := x } :=
  h.upd rfl rfl (.inr rfl) (.inr rfl) (.inr rfl) (.inr rfl) (.inr rfl) (.inr rfl) (.inr rfl) (.inr rfl) (.inr rfl) (.inr rfl) (.inr rfl) (.inr rfl) (.inr rfl) (.inr rfl) (.inr rfl) (.inr rfl) (.inr rfl) (.inr rfl) (.inr rfl) (.inr rfl) (.inr rfl) (.inr rfl) (.inr rfl) (.inr rfl) (.inr rfl) (.inr rfl) (.inr rfl) (.inr rfl) (.inr rfl) (.inr rfl) (.inr rfl) (.inr rfl) (.inr rfl) (.inr rfl) (.inr rfl) (.inr rfl) (.inr rfl) (.inr rfl) (.inr rfl) (.inr rfl) (.inr rfl) (.inr rfl) (.inr rfl) (.inr rfl) (.inr rfl) (.inr rfl) (.inr rfl) (.inr rfl) (.inr rfl) (.inr rfl) (.inr rfl) (.inr rfl) (.inr rfl) (.inl hb) (.inr rfl) (.inr rfl) (.inr rfl) (.inr rfl) (.inr rfl)

theorem Frame.set_remapWant {m : Nat} {s t : State} {x : _} (hb : Within 0x100000000000000 m) (h : Frame m s t) : Frame m s { t with remapWant := x } :=
  h.upd rfl rfl (.inr rfl) (.inr rfl) (.inr rfl) (.inr rfl) (.inr rfl) (.inr rfl) (.inr rfl) (.inr rfl) (.inr rfl) (.inr rfl) (.inr rfl) (.inr rfl) (.inr rfl) (.inr rfl) (.inr rfl) (.inr rfl) (.inr rfl) (.inr rfl) (.inr rfl) (.inr rfl) (.inr rfl) (.inr rfl) (.inr rfl) (.inr rfl) (.inr rfl) (.inr rfl) (.inr rfl) (.inr rfl) (.inr rfl) (.inr rfl) (.inr rfl) (.inr rfl) (.inr rfl) (.inr rfl) (.inr rfl) (.inr rfl) (.inr rfl) (.inr rfl) (.inr rfl) (.inr rfl) (.inr rfl) (.inr rfl) (.inr rfl) (.inr rfl) (.inr rfl) (.inr rfl) (.inr rfl) (.inr rfl) (.inr rfl) (.inr rfl) (.inr rfl) (.inr rfl) (.inr rfl) (.inr rfl) (.inl hb) (.inr rfl) (.inr rfl) (.inr rfl) (.inr rfl)

theorem Frame.set_svcWait {m : Nat} {s t : State} {x : _} (hb : Within 0x200000000000000 m) (h : Frame m s t) : Frame m s { t with svcWait := x } :=
  h.upd rfl rfl (.inr rfl) (.inr rfl) (.inr rfl) (.inr rfl) (.inr rfl) (.inr rfl) (.inr rfl) (.inr rfl) (.inr rfl) (.inr rfl) (.inr rfl) (.inr rfl) (.inr rfl) (.inr rfl) (.inr rfl) (.inr rfl) (.inr rfl) (.inr rfl) (.inr rfl) (.inr rfl) (.inr rfl) (.inr rfl) (.inr rfl) (.inr rfl) (.inr rfl) (.inr rfl) (.inr rfl) (.inr rfl) (.inr rfl) (.inr rfl) (.inr rfl) (.inr rfl) (.inr rfl) (.inr rfl) (.inr rfl) (.inr rfl) (.inr rfl) (.inr rfl) (.inr rfl) (.inr rfl) (.inr rfl) (.inr rfl) (.inr rfl) (.inr rfl) (.inr rfl) (.inr rfl) (.inr rfl) (.inr rfl) (.inr rfl) (.inr rfl) (.inr rfl) (.inr rfl) (.inr rfl) (.inr rfl) (.inr rfl) (.inl hb) (.inr rfl) (.inr rfl) (.inr rfl)

theorem Frame.set_jtgIr {m : Nat} {s t : State} {x : _} (hb : Within 0x400000000000000 m) (h : Frame m s t) : Frame m s { t with jtgIr := x } :=
  h.upd rfl rfl (.inr rfl) (.inr rfl) (.inr rfl) (.inr rfl) (.inr rfl) (.inr rfl) (.inr rfl) (.inr rfl) (.inr rfl) (.inr rfl) (.inr rfl) (.inr rfl) (.inr rfl) (.inr rfl) (.inr rfl) (.inr rfl) (.inr rfl) (.inr rfl) (.inr rfl) (.inr rfl) (.inr rfl) (.inr rfl) (.inr rfl) (.inr rfl) (.inr rfl) (.inr rfl) (.inr rfl) (.inr rfl) (.inr rfl) (.inr rfl) (.inr rfl) (.inr rfl) (.inr rfl) (.inr rfl) (.inr rfl) (.inr rfl) (.inr rfl) (.inr rfl) (.inr rfl) (.inr rfl) (.inr rfl) (.inr rfl) (.inr rfl) (.inr rfl) (.inr rfl) (.inr rfl) (.inr rfl) (.inr rfl) (.inr rfl) (.inr rfl) (.inr rfl) (.inr rfl) (.inr rfl) (.inr rfl) (.inr rfl) (.inr rfl) (.inl hb) (.inr rfl) (.inr rfl)

theorem Frame.set_bwBytes {m : Nat} {s t : State} {x : _} (hb : Within 0x800000000000000 m) (h : Frame m s t) : Frame m s { t with bwBytes := x } :=
  h.upd rfl rfl (.inr rfl) (.inr rfl) (.inr rfl) (.inr rfl) (.inr rfl) (.inr rfl) (.inr rfl) (.inr rfl) (.inr rfl) (.inr rfl) (.inr rfl) (.inr rfl) (.inr rfl) (.inr rfl) (.inr rfl) (.inr rfl) (.inr rfl) (.inr rfl) (.inr rfl) (.inr rfl) (.inr rfl) (.inr rfl) (.inr rfl) (.inr rfl) (.inr rfl) (.inr rfl) (.inr rfl) (.inr rfl) (.inr rfl) (.inr rfl) (.inr rfl) (.inr rfl) (.inr rfl) (.inr rfl) (.inr rfl) (.inr rfl) (.inr rfl) (.inr rfl) (.inr rfl) (.inr rfl) (.inr rfl) (.inr rfl) (.inr rfl) (.inr rfl) (.inr rfl) (.inr rfl) (.inr rfl) (.inr rfl) (.inr rfl) (.inr rfl) (.inr rfl) (.inr rfl) (.inr rfl) (.inr rfl) (.inr rfl) (.inr rfl) (.inr rfl) (.inl hb) (.inr rfl)

theorem Frame.set_out {m : Nat} {s t : State} {x : _} (hb : Within 0x1000000000000000 m) (h : Frame m s t) : Frame m s { t with out := x } :=
  h.upd rfl rfl (.inr rfl) (.inr rfl) (.inr rfl) (.inr rfl) (.inr rfl) (.inr rfl) (.inr rfl) (.inr rfl) (.inr rfl) (.inr rfl) (.inr rfl) (.inr rfl) (.inr rfl) (.inr rfl) (.inr rfl) (.inr rfl) (.inr rfl) (.inr rfl) (.inr rfl) (.inr rfl) (.inr rfl) (.inr rfl) (.inr rfl) (.inr rfl) (.inr rfl) (.inr rfl) (.inr rfl) (.inr rfl) (.inr rfl) (.inr rfl) (.inr rfl) (.inr rfl) (.inr rfl) (.inr rfl) (.inr rfl) (.inr rfl) (.inr rfl) (.inr rfl) (.inr rfl) (.inr rfl) (.inr rfl) (.inr rfl) (.inr rfl) (.inr rfl) (.inr rfl) (.inr rfl) (.inr rfl) (.inr rfl) (.inr rfl) (.inr rfl) (.inr rfl) (.inr rfl) (.inr rfl) (.inr rfl) (.inr rfl) (.inr rfl) (.inr rfl) (.inr rfl) (.inl hb)

theorem Frame.of_eq1 {m a : Nat} {β : Type} {s t u : State} {y : β} {x : State × β} (h : x = (t, y)) (k : Frame a u x.1) (ha : Within a m)
    (hu : Frame m s u) : Frame m s t := by subst h; exact hu.seq k ha

theorem Frame.of_eq2 {m a : Nat} {β : Type} {s t u : State} {y : β} {x : β × State} (h : x = (y, t)) (k : Frame a u x.2) (ha : Within a m)
    (hu : Frame m s u) : Frame m s t := by subst h; exact hu.seq k ha

end Sys2Proof.Machine
end

