-- ==== Sys2Proof/Laws/Maps.lean ====
section
/-! SUPPORT. The maps with Nat keys and device memory: what a read gives after a write, and that every operation keeps the keys
rising and the canonical form of memory. -/

namespace Sys2Proof.Machine

variable {α : Type}

/-! ### Maps -/

theorem mfind_mset (m : AMap α) (k j : Nat) (v : α) : mfind (mset m k v) j = if j = k then some v else mfind m j := by
  induction m with
  | nil => simp [mset, mfind, eq_comm]
  | cons x m ih =>
    obtain ⟨i, w⟩ := x
    unfold mset
    by_cases h1 : k < i
    · simp only [h1, if_true, mfind]
      by_cases h2 : k = j
      · simp [h2]
      · simp [h2, Ne.symm h2]
    · by_cases h2 : k = i
      · subst h2
        simp only [Nat.lt_irrefl, if_false, if_true, mfind]
        by_cases h3 : k = j
        · simp [h3]
        · simp [h3, Ne.symm h3]
      · simp only [h1, h2, if_false, mfind, ih]
        by_cases h3 : i = j
        · subst h3; simp [Ne.symm h2]
        · simp [h3]

@[simp] theorem mfind_mset_same (m : AMap α) (k : Nat) (v : α) : mfind (mset m k v) k = some v := by simp [mfind_mset]

theorem mfind_mset_ne (m : AMap α) {k j : Nat} (v : α) (h : j ≠ k) : mfind (mset m k v) j = mfind m j := by simp [mfind_mset, h]

@[simp] theorem mgetD_mset_same (m : AMap α) (k : Nat) (v d : α) : mgetD (mset m k v) k d = v := by simp [mgetD]

theorem mgetD_mset_ne (m : AMap α) {k j : Nat} (v d : α) (h : j ≠ k) : mgetD (mset m k v) j d = mgetD m j d := by
  simp [mgetD, mfind_mset_ne m v h]

theorem mfind_mdel_ne (m : AMap α) {k j : Nat} (h : j ≠ k) : mfind (mdel m k) j = mfind m j := by
  induction m with
  | nil => rfl
  | cons x m ih =>
    obtain ⟨i, w⟩ := x
    unfold mdel
    by_cases h1 : i = k
    · subst h1; simp [mfind, Ne.symm h]
    · simp only [h1, if_false, mfind, ih]

theorem keysRise_cons (x : Nat × α) (m : AMap α) :
    keysRise (x :: m) = true ↔ (∀ y ∈ m, x.1 < y.1) ∧ keysRise m = true := by
  induction m generalizing x with
  | nil => simp [keysRise]
  | cons y m ih =>
    obtain ⟨i, v⟩ := x
    obtain ⟨j, w⟩ := y
    simp only [keysRise, Bool.and_eq_true, decide_eq_true_eq, List.mem_cons, forall_eq_or_imp]
    constructor
    · rintro ⟨h, k⟩
      exact ⟨⟨h, fun z hz => Nat.lt_trans h (((ih (j, w)).mp k).1 z hz)⟩, k⟩
    · rintro ⟨⟨h, _⟩, k⟩
      exact ⟨h, k⟩

theorem mem_mset {m : AMap α} {k : Nat} {v : α} {y : Nat × α} (h : y ∈ mset m k v) : y = (k, v) ∨ y ∈ m := by
  induction m with
  | nil => simpa [mset] using h
  | cons x m ih =>
    obtain ⟨i, w⟩ := x
    unfold mset at h
    split at h
    · simpa using h
    · split at h
      · rcases List.mem_cons.mp h with h | h
        · exact .inl h
        · exact .inr (List.mem_cons_of_mem _ h)
      · rcases List.mem_cons.mp h with h | h
        · exact .inr (h ▸ List.mem_cons_self)
        · rcases ih h with h | h
          · exact .inl h
          · exact .inr (List.mem_cons_of_mem _ h)

theorem mem_mdel {m : AMap α} {k : Nat} {y : Nat × α} (h : y ∈ mdel m k) : y ∈ m := by
  induction m with
  | nil => exact h
  | cons x m ih =>
    obtain ⟨i, w⟩ := x
    unfold mdel at h
    split at h
    · exact List.mem_cons_of_mem _ h
    · rcases List.mem_cons.mp h with h | h
      · exact h ▸ List.mem_cons_self
      · exact List.mem_cons_of_mem _ (ih h)

theorem keysRise_mset {m : AMap α} (k : Nat) (v : α) (h : keysRise m = true) : keysRise (mset m k v) = true := by
  induction m with
  | nil => rfl
  | cons x m ih =>
    obtain ⟨i, w⟩ := x
    have hc := (keysRise_cons _ _).mp h
    unfold mset
    split
    · rename_i h1
      rw [keysRise_cons]
      refine ⟨?_, h⟩
      intro y hy
      rcases List.mem_cons.mp hy with hy | hy
      · subst hy; exact h1
      · exact Nat.lt_trans h1 (hc.1 y hy)
    · rename_i h1
      split
      · rename_i h2
        subst h2
        rw [keysRise_cons]; exact hc
      · rename_i h2
        rw [keysRise_cons]
        refine ⟨?_, ih hc.2⟩
        intro y hy
        rcases mem_mset hy with hy | hy
        · subst hy; exact Nat.lt_of_le_of_ne (Nat.le_of_not_lt h1) (fun e => h2 e.symm)
        · exact hc.1 y hy

theorem keysRise_mdel {m : AMap α} (k : Nat) (h : keysRise m = true) : keysRise (mdel m k) = true := by
  induction m with
  | nil => rfl
  | cons x m ih =>
    obtain ⟨i, w⟩ := x
    have hc := (keysRise_cons _ _).mp h
    unfold mdel
    split
    · exact hc.2
    · rw [keysRise_cons]
      exact ⟨fun y hy => hc.1 y (mem_mdel hy), ih hc.2⟩

theorem keysRise_filter {m : AMap α} (p : Nat × α → Bool) (h : keysRise m = true) : keysRise (m.filter p) = true := by
  induction m with
  | nil => rfl
  | cons x m ih =>
    have hc := (keysRise_cons _ _).mp h
    rw [List.filter_cons]
    split
    · rw [keysRise_cons]
      exact ⟨fun y hy => hc.1 y (List.mem_filter.mp hy).1, ih hc.2⟩
    · exact ih hc.2

theorem mfind_none_of_lt {m : AMap α} {k : Nat} (h : ∀ y ∈ m, k < y.1) : mfind m k = none := by
  induction m with
  | nil => rfl
  | cons x m ih =>
    obtain ⟨i, w⟩ := x
    have h1 : k < i := h (i, w) List.mem_cons_self
    simp only [mfind, Nat.ne_of_gt h1, if_false]
    exact ih fun y hy => h y (List.mem_cons_of_mem _ hy)

theorem mfind_mdel_same {m : AMap α} (k : Nat) (h : keysRise m = true) : mfind (mdel m k) k = none := by
  induction m with
  | nil => rfl
  | cons x m ih =>
    obtain ⟨i, w⟩ := x
    have hc := (keysRise_cons _ _).mp h
    unfold mdel
    split
    · rename_i h1
      subst h1
      exact mfind_none_of_lt hc.1
    · rename_i h1
      simp only [mfind, h1, if_false]
      exact ih hc.2

/-! ### Device memory -/

theorem memWf_iff (m : List Host.Cell) : memWf m = true ↔ keysRise m = true ∧ ∀ x ∈ m, x.2 ≠ 0 := by
  simp [memWf, List.all_eq_true]

theorem memWf_put {m : List Host.Cell} (k : Nat) (b : Byte) (h : memWf m = true) : memWf (memPut m k b) = true := by
  rw [memWf_iff] at h ⊢
  unfold memPut
  split
  · exact ⟨keysRise_mdel k h.1, fun x hx => h.2 x (mem_mdel hx)⟩
  · rename_i hb
    refine ⟨keysRise_mset k b h.1, fun x hx => ?_⟩
    rcases mem_mset hx with hx | hx
    · subst hx; exact hb
    · exact h.2 x hx

theorem memWf_write {m : List Host.Cell} (k : Nat) (bs : List Byte) (h : memWf m = true) : memWf (memWrite m k bs) = true := by
  induction bs generalizing m k with
  | nil => exact h
  | cons b bs ih => exact ih (k + 1) (memWf_put k b h)

theorem memWf_filter {m : List Host.Cell} (p : Host.Cell → Bool) (h : memWf m = true) : memWf (m.filter p) = true := by
  rw [memWf_iff] at h ⊢
  exact ⟨keysRise_filter p h.1, fun x hx => h.2 x (List.mem_filter.mp hx).1⟩

theorem memByte_put_ne (m : List Host.Cell) {k j : Nat} (b : Byte) (h : j ≠ k) : memByte (memPut m k b) j = memByte m j := by
  unfold memPut memByte
  split
  · simp [mgetD, mfind_mdel_ne m h]
  · exact mgetD_mset_ne m b 0 h

theorem memByte_put_same {m : List Host.Cell} (k : Nat) (b : Byte) (h : keysRise m = true) : memByte (memPut m k b) k = b := by
  unfold memPut memByte
  split
  · rename_i hb
    simp [mgetD, mfind_mdel_same k h, hb]
  · simp

/-- Bytes outside the written ones read as before. -/
theorem memByte_write_out (m : List Host.Cell) (k j : Nat) (bs : List Byte) (h : j < k ∨ k + bs.length ≤ j) :
    memByte (memWrite m k bs) j = memByte m j := by
  induction bs generalizing m k with
  | nil => rfl
  | cons b bs ih =>
    simp only [List.length_cons] at h
    rw [memWrite, ih _ (k + 1) (by omega), memByte_put_ne m b (by omega)]

/-- The bytes written read back. -/
theorem memByte_write_in {m : List Host.Cell} (k i : Nat) (bs : List Byte) (hm : memWf m = true) (h : i < bs.length) :
    memByte (memWrite m k bs) (k + i) = bs[i] := by
  induction bs generalizing m k i with
  | nil => simp at h
  | cons b bs ih =>
    rw [memWrite]
    cases i with
    | zero =>
      rw [memByte_write_out _ _ _ _ (.inl (by omega))]
      exact memByte_put_same k b ((memWf_iff m).mp hm).1
    | succ i =>
      have := ih (k := k + 1) (i := i) (memWf_put k b hm) (by simpa using h)
      rw [show k + (i + 1) = k + 1 + i by omega, this, List.getElem_cons_succ]

end Sys2Proof.Machine
end

