-- ==== Sys2Proof/Laws/FrameOps.lean ====
section
/-! SUPPORT. What each operation of Ops.lean may change. -/

namespace Sys2Proof.Machine

open Reg

theorem fr_put (f : Fld) (v : Nat) (s : State) : Frame 0x4 s (put f v s) := by
  unfold put
  try dsimp only
  repeat' (first
    | with_reducible apply Frame.refl
    | apply Eq.refl true
    | with_reducible apply Frame.ite
    | (intro _ _; try dsimp only)
    | split
    | with_reducible apply Frame.set_regs)

theorem fr_putShadow (f : Fld) (v : Nat) (s : State) : Frame 0x8 s (putShadow f v s) := by
  unfold putShadow
  try dsimp only
  repeat' (first
    | with_reducible apply Frame.refl
    | apply Eq.refl true
    | with_reducible apply Frame.ite
    | (intro _ _; try dsimp only)
    | split
    | with_reducible apply Frame.set_shadow)

theorem fr_putForce (f : Fld) (v : Nat) (s : State) : Frame 0x18 s (putForce f v s) := by
  unfold putForce
  try dsimp only
  repeat' (first
    | with_reducible apply Frame.refl
    | apply Eq.refl true
    | with_reducible apply Frame.ite
    | (intro _ _; try dsimp only)
    | split
    | with_reducible apply Frame.set_shadow
    | with_reducible apply Frame.set_force
    | ((with_reducible apply Frame.parts (by with_reducible rfl) (by with_reducible rfl)) <;> first | (apply Or.inl; apply Eq.refl true; done) | (apply Or.inr; with_reducible apply Eq.refl; done) | skip))

theorem fr_takeMap (s : State) : Frame 0x10 s (takeMap s) := by
  unfold takeMap
  try dsimp only
  repeat' (first
    | with_reducible apply Frame.refl
    | apply Eq.refl true
    | with_reducible apply Frame.ite
    | with_reducible apply Frame.foldl
    | with_reducible apply Frame.foldl_fst
    | (intro _ _; try dsimp only)
    | split
    | with_reducible apply Frame.set_force)

theorem fr_bump (f : Fld) (n : Nat) (s : State) : Frame 0x4 s (bump f n s) := by
  unfold bump
  try dsimp only
  repeat' (first
    | with_reducible apply Frame.refl
    | apply Eq.refl true
    | (with_reducible apply Frame.seq; with_reducible case k => first | apply fr_put)
    | with_reducible apply Frame.ite
    | (intro _ _; try dsimp only)
    | split)

theorem fr_commitRange (lo hi : Nat) (s : State) : Frame 0x10 s (commitRange lo hi s) := by
  unfold commitRange
  try dsimp only
  repeat' (first
    | with_reducible apply Frame.refl
    | apply Eq.refl true
    | with_reducible apply Frame.ite
    | with_reducible apply Frame.foldl
    | with_reducible apply Frame.foldl_fst
    | (intro _ _; try dsimp only)
    | split
    | with_reducible apply Frame.set_force)

theorem fr_putAll (l : List (Fld × Nat)) (s : State) : Frame 0x4 s (putAll l s) := by
  unfold putAll
  try dsimp only
  repeat' (first
    | with_reducible apply Frame.refl
    | apply Eq.refl true
    | (with_reducible apply Frame.seq; with_reducible case k => first | apply fr_put)
    | with_reducible apply Frame.ite
    | with_reducible apply Frame.foldl
    | with_reducible apply Frame.foldl_fst
    | (intro _ _; try dsimp only)
    | split)

theorem fr_setPort (k : Nat) (p : Port) (s : State) : Frame 0x2000 s (setPort k p s) := by
  unfold setPort
  try dsimp only
  repeat' (first
    | with_reducible apply Frame.refl
    | apply Eq.refl true
    | with_reducible apply Frame.ite
    | (intro _ _; try dsimp only)
    | split
    | with_reducible apply Frame.set_ports)

theorem fr_setPc (n c p : Nat) (q : Pc) (s : State) : Frame 0x100000 s (setPc n c p q s) := by
  unfold setPc
  try dsimp only
  repeat' (first
    | with_reducible apply Frame.refl
    | apply Eq.refl true
    | with_reducible apply Frame.ite
    | (intro _ _; try dsimp only)
    | split
    | with_reducible apply Frame.set_pcs)

theorem fr_setCtx (x : Nat) (c : Ctx) (s : State) : Frame 0x2000000 s (setCtx x c s) := by
  unfold setCtx
  try dsimp only
  repeat' (first
    | with_reducible apply Frame.refl
    | apply Eq.refl true
    | with_reducible apply Frame.ite
    | (intro _ _; try dsimp only)
    | split
    | with_reducible apply Frame.set_ctxs)

theorem fr_setJob (j : Nat) (v : Job) (s : State) : Frame 0x8000000 s (setJob j v s) := by
  unfold setJob
  try dsimp only
  repeat' (first
    | with_reducible apply Frame.refl
    | apply Eq.refl true
    | with_reducible apply Frame.ite
    | (intro _ _; try dsimp only)
    | split
    | with_reducible apply Frame.set_jobs)

theorem fr_freshDraw (s : State) : Frame 0x80 s (freshDraw s) := by
  unfold freshDraw
  try dsimp only
  repeat' (first
    | with_reducible apply Frame.refl
    | apply Eq.refl true
    | with_reducible apply Frame.ite
    | (intro _ _; try dsimp only)
    | split
    | with_reducible apply Frame.set_free)

theorem fr_emit (event count : Nat) (hive src cls ch : Option Nat) (s : State) : Frame 0x40000000000 s (emit event count hive src cls ch s) := by
  unfold emit
  try dsimp only
  repeat' (first
    | with_reducible apply Frame.refl
    | apply Eq.refl true
    | with_reducible apply Frame.ite
    | (intro _ _; try dsimp only)
    | split
    | with_reducible apply Frame.set_occ)

theorem fr_emitSome (event hive : Nat) (ch : Option Nat) (s : State) : Frame 0x40000000080 s (emitSome event hive ch s) := by
  unfold emitSome
  try dsimp only
  repeat' (first
    | with_reducible apply Frame.refl
    | apply Eq.refl true
    | (with_reducible apply Frame.seq; with_reducible case k => first | apply fr_freshDraw)
    | with_reducible apply Frame.ite
    | (intro _ _; try dsimp only)
    | split
    | with_reducible apply Frame.set_occ)

theorem fr_sendTlp (t : HpTlp) (s : State) : Frame 0x1000000000000000 s (sendTlp t s) := by
  unfold sendTlp
  try dsimp only
  repeat' (first
    | with_reducible apply Frame.refl
    | apply Eq.refl true
    | with_reducible apply Frame.ite
    | (intro _ _; try dsimp only)
    | split
    | with_reducible apply Frame.set_out)

theorem fr_sendCompletion (tag a : Nat) (d : List Byte) (poisoned : Bool) (s : State) : Frame 0x1000000000000000 s (sendCompletion tag a d poisoned s) := by
  unfold sendCompletion
  try dsimp only
  repeat' (first
    | with_reducible apply Frame.refl
    | apply Eq.refl true
    | (with_reducible apply Frame.seq; with_reducible case k => first | apply fr_sendTlp)
    | with_reducible apply Frame.ite
    | with_reducible apply Frame.foldl
    | with_reducible apply Frame.foldl_fst
    | (intro _ _; try dsimp only)
    | split)

theorem fr_sendMsgNow (v : Nat) (s : State) : Frame 0x1000000000000000 s (sendMsgNow v s) := by
  unfold sendMsgNow
  try dsimp only
  repeat' (first
    | with_reducible apply Frame.refl
    | apply Eq.refl true
    | (with_reducible apply Frame.seq; with_reducible case k => first | apply fr_sendTlp)
    | with_reducible apply Frame.ite
    | (intro _ _; try dsimp only)
    | split)

theorem fr_sendMsg (v : Nat) (s : State) : Frame 0x1000000800000000 s (sendMsg v s) := by
  unfold sendMsg
  try dsimp only
  repeat' (first
    | with_reducible apply Frame.refl
    | apply Eq.refl true
    | (with_reducible apply Frame.seq; with_reducible case k => first | apply fr_sendMsgNow)
    | with_reducible apply Frame.ite
    | (intro _ _; try dsimp only)
    | split
    | with_reducible apply Frame.set_host)

theorem fr_raiseInt (b : Nat) (s : State) : Frame 0x1000000800000004 s (raiseInt b s) := by
  unfold raiseInt
  try dsimp only
  repeat' (first
    | with_reducible apply Frame.refl
    | apply Eq.refl true
    | (with_reducible apply Frame.seq; with_reducible case k => first | apply fr_sendMsg | apply fr_put)
    | with_reducible apply Frame.ite
    | (intro _ _; try dsimp only)
    | split)

theorem fr_evQueueWrite (mk : Nat → Nat → List Nat) (s : State) : Frame 0x1000000000000004 s (evQueueWrite mk s) := by
  unfold evQueueWrite
  try dsimp only
  repeat' (first
    | with_reducible apply Frame.refl
    | apply Eq.refl true
    | (with_reducible apply Frame.seq; with_reducible case k => first | apply fr_sendTlp | apply fr_put)
    | with_reducible apply Frame.ite
    | (intro _ _; try dsimp only)
    | split)

theorem fr_askFw (area : FwArea) (off : Nat) (write : Bool) (len : Nat) (d : List Byte) (s : State) : Frame 0x80000 s (askFw area off write len d s) := by
  unfold askFw
  try dsimp only
  repeat' (first
    | with_reducible apply Frame.refl
    | apply Eq.refl true
    | with_reducible apply Frame.ite
    | (intro _ _; try dsimp only)
    | split
    | with_reducible apply Frame.set_fwAccs)

theorem fr_fwWrite (area : FwArea) (off : Nat) (d : List Byte) (s : State) : Frame 0x80000 s (fwWrite area off d s) := by
  unfold fwWrite
  try dsimp only
  repeat' (first
    | with_reducible apply Frame.refl
    | apply Eq.refl true
    | (with_reducible apply Frame.seq; with_reducible case k => first | apply fr_askFw)
    | with_reducible apply Frame.ite
    | (intro _ _; try dsimp only)
    | split)

theorem fr_fwRead (area : FwArea) (off len : Nat) (s : State) : Frame 0x80000 s (fwRead area off len s) := by
  unfold fwRead
  try dsimp only
  repeat' (first
    | with_reducible apply Frame.refl
    | apply Eq.refl true
    | (with_reducible apply Frame.seq; with_reducible case k => first | apply fr_askFw)
    | with_reducible apply Frame.ite
    | (intro _ _; try dsimp only)
    | split)

theorem fr_ringWrite (s : State) (e : Event) : Frame 0x80000 s (ringWrite s e) := by
  unfold ringWrite
  try dsimp only
  repeat' (first
    | with_reducible apply Frame.refl
    | apply Eq.refl true
    | (with_reducible apply Frame.seq; with_reducible case k => first | apply fr_fwWrite)
    | with_reducible apply Frame.ite
    | (intro _ _; try dsimp only)
    | split)

theorem fr_drainEvents (l : List Event) (s : State) : Frame 0x1000004800080004 s (drainEvents l s) := by
  induction l generalizing s with
  | nil => exact Frame.set_ring rfl Frame.refl
  | cons e l ih =>
    unfold drainEvents
    split
    · exact Frame.seq (Frame.seq (Frame.seq (Frame.mono (fr_fwRead ..) rfl) (fr_evQueueWrite ..) rfl) (fr_raiseInt ..) rfl) (ih _) rfl
    · exact Frame.set_ring rfl Frame.refl

theorem fr_flushEvents (s : State) : Frame 0x1000006800080004 s (flushEvents s) := by
  unfold flushEvents
  try dsimp only
  repeat' (first
    | with_reducible apply Frame.refl
    | apply Eq.refl true
    | (with_reducible apply Frame.seq; with_reducible case k => first | apply fr_drainEvents)
    | with_reducible apply Frame.ite
    | (intro _ _; try dsimp only)
    | split
    | with_reducible apply Frame.set_held)

theorem fr_queueEvent (e : Event) (s : State) : Frame 0x1000006800080004 s (queueEvent e s) := by
  unfold queueEvent
  try dsimp only
  repeat' (first
    | with_reducible apply Frame.refl
    | apply Eq.refl true
    | (with_reducible apply Frame.seq; with_reducible case k => first | apply fr_flushEvents | apply fr_ringWrite | apply fr_bump)
    | with_reducible apply Frame.ite
    | (intro _ _; try dsimp only)
    | split
    | with_reducible apply Frame.set_held
    | with_reducible apply Frame.set_ring
    | ((with_reducible apply Frame.parts (by with_reducible rfl) (by with_reducible rfl)) <;> first | (apply Or.inl; apply Eq.refl true; done) | (apply Or.inr; with_reducible apply Eq.refl; done) | skip))

theorem fr_postEvent (cls source kind : Nat) (detail : List Nat) (s : State) : Frame 0x100001E800080004 s (postEvent cls source kind detail s) := by
  unfold postEvent
  try dsimp only
  repeat' (first
    | with_reducible apply Frame.refl
    | apply Eq.refl true
    | (with_reducible apply Frame.seq; with_reducible case k => first | apply fr_queueEvent)
    | with_reducible apply Frame.ite
    | (intro _ _; try dsimp only)
    | split
    | with_reducible apply Frame.set_eventSeq
    | with_reducible apply Frame.set_logWait
    | ((with_reducible apply Frame.parts (by with_reducible rfl) (by with_reducible rfl)) <;> first | (apply Or.inl; apply Eq.refl true; done) | (apply Or.inr; with_reducible apply Eq.refl; done) | skip))

theorem fr_writeBlock (n c off : Nat) (d : Beat) (s : State) : Frame 0x1800 s (writeBlock n c off d s) :=
  Frame.memory rfl rfl (memWf_write _ _) .refl

theorem fr_markBlock (n c off : Nat) (s : State) : Frame 0x1800 s (markBlock n c off s) :=
  Frame.memory rfl rfl (memWf_write _ _) .refl

theorem fr_recordFault (ctx src : Nat) (write window : Bool) (addr : Nat) (s : State) : Frame 0x4 s (recordFault ctx src write window addr s) := by
  unfold recordFault
  try dsimp only
  repeat' (first
    | with_reducible apply Frame.refl
    | apply Eq.refl true
    | (with_reducible apply Frame.seq; with_reducible case k => first | apply fr_putAll | apply fr_put)
    | with_reducible apply Frame.ite
    | (intro _ _; try dsimp only)
    | split)

end Sys2Proof.Machine
end

