-- ==== Sys2Proof/Laws/State.lean ====
section
/-! SUPPORT. Each simple update of State, field by field: the field it sets, and that it keeps every other one. -/

namespace Sys2Proof.Machine

/-! ### put -/

@[simp] theorem put_pending (f : Fld) (v : Nat) (s : State) : (put f v s).pending = s.pending := rfl
@[simp] theorem put_env (f : Fld) (v : Nat) (s : State) : (put f v s).env = s.env := rfl
@[simp] theorem put_regs (f : Fld) (v : Nat) (s : State) : (put f v s).regs = mset s.regs f.key (v % 2 ^ f.w) := rfl
@[simp] theorem put_shadow (f : Fld) (v : Nat) (s : State) : (put f v s).shadow = s.shadow := rfl
@[simp] theorem put_force (f : Fld) (v : Nat) (s : State) : (put f v s).force = s.force := rfl
@[simp] theorem put_loHeld (f : Fld) (v : Nat) (s : State) : (put f v s).loHeld = s.loHeld := rfl
@[simp] theorem put_hiCap (f : Fld) (v : Nat) (s : State) : (put f v s).hiCap = s.hiCap := rfl
@[simp] theorem put_free (f : Fld) (v : Nat) (s : State) : (put f v s).free = s.free := rfl
@[simp] theorem put_rounds (f : Fld) (v : Nat) (s : State) : (put f v s).rounds = s.rounds := rfl
@[simp] theorem put_fclk (f : Fld) (v : Nat) (s : State) : (put f v s).fclk = s.fclk := rfl
@[simp] theorem put_nextUid (f : Fld) (v : Nat) (s : State) : (put f v s).nextUid = s.nextUid := rfl
@[simp] theorem put_mem (f : Fld) (v : Nat) (s : State) : (put f v s).mem = s.mem := rfl
@[simp] theorem put_marked (f : Fld) (v : Nat) (s : State) : (put f v s).marked = s.marked := rfl
@[simp] theorem put_ports (f : Fld) (v : Nat) (s : State) : (put f v s).ports = s.ports := rfl
@[simp] theorem put_rotation (f : Fld) (v : Nat) (s : State) : (put f v s).rotation = s.rotation := rfl
@[simp] theorem put_tokens (f : Fld) (v : Nat) (s : State) : (put f v s).tokens = s.tokens := rfl
@[simp] theorem put_gates (f : Fld) (v : Nat) (s : State) : (put f v s).gates = s.gates := rfl
@[simp] theorem put_live (f : Fld) (v : Nat) (s : State) : (put f v s).live = s.live := rfl
@[simp] theorem put_arrived (f : Fld) (v : Nat) (s : State) : (put f v s).arrived = s.arrived := rfl
@[simp] theorem put_fwAccs (f : Fld) (v : Nat) (s : State) : (put f v s).fwAccs = s.fwAccs := rfl
@[simp] theorem put_pcs (f : Fld) (v : Nat) (s : State) : (put f v s).pcs = s.pcs := rfl
@[simp] theorem put_chanLfsr (f : Fld) (v : Nat) (s : State) : (put f v s).chanLfsr = s.chanLfsr := rfl
@[simp] theorem put_ceLeaks (f : Fld) (v : Nat) (s : State) : (put f v s).ceLeaks = s.ceLeaks := rfl
@[simp] theorem put_lanes (f : Fld) (v : Nat) (s : State) : (put f v s).lanes = s.lanes := rfl
@[simp] theorem put_hives (f : Fld) (v : Nat) (s : State) : (put f v s).hives = s.hives := rfl
@[simp] theorem put_ctxs (f : Fld) (v : Nat) (s : State) : (put f v s).ctxs = s.ctxs := rfl
@[simp] theorem put_ctxHeld (f : Fld) (v : Nat) (s : State) : (put f v s).ctxHeld = s.ctxHeld := rfl
@[simp] theorem put_jobs (f : Fld) (v : Nat) (s : State) : (put f v s).jobs = s.jobs := rfl
@[simp] theorem put_nextJob (f : Fld) (v : Nat) (s : State) : (put f v s).nextJob = s.nextJob := rfl
@[simp] theorem put_lateJobs (f : Fld) (v : Nat) (s : State) : (put f v s).lateJobs = s.lateJobs := rfl
@[simp] theorem put_finished (f : Fld) (v : Nat) (s : State) : (put f v s).finished = s.finished := rfl
@[simp] theorem put_hbStart (f : Fld) (v : Nat) (s : State) : (put f v s).hbStart = s.hbStart := rfl
@[simp] theorem put_auditSeq (f : Fld) (v : Nat) (s : State) : (put f v s).auditSeq = s.auditSeq := rfl
@[simp] theorem put_spill (f : Fld) (v : Nat) (s : State) : (put f v s).spill = s.spill := rfl
@[simp] theorem put_acks (f : Fld) (v : Nat) (s : State) : (put f v s).acks = s.acks := rfl
@[simp] theorem put_host (f : Fld) (v : Nat) (s : State) : (put f v s).host = s.host := rfl
@[simp] theorem put_peer (f : Fld) (v : Nat) (s : State) : (put f v s).peer = s.peer := rfl
@[simp] theorem put_held (f : Fld) (v : Nat) (s : State) : (put f v s).held = s.held := rfl
@[simp] theorem put_ring (f : Fld) (v : Nat) (s : State) : (put f v s).ring = s.ring := rfl
@[simp] theorem put_eventSeq (f : Fld) (v : Nat) (s : State) : (put f v s).eventSeq = s.eventSeq := rfl
@[simp] theorem put_logWait (f : Fld) (v : Nat) (s : State) : (put f v s).logWait = s.logWait := rfl
@[simp] theorem put_evLog (f : Fld) (v : Nat) (s : State) : (put f v s).evLog = s.evLog := rfl
@[simp] theorem put_occ (f : Fld) (v : Nat) (s : State) : (put f v s).occ = s.occ := rfl
@[simp] theorem put_samplers (f : Fld) (v : Nat) (s : State) : (put f v s).samplers = s.samplers := rfl
@[simp] theorem put_overruns (f : Fld) (v : Nat) (s : State) : (put f v s).overruns = s.overruns := rfl
@[simp] theorem put_power (f : Fld) (v : Nat) (s : State) : (put f v s).power = s.power := rfl
@[simp] theorem put_thermal (f : Fld) (v : Nat) (s : State) : (put f v s).thermal = s.thermal := rfl
@[simp] theorem put_recal (f : Fld) (v : Nat) (s : State) : (put f v s).recal = s.recal := rfl
@[simp] theorem put_recalNext (f : Fld) (v : Nat) (s : State) : (put f v s).recalNext = s.recalNext := rfl
@[simp] theorem put_cores (f : Fld) (v : Nat) (s : State) : (put f v s).cores = s.cores := rfl
@[simp] theorem put_otp (f : Fld) (v : Nat) (s : State) : (put f v s).otp = s.otp := rfl
@[simp] theorem put_flash (f : Fld) (v : Nat) (s : State) : (put f v s).flash = s.flash := rfl
@[simp] theorem put_fw (f : Fld) (v : Nat) (s : State) : (put f v s).fw = s.fw := rfl
@[simp] theorem put_audit (f : Fld) (v : Nat) (s : State) : (put f v s).audit = s.audit := rfl
@[simp] theorem put_scrubRun (f : Fld) (v : Nat) (s : State) : (put f v s).scrubRun = s.scrubRun := rfl
@[simp] theorem put_remapLog (f : Fld) (v : Nat) (s : State) : (put f v s).remapLog = s.remapLog := rfl
@[simp] theorem put_remapWant (f : Fld) (v : Nat) (s : State) : (put f v s).remapWant = s.remapWant := rfl
@[simp] theorem put_svcWait (f : Fld) (v : Nat) (s : State) : (put f v s).svcWait = s.svcWait := rfl
@[simp] theorem put_jtgIr (f : Fld) (v : Nat) (s : State) : (put f v s).jtgIr = s.jtgIr := rfl
@[simp] theorem put_bwBytes (f : Fld) (v : Nat) (s : State) : (put f v s).bwBytes = s.bwBytes := rfl
@[simp] theorem put_out (f : Fld) (v : Nat) (s : State) : (put f v s).out = s.out := rfl

/-! ### putShadow -/

@[simp] theorem putShadow_pending (f : Fld) (v : Nat) (s : State) : (putShadow f v s).pending = s.pending := rfl
@[simp] theorem putShadow_env (f : Fld) (v : Nat) (s : State) : (putShadow f v s).env = s.env := rfl
@[simp] theorem putShadow_regs (f : Fld) (v : Nat) (s : State) : (putShadow f v s).regs = s.regs := rfl
@[simp] theorem putShadow_shadow (f : Fld) (v : Nat) (s : State) : (putShadow f v s).shadow = mset s.shadow f.key (v % 2 ^ f.w) := rfl
@[simp] theorem putShadow_force (f : Fld) (v : Nat) (s : State) : (putShadow f v s).force = s.force := rfl
@[simp] theorem putShadow_loHeld (f : Fld) (v : Nat) (s : State) : (putShadow f v s).loHeld = s.loHeld := rfl
@[simp] theorem putShadow_hiCap (f : Fld) (v : Nat) (s : State) : (putShadow f v s).hiCap = s.hiCap := rfl
@[simp] theorem putShadow_free (f : Fld) (v : Nat) (s : State) : (putShadow f v s).free = s.free := rfl
@[simp] theorem putShadow_rounds (f : Fld) (v : Nat) (s : State) : (putShadow f v s).rounds = s.rounds := rfl
@[simp] theorem putShadow_fclk (f : Fld) (v : Nat) (s : State) : (putShadow f v s).fclk = s.fclk := rfl
@[simp] theorem putShadow_nextUid (f : Fld) (v : Nat) (s : State) : (putShadow f v s).nextUid = s.nextUid := rfl
@[simp] theorem putShadow_mem (f : Fld) (v : Nat) (s : State) : (putShadow f v s).mem = s.mem := rfl
@[simp] theorem putShadow_marked (f : Fld) (v : Nat) (s : State) : (putShadow f v s).marked = s.marked := rfl
@[simp] theorem putShadow_ports (f : Fld) (v : Nat) (s : State) : (putShadow f v s).ports = s.ports := rfl
@[simp] theorem putShadow_rotation (f : Fld) (v : Nat) (s : State) : (putShadow f v s).rotation = s.rotation := rfl
@[simp] theorem putShadow_tokens (f : Fld) (v : Nat) (s : State) : (putShadow f v s).tokens = s.tokens := rfl
@[simp] theorem putShadow_gates (f : Fld) (v : Nat) (s : State) : (putShadow f v s).gates = s.gates := rfl
@[simp] theorem putShadow_live (f : Fld) (v : Nat) (s : State) : (putShadow f v s).live = s.live := rfl
@[simp] theorem putShadow_arrived (f : Fld) (v : Nat) (s : State) : (putShadow f v s).arrived = s.arrived := rfl
@[simp] theorem putShadow_fwAccs (f : Fld) (v : Nat) (s : State) : (putShadow f v s).fwAccs = s.fwAccs := rfl
@[simp] theorem putShadow_pcs (f : Fld) (v : Nat) (s : State) : (putShadow f v s).pcs = s.pcs := rfl
@[simp] theorem putShadow_chanLfsr (f : Fld) (v : Nat) (s : State) : (putShadow f v s).chanLfsr = s.chanLfsr := rfl
@[simp] theorem putShadow_ceLeaks (f : Fld) (v : Nat) (s : State) : (putShadow f v s).ceLeaks = s.ceLeaks := rfl
@[simp] theorem putShadow_lanes (f : Fld) (v : Nat) (s : State) : (putShadow f v s).lanes = s.lanes := rfl
@[simp] theorem putShadow_hives (f : Fld) (v : Nat) (s : State) : (putShadow f v s).hives = s.hives := rfl
@[simp] theorem putShadow_ctxs (f : Fld) (v : Nat) (s : State) : (putShadow f v s).ctxs = s.ctxs := rfl
@[simp] theorem putShadow_ctxHeld (f : Fld) (v : Nat) (s : State) : (putShadow f v s).ctxHeld = s.ctxHeld := rfl
@[simp] theorem putShadow_jobs (f : Fld) (v : Nat) (s : State) : (putShadow f v s).jobs = s.jobs := rfl
@[simp] theorem putShadow_nextJob (f : Fld) (v : Nat) (s : State) : (putShadow f v s).nextJob = s.nextJob := rfl
@[simp] theorem putShadow_lateJobs (f : Fld) (v : Nat) (s : State) : (putShadow f v s).lateJobs = s.lateJobs := rfl
@[simp] theorem putShadow_finished (f : Fld) (v : Nat) (s : State) : (putShadow f v s).finished = s.finished := rfl
@[simp] theorem putShadow_hbStart (f : Fld) (v : Nat) (s : State) : (putShadow f v s).hbStart = s.hbStart := rfl
@[simp] theorem putShadow_auditSeq (f : Fld) (v : Nat) (s : State) : (putShadow f v s).auditSeq = s.auditSeq := rfl
@[simp] theorem putShadow_spill (f : Fld) (v : Nat) (s : State) : (putShadow f v s).spill = s.spill := rfl
@[simp] theorem putShadow_acks (f : Fld) (v : Nat) (s : State) : (putShadow f v s).acks = s.acks := rfl
@[simp] theorem putShadow_host (f : Fld) (v : Nat) (s : State) : (putShadow f v s).host = s.host := rfl
@[simp] theorem putShadow_peer (f : Fld) (v : Nat) (s : State) : (putShadow f v s).peer = s.peer := rfl
@[simp] theorem putShadow_held (f : Fld) (v : Nat) (s : State) : (putShadow f v s).held = s.held := rfl
@[simp] theorem putShadow_ring (f : Fld) (v : Nat) (s : State) : (putShadow f v s).ring = s.ring := rfl
@[simp] theorem putShadow_eventSeq (f : Fld) (v : Nat) (s : State) : (putShadow f v s).eventSeq = s.eventSeq := rfl
@[simp] theorem putShadow_logWait (f : Fld) (v : Nat) (s : State) : (putShadow f v s).logWait = s.logWait := rfl
@[simp] theorem putShadow_evLog (f : Fld) (v : Nat) (s : State) : (putShadow f v s).evLog = s.evLog := rfl
@[simp] theorem putShadow_occ (f : Fld) (v : Nat) (s : State) : (putShadow f v s).occ = s.occ := rfl
@[simp] theorem putShadow_samplers (f : Fld) (v : Nat) (s : State) : (putShadow f v s).samplers = s.samplers := rfl
@[simp] theorem putShadow_overruns (f : Fld) (v : Nat) (s : State) : (putShadow f v s).overruns = s.overruns := rfl
@[simp] theorem putShadow_power (f : Fld) (v : Nat) (s : State) : (putShadow f v s).power = s.power := rfl
@[simp] theorem putShadow_thermal (f : Fld) (v : Nat) (s : State) : (putShadow f v s).thermal = s.thermal := rfl
@[simp] theorem putShadow_recal (f : Fld) (v : Nat) (s : State) : (putShadow f v s).recal = s.recal := rfl
@[simp] theorem putShadow_recalNext (f : Fld) (v : Nat) (s : State) : (putShadow f v s).recalNext = s.recalNext := rfl
@[simp] theorem putShadow_cores (f : Fld) (v : Nat) (s : State) : (putShadow f v s).cores = s.cores := rfl
@[simp] theorem putShadow_otp (f : Fld) (v : Nat) (s : State) : (putShadow f v s).otp = s.otp := rfl
@[simp] theorem putShadow_flash (f : Fld) (v : Nat) (s : State) : (putShadow f v s).flash = s.flash := rfl
@[simp] theorem putShadow_fw (f : Fld) (v : Nat) (s : State) : (putShadow f v s).fw = s.fw := rfl
@[simp] theorem putShadow_audit (f : Fld) (v : Nat) (s : State) : (putShadow f v s).audit = s.audit := rfl
@[simp] theorem putShadow_scrubRun (f : Fld) (v : Nat) (s : State) : (putShadow f v s).scrubRun = s.scrubRun := rfl
@[simp] theorem putShadow_remapLog (f : Fld) (v : Nat) (s : State) : (putShadow f v s).remapLog = s.remapLog := rfl
@[simp] theorem putShadow_remapWant (f : Fld) (v : Nat) (s : State) : (putShadow f v s).remapWant = s.remapWant := rfl
@[simp] theorem putShadow_svcWait (f : Fld) (v : Nat) (s : State) : (putShadow f v s).svcWait = s.svcWait := rfl
@[simp] theorem putShadow_jtgIr (f : Fld) (v : Nat) (s : State) : (putShadow f v s).jtgIr = s.jtgIr := rfl
@[simp] theorem putShadow_bwBytes (f : Fld) (v : Nat) (s : State) : (putShadow f v s).bwBytes = s.bwBytes := rfl
@[simp] theorem putShadow_out (f : Fld) (v : Nat) (s : State) : (putShadow f v s).out = s.out := rfl

/-! ### putForce -/

@[simp] theorem putForce_pending (f : Fld) (v : Nat) (s : State) : (putForce f v s).pending = s.pending := rfl
@[simp] theorem putForce_env (f : Fld) (v : Nat) (s : State) : (putForce f v s).env = s.env := rfl
@[simp] theorem putForce_regs (f : Fld) (v : Nat) (s : State) : (putForce f v s).regs = s.regs := rfl
@[simp] theorem putForce_shadow (f : Fld) (v : Nat) (s : State) : (putForce f v s).shadow = mset s.shadow f.key (v % 2 ^ f.w) := rfl
@[simp] theorem putForce_force (f : Fld) (v : Nat) (s : State) : (putForce f v s).force = mset s.force f.key (v % 2 ^ f.w) := rfl
@[simp] theorem putForce_loHeld (f : Fld) (v : Nat) (s : State) : (putForce f v s).loHeld = s.loHeld := rfl
@[simp] theorem putForce_hiCap (f : Fld) (v : Nat) (s : State) : (putForce f v s).hiCap = s.hiCap := rfl
@[simp] theorem putForce_free (f : Fld) (v : Nat) (s : State) : (putForce f v s).free = s.free := rfl
@[simp] theorem putForce_rounds (f : Fld) (v : Nat) (s : State) : (putForce f v s).rounds = s.rounds := rfl
@[simp] theorem putForce_fclk (f : Fld) (v : Nat) (s : State) : (putForce f v s).fclk = s.fclk := rfl
@[simp] theorem putForce_nextUid (f : Fld) (v : Nat) (s : State) : (putForce f v s).nextUid = s.nextUid := rfl
@[simp] theorem putForce_mem (f : Fld) (v : Nat) (s : State) : (putForce f v s).mem = s.mem := rfl
@[simp] theorem putForce_marked (f : Fld) (v : Nat) (s : State) : (putForce f v s).marked = s.marked := rfl
@[simp] theorem putForce_ports (f : Fld) (v : Nat) (s : State) : (putForce f v s).ports = s.ports := rfl
@[simp] theorem putForce_rotation (f : Fld) (v : Nat) (s : State) : (putForce f v s).rotation = s.rotation := rfl
@[simp] theorem putForce_tokens (f : Fld) (v : Nat) (s : State) : (putForce f v s).tokens = s.tokens := rfl
@[simp] theorem putForce_gates (f : Fld) (v : Nat) (s : State) : (putForce f v s).gates = s.gates := rfl
@[simp] theorem putForce_live (f : Fld) (v : Nat) (s : State) : (putForce f v s).live = s.live := rfl
@[simp] theorem putForce_arrived (f : Fld) (v : Nat) (s : State) : (putForce f v s).arrived = s.arrived := rfl
@[simp] theorem putForce_fwAccs (f : Fld) (v : Nat) (s : State) : (putForce f v s).fwAccs = s.fwAccs := rfl
@[simp] theorem putForce_pcs (f : Fld) (v : Nat) (s : State) : (putForce f v s).pcs = s.pcs := rfl
@[simp] theorem putForce_chanLfsr (f : Fld) (v : Nat) (s : State) : (putForce f v s).chanLfsr = s.chanLfsr := rfl
@[simp] theorem putForce_ceLeaks (f : Fld) (v : Nat) (s : State) : (putForce f v s).ceLeaks = s.ceLeaks := rfl
@[simp] theorem putForce_lanes (f : Fld) (v : Nat) (s : State) : (putForce f v s).lanes = s.lanes := rfl
@[simp] theorem putForce_hives (f : Fld) (v : Nat) (s : State) : (putForce f v s).hives = s.hives := rfl
@[simp] theorem putForce_ctxs (f : Fld) (v : Nat) (s : State) : (putForce f v s).ctxs = s.ctxs := rfl
@[simp] theorem putForce_ctxHeld (f : Fld) (v : Nat) (s : State) : (putForce f v s).ctxHeld = s.ctxHeld := rfl
@[simp] theorem putForce_jobs (f : Fld) (v : Nat) (s : State) : (putForce f v s).jobs = s.jobs := rfl
@[simp] theorem putForce_nextJob (f : Fld) (v : Nat) (s : State) : (putForce f v s).nextJob = s.nextJob := rfl
@[simp] theorem putForce_lateJobs (f : Fld) (v : Nat) (s : State) : (putForce f v s).lateJobs = s.lateJobs := rfl
@[simp] theorem putForce_finished (f : Fld) (v : Nat) (s : State) : (putForce f v s).finished = s.finished := rfl
@[simp] theorem putForce_hbStart (f : Fld) (v : Nat) (s : State) : (putForce f v s).hbStart = s.hbStart := rfl
@[simp] theorem putForce_auditSeq (f : Fld) (v : Nat) (s : State) : (putForce f v s).auditSeq = s.auditSeq := rfl
@[simp] theorem putForce_spill (f : Fld) (v : Nat) (s : State) : (putForce f v s).spill = s.spill := rfl
@[simp] theorem putForce_acks (f : Fld) (v : Nat) (s : State) : (putForce f v s).acks = s.acks := rfl
@[simp] theorem putForce_host (f : Fld) (v : Nat) (s : State) : (putForce f v s).host = s.host := rfl
@[simp] theorem putForce_peer (f : Fld) (v : Nat) (s : State) : (putForce f v s).peer = s.peer := rfl
@[simp] theorem putForce_held (f : Fld) (v : Nat) (s : State) : (putForce f v s).held = s.held := rfl
@[simp] theorem putForce_ring (f : Fld) (v : Nat) (s : State) : (putForce f v s).ring = s.ring := rfl
@[simp] theorem putForce_eventSeq (f : Fld) (v : Nat) (s : State) : (putForce f v s).eventSeq = s.eventSeq := rfl
@[simp] theorem putForce_logWait (f : Fld) (v : Nat) (s : State) : (putForce f v s).logWait = s.logWait := rfl
@[simp] theorem putForce_evLog (f : Fld) (v : Nat) (s : State) : (putForce f v s).evLog = s.evLog := rfl
@[simp] theorem putForce_occ (f : Fld) (v : Nat) (s : State) : (putForce f v s).occ = s.occ := rfl
@[simp] theorem putForce_samplers (f : Fld) (v : Nat) (s : State) : (putForce f v s).samplers = s.samplers := rfl
@[simp] theorem putForce_overruns (f : Fld) (v : Nat) (s : State) : (putForce f v s).overruns = s.overruns := rfl
@[simp] theorem putForce_power (f : Fld) (v : Nat) (s : State) : (putForce f v s).power = s.power := rfl
@[simp] theorem putForce_thermal (f : Fld) (v : Nat) (s : State) : (putForce f v s).thermal = s.thermal := rfl
@[simp] theorem putForce_recal (f : Fld) (v : Nat) (s : State) : (putForce f v s).recal = s.recal := rfl
@[simp] theorem putForce_recalNext (f : Fld) (v : Nat) (s : State) : (putForce f v s).recalNext = s.recalNext := rfl
@[simp] theorem putForce_cores (f : Fld) (v : Nat) (s : State) : (putForce f v s).cores = s.cores := rfl
@[simp] theorem putForce_otp (f : Fld) (v : Nat) (s : State) : (putForce f v s).otp = s.otp := rfl
@[simp] theorem putForce_flash (f : Fld) (v : Nat) (s : State) : (putForce f v s).flash = s.flash := rfl
@[simp] theorem putForce_fw (f : Fld) (v : Nat) (s : State) : (putForce f v s).fw = s.fw := rfl
@[simp] theorem putForce_audit (f : Fld) (v : Nat) (s : State) : (putForce f v s).audit = s.audit := rfl
@[simp] theorem putForce_scrubRun (f : Fld) (v : Nat) (s : State) : (putForce f v s).scrubRun = s.scrubRun := rfl
@[simp] theorem putForce_remapLog (f : Fld) (v : Nat) (s : State) : (putForce f v s).remapLog = s.remapLog := rfl
@[simp] theorem putForce_remapWant (f : Fld) (v : Nat) (s : State) : (putForce f v s).remapWant = s.remapWant := rfl
@[simp] theorem putForce_svcWait (f : Fld) (v : Nat) (s : State) : (putForce f v s).svcWait = s.svcWait := rfl
@[simp] theorem putForce_jtgIr (f : Fld) (v : Nat) (s : State) : (putForce f v s).jtgIr = s.jtgIr := rfl
@[simp] theorem putForce_bwBytes (f : Fld) (v : Nat) (s : State) : (putForce f v s).bwBytes = s.bwBytes := rfl
@[simp] theorem putForce_out (f : Fld) (v : Nat) (s : State) : (putForce f v s).out = s.out := rfl

/-! ### setPort -/

@[simp] theorem setPort_pending (k : Nat) (p : Port) (s : State) : (setPort k p s).pending = s.pending := rfl
@[simp] theorem setPort_env (k : Nat) (p : Port) (s : State) : (setPort k p s).env = s.env := rfl
@[simp] theorem setPort_regs (k : Nat) (p : Port) (s : State) : (setPort k p s).regs = s.regs := rfl
@[simp] theorem setPort_shadow (k : Nat) (p : Port) (s : State) : (setPort k p s).shadow = s.shadow := rfl
@[simp] theorem setPort_force (k : Nat) (p : Port) (s : State) : (setPort k p s).force = s.force := rfl
@[simp] theorem setPort_loHeld (k : Nat) (p : Port) (s : State) : (setPort k p s).loHeld = s.loHeld := rfl
@[simp] theorem setPort_hiCap (k : Nat) (p : Port) (s : State) : (setPort k p s).hiCap = s.hiCap := rfl
@[simp] theorem setPort_free (k : Nat) (p : Port) (s : State) : (setPort k p s).free = s.free := rfl
@[simp] theorem setPort_rounds (k : Nat) (p : Port) (s : State) : (setPort k p s).rounds = s.rounds := rfl
@[simp] theorem setPort_fclk (k : Nat) (p : Port) (s : State) : (setPort k p s).fclk = s.fclk := rfl
@[simp] theorem setPort_nextUid (k : Nat) (p : Port) (s : State) : (setPort k p s).nextUid = s.nextUid := rfl
@[simp] theorem setPort_mem (k : Nat) (p : Port) (s : State) : (setPort k p s).mem = s.mem := rfl
@[simp] theorem setPort_marked (k : Nat) (p : Port) (s : State) : (setPort k p s).marked = s.marked := rfl
@[simp] theorem setPort_ports (k : Nat) (p : Port) (s : State) : (setPort k p s).ports = mset s.ports k p := rfl
@[simp] theorem setPort_rotation (k : Nat) (p : Port) (s : State) : (setPort k p s).rotation = s.rotation := rfl
@[simp] theorem setPort_tokens (k : Nat) (p : Port) (s : State) : (setPort k p s).tokens = s.tokens := rfl
@[simp] theorem setPort_gates (k : Nat) (p : Port) (s : State) : (setPort k p s).gates = s.gates := rfl
@[simp] theorem setPort_live (k : Nat) (p : Port) (s : State) : (setPort k p s).live = s.live := rfl
@[simp] theorem setPort_arrived (k : Nat) (p : Port) (s : State) : (setPort k p s).arrived = s.arrived := rfl
@[simp] theorem setPort_fwAccs (k : Nat) (p : Port) (s : State) : (setPort k p s).fwAccs = s.fwAccs := rfl
@[simp] theorem setPort_pcs (k : Nat) (p : Port) (s : State) : (setPort k p s).pcs = s.pcs := rfl
@[simp] theorem setPort_chanLfsr (k : Nat) (p : Port) (s : State) : (setPort k p s).chanLfsr = s.chanLfsr := rfl
@[simp] theorem setPort_ceLeaks (k : Nat) (p : Port) (s : State) : (setPort k p s).ceLeaks = s.ceLeaks := rfl
@[simp] theorem setPort_lanes (k : Nat) (p : Port) (s : State) : (setPort k p s).lanes = s.lanes := rfl
@[simp] theorem setPort_hives (k : Nat) (p : Port) (s : State) : (setPort k p s).hives = s.hives := rfl
@[simp] theorem setPort_ctxs (k : Nat) (p : Port) (s : State) : (setPort k p s).ctxs = s.ctxs := rfl
@[simp] theorem setPort_ctxHeld (k : Nat) (p : Port) (s : State) : (setPort k p s).ctxHeld = s.ctxHeld := rfl
@[simp] theorem setPort_jobs (k : Nat) (p : Port) (s : State) : (setPort k p s).jobs = s.jobs := rfl
@[simp] theorem setPort_nextJob (k : Nat) (p : Port) (s : State) : (setPort k p s).nextJob = s.nextJob := rfl
@[simp] theorem setPort_lateJobs (k : Nat) (p : Port) (s : State) : (setPort k p s).lateJobs = s.lateJobs := rfl
@[simp] theorem setPort_finished (k : Nat) (p : Port) (s : State) : (setPort k p s).finished = s.finished := rfl
@[simp] theorem setPort_hbStart (k : Nat) (p : Port) (s : State) : (setPort k p s).hbStart = s.hbStart := rfl
@[simp] theorem setPort_auditSeq (k : Nat) (p : Port) (s : State) : (setPort k p s).auditSeq = s.auditSeq := rfl
@[simp] theorem setPort_spill (k : Nat) (p : Port) (s : State) : (setPort k p s).spill = s.spill := rfl
@[simp] theorem setPort_acks (k : Nat) (p : Port) (s : State) : (setPort k p s).acks = s.acks := rfl
@[simp] theorem setPort_host (k : Nat) (p : Port) (s : State) : (setPort k p s).host = s.host := rfl
@[simp] theorem setPort_peer (k : Nat) (p : Port) (s : State) : (setPort k p s).peer = s.peer := rfl
@[simp] theorem setPort_held (k : Nat) (p : Port) (s : State) : (setPort k p s).held = s.held := rfl
@[simp] theorem setPort_ring (k : Nat) (p : Port) (s : State) : (setPort k p s).ring = s.ring := rfl
@[simp] theorem setPort_eventSeq (k : Nat) (p : Port) (s : State) : (setPort k p s).eventSeq = s.eventSeq := rfl
@[simp] theorem setPort_logWait (k : Nat) (p : Port) (s : State) : (setPort k p s).logWait = s.logWait := rfl
@[simp] theorem setPort_evLog (k : Nat) (p : Port) (s : State) : (setPort k p s).evLog = s.evLog := rfl
@[simp] theorem setPort_occ (k : Nat) (p : Port) (s : State) : (setPort k p s).occ = s.occ := rfl
@[simp] theorem setPort_samplers (k : Nat) (p : Port) (s : State) : (setPort k p s).samplers = s.samplers := rfl
@[simp] theorem setPort_overruns (k : Nat) (p : Port) (s : State) : (setPort k p s).overruns = s.overruns := rfl
@[simp] theorem setPort_power (k : Nat) (p : Port) (s : State) : (setPort k p s).power = s.power := rfl
@[simp] theorem setPort_thermal (k : Nat) (p : Port) (s : State) : (setPort k p s).thermal = s.thermal := rfl
@[simp] theorem setPort_recal (k : Nat) (p : Port) (s : State) : (setPort k p s).recal = s.recal := rfl
@[simp] theorem setPort_recalNext (k : Nat) (p : Port) (s : State) : (setPort k p s).recalNext = s.recalNext := rfl
@[simp] theorem setPort_cores (k : Nat) (p : Port) (s : State) : (setPort k p s).cores = s.cores := rfl
@[simp] theorem setPort_otp (k : Nat) (p : Port) (s : State) : (setPort k p s).otp = s.otp := rfl
@[simp] theorem setPort_flash (k : Nat) (p : Port) (s : State) : (setPort k p s).flash = s.flash := rfl
@[simp] theorem setPort_fw (k : Nat) (p : Port) (s : State) : (setPort k p s).fw = s.fw := rfl
@[simp] theorem setPort_audit (k : Nat) (p : Port) (s : State) : (setPort k p s).audit = s.audit := rfl
@[simp] theorem setPort_scrubRun (k : Nat) (p : Port) (s : State) : (setPort k p s).scrubRun = s.scrubRun := rfl
@[simp] theorem setPort_remapLog (k : Nat) (p : Port) (s : State) : (setPort k p s).remapLog = s.remapLog := rfl
@[simp] theorem setPort_remapWant (k : Nat) (p : Port) (s : State) : (setPort k p s).remapWant = s.remapWant := rfl
@[simp] theorem setPort_svcWait (k : Nat) (p : Port) (s : State) : (setPort k p s).svcWait = s.svcWait := rfl
@[simp] theorem setPort_jtgIr (k : Nat) (p : Port) (s : State) : (setPort k p s).jtgIr = s.jtgIr := rfl
@[simp] theorem setPort_bwBytes (k : Nat) (p : Port) (s : State) : (setPort k p s).bwBytes = s.bwBytes := rfl
@[simp] theorem setPort_out (k : Nat) (p : Port) (s : State) : (setPort k p s).out = s.out := rfl

/-! ### setPc -/

@[simp] theorem setPc_pending (n c p : Nat) (q : Pc) (s : State) : (setPc n c p q s).pending = s.pending := rfl
@[simp] theorem setPc_env (n c p : Nat) (q : Pc) (s : State) : (setPc n c p q s).env = s.env := rfl
@[simp] theorem setPc_regs (n c p : Nat) (q : Pc) (s : State) : (setPc n c p q s).regs = s.regs := rfl
@[simp] theorem setPc_shadow (n c p : Nat) (q : Pc) (s : State) : (setPc n c p q s).shadow = s.shadow := rfl
@[simp] theorem setPc_force (n c p : Nat) (q : Pc) (s : State) : (setPc n c p q s).force = s.force := rfl
@[simp] theorem setPc_loHeld (n c p : Nat) (q : Pc) (s : State) : (setPc n c p q s).loHeld = s.loHeld := rfl
@[simp] theorem setPc_hiCap (n c p : Nat) (q : Pc) (s : State) : (setPc n c p q s).hiCap = s.hiCap := rfl
@[simp] theorem setPc_free (n c p : Nat) (q : Pc) (s : State) : (setPc n c p q s).free = s.free := rfl
@[simp] theorem setPc_rounds (n c p : Nat) (q : Pc) (s : State) : (setPc n c p q s).rounds = s.rounds := rfl
@[simp] theorem setPc_fclk (n c p : Nat) (q : Pc) (s : State) : (setPc n c p q s).fclk = s.fclk := rfl
@[simp] theorem setPc_nextUid (n c p : Nat) (q : Pc) (s : State) : (setPc n c p q s).nextUid = s.nextUid := rfl
@[simp] theorem setPc_mem (n c p : Nat) (q : Pc) (s : State) : (setPc n c p q s).mem = s.mem := rfl
@[simp] theorem setPc_marked (n c p : Nat) (q : Pc) (s : State) : (setPc n c p q s).marked = s.marked := rfl
@[simp] theorem setPc_ports (n c p : Nat) (q : Pc) (s : State) : (setPc n c p q s).ports = s.ports := rfl
@[simp] theorem setPc_rotation (n c p : Nat) (q : Pc) (s : State) : (setPc n c p q s).rotation = s.rotation := rfl
@[simp] theorem setPc_tokens (n c p : Nat) (q : Pc) (s : State) : (setPc n c p q s).tokens = s.tokens := rfl
@[simp] theorem setPc_gates (n c p : Nat) (q : Pc) (s : State) : (setPc n c p q s).gates = s.gates := rfl
@[simp] theorem setPc_live (n c p : Nat) (q : Pc) (s : State) : (setPc n c p q s).live = s.live := rfl
@[simp] theorem setPc_arrived (n c p : Nat) (q : Pc) (s : State) : (setPc n c p q s).arrived = s.arrived := rfl
@[simp] theorem setPc_fwAccs (n c p : Nat) (q : Pc) (s : State) : (setPc n c p q s).fwAccs = s.fwAccs := rfl
@[simp] theorem setPc_pcs (n c p : Nat) (q : Pc) (s : State) : (setPc n c p q s).pcs = mset s.pcs (pcKey n c p) q := rfl
@[simp] theorem setPc_chanLfsr (n c p : Nat) (q : Pc) (s : State) : (setPc n c p q s).chanLfsr = s.chanLfsr := rfl
@[simp] theorem setPc_ceLeaks (n c p : Nat) (q : Pc) (s : State) : (setPc n c p q s).ceLeaks = s.ceLeaks := rfl
@[simp] theorem setPc_lanes (n c p : Nat) (q : Pc) (s : State) : (setPc n c p q s).lanes = s.lanes := rfl
@[simp] theorem setPc_hives (n c p : Nat) (q : Pc) (s : State) : (setPc n c p q s).hives = s.hives := rfl
@[simp] theorem setPc_ctxs (n c p : Nat) (q : Pc) (s : State) : (setPc n c p q s).ctxs = s.ctxs := rfl
@[simp] theorem setPc_ctxHeld (n c p : Nat) (q : Pc) (s : State) : (setPc n c p q s).ctxHeld = s.ctxHeld := rfl
@[simp] theorem setPc_jobs (n c p : Nat) (q : Pc) (s : State) : (setPc n c p q s).jobs = s.jobs := rfl
@[simp] theorem setPc_nextJob (n c p : Nat) (q : Pc) (s : State) : (setPc n c p q s).nextJob = s.nextJob := rfl
@[simp] theorem setPc_lateJobs (n c p : Nat) (q : Pc) (s : State) : (setPc n c p q s).lateJobs = s.lateJobs := rfl
@[simp] theorem setPc_finished (n c p : Nat) (q : Pc) (s : State) : (setPc n c p q s).finished = s.finished := rfl
@[simp] theorem setPc_hbStart (n c p : Nat) (q : Pc) (s : State) : (setPc n c p q s).hbStart = s.hbStart := rfl
@[simp] theorem setPc_auditSeq (n c p : Nat) (q : Pc) (s : State) : (setPc n c p q s).auditSeq = s.auditSeq := rfl
@[simp] theorem setPc_spill (n c p : Nat) (q : Pc) (s : State) : (setPc n c p q s).spill = s.spill := rfl
@[simp] theorem setPc_acks (n c p : Nat) (q : Pc) (s : State) : (setPc n c p q s).acks = s.acks := rfl
@[simp] theorem setPc_host (n c p : Nat) (q : Pc) (s : State) : (setPc n c p q s).host = s.host := rfl
@[simp] theorem setPc_peer (n c p : Nat) (q : Pc) (s : State) : (setPc n c p q s).peer = s.peer := rfl
@[simp] theorem setPc_held (n c p : Nat) (q : Pc) (s : State) : (setPc n c p q s).held = s.held := rfl
@[simp] theorem setPc_ring (n c p : Nat) (q : Pc) (s : State) : (setPc n c p q s).ring = s.ring := rfl
@[simp] theorem setPc_eventSeq (n c p : Nat) (q : Pc) (s : State) : (setPc n c p q s).eventSeq = s.eventSeq := rfl
@[simp] theorem setPc_logWait (n c p : Nat) (q : Pc) (s : State) : (setPc n c p q s).logWait = s.logWait := rfl
@[simp] theorem setPc_evLog (n c p : Nat) (q : Pc) (s : State) : (setPc n c p q s).evLog = s.evLog := rfl
@[simp] theorem setPc_occ (n c p : Nat) (q : Pc) (s : State) : (setPc n c p q s).occ = s.occ := rfl
@[simp] theorem setPc_samplers (n c p : Nat) (q : Pc) (s : State) : (setPc n c p q s).samplers = s.samplers := rfl
@[simp] theorem setPc_overruns (n c p : Nat) (q : Pc) (s : State) : (setPc n c p q s).overruns = s.overruns := rfl
@[simp] theorem setPc_power (n c p : Nat) (q : Pc) (s : State) : (setPc n c p q s).power = s.power := rfl
@[simp] theorem setPc_thermal (n c p : Nat) (q : Pc) (s : State) : (setPc n c p q s).thermal = s.thermal := rfl
@[simp] theorem setPc_recal (n c p : Nat) (q : Pc) (s : State) : (setPc n c p q s).recal = s.recal := rfl
@[simp] theorem setPc_recalNext (n c p : Nat) (q : Pc) (s : State) : (setPc n c p q s).recalNext = s.recalNext := rfl
@[simp] theorem setPc_cores (n c p : Nat) (q : Pc) (s : State) : (setPc n c p q s).cores = s.cores := rfl
@[simp] theorem setPc_otp (n c p : Nat) (q : Pc) (s : State) : (setPc n c p q s).otp = s.otp := rfl
@[simp] theorem setPc_flash (n c p : Nat) (q : Pc) (s : State) : (setPc n c p q s).flash = s.flash := rfl
@[simp] theorem setPc_fw (n c p : Nat) (q : Pc) (s : State) : (setPc n c p q s).fw = s.fw := rfl
@[simp] theorem setPc_audit (n c p : Nat) (q : Pc) (s : State) : (setPc n c p q s).audit = s.audit := rfl
@[simp] theorem setPc_scrubRun (n c p : Nat) (q : Pc) (s : State) : (setPc n c p q s).scrubRun = s.scrubRun := rfl
@[simp] theorem setPc_remapLog (n c p : Nat) (q : Pc) (s : State) : (setPc n c p q s).remapLog = s.remapLog := rfl
@[simp] theorem setPc_remapWant (n c p : Nat) (q : Pc) (s : State) : (setPc n c p q s).remapWant = s.remapWant := rfl
@[simp] theorem setPc_svcWait (n c p : Nat) (q : Pc) (s : State) : (setPc n c p q s).svcWait = s.svcWait := rfl
@[simp] theorem setPc_jtgIr (n c p : Nat) (q : Pc) (s : State) : (setPc n c p q s).jtgIr = s.jtgIr := rfl
@[simp] theorem setPc_bwBytes (n c p : Nat) (q : Pc) (s : State) : (setPc n c p q s).bwBytes = s.bwBytes := rfl
@[simp] theorem setPc_out (n c p : Nat) (q : Pc) (s : State) : (setPc n c p q s).out = s.out := rfl

/-! ### setCtx -/

@[simp] theorem setCtx_pending (x : Nat) (c : Ctx) (s : State) : (setCtx x c s).pending = s.pending := rfl
@[simp] theorem setCtx_env (x : Nat) (c : Ctx) (s : State) : (setCtx x c s).env = s.env := rfl
@[simp] theorem setCtx_regs (x : Nat) (c : Ctx) (s : State) : (setCtx x c s).regs = s.regs := rfl
@[simp] theorem setCtx_shadow (x : Nat) (c : Ctx) (s : State) : (setCtx x c s).shadow = s.shadow := rfl
@[simp] theorem setCtx_force (x : Nat) (c : Ctx) (s : State) : (setCtx x c s).force = s.force := rfl
@[simp] theorem setCtx_loHeld (x : Nat) (c : Ctx) (s : State) : (setCtx x c s).loHeld = s.loHeld := rfl
@[simp] theorem setCtx_hiCap (x : Nat) (c : Ctx) (s : State) : (setCtx x c s).hiCap = s.hiCap := rfl
@[simp] theorem setCtx_free (x : Nat) (c : Ctx) (s : State) : (setCtx x c s).free = s.free := rfl
@[simp] theorem setCtx_rounds (x : Nat) (c : Ctx) (s : State) : (setCtx x c s).rounds = s.rounds := rfl
@[simp] theorem setCtx_fclk (x : Nat) (c : Ctx) (s : State) : (setCtx x c s).fclk = s.fclk := rfl
@[simp] theorem setCtx_nextUid (x : Nat) (c : Ctx) (s : State) : (setCtx x c s).nextUid = s.nextUid := rfl
@[simp] theorem setCtx_mem (x : Nat) (c : Ctx) (s : State) : (setCtx x c s).mem = s.mem := rfl
@[simp] theorem setCtx_marked (x : Nat) (c : Ctx) (s : State) : (setCtx x c s).marked = s.marked := rfl
@[simp] theorem setCtx_ports (x : Nat) (c : Ctx) (s : State) : (setCtx x c s).ports = s.ports := rfl
@[simp] theorem setCtx_rotation (x : Nat) (c : Ctx) (s : State) : (setCtx x c s).rotation = s.rotation := rfl
@[simp] theorem setCtx_tokens (x : Nat) (c : Ctx) (s : State) : (setCtx x c s).tokens = s.tokens := rfl
@[simp] theorem setCtx_gates (x : Nat) (c : Ctx) (s : State) : (setCtx x c s).gates = s.gates := rfl
@[simp] theorem setCtx_live (x : Nat) (c : Ctx) (s : State) : (setCtx x c s).live = s.live := rfl
@[simp] theorem setCtx_arrived (x : Nat) (c : Ctx) (s : State) : (setCtx x c s).arrived = s.arrived := rfl
@[simp] theorem setCtx_fwAccs (x : Nat) (c : Ctx) (s : State) : (setCtx x c s).fwAccs = s.fwAccs := rfl
@[simp] theorem setCtx_pcs (x : Nat) (c : Ctx) (s : State) : (setCtx x c s).pcs = s.pcs := rfl
@[simp] theorem setCtx_chanLfsr (x : Nat) (c : Ctx) (s : State) : (setCtx x c s).chanLfsr = s.chanLfsr := rfl
@[simp] theorem setCtx_ceLeaks (x : Nat) (c : Ctx) (s : State) : (setCtx x c s).ceLeaks = s.ceLeaks := rfl
@[simp] theorem setCtx_lanes (x : Nat) (c : Ctx) (s : State) : (setCtx x c s).lanes = s.lanes := rfl
@[simp] theorem setCtx_hives (x : Nat) (c : Ctx) (s : State) : (setCtx x c s).hives = s.hives := rfl
@[simp] theorem setCtx_ctxs (x : Nat) (c : Ctx) (s : State) : (setCtx x c s).ctxs = mset s.ctxs x c := rfl
@[simp] theorem setCtx_ctxHeld (x : Nat) (c : Ctx) (s : State) : (setCtx x c s).ctxHeld = s.ctxHeld := rfl
@[simp] theorem setCtx_jobs (x : Nat) (c : Ctx) (s : State) : (setCtx x c s).jobs = s.jobs := rfl
@[simp] theorem setCtx_nextJob (x : Nat) (c : Ctx) (s : State) : (setCtx x c s).nextJob = s.nextJob := rfl
@[simp] theorem setCtx_lateJobs (x : Nat) (c : Ctx) (s : State) : (setCtx x c s).lateJobs = s.lateJobs := rfl
@[simp] theorem setCtx_finished (x : Nat) (c : Ctx) (s : State) : (setCtx x c s).finished = s.finished := rfl
@[simp] theorem setCtx_hbStart (x : Nat) (c : Ctx) (s : State) : (setCtx x c s).hbStart = s.hbStart := rfl
@[simp] theorem setCtx_auditSeq (x : Nat) (c : Ctx) (s : State) : (setCtx x c s).auditSeq = s.auditSeq := rfl
@[simp] theorem setCtx_spill (x : Nat) (c : Ctx) (s : State) : (setCtx x c s).spill = s.spill := rfl
@[simp] theorem setCtx_acks (x : Nat) (c : Ctx) (s : State) : (setCtx x c s).acks = s.acks := rfl
@[simp] theorem setCtx_host (x : Nat) (c : Ctx) (s : State) : (setCtx x c s).host = s.host := rfl
@[simp] theorem setCtx_peer (x : Nat) (c : Ctx) (s : State) : (setCtx x c s).peer = s.peer := rfl
@[simp] theorem setCtx_held (x : Nat) (c : Ctx) (s : State) : (setCtx x c s).held = s.held := rfl
@[simp] theorem setCtx_ring (x : Nat) (c : Ctx) (s : State) : (setCtx x c s).ring = s.ring := rfl
@[simp] theorem setCtx_eventSeq (x : Nat) (c : Ctx) (s : State) : (setCtx x c s).eventSeq = s.eventSeq := rfl
@[simp] theorem setCtx_logWait (x : Nat) (c : Ctx) (s : State) : (setCtx x c s).logWait = s.logWait := rfl
@[simp] theorem setCtx_evLog (x : Nat) (c : Ctx) (s : State) : (setCtx x c s).evLog = s.evLog := rfl
@[simp] theorem setCtx_occ (x : Nat) (c : Ctx) (s : State) : (setCtx x c s).occ = s.occ := rfl
@[simp] theorem setCtx_samplers (x : Nat) (c : Ctx) (s : State) : (setCtx x c s).samplers = s.samplers := rfl
@[simp] theorem setCtx_overruns (x : Nat) (c : Ctx) (s : State) : (setCtx x c s).overruns = s.overruns := rfl
@[simp] theorem setCtx_power (x : Nat) (c : Ctx) (s : State) : (setCtx x c s).power = s.power := rfl
@[simp] theorem setCtx_thermal (x : Nat) (c : Ctx) (s : State) : (setCtx x c s).thermal = s.thermal := rfl
@[simp] theorem setCtx_recal (x : Nat) (c : Ctx) (s : State) : (setCtx x c s).recal = s.recal := rfl
@[simp] theorem setCtx_recalNext (x : Nat) (c : Ctx) (s : State) : (setCtx x c s).recalNext = s.recalNext := rfl
@[simp] theorem setCtx_cores (x : Nat) (c : Ctx) (s : State) : (setCtx x c s).cores = s.cores := rfl
@[simp] theorem setCtx_otp (x : Nat) (c : Ctx) (s : State) : (setCtx x c s).otp = s.otp := rfl
@[simp] theorem setCtx_flash (x : Nat) (c : Ctx) (s : State) : (setCtx x c s).flash = s.flash := rfl
@[simp] theorem setCtx_fw (x : Nat) (c : Ctx) (s : State) : (setCtx x c s).fw = s.fw := rfl
@[simp] theorem setCtx_audit (x : Nat) (c : Ctx) (s : State) : (setCtx x c s).audit = s.audit := rfl
@[simp] theorem setCtx_scrubRun (x : Nat) (c : Ctx) (s : State) : (setCtx x c s).scrubRun = s.scrubRun := rfl
@[simp] theorem setCtx_remapLog (x : Nat) (c : Ctx) (s : State) : (setCtx x c s).remapLog = s.remapLog := rfl
@[simp] theorem setCtx_remapWant (x : Nat) (c : Ctx) (s : State) : (setCtx x c s).remapWant = s.remapWant := rfl
@[simp] theorem setCtx_svcWait (x : Nat) (c : Ctx) (s : State) : (setCtx x c s).svcWait = s.svcWait := rfl
@[simp] theorem setCtx_jtgIr (x : Nat) (c : Ctx) (s : State) : (setCtx x c s).jtgIr = s.jtgIr := rfl
@[simp] theorem setCtx_bwBytes (x : Nat) (c : Ctx) (s : State) : (setCtx x c s).bwBytes = s.bwBytes := rfl
@[simp] theorem setCtx_out (x : Nat) (c : Ctx) (s : State) : (setCtx x c s).out = s.out := rfl

/-! ### setJob -/

@[simp] theorem setJob_pending (j : Nat) (v : Job) (s : State) : (setJob j v s).pending = s.pending := rfl
@[simp] theorem setJob_env (j : Nat) (v : Job) (s : State) : (setJob j v s).env = s.env := rfl
@[simp] theorem setJob_regs (j : Nat) (v : Job) (s : State) : (setJob j v s).regs = s.regs := rfl
@[simp] theorem setJob_shadow (j : Nat) (v : Job) (s : State) : (setJob j v s).shadow = s.shadow := rfl
@[simp] theorem setJob_force (j : Nat) (v : Job) (s : State) : (setJob j v s).force = s.force := rfl
@[simp] theorem setJob_loHeld (j : Nat) (v : Job) (s : State) : (setJob j v s).loHeld = s.loHeld := rfl
@[simp] theorem setJob_hiCap (j : Nat) (v : Job) (s : State) : (setJob j v s).hiCap = s.hiCap := rfl
@[simp] theorem setJob_free (j : Nat) (v : Job) (s : State) : (setJob j v s).free = s.free := rfl
@[simp] theorem setJob_rounds (j : Nat) (v : Job) (s : State) : (setJob j v s).rounds = s.rounds := rfl
@[simp] theorem setJob_fclk (j : Nat) (v : Job) (s : State) : (setJob j v s).fclk = s.fclk := rfl
@[simp] theorem setJob_nextUid (j : Nat) (v : Job) (s : State) : (setJob j v s).nextUid = s.nextUid := rfl
@[simp] theorem setJob_mem (j : Nat) (v : Job) (s : State) : (setJob j v s).mem = s.mem := rfl
@[simp] theorem setJob_marked (j : Nat) (v : Job) (s : State) : (setJob j v s).marked = s.marked := rfl
@[simp] theorem setJob_ports (j : Nat) (v : Job) (s : State) : (setJob j v s).ports = s.ports := rfl
@[simp] theorem setJob_rotation (j : Nat) (v : Job) (s : State) : (setJob j v s).rotation = s.rotation := rfl
@[simp] theorem setJob_tokens (j : Nat) (v : Job) (s : State) : (setJob j v s).tokens = s.tokens := rfl
@[simp] theorem setJob_gates (j : Nat) (v : Job) (s : State) : (setJob j v s).gates = s.gates := rfl
@[simp] theorem setJob_live (j : Nat) (v : Job) (s : State) : (setJob j v s).live = s.live := rfl
@[simp] theorem setJob_arrived (j : Nat) (v : Job) (s : State) : (setJob j v s).arrived = s.arrived := rfl
@[simp] theorem setJob_fwAccs (j : Nat) (v : Job) (s : State) : (setJob j v s).fwAccs = s.fwAccs := rfl
@[simp] theorem setJob_pcs (j : Nat) (v : Job) (s : State) : (setJob j v s).pcs = s.pcs := rfl
@[simp] theorem setJob_chanLfsr (j : Nat) (v : Job) (s : State) : (setJob j v s).chanLfsr = s.chanLfsr := rfl
@[simp] theorem setJob_ceLeaks (j : Nat) (v : Job) (s : State) : (setJob j v s).ceLeaks = s.ceLeaks := rfl
@[simp] theorem setJob_lanes (j : Nat) (v : Job) (s : State) : (setJob j v s).lanes = s.lanes := rfl
@[simp] theorem setJob_hives (j : Nat) (v : Job) (s : State) : (setJob j v s).hives = s.hives := rfl
@[simp] theorem setJob_ctxs (j : Nat) (v : Job) (s : State) : (setJob j v s).ctxs = s.ctxs := rfl
@[simp] theorem setJob_ctxHeld (j : Nat) (v : Job) (s : State) : (setJob j v s).ctxHeld = s.ctxHeld := rfl
@[simp] theorem setJob_jobs (j : Nat) (v : Job) (s : State) : (setJob j v s).jobs = mset s.jobs j v := rfl
@[simp] theorem setJob_nextJob (j : Nat) (v : Job) (s : State) : (setJob j v s).nextJob = s.nextJob := rfl
@[simp] theorem setJob_lateJobs (j : Nat) (v : Job) (s : State) : (setJob j v s).lateJobs = s.lateJobs := rfl
@[simp] theorem setJob_finished (j : Nat) (v : Job) (s : State) : (setJob j v s).finished = s.finished := rfl
@[simp] theorem setJob_hbStart (j : Nat) (v : Job) (s : State) : (setJob j v s).hbStart = s.hbStart := rfl
@[simp] theorem setJob_auditSeq (j : Nat) (v : Job) (s : State) : (setJob j v s).auditSeq = s.auditSeq := rfl
@[simp] theorem setJob_spill (j : Nat) (v : Job) (s : State) : (setJob j v s).spill = s.spill := rfl
@[simp] theorem setJob_acks (j : Nat) (v : Job) (s : State) : (setJob j v s).acks = s.acks := rfl
@[simp] theorem setJob_host (j : Nat) (v : Job) (s : State) : (setJob j v s).host = s.host := rfl
@[simp] theorem setJob_peer (j : Nat) (v : Job) (s : State) : (setJob j v s).peer = s.peer := rfl
@[simp] theorem setJob_held (j : Nat) (v : Job) (s : State) : (setJob j v s).held = s.held := rfl
@[simp] theorem setJob_ring (j : Nat) (v : Job) (s : State) : (setJob j v s).ring = s.ring := rfl
@[simp] theorem setJob_eventSeq (j : Nat) (v : Job) (s : State) : (setJob j v s).eventSeq = s.eventSeq := rfl
@[simp] theorem setJob_logWait (j : Nat) (v : Job) (s : State) : (setJob j v s).logWait = s.logWait := rfl
@[simp] theorem setJob_evLog (j : Nat) (v : Job) (s : State) : (setJob j v s).evLog = s.evLog := rfl
@[simp] theorem setJob_occ (j : Nat) (v : Job) (s : State) : (setJob j v s).occ = s.occ := rfl
@[simp] theorem setJob_samplers (j : Nat) (v : Job) (s : State) : (setJob j v s).samplers = s.samplers := rfl
@[simp] theorem setJob_overruns (j : Nat) (v : Job) (s : State) : (setJob j v s).overruns = s.overruns := rfl
@[simp] theorem setJob_power (j : Nat) (v : Job) (s : State) : (setJob j v s).power = s.power := rfl
@[simp] theorem setJob_thermal (j : Nat) (v : Job) (s : State) : (setJob j v s).thermal = s.thermal := rfl
@[simp] theorem setJob_recal (j : Nat) (v : Job) (s : State) : (setJob j v s).recal = s.recal := rfl
@[simp] theorem setJob_recalNext (j : Nat) (v : Job) (s : State) : (setJob j v s).recalNext = s.recalNext := rfl
@[simp] theorem setJob_cores (j : Nat) (v : Job) (s : State) : (setJob j v s).cores = s.cores := rfl
@[simp] theorem setJob_otp (j : Nat) (v : Job) (s : State) : (setJob j v s).otp = s.otp := rfl
@[simp] theorem setJob_flash (j : Nat) (v : Job) (s : State) : (setJob j v s).flash = s.flash := rfl
@[simp] theorem setJob_fw (j : Nat) (v : Job) (s : State) : (setJob j v s).fw = s.fw := rfl
@[simp] theorem setJob_audit (j : Nat) (v : Job) (s : State) : (setJob j v s).audit = s.audit := rfl
@[simp] theorem setJob_scrubRun (j : Nat) (v : Job) (s : State) : (setJob j v s).scrubRun = s.scrubRun := rfl
@[simp] theorem setJob_remapLog (j : Nat) (v : Job) (s : State) : (setJob j v s).remapLog = s.remapLog := rfl
@[simp] theorem setJob_remapWant (j : Nat) (v : Job) (s : State) : (setJob j v s).remapWant = s.remapWant := rfl
@[simp] theorem setJob_svcWait (j : Nat) (v : Job) (s : State) : (setJob j v s).svcWait = s.svcWait := rfl
@[simp] theorem setJob_jtgIr (j : Nat) (v : Job) (s : State) : (setJob j v s).jtgIr = s.jtgIr := rfl
@[simp] theorem setJob_bwBytes (j : Nat) (v : Job) (s : State) : (setJob j v s).bwBytes = s.bwBytes := rfl
@[simp] theorem setJob_out (j : Nat) (v : Job) (s : State) : (setJob j v s).out = s.out := rfl

/-! ### freshDraw -/

@[simp] theorem freshDraw_pending  (s : State) : (freshDraw s).pending = s.pending := rfl
@[simp] theorem freshDraw_env  (s : State) : (freshDraw s).env = s.env := rfl
@[simp] theorem freshDraw_regs  (s : State) : (freshDraw s).regs = s.regs := rfl
@[simp] theorem freshDraw_shadow  (s : State) : (freshDraw s).shadow = s.shadow := rfl
@[simp] theorem freshDraw_force  (s : State) : (freshDraw s).force = s.force := rfl
@[simp] theorem freshDraw_loHeld  (s : State) : (freshDraw s).loHeld = s.loHeld := rfl
@[simp] theorem freshDraw_hiCap  (s : State) : (freshDraw s).hiCap = s.hiCap := rfl
@[simp] theorem freshDraw_free  (s : State) : (freshDraw s).free = s.free + 1 := rfl
@[simp] theorem freshDraw_rounds  (s : State) : (freshDraw s).rounds = s.rounds := rfl
@[simp] theorem freshDraw_fclk  (s : State) : (freshDraw s).fclk = s.fclk := rfl
@[simp] theorem freshDraw_nextUid  (s : State) : (freshDraw s).nextUid = s.nextUid := rfl
@[simp] theorem freshDraw_mem  (s : State) : (freshDraw s).mem = s.mem := rfl
@[simp] theorem freshDraw_marked  (s : State) : (freshDraw s).marked = s.marked := rfl
@[simp] theorem freshDraw_ports  (s : State) : (freshDraw s).ports = s.ports := rfl
@[simp] theorem freshDraw_rotation  (s : State) : (freshDraw s).rotation = s.rotation := rfl
@[simp] theorem freshDraw_tokens  (s : State) : (freshDraw s).tokens = s.tokens := rfl
@[simp] theorem freshDraw_gates  (s : State) : (freshDraw s).gates = s.gates := rfl
@[simp] theorem freshDraw_live  (s : State) : (freshDraw s).live = s.live := rfl
@[simp] theorem freshDraw_arrived  (s : State) : (freshDraw s).arrived = s.arrived := rfl
@[simp] theorem freshDraw_fwAccs  (s : State) : (freshDraw s).fwAccs = s.fwAccs := rfl
@[simp] theorem freshDraw_pcs  (s : State) : (freshDraw s).pcs = s.pcs := rfl
@[simp] theorem freshDraw_chanLfsr  (s : State) : (freshDraw s).chanLfsr = s.chanLfsr := rfl
@[simp] theorem freshDraw_ceLeaks  (s : State) : (freshDraw s).ceLeaks = s.ceLeaks := rfl
@[simp] theorem freshDraw_lanes  (s : State) : (freshDraw s).lanes = s.lanes := rfl
@[simp] theorem freshDraw_hives  (s : State) : (freshDraw s).hives = s.hives := rfl
@[simp] theorem freshDraw_ctxs  (s : State) : (freshDraw s).ctxs = s.ctxs := rfl
@[simp] theorem freshDraw_ctxHeld  (s : State) : (freshDraw s).ctxHeld = s.ctxHeld := rfl
@[simp] theorem freshDraw_jobs  (s : State) : (freshDraw s).jobs = s.jobs := rfl
@[simp] theorem freshDraw_nextJob  (s : State) : (freshDraw s).nextJob = s.nextJob := rfl
@[simp] theorem freshDraw_lateJobs  (s : State) : (freshDraw s).lateJobs = s.lateJobs := rfl
@[simp] theorem freshDraw_finished  (s : State) : (freshDraw s).finished = s.finished := rfl
@[simp] theorem freshDraw_hbStart  (s : State) : (freshDraw s).hbStart = s.hbStart := rfl
@[simp] theorem freshDraw_auditSeq  (s : State) : (freshDraw s).auditSeq = s.auditSeq := rfl
@[simp] theorem freshDraw_spill  (s : State) : (freshDraw s).spill = s.spill := rfl
@[simp] theorem freshDraw_acks  (s : State) : (freshDraw s).acks = s.acks := rfl
@[simp] theorem freshDraw_host  (s : State) : (freshDraw s).host = s.host := rfl
@[simp] theorem freshDraw_peer  (s : State) : (freshDraw s).peer = s.peer := rfl
@[simp] theorem freshDraw_held  (s : State) : (freshDraw s).held = s.held := rfl
@[simp] theorem freshDraw_ring  (s : State) : (freshDraw s).ring = s.ring := rfl
@[simp] theorem freshDraw_eventSeq  (s : State) : (freshDraw s).eventSeq = s.eventSeq := rfl
@[simp] theorem freshDraw_logWait  (s : State) : (freshDraw s).logWait = s.logWait := rfl
@[simp] theorem freshDraw_evLog  (s : State) : (freshDraw s).evLog = s.evLog := rfl
@[simp] theorem freshDraw_occ  (s : State) : (freshDraw s).occ = s.occ := rfl
@[simp] theorem freshDraw_samplers  (s : State) : (freshDraw s).samplers = s.samplers := rfl
@[simp] theorem freshDraw_overruns  (s : State) : (freshDraw s).overruns = s.overruns := rfl
@[simp] theorem freshDraw_power  (s : State) : (freshDraw s).power = s.power := rfl
@[simp] theorem freshDraw_thermal  (s : State) : (freshDraw s).thermal = s.thermal := rfl
@[simp] theorem freshDraw_recal  (s : State) : (freshDraw s).recal = s.recal := rfl
@[simp] theorem freshDraw_recalNext  (s : State) : (freshDraw s).recalNext = s.recalNext := rfl
@[simp] theorem freshDraw_cores  (s : State) : (freshDraw s).cores = s.cores := rfl
@[simp] theorem freshDraw_otp  (s : State) : (freshDraw s).otp = s.otp := rfl
@[simp] theorem freshDraw_flash  (s : State) : (freshDraw s).flash = s.flash := rfl
@[simp] theorem freshDraw_fw  (s : State) : (freshDraw s).fw = s.fw := rfl
@[simp] theorem freshDraw_audit  (s : State) : (freshDraw s).audit = s.audit := rfl
@[simp] theorem freshDraw_scrubRun  (s : State) : (freshDraw s).scrubRun = s.scrubRun := rfl
@[simp] theorem freshDraw_remapLog  (s : State) : (freshDraw s).remapLog = s.remapLog := rfl
@[simp] theorem freshDraw_remapWant  (s : State) : (freshDraw s).remapWant = s.remapWant := rfl
@[simp] theorem freshDraw_svcWait  (s : State) : (freshDraw s).svcWait = s.svcWait := rfl
@[simp] theorem freshDraw_jtgIr  (s : State) : (freshDraw s).jtgIr = s.jtgIr := rfl
@[simp] theorem freshDraw_bwBytes  (s : State) : (freshDraw s).bwBytes = s.bwBytes := rfl
@[simp] theorem freshDraw_out  (s : State) : (freshDraw s).out = s.out := rfl

/-! ### setPower -/

@[simp] theorem setPower_pending (p : Power) (s : State) : (setPower p s).pending = s.pending := rfl
@[simp] theorem setPower_env (p : Power) (s : State) : (setPower p s).env = s.env := rfl
@[simp] theorem setPower_regs (p : Power) (s : State) : (setPower p s).regs = s.regs := rfl
@[simp] theorem setPower_shadow (p : Power) (s : State) : (setPower p s).shadow = s.shadow := rfl
@[simp] theorem setPower_force (p : Power) (s : State) : (setPower p s).force = s.force := rfl
@[simp] theorem setPower_loHeld (p : Power) (s : State) : (setPower p s).loHeld = s.loHeld := rfl
@[simp] theorem setPower_hiCap (p : Power) (s : State) : (setPower p s).hiCap = s.hiCap := rfl
@[simp] theorem setPower_free (p : Power) (s : State) : (setPower p s).free = s.free := rfl
@[simp] theorem setPower_rounds (p : Power) (s : State) : (setPower p s).rounds = s.rounds := rfl
@[simp] theorem setPower_fclk (p : Power) (s : State) : (setPower p s).fclk = s.fclk := rfl
@[simp] theorem setPower_nextUid (p : Power) (s : State) : (setPower p s).nextUid = s.nextUid := rfl
@[simp] theorem setPower_mem (p : Power) (s : State) : (setPower p s).mem = s.mem := rfl
@[simp] theorem setPower_marked (p : Power) (s : State) : (setPower p s).marked = s.marked := rfl
@[simp] theorem setPower_ports (p : Power) (s : State) : (setPower p s).ports = s.ports := rfl
@[simp] theorem setPower_rotation (p : Power) (s : State) : (setPower p s).rotation = s.rotation := rfl
@[simp] theorem setPower_tokens (p : Power) (s : State) : (setPower p s).tokens = s.tokens := rfl
@[simp] theorem setPower_gates (p : Power) (s : State) : (setPower p s).gates = s.gates := rfl
@[simp] theorem setPower_live (p : Power) (s : State) : (setPower p s).live = s.live := rfl
@[simp] theorem setPower_arrived (p : Power) (s : State) : (setPower p s).arrived = s.arrived := rfl
@[simp] theorem setPower_fwAccs (p : Power) (s : State) : (setPower p s).fwAccs = s.fwAccs := rfl
@[simp] theorem setPower_pcs (p : Power) (s : State) : (setPower p s).pcs = s.pcs := rfl
@[simp] theorem setPower_chanLfsr (p : Power) (s : State) : (setPower p s).chanLfsr = s.chanLfsr := rfl
@[simp] theorem setPower_ceLeaks (p : Power) (s : State) : (setPower p s).ceLeaks = s.ceLeaks := rfl
@[simp] theorem setPower_lanes (p : Power) (s : State) : (setPower p s).lanes = s.lanes := rfl
@[simp] theorem setPower_hives (p : Power) (s : State) : (setPower p s).hives = s.hives := rfl
@[simp] theorem setPower_ctxs (p : Power) (s : State) : (setPower p s).ctxs = s.ctxs := rfl
@[simp] theorem setPower_ctxHeld (p : Power) (s : State) : (setPower p s).ctxHeld = s.ctxHeld := rfl
@[simp] theorem setPower_jobs (p : Power) (s : State) : (setPower p s).jobs = s.jobs := rfl
@[simp] theorem setPower_nextJob (p : Power) (s : State) : (setPower p s).nextJob = s.nextJob := rfl
@[simp] theorem setPower_lateJobs (p : Power) (s : State) : (setPower p s).lateJobs = s.lateJobs := rfl
@[simp] theorem setPower_finished (p : Power) (s : State) : (setPower p s).finished = s.finished := rfl
@[simp] theorem setPower_hbStart (p : Power) (s : State) : (setPower p s).hbStart = s.hbStart := rfl
@[simp] theorem setPower_auditSeq (p : Power) (s : State) : (setPower p s).auditSeq = s.auditSeq := rfl
@[simp] theorem setPower_spill (p : Power) (s : State) : (setPower p s).spill = s.spill := rfl
@[simp] theorem setPower_acks (p : Power) (s : State) : (setPower p s).acks = s.acks := rfl
@[simp] theorem setPower_host (p : Power) (s : State) : (setPower p s).host = s.host := rfl
@[simp] theorem setPower_peer (p : Power) (s : State) : (setPower p s).peer = s.peer := rfl
@[simp] theorem setPower_held (p : Power) (s : State) : (setPower p s).held = s.held := rfl
@[simp] theorem setPower_ring (p : Power) (s : State) : (setPower p s).ring = s.ring := rfl
@[simp] theorem setPower_eventSeq (p : Power) (s : State) : (setPower p s).eventSeq = s.eventSeq := rfl
@[simp] theorem setPower_logWait (p : Power) (s : State) : (setPower p s).logWait = s.logWait := rfl
@[simp] theorem setPower_evLog (p : Power) (s : State) : (setPower p s).evLog = s.evLog := rfl
@[simp] theorem setPower_occ (p : Power) (s : State) : (setPower p s).occ = s.occ := rfl
@[simp] theorem setPower_samplers (p : Power) (s : State) : (setPower p s).samplers = s.samplers := rfl
@[simp] theorem setPower_overruns (p : Power) (s : State) : (setPower p s).overruns = s.overruns := rfl
@[simp] theorem setPower_power (p : Power) (s : State) : (setPower p s).power = p := rfl
@[simp] theorem setPower_thermal (p : Power) (s : State) : (setPower p s).thermal = s.thermal := rfl
@[simp] theorem setPower_recal (p : Power) (s : State) : (setPower p s).recal = s.recal := rfl
@[simp] theorem setPower_recalNext (p : Power) (s : State) : (setPower p s).recalNext = s.recalNext := rfl
@[simp] theorem setPower_cores (p : Power) (s : State) : (setPower p s).cores = s.cores := rfl
@[simp] theorem setPower_otp (p : Power) (s : State) : (setPower p s).otp = s.otp := rfl
@[simp] theorem setPower_flash (p : Power) (s : State) : (setPower p s).flash = s.flash := rfl
@[simp] theorem setPower_fw (p : Power) (s : State) : (setPower p s).fw = s.fw := rfl
@[simp] theorem setPower_audit (p : Power) (s : State) : (setPower p s).audit = s.audit := rfl
@[simp] theorem setPower_scrubRun (p : Power) (s : State) : (setPower p s).scrubRun = s.scrubRun := rfl
@[simp] theorem setPower_remapLog (p : Power) (s : State) : (setPower p s).remapLog = s.remapLog := rfl
@[simp] theorem setPower_remapWant (p : Power) (s : State) : (setPower p s).remapWant = s.remapWant := rfl
@[simp] theorem setPower_svcWait (p : Power) (s : State) : (setPower p s).svcWait = s.svcWait := rfl
@[simp] theorem setPower_jtgIr (p : Power) (s : State) : (setPower p s).jtgIr = s.jtgIr := rfl
@[simp] theorem setPower_bwBytes (p : Power) (s : State) : (setPower p s).bwBytes = s.bwBytes := rfl
@[simp] theorem setPower_out (p : Power) (s : State) : (setPower p s).out = s.out := rfl

/-! ### setHive -/

@[simp] theorem setHive_pending (n : Nat) (h : Hive) (s : State) : (setHive n h s).pending = s.pending := rfl
@[simp] theorem setHive_env (n : Nat) (h : Hive) (s : State) : (setHive n h s).env = s.env := rfl
@[simp] theorem setHive_regs (n : Nat) (h : Hive) (s : State) : (setHive n h s).regs = s.regs := rfl
@[simp] theorem setHive_shadow (n : Nat) (h : Hive) (s : State) : (setHive n h s).shadow = s.shadow := rfl
@[simp] theorem setHive_force (n : Nat) (h : Hive) (s : State) : (setHive n h s).force = s.force := rfl
@[simp] theorem setHive_loHeld (n : Nat) (h : Hive) (s : State) : (setHive n h s).loHeld = s.loHeld := rfl
@[simp] theorem setHive_hiCap (n : Nat) (h : Hive) (s : State) : (setHive n h s).hiCap = s.hiCap := rfl
@[simp] theorem setHive_free (n : Nat) (h : Hive) (s : State) : (setHive n h s).free = s.free := rfl
@[simp] theorem setHive_rounds (n : Nat) (h : Hive) (s : State) : (setHive n h s).rounds = s.rounds := rfl
@[simp] theorem setHive_fclk (n : Nat) (h : Hive) (s : State) : (setHive n h s).fclk = s.fclk := rfl
@[simp] theorem setHive_nextUid (n : Nat) (h : Hive) (s : State) : (setHive n h s).nextUid = s.nextUid := rfl
@[simp] theorem setHive_mem (n : Nat) (h : Hive) (s : State) : (setHive n h s).mem = s.mem := rfl
@[simp] theorem setHive_marked (n : Nat) (h : Hive) (s : State) : (setHive n h s).marked = s.marked := rfl
@[simp] theorem setHive_ports (n : Nat) (h : Hive) (s : State) : (setHive n h s).ports = s.ports := rfl
@[simp] theorem setHive_rotation (n : Nat) (h : Hive) (s : State) : (setHive n h s).rotation = s.rotation := rfl
@[simp] theorem setHive_tokens (n : Nat) (h : Hive) (s : State) : (setHive n h s).tokens = s.tokens := rfl
@[simp] theorem setHive_gates (n : Nat) (h : Hive) (s : State) : (setHive n h s).gates = s.gates := rfl
@[simp] theorem setHive_live (n : Nat) (h : Hive) (s : State) : (setHive n h s).live = s.live := rfl
@[simp] theorem setHive_arrived (n : Nat) (h : Hive) (s : State) : (setHive n h s).arrived = s.arrived := rfl
@[simp] theorem setHive_fwAccs (n : Nat) (h : Hive) (s : State) : (setHive n h s).fwAccs = s.fwAccs := rfl
@[simp] theorem setHive_pcs (n : Nat) (h : Hive) (s : State) : (setHive n h s).pcs = s.pcs := rfl
@[simp] theorem setHive_chanLfsr (n : Nat) (h : Hive) (s : State) : (setHive n h s).chanLfsr = s.chanLfsr := rfl
@[simp] theorem setHive_ceLeaks (n : Nat) (h : Hive) (s : State) : (setHive n h s).ceLeaks = s.ceLeaks := rfl
@[simp] theorem setHive_lanes (n : Nat) (h : Hive) (s : State) : (setHive n h s).lanes = s.lanes := rfl
@[simp] theorem setHive_hives (n : Nat) (h : Hive) (s : State) : (setHive n h s).hives = mset s.hives n h := rfl
@[simp] theorem setHive_ctxs (n : Nat) (h : Hive) (s : State) : (setHive n h s).ctxs = s.ctxs := rfl
@[simp] theorem setHive_ctxHeld (n : Nat) (h : Hive) (s : State) : (setHive n h s).ctxHeld = s.ctxHeld := rfl
@[simp] theorem setHive_jobs (n : Nat) (h : Hive) (s : State) : (setHive n h s).jobs = s.jobs := rfl
@[simp] theorem setHive_nextJob (n : Nat) (h : Hive) (s : State) : (setHive n h s).nextJob = s.nextJob := rfl
@[simp] theorem setHive_lateJobs (n : Nat) (h : Hive) (s : State) : (setHive n h s).lateJobs = s.lateJobs := rfl
@[simp] theorem setHive_finished (n : Nat) (h : Hive) (s : State) : (setHive n h s).finished = s.finished := rfl
@[simp] theorem setHive_hbStart (n : Nat) (h : Hive) (s : State) : (setHive n h s).hbStart = s.hbStart := rfl
@[simp] theorem setHive_auditSeq (n : Nat) (h : Hive) (s : State) : (setHive n h s).auditSeq = s.auditSeq := rfl
@[simp] theorem setHive_spill (n : Nat) (h : Hive) (s : State) : (setHive n h s).spill = s.spill := rfl
@[simp] theorem setHive_acks (n : Nat) (h : Hive) (s : State) : (setHive n h s).acks = s.acks := rfl
@[simp] theorem setHive_host (n : Nat) (h : Hive) (s : State) : (setHive n h s).host = s.host := rfl
@[simp] theorem setHive_peer (n : Nat) (h : Hive) (s : State) : (setHive n h s).peer = s.peer := rfl
@[simp] theorem setHive_held (n : Nat) (h : Hive) (s : State) : (setHive n h s).held = s.held := rfl
@[simp] theorem setHive_ring (n : Nat) (h : Hive) (s : State) : (setHive n h s).ring = s.ring := rfl
@[simp] theorem setHive_eventSeq (n : Nat) (h : Hive) (s : State) : (setHive n h s).eventSeq = s.eventSeq := rfl
@[simp] theorem setHive_logWait (n : Nat) (h : Hive) (s : State) : (setHive n h s).logWait = s.logWait := rfl
@[simp] theorem setHive_evLog (n : Nat) (h : Hive) (s : State) : (setHive n h s).evLog = s.evLog := rfl
@[simp] theorem setHive_occ (n : Nat) (h : Hive) (s : State) : (setHive n h s).occ = s.occ := rfl
@[simp] theorem setHive_samplers (n : Nat) (h : Hive) (s : State) : (setHive n h s).samplers = s.samplers := rfl
@[simp] theorem setHive_overruns (n : Nat) (h : Hive) (s : State) : (setHive n h s).overruns = s.overruns := rfl
@[simp] theorem setHive_power (n : Nat) (h : Hive) (s : State) : (setHive n h s).power = s.power := rfl
@[simp] theorem setHive_thermal (n : Nat) (h : Hive) (s : State) : (setHive n h s).thermal = s.thermal := rfl
@[simp] theorem setHive_recal (n : Nat) (h : Hive) (s : State) : (setHive n h s).recal = s.recal := rfl
@[simp] theorem setHive_recalNext (n : Nat) (h : Hive) (s : State) : (setHive n h s).recalNext = s.recalNext := rfl
@[simp] theorem setHive_cores (n : Nat) (h : Hive) (s : State) : (setHive n h s).cores = s.cores := rfl
@[simp] theorem setHive_otp (n : Nat) (h : Hive) (s : State) : (setHive n h s).otp = s.otp := rfl
@[simp] theorem setHive_flash (n : Nat) (h : Hive) (s : State) : (setHive n h s).flash = s.flash := rfl
@[simp] theorem setHive_fw (n : Nat) (h : Hive) (s : State) : (setHive n h s).fw = s.fw := rfl
@[simp] theorem setHive_audit (n : Nat) (h : Hive) (s : State) : (setHive n h s).audit = s.audit := rfl
@[simp] theorem setHive_scrubRun (n : Nat) (h : Hive) (s : State) : (setHive n h s).scrubRun = s.scrubRun := rfl
@[simp] theorem setHive_remapLog (n : Nat) (h : Hive) (s : State) : (setHive n h s).remapLog = s.remapLog := rfl
@[simp] theorem setHive_remapWant (n : Nat) (h : Hive) (s : State) : (setHive n h s).remapWant = s.remapWant := rfl
@[simp] theorem setHive_svcWait (n : Nat) (h : Hive) (s : State) : (setHive n h s).svcWait = s.svcWait := rfl
@[simp] theorem setHive_jtgIr (n : Nat) (h : Hive) (s : State) : (setHive n h s).jtgIr = s.jtgIr := rfl
@[simp] theorem setHive_bwBytes (n : Nat) (h : Hive) (s : State) : (setHive n h s).bwBytes = s.bwBytes := rfl
@[simp] theorem setHive_out (n : Nat) (h : Hive) (s : State) : (setHive n h s).out = s.out := rfl

/-! ### setGate -/

@[simp] theorem setGate_pending (n : Nat) (g : Gate) (s : State) : (setGate n g s).pending = s.pending := rfl
@[simp] theorem setGate_env (n : Nat) (g : Gate) (s : State) : (setGate n g s).env = s.env := rfl
@[simp] theorem setGate_regs (n : Nat) (g : Gate) (s : State) : (setGate n g s).regs = s.regs := rfl
@[simp] theorem setGate_shadow (n : Nat) (g : Gate) (s : State) : (setGate n g s).shadow = s.shadow := rfl
@[simp] theorem setGate_force (n : Nat) (g : Gate) (s : State) : (setGate n g s).force = s.force := rfl
@[simp] theorem setGate_loHeld (n : Nat) (g : Gate) (s : State) : (setGate n g s).loHeld = s.loHeld := rfl
@[simp] theorem setGate_hiCap (n : Nat) (g : Gate) (s : State) : (setGate n g s).hiCap = s.hiCap := rfl
@[simp] theorem setGate_free (n : Nat) (g : Gate) (s : State) : (setGate n g s).free = s.free := rfl
@[simp] theorem setGate_rounds (n : Nat) (g : Gate) (s : State) : (setGate n g s).rounds = s.rounds := rfl
@[simp] theorem setGate_fclk (n : Nat) (g : Gate) (s : State) : (setGate n g s).fclk = s.fclk := rfl
@[simp] theorem setGate_nextUid (n : Nat) (g : Gate) (s : State) : (setGate n g s).nextUid = s.nextUid := rfl
@[simp] theorem setGate_mem (n : Nat) (g : Gate) (s : State) : (setGate n g s).mem = s.mem := rfl
@[simp] theorem setGate_marked (n : Nat) (g : Gate) (s : State) : (setGate n g s).marked = s.marked := rfl
@[simp] theorem setGate_ports (n : Nat) (g : Gate) (s : State) : (setGate n g s).ports = s.ports := rfl
@[simp] theorem setGate_rotation (n : Nat) (g : Gate) (s : State) : (setGate n g s).rotation = s.rotation := rfl
@[simp] theorem setGate_tokens (n : Nat) (g : Gate) (s : State) : (setGate n g s).tokens = s.tokens := rfl
@[simp] theorem setGate_gates (n : Nat) (g : Gate) (s : State) : (setGate n g s).gates = mset s.gates n g := rfl
@[simp] theorem setGate_live (n : Nat) (g : Gate) (s : State) : (setGate n g s).live = s.live := rfl
@[simp] theorem setGate_arrived (n : Nat) (g : Gate) (s : State) : (setGate n g s).arrived = s.arrived := rfl
@[simp] theorem setGate_fwAccs (n : Nat) (g : Gate) (s : State) : (setGate n g s).fwAccs = s.fwAccs := rfl
@[simp] theorem setGate_pcs (n : Nat) (g : Gate) (s : State) : (setGate n g s).pcs = s.pcs := rfl
@[simp] theorem setGate_chanLfsr (n : Nat) (g : Gate) (s : State) : (setGate n g s).chanLfsr = s.chanLfsr := rfl
@[simp] theorem setGate_ceLeaks (n : Nat) (g : Gate) (s : State) : (setGate n g s).ceLeaks = s.ceLeaks := rfl
@[simp] theorem setGate_lanes (n : Nat) (g : Gate) (s : State) : (setGate n g s).lanes = s.lanes := rfl
@[simp] theorem setGate_hives (n : Nat) (g : Gate) (s : State) : (setGate n g s).hives = s.hives := rfl
@[simp] theorem setGate_ctxs (n : Nat) (g : Gate) (s : State) : (setGate n g s).ctxs = s.ctxs := rfl
@[simp] theorem setGate_ctxHeld (n : Nat) (g : Gate) (s : State) : (setGate n g s).ctxHeld = s.ctxHeld := rfl
@[simp] theorem setGate_jobs (n : Nat) (g : Gate) (s : State) : (setGate n g s).jobs = s.jobs := rfl
@[simp] theorem setGate_nextJob (n : Nat) (g : Gate) (s : State) : (setGate n g s).nextJob = s.nextJob := rfl
@[simp] theorem setGate_lateJobs (n : Nat) (g : Gate) (s : State) : (setGate n g s).lateJobs = s.lateJobs := rfl
@[simp] theorem setGate_finished (n : Nat) (g : Gate) (s : State) : (setGate n g s).finished = s.finished := rfl
@[simp] theorem setGate_hbStart (n : Nat) (g : Gate) (s : State) : (setGate n g s).hbStart = s.hbStart := rfl
@[simp] theorem setGate_auditSeq (n : Nat) (g : Gate) (s : State) : (setGate n g s).auditSeq = s.auditSeq := rfl
@[simp] theorem setGate_spill (n : Nat) (g : Gate) (s : State) : (setGate n g s).spill = s.spill := rfl
@[simp] theorem setGate_acks (n : Nat) (g : Gate) (s : State) : (setGate n g s).acks = s.acks := rfl
@[simp] theorem setGate_host (n : Nat) (g : Gate) (s : State) : (setGate n g s).host = s.host := rfl
@[simp] theorem setGate_peer (n : Nat) (g : Gate) (s : State) : (setGate n g s).peer = s.peer := rfl
@[simp] theorem setGate_held (n : Nat) (g : Gate) (s : State) : (setGate n g s).held = s.held := rfl
@[simp] theorem setGate_ring (n : Nat) (g : Gate) (s : State) : (setGate n g s).ring = s.ring := rfl
@[simp] theorem setGate_eventSeq (n : Nat) (g : Gate) (s : State) : (setGate n g s).eventSeq = s.eventSeq := rfl
@[simp] theorem setGate_logWait (n : Nat) (g : Gate) (s : State) : (setGate n g s).logWait = s.logWait := rfl
@[simp] theorem setGate_evLog (n : Nat) (g : Gate) (s : State) : (setGate n g s).evLog = s.evLog := rfl
@[simp] theorem setGate_occ (n : Nat) (g : Gate) (s : State) : (setGate n g s).occ = s.occ := rfl
@[simp] theorem setGate_samplers (n : Nat) (g : Gate) (s : State) : (setGate n g s).samplers = s.samplers := rfl
@[simp] theorem setGate_overruns (n : Nat) (g : Gate) (s : State) : (setGate n g s).overruns = s.overruns := rfl
@[simp] theorem setGate_power (n : Nat) (g : Gate) (s : State) : (setGate n g s).power = s.power := rfl
@[simp] theorem setGate_thermal (n : Nat) (g : Gate) (s : State) : (setGate n g s).thermal = s.thermal := rfl
@[simp] theorem setGate_recal (n : Nat) (g : Gate) (s : State) : (setGate n g s).recal = s.recal := rfl
@[simp] theorem setGate_recalNext (n : Nat) (g : Gate) (s : State) : (setGate n g s).recalNext = s.recalNext := rfl
@[simp] theorem setGate_cores (n : Nat) (g : Gate) (s : State) : (setGate n g s).cores = s.cores := rfl
@[simp] theorem setGate_otp (n : Nat) (g : Gate) (s : State) : (setGate n g s).otp = s.otp := rfl
@[simp] theorem setGate_flash (n : Nat) (g : Gate) (s : State) : (setGate n g s).flash = s.flash := rfl
@[simp] theorem setGate_fw (n : Nat) (g : Gate) (s : State) : (setGate n g s).fw = s.fw := rfl
@[simp] theorem setGate_audit (n : Nat) (g : Gate) (s : State) : (setGate n g s).audit = s.audit := rfl
@[simp] theorem setGate_scrubRun (n : Nat) (g : Gate) (s : State) : (setGate n g s).scrubRun = s.scrubRun := rfl
@[simp] theorem setGate_remapLog (n : Nat) (g : Gate) (s : State) : (setGate n g s).remapLog = s.remapLog := rfl
@[simp] theorem setGate_remapWant (n : Nat) (g : Gate) (s : State) : (setGate n g s).remapWant = s.remapWant := rfl
@[simp] theorem setGate_svcWait (n : Nat) (g : Gate) (s : State) : (setGate n g s).svcWait = s.svcWait := rfl
@[simp] theorem setGate_jtgIr (n : Nat) (g : Gate) (s : State) : (setGate n g s).jtgIr = s.jtgIr := rfl
@[simp] theorem setGate_bwBytes (n : Nat) (g : Gate) (s : State) : (setGate n g s).bwBytes = s.bwBytes := rfl
@[simp] theorem setGate_out (n : Nat) (g : Gate) (s : State) : (setGate n g s).out = s.out := rfl

/-! ### setCore -/

@[simp] theorem setCore_pending (i : Nat) (c : Core) (s : State) : (setCore i c s).pending = s.pending := rfl
@[simp] theorem setCore_env (i : Nat) (c : Core) (s : State) : (setCore i c s).env = s.env := rfl
@[simp] theorem setCore_regs (i : Nat) (c : Core) (s : State) : (setCore i c s).regs = s.regs := rfl
@[simp] theorem setCore_shadow (i : Nat) (c : Core) (s : State) : (setCore i c s).shadow = s.shadow := rfl
@[simp] theorem setCore_force (i : Nat) (c : Core) (s : State) : (setCore i c s).force = s.force := rfl
@[simp] theorem setCore_loHeld (i : Nat) (c : Core) (s : State) : (setCore i c s).loHeld = s.loHeld := rfl
@[simp] theorem setCore_hiCap (i : Nat) (c : Core) (s : State) : (setCore i c s).hiCap = s.hiCap := rfl
@[simp] theorem setCore_free (i : Nat) (c : Core) (s : State) : (setCore i c s).free = s.free := rfl
@[simp] theorem setCore_rounds (i : Nat) (c : Core) (s : State) : (setCore i c s).rounds = s.rounds := rfl
@[simp] theorem setCore_fclk (i : Nat) (c : Core) (s : State) : (setCore i c s).fclk = s.fclk := rfl
@[simp] theorem setCore_nextUid (i : Nat) (c : Core) (s : State) : (setCore i c s).nextUid = s.nextUid := rfl
@[simp] theorem setCore_mem (i : Nat) (c : Core) (s : State) : (setCore i c s).mem = s.mem := rfl
@[simp] theorem setCore_marked (i : Nat) (c : Core) (s : State) : (setCore i c s).marked = s.marked := rfl
@[simp] theorem setCore_ports (i : Nat) (c : Core) (s : State) : (setCore i c s).ports = s.ports := rfl
@[simp] theorem setCore_rotation (i : Nat) (c : Core) (s : State) : (setCore i c s).rotation = s.rotation := rfl
@[simp] theorem setCore_tokens (i : Nat) (c : Core) (s : State) : (setCore i c s).tokens = s.tokens := rfl
@[simp] theorem setCore_gates (i : Nat) (c : Core) (s : State) : (setCore i c s).gates = s.gates := rfl
@[simp] theorem setCore_live (i : Nat) (c : Core) (s : State) : (setCore i c s).live = s.live := rfl
@[simp] theorem setCore_arrived (i : Nat) (c : Core) (s : State) : (setCore i c s).arrived = s.arrived := rfl
@[simp] theorem setCore_fwAccs (i : Nat) (c : Core) (s : State) : (setCore i c s).fwAccs = s.fwAccs := rfl
@[simp] theorem setCore_pcs (i : Nat) (c : Core) (s : State) : (setCore i c s).pcs = s.pcs := rfl
@[simp] theorem setCore_chanLfsr (i : Nat) (c : Core) (s : State) : (setCore i c s).chanLfsr = s.chanLfsr := rfl
@[simp] theorem setCore_ceLeaks (i : Nat) (c : Core) (s : State) : (setCore i c s).ceLeaks = s.ceLeaks := rfl
@[simp] theorem setCore_lanes (i : Nat) (c : Core) (s : State) : (setCore i c s).lanes = s.lanes := rfl
@[simp] theorem setCore_hives (i : Nat) (c : Core) (s : State) : (setCore i c s).hives = s.hives := rfl
@[simp] theorem setCore_ctxs (i : Nat) (c : Core) (s : State) : (setCore i c s).ctxs = s.ctxs := rfl
@[simp] theorem setCore_ctxHeld (i : Nat) (c : Core) (s : State) : (setCore i c s).ctxHeld = s.ctxHeld := rfl
@[simp] theorem setCore_jobs (i : Nat) (c : Core) (s : State) : (setCore i c s).jobs = s.jobs := rfl
@[simp] theorem setCore_nextJob (i : Nat) (c : Core) (s : State) : (setCore i c s).nextJob = s.nextJob := rfl
@[simp] theorem setCore_lateJobs (i : Nat) (c : Core) (s : State) : (setCore i c s).lateJobs = s.lateJobs := rfl
@[simp] theorem setCore_finished (i : Nat) (c : Core) (s : State) : (setCore i c s).finished = s.finished := rfl
@[simp] theorem setCore_hbStart (i : Nat) (c : Core) (s : State) : (setCore i c s).hbStart = s.hbStart := rfl
@[simp] theorem setCore_auditSeq (i : Nat) (c : Core) (s : State) : (setCore i c s).auditSeq = s.auditSeq := rfl
@[simp] theorem setCore_spill (i : Nat) (c : Core) (s : State) : (setCore i c s).spill = s.spill := rfl
@[simp] theorem setCore_acks (i : Nat) (c : Core) (s : State) : (setCore i c s).acks = s.acks := rfl
@[simp] theorem setCore_host (i : Nat) (c : Core) (s : State) : (setCore i c s).host = s.host := rfl
@[simp] theorem setCore_peer (i : Nat) (c : Core) (s : State) : (setCore i c s).peer = s.peer := rfl
@[simp] theorem setCore_held (i : Nat) (c : Core) (s : State) : (setCore i c s).held = s.held := rfl
@[simp] theorem setCore_ring (i : Nat) (c : Core) (s : State) : (setCore i c s).ring = s.ring := rfl
@[simp] theorem setCore_eventSeq (i : Nat) (c : Core) (s : State) : (setCore i c s).eventSeq = s.eventSeq := rfl
@[simp] theorem setCore_logWait (i : Nat) (c : Core) (s : State) : (setCore i c s).logWait = s.logWait := rfl
@[simp] theorem setCore_evLog (i : Nat) (c : Core) (s : State) : (setCore i c s).evLog = s.evLog := rfl
@[simp] theorem setCore_occ (i : Nat) (c : Core) (s : State) : (setCore i c s).occ = s.occ := rfl
@[simp] theorem setCore_samplers (i : Nat) (c : Core) (s : State) : (setCore i c s).samplers = s.samplers := rfl
@[simp] theorem setCore_overruns (i : Nat) (c : Core) (s : State) : (setCore i c s).overruns = s.overruns := rfl
@[simp] theorem setCore_power (i : Nat) (c : Core) (s : State) : (setCore i c s).power = s.power := rfl
@[simp] theorem setCore_thermal (i : Nat) (c : Core) (s : State) : (setCore i c s).thermal = s.thermal := rfl
@[simp] theorem setCore_recal (i : Nat) (c : Core) (s : State) : (setCore i c s).recal = s.recal := rfl
@[simp] theorem setCore_recalNext (i : Nat) (c : Core) (s : State) : (setCore i c s).recalNext = s.recalNext := rfl
@[simp] theorem setCore_cores (i : Nat) (c : Core) (s : State) : (setCore i c s).cores = mset s.cores i c := rfl
@[simp] theorem setCore_otp (i : Nat) (c : Core) (s : State) : (setCore i c s).otp = s.otp := rfl
@[simp] theorem setCore_flash (i : Nat) (c : Core) (s : State) : (setCore i c s).flash = s.flash := rfl
@[simp] theorem setCore_fw (i : Nat) (c : Core) (s : State) : (setCore i c s).fw = s.fw := rfl
@[simp] theorem setCore_audit (i : Nat) (c : Core) (s : State) : (setCore i c s).audit = s.audit := rfl
@[simp] theorem setCore_scrubRun (i : Nat) (c : Core) (s : State) : (setCore i c s).scrubRun = s.scrubRun := rfl
@[simp] theorem setCore_remapLog (i : Nat) (c : Core) (s : State) : (setCore i c s).remapLog = s.remapLog := rfl
@[simp] theorem setCore_remapWant (i : Nat) (c : Core) (s : State) : (setCore i c s).remapWant = s.remapWant := rfl
@[simp] theorem setCore_svcWait (i : Nat) (c : Core) (s : State) : (setCore i c s).svcWait = s.svcWait := rfl
@[simp] theorem setCore_jtgIr (i : Nat) (c : Core) (s : State) : (setCore i c s).jtgIr = s.jtgIr := rfl
@[simp] theorem setCore_bwBytes (i : Nat) (c : Core) (s : State) : (setCore i c s).bwBytes = s.bwBytes := rfl
@[simp] theorem setCore_out (i : Nat) (c : Core) (s : State) : (setCore i c s).out = s.out := rfl

/-! ### setLane -/

@[simp] theorem setLane_pending (n c p lane : Nat) (v : Lane) (s : State) : (setLane n c p lane v s).pending = s.pending := rfl
@[simp] theorem setLane_env (n c p lane : Nat) (v : Lane) (s : State) : (setLane n c p lane v s).env = s.env := rfl
@[simp] theorem setLane_regs (n c p lane : Nat) (v : Lane) (s : State) : (setLane n c p lane v s).regs = s.regs := rfl
@[simp] theorem setLane_shadow (n c p lane : Nat) (v : Lane) (s : State) : (setLane n c p lane v s).shadow = s.shadow := rfl
@[simp] theorem setLane_force (n c p lane : Nat) (v : Lane) (s : State) : (setLane n c p lane v s).force = s.force := rfl
@[simp] theorem setLane_loHeld (n c p lane : Nat) (v : Lane) (s : State) : (setLane n c p lane v s).loHeld = s.loHeld := rfl
@[simp] theorem setLane_hiCap (n c p lane : Nat) (v : Lane) (s : State) : (setLane n c p lane v s).hiCap = s.hiCap := rfl
@[simp] theorem setLane_free (n c p lane : Nat) (v : Lane) (s : State) : (setLane n c p lane v s).free = s.free := rfl
@[simp] theorem setLane_rounds (n c p lane : Nat) (v : Lane) (s : State) : (setLane n c p lane v s).rounds = s.rounds := rfl
@[simp] theorem setLane_fclk (n c p lane : Nat) (v : Lane) (s : State) : (setLane n c p lane v s).fclk = s.fclk := rfl
@[simp] theorem setLane_nextUid (n c p lane : Nat) (v : Lane) (s : State) : (setLane n c p lane v s).nextUid = s.nextUid := rfl
@[simp] theorem setLane_mem (n c p lane : Nat) (v : Lane) (s : State) : (setLane n c p lane v s).mem = s.mem := rfl
@[simp] theorem setLane_marked (n c p lane : Nat) (v : Lane) (s : State) : (setLane n c p lane v s).marked = s.marked := rfl
@[simp] theorem setLane_ports (n c p lane : Nat) (v : Lane) (s : State) : (setLane n c p lane v s).ports = s.ports := rfl
@[simp] theorem setLane_rotation (n c p lane : Nat) (v : Lane) (s : State) : (setLane n c p lane v s).rotation = s.rotation := rfl
@[simp] theorem setLane_tokens (n c p lane : Nat) (v : Lane) (s : State) : (setLane n c p lane v s).tokens = s.tokens := rfl
@[simp] theorem setLane_gates (n c p lane : Nat) (v : Lane) (s : State) : (setLane n c p lane v s).gates = s.gates := rfl
@[simp] theorem setLane_live (n c p lane : Nat) (v : Lane) (s : State) : (setLane n c p lane v s).live = s.live := rfl
@[simp] theorem setLane_arrived (n c p lane : Nat) (v : Lane) (s : State) : (setLane n c p lane v s).arrived = s.arrived := rfl
@[simp] theorem setLane_fwAccs (n c p lane : Nat) (v : Lane) (s : State) : (setLane n c p lane v s).fwAccs = s.fwAccs := rfl
@[simp] theorem setLane_pcs (n c p lane : Nat) (v : Lane) (s : State) : (setLane n c p lane v s).pcs = s.pcs := rfl
@[simp] theorem setLane_chanLfsr (n c p lane : Nat) (v : Lane) (s : State) : (setLane n c p lane v s).chanLfsr = s.chanLfsr := rfl
@[simp] theorem setLane_ceLeaks (n c p lane : Nat) (v : Lane) (s : State) : (setLane n c p lane v s).ceLeaks = s.ceLeaks := rfl
@[simp] theorem setLane_lanes (n c p lane : Nat) (v : Lane) (s : State) : (setLane n c p lane v s).lanes = mset s.lanes (laneKey n c p lane) v := rfl
@[simp] theorem setLane_hives (n c p lane : Nat) (v : Lane) (s : State) : (setLane n c p lane v s).hives = s.hives := rfl
@[simp] theorem setLane_ctxs (n c p lane : Nat) (v : Lane) (s : State) : (setLane n c p lane v s).ctxs = s.ctxs := rfl
@[simp] theorem setLane_ctxHeld (n c p lane : Nat) (v : Lane) (s : State) : (setLane n c p lane v s).ctxHeld = s.ctxHeld := rfl
@[simp] theorem setLane_jobs (n c p lane : Nat) (v : Lane) (s : State) : (setLane n c p lane v s).jobs = s.jobs := rfl
@[simp] theorem setLane_nextJob (n c p lane : Nat) (v : Lane) (s : State) : (setLane n c p lane v s).nextJob = s.nextJob := rfl
@[simp] theorem setLane_lateJobs (n c p lane : Nat) (v : Lane) (s : State) : (setLane n c p lane v s).lateJobs = s.lateJobs := rfl
@[simp] theorem setLane_finished (n c p lane : Nat) (v : Lane) (s : State) : (setLane n c p lane v s).finished = s.finished := rfl
@[simp] theorem setLane_hbStart (n c p lane : Nat) (v : Lane) (s : State) : (setLane n c p lane v s).hbStart = s.hbStart := rfl
@[simp] theorem setLane_auditSeq (n c p lane : Nat) (v : Lane) (s : State) : (setLane n c p lane v s).auditSeq = s.auditSeq := rfl
@[simp] theorem setLane_spill (n c p lane : Nat) (v : Lane) (s : State) : (setLane n c p lane v s).spill = s.spill := rfl
@[simp] theorem setLane_acks (n c p lane : Nat) (v : Lane) (s : State) : (setLane n c p lane v s).acks = s.acks := rfl
@[simp] theorem setLane_host (n c p lane : Nat) (v : Lane) (s : State) : (setLane n c p lane v s).host = s.host := rfl
@[simp] theorem setLane_peer (n c p lane : Nat) (v : Lane) (s : State) : (setLane n c p lane v s).peer = s.peer := rfl
@[simp] theorem setLane_held (n c p lane : Nat) (v : Lane) (s : State) : (setLane n c p lane v s).held = s.held := rfl
@[simp] theorem setLane_ring (n c p lane : Nat) (v : Lane) (s : State) : (setLane n c p lane v s).ring = s.ring := rfl
@[simp] theorem setLane_eventSeq (n c p lane : Nat) (v : Lane) (s : State) : (setLane n c p lane v s).eventSeq = s.eventSeq := rfl
@[simp] theorem setLane_logWait (n c p lane : Nat) (v : Lane) (s : State) : (setLane n c p lane v s).logWait = s.logWait := rfl
@[simp] theorem setLane_evLog (n c p lane : Nat) (v : Lane) (s : State) : (setLane n c p lane v s).evLog = s.evLog := rfl
@[simp] theorem setLane_occ (n c p lane : Nat) (v : Lane) (s : State) : (setLane n c p lane v s).occ = s.occ := rfl
@[simp] theorem setLane_samplers (n c p lane : Nat) (v : Lane) (s : State) : (setLane n c p lane v s).samplers = s.samplers := rfl
@[simp] theorem setLane_overruns (n c p lane : Nat) (v : Lane) (s : State) : (setLane n c p lane v s).overruns = s.overruns := rfl
@[simp] theorem setLane_power (n c p lane : Nat) (v : Lane) (s : State) : (setLane n c p lane v s).power = s.power := rfl
@[simp] theorem setLane_thermal (n c p lane : Nat) (v : Lane) (s : State) : (setLane n c p lane v s).thermal = s.thermal := rfl
@[simp] theorem setLane_recal (n c p lane : Nat) (v : Lane) (s : State) : (setLane n c p lane v s).recal = s.recal := rfl
@[simp] theorem setLane_recalNext (n c p lane : Nat) (v : Lane) (s : State) : (setLane n c p lane v s).recalNext = s.recalNext := rfl
@[simp] theorem setLane_cores (n c p lane : Nat) (v : Lane) (s : State) : (setLane n c p lane v s).cores = s.cores := rfl
@[simp] theorem setLane_otp (n c p lane : Nat) (v : Lane) (s : State) : (setLane n c p lane v s).otp = s.otp := rfl
@[simp] theorem setLane_flash (n c p lane : Nat) (v : Lane) (s : State) : (setLane n c p lane v s).flash = s.flash := rfl
@[simp] theorem setLane_fw (n c p lane : Nat) (v : Lane) (s : State) : (setLane n c p lane v s).fw = s.fw := rfl
@[simp] theorem setLane_audit (n c p lane : Nat) (v : Lane) (s : State) : (setLane n c p lane v s).audit = s.audit := rfl
@[simp] theorem setLane_scrubRun (n c p lane : Nat) (v : Lane) (s : State) : (setLane n c p lane v s).scrubRun = s.scrubRun := rfl
@[simp] theorem setLane_remapLog (n c p lane : Nat) (v : Lane) (s : State) : (setLane n c p lane v s).remapLog = s.remapLog := rfl
@[simp] theorem setLane_remapWant (n c p lane : Nat) (v : Lane) (s : State) : (setLane n c p lane v s).remapWant = s.remapWant := rfl
@[simp] theorem setLane_svcWait (n c p lane : Nat) (v : Lane) (s : State) : (setLane n c p lane v s).svcWait = s.svcWait := rfl
@[simp] theorem setLane_jtgIr (n c p lane : Nat) (v : Lane) (s : State) : (setLane n c p lane v s).jtgIr = s.jtgIr := rfl
@[simp] theorem setLane_bwBytes (n c p lane : Nat) (v : Lane) (s : State) : (setLane n c p lane v s).bwBytes = s.bwBytes := rfl
@[simp] theorem setLane_out (n c p lane : Nat) (v : Lane) (s : State) : (setLane n c p lane v s).out = s.out := rfl

/-! ### sendTlp -/

@[simp] theorem sendTlp_pending (t : HpTlp) (s : State) : (sendTlp t s).pending = s.pending := rfl
@[simp] theorem sendTlp_env (t : HpTlp) (s : State) : (sendTlp t s).env = s.env := rfl
@[simp] theorem sendTlp_regs (t : HpTlp) (s : State) : (sendTlp t s).regs = s.regs := rfl
@[simp] theorem sendTlp_shadow (t : HpTlp) (s : State) : (sendTlp t s).shadow = s.shadow := rfl
@[simp] theorem sendTlp_force (t : HpTlp) (s : State) : (sendTlp t s).force = s.force := rfl
@[simp] theorem sendTlp_loHeld (t : HpTlp) (s : State) : (sendTlp t s).loHeld = s.loHeld := rfl
@[simp] theorem sendTlp_hiCap (t : HpTlp) (s : State) : (sendTlp t s).hiCap = s.hiCap := rfl
@[simp] theorem sendTlp_free (t : HpTlp) (s : State) : (sendTlp t s).free = s.free := rfl
@[simp] theorem sendTlp_rounds (t : HpTlp) (s : State) : (sendTlp t s).rounds = s.rounds := rfl
@[simp] theorem sendTlp_fclk (t : HpTlp) (s : State) : (sendTlp t s).fclk = s.fclk := rfl
@[simp] theorem sendTlp_nextUid (t : HpTlp) (s : State) : (sendTlp t s).nextUid = s.nextUid := rfl
@[simp] theorem sendTlp_mem (t : HpTlp) (s : State) : (sendTlp t s).mem = s.mem := rfl
@[simp] theorem sendTlp_marked (t : HpTlp) (s : State) : (sendTlp t s).marked = s.marked := rfl
@[simp] theorem sendTlp_ports (t : HpTlp) (s : State) : (sendTlp t s).ports = s.ports := rfl
@[simp] theorem sendTlp_rotation (t : HpTlp) (s : State) : (sendTlp t s).rotation = s.rotation := rfl
@[simp] theorem sendTlp_tokens (t : HpTlp) (s : State) : (sendTlp t s).tokens = s.tokens := rfl
@[simp] theorem sendTlp_gates (t : HpTlp) (s : State) : (sendTlp t s).gates = s.gates := rfl
@[simp] theorem sendTlp_live (t : HpTlp) (s : State) : (sendTlp t s).live = s.live := rfl
@[simp] theorem sendTlp_arrived (t : HpTlp) (s : State) : (sendTlp t s).arrived = s.arrived := rfl
@[simp] theorem sendTlp_fwAccs (t : HpTlp) (s : State) : (sendTlp t s).fwAccs = s.fwAccs := rfl
@[simp] theorem sendTlp_pcs (t : HpTlp) (s : State) : (sendTlp t s).pcs = s.pcs := rfl
@[simp] theorem sendTlp_chanLfsr (t : HpTlp) (s : State) : (sendTlp t s).chanLfsr = s.chanLfsr := rfl
@[simp] theorem sendTlp_ceLeaks (t : HpTlp) (s : State) : (sendTlp t s).ceLeaks = s.ceLeaks := rfl
@[simp] theorem sendTlp_lanes (t : HpTlp) (s : State) : (sendTlp t s).lanes = s.lanes := rfl
@[simp] theorem sendTlp_hives (t : HpTlp) (s : State) : (sendTlp t s).hives = s.hives := rfl
@[simp] theorem sendTlp_ctxs (t : HpTlp) (s : State) : (sendTlp t s).ctxs = s.ctxs := rfl
@[simp] theorem sendTlp_ctxHeld (t : HpTlp) (s : State) : (sendTlp t s).ctxHeld = s.ctxHeld := rfl
@[simp] theorem sendTlp_jobs (t : HpTlp) (s : State) : (sendTlp t s).jobs = s.jobs := rfl
@[simp] theorem sendTlp_nextJob (t : HpTlp) (s : State) : (sendTlp t s).nextJob = s.nextJob := rfl
@[simp] theorem sendTlp_lateJobs (t : HpTlp) (s : State) : (sendTlp t s).lateJobs = s.lateJobs := rfl
@[simp] theorem sendTlp_finished (t : HpTlp) (s : State) : (sendTlp t s).finished = s.finished := rfl
@[simp] theorem sendTlp_hbStart (t : HpTlp) (s : State) : (sendTlp t s).hbStart = s.hbStart := rfl
@[simp] theorem sendTlp_auditSeq (t : HpTlp) (s : State) : (sendTlp t s).auditSeq = s.auditSeq := rfl
@[simp] theorem sendTlp_spill (t : HpTlp) (s : State) : (sendTlp t s).spill = s.spill := rfl
@[simp] theorem sendTlp_acks (t : HpTlp) (s : State) : (sendTlp t s).acks = s.acks := rfl
@[simp] theorem sendTlp_host (t : HpTlp) (s : State) : (sendTlp t s).host = s.host := rfl
@[simp] theorem sendTlp_peer (t : HpTlp) (s : State) : (sendTlp t s).peer = s.peer := rfl
@[simp] theorem sendTlp_held (t : HpTlp) (s : State) : (sendTlp t s).held = s.held := rfl
@[simp] theorem sendTlp_ring (t : HpTlp) (s : State) : (sendTlp t s).ring = s.ring := rfl
@[simp] theorem sendTlp_eventSeq (t : HpTlp) (s : State) : (sendTlp t s).eventSeq = s.eventSeq := rfl
@[simp] theorem sendTlp_logWait (t : HpTlp) (s : State) : (sendTlp t s).logWait = s.logWait := rfl
@[simp] theorem sendTlp_evLog (t : HpTlp) (s : State) : (sendTlp t s).evLog = s.evLog := rfl
@[simp] theorem sendTlp_occ (t : HpTlp) (s : State) : (sendTlp t s).occ = s.occ := rfl
@[simp] theorem sendTlp_samplers (t : HpTlp) (s : State) : (sendTlp t s).samplers = s.samplers := rfl
@[simp] theorem sendTlp_overruns (t : HpTlp) (s : State) : (sendTlp t s).overruns = s.overruns := rfl
@[simp] theorem sendTlp_power (t : HpTlp) (s : State) : (sendTlp t s).power = s.power := rfl
@[simp] theorem sendTlp_thermal (t : HpTlp) (s : State) : (sendTlp t s).thermal = s.thermal := rfl
@[simp] theorem sendTlp_recal (t : HpTlp) (s : State) : (sendTlp t s).recal = s.recal := rfl
@[simp] theorem sendTlp_recalNext (t : HpTlp) (s : State) : (sendTlp t s).recalNext = s.recalNext := rfl
@[simp] theorem sendTlp_cores (t : HpTlp) (s : State) : (sendTlp t s).cores = s.cores := rfl
@[simp] theorem sendTlp_otp (t : HpTlp) (s : State) : (sendTlp t s).otp = s.otp := rfl
@[simp] theorem sendTlp_flash (t : HpTlp) (s : State) : (sendTlp t s).flash = s.flash := rfl
@[simp] theorem sendTlp_fw (t : HpTlp) (s : State) : (sendTlp t s).fw = s.fw := rfl
@[simp] theorem sendTlp_audit (t : HpTlp) (s : State) : (sendTlp t s).audit = s.audit := rfl
@[simp] theorem sendTlp_scrubRun (t : HpTlp) (s : State) : (sendTlp t s).scrubRun = s.scrubRun := rfl
@[simp] theorem sendTlp_remapLog (t : HpTlp) (s : State) : (sendTlp t s).remapLog = s.remapLog := rfl
@[simp] theorem sendTlp_remapWant (t : HpTlp) (s : State) : (sendTlp t s).remapWant = s.remapWant := rfl
@[simp] theorem sendTlp_svcWait (t : HpTlp) (s : State) : (sendTlp t s).svcWait = s.svcWait := rfl
@[simp] theorem sendTlp_jtgIr (t : HpTlp) (s : State) : (sendTlp t s).jtgIr = s.jtgIr := rfl
@[simp] theorem sendTlp_bwBytes (t : HpTlp) (s : State) : (sendTlp t s).bwBytes = s.bwBytes := rfl
@[simp] theorem sendTlp_out (t : HpTlp) (s : State) : (sendTlp t s).out = { s.out with hp := s.out.hp ++ [t] } := rfl

/-! ### putAll -/

@[simp] theorem putAll_nil (s : State) : putAll [] s = s := rfl

@[simp] theorem putAll_cons (x : Fld × Nat) (l : List (Fld × Nat)) (s : State) : putAll (x :: l) s = putAll l (put x.1 x.2 s) := rfl

@[simp] theorem putAll_pending (l : List (Fld × Nat)) (s : State) : (putAll l s).pending = s.pending := by
  induction l generalizing s with
  | nil => rfl
  | cons x l ih => exact (ih _).trans rfl

@[simp] theorem putAll_env (l : List (Fld × Nat)) (s : State) : (putAll l s).env = s.env := by
  induction l generalizing s with
  | nil => rfl
  | cons x l ih => exact (ih _).trans rfl

@[simp] theorem putAll_shadow (l : List (Fld × Nat)) (s : State) : (putAll l s).shadow = s.shadow := by
  induction l generalizing s with
  | nil => rfl
  | cons x l ih => exact (ih _).trans rfl

@[simp] theorem putAll_force (l : List (Fld × Nat)) (s : State) : (putAll l s).force = s.force := by
  induction l generalizing s with
  | nil => rfl
  | cons x l ih => exact (ih _).trans rfl

@[simp] theorem putAll_loHeld (l : List (Fld × Nat)) (s : State) : (putAll l s).loHeld = s.loHeld := by
  induction l generalizing s with
  | nil => rfl
  | cons x l ih => exact (ih _).trans rfl

@[simp] theorem putAll_hiCap (l : List (Fld × Nat)) (s : State) : (putAll l s).hiCap = s.hiCap := by
  induction l generalizing s with
  | nil => rfl
  | cons x l ih => exact (ih _).trans rfl

@[simp] theorem putAll_free (l : List (Fld × Nat)) (s : State) : (putAll l s).free = s.free := by
  induction l generalizing s with
  | nil => rfl
  | cons x l ih => exact (ih _).trans rfl

@[simp] theorem putAll_rounds (l : List (Fld × Nat)) (s : State) : (putAll l s).rounds = s.rounds := by
  induction l generalizing s with
  | nil => rfl
  | cons x l ih => exact (ih _).trans rfl

@[simp] theorem putAll_fclk (l : List (Fld × Nat)) (s : State) : (putAll l s).fclk = s.fclk := by
  induction l generalizing s with
  | nil => rfl
  | cons x l ih => exact (ih _).trans rfl

@[simp] theorem putAll_nextUid (l : List (Fld × Nat)) (s : State) : (putAll l s).nextUid = s.nextUid := by
  induction l generalizing s with
  | nil => rfl
  | cons x l ih => exact (ih _).trans rfl

@[simp] theorem putAll_mem (l : List (Fld × Nat)) (s : State) : (putAll l s).mem = s.mem := by
  induction l generalizing s with
  | nil => rfl
  | cons x l ih => exact (ih _).trans rfl

@[simp] theorem putAll_marked (l : List (Fld × Nat)) (s : State) : (putAll l s).marked = s.marked := by
  induction l generalizing s with
  | nil => rfl
  | cons x l ih => exact (ih _).trans rfl

@[simp] theorem putAll_ports (l : List (Fld × Nat)) (s : State) : (putAll l s).ports = s.ports := by
  induction l generalizing s with
  | nil => rfl
  | cons x l ih => exact (ih _).trans rfl

@[simp] theorem putAll_rotation (l : List (Fld × Nat)) (s : State) : (putAll l s).rotation = s.rotation := by
  induction l generalizing s with
  | nil => rfl
  | cons x l ih => exact (ih _).trans rfl

@[simp] theorem putAll_tokens (l : List (Fld × Nat)) (s : State) : (putAll l s).tokens = s.tokens := by
  induction l generalizing s with
  | nil => rfl
  | cons x l ih => exact (ih _).trans rfl

@[simp] theorem putAll_gates (l : List (Fld × Nat)) (s : State) : (putAll l s).gates = s.gates := by
  induction l generalizing s with
  | nil => rfl
  | cons x l ih => exact (ih _).trans rfl

@[simp] theorem putAll_live (l : List (Fld × Nat)) (s : State) : (putAll l s).live = s.live := by
  induction l generalizing s with
  | nil => rfl
  | cons x l ih => exact (ih _).trans rfl

@[simp] theorem putAll_arrived (l : List (Fld × Nat)) (s : State) : (putAll l s).arrived = s.arrived := by
  induction l generalizing s with
  | nil => rfl
  | cons x l ih => exact (ih _).trans rfl

@[simp] theorem putAll_fwAccs (l : List (Fld × Nat)) (s : State) : (putAll l s).fwAccs = s.fwAccs := by
  induction l generalizing s with
  | nil => rfl
  | cons x l ih => exact (ih _).trans rfl

@[simp] theorem putAll_pcs (l : List (Fld × Nat)) (s : State) : (putAll l s).pcs = s.pcs := by
  induction l generalizing s with
  | nil => rfl
  | cons x l ih => exact (ih _).trans rfl

@[simp] theorem putAll_chanLfsr (l : List (Fld × Nat)) (s : State) : (putAll l s).chanLfsr = s.chanLfsr := by
  induction l generalizing s with
  | nil => rfl
  | cons x l ih => exact (ih _).trans rfl

@[simp] theorem putAll_ceLeaks (l : List (Fld × Nat)) (s : State) : (putAll l s).ceLeaks = s.ceLeaks := by
  induction l generalizing s with
  | nil => rfl
  | cons x l ih => exact (ih _).trans rfl

@[simp] theorem putAll_lanes (l : List (Fld × Nat)) (s : State) : (putAll l s).lanes = s.lanes := by
  induction l generalizing s with
  | nil => rfl
  | cons x l ih => exact (ih _).trans rfl

@[simp] theorem putAll_hives (l : List (Fld × Nat)) (s : State) : (putAll l s).hives = s.hives := by
  induction l generalizing s with
  | nil => rfl
  | cons x l ih => exact (ih _).trans rfl

@[simp] theorem putAll_ctxs (l : List (Fld × Nat)) (s : State) : (putAll l s).ctxs = s.ctxs := by
  induction l generalizing s with
  | nil => rfl
  | cons x l ih => exact (ih _).trans rfl

@[simp] theorem putAll_ctxHeld (l : List (Fld × Nat)) (s : State) : (putAll l s).ctxHeld = s.ctxHeld := by
  induction l generalizing s with
  | nil => rfl
  | cons x l ih => exact (ih _).trans rfl

@[simp] theorem putAll_jobs (l : List (Fld × Nat)) (s : State) : (putAll l s).jobs = s.jobs := by
  induction l generalizing s with
  | nil => rfl
  | cons x l ih => exact (ih _).trans rfl

@[simp] theorem putAll_nextJob (l : List (Fld × Nat)) (s : State) : (putAll l s).nextJob = s.nextJob := by
  induction l generalizing s with
  | nil => rfl
  | cons x l ih => exact (ih _).trans rfl

@[simp] theorem putAll_lateJobs (l : List (Fld × Nat)) (s : State) : (putAll l s).lateJobs = s.lateJobs := by
  induction l generalizing s with
  | nil => rfl
  | cons x l ih => exact (ih _).trans rfl

@[simp] theorem putAll_finished (l : List (Fld × Nat)) (s : State) : (putAll l s).finished = s.finished := by
  induction l generalizing s with
  | nil => rfl
  | cons x l ih => exact (ih _).trans rfl

@[simp] theorem putAll_hbStart (l : List (Fld × Nat)) (s : State) : (putAll l s).hbStart = s.hbStart := by
  induction l generalizing s with
  | nil => rfl
  | cons x l ih => exact (ih _).trans rfl

@[simp] theorem putAll_auditSeq (l : List (Fld × Nat)) (s : State) : (putAll l s).auditSeq = s.auditSeq := by
  induction l generalizing s with
  | nil => rfl
  | cons x l ih => exact (ih _).trans rfl

@[simp] theorem putAll_spill (l : List (Fld × Nat)) (s : State) : (putAll l s).spill = s.spill := by
  induction l generalizing s with
  | nil => rfl
  | cons x l ih => exact (ih _).trans rfl

@[simp] theorem putAll_acks (l : List (Fld × Nat)) (s : State) : (putAll l s).acks = s.acks := by
  induction l generalizing s with
  | nil => rfl
  | cons x l ih => exact (ih _).trans rfl

@[simp] theorem putAll_host (l : List (Fld × Nat)) (s : State) : (putAll l s).host = s.host := by
  induction l generalizing s with
  | nil => rfl
  | cons x l ih => exact (ih _).trans rfl

@[simp] theorem putAll_peer (l : List (Fld × Nat)) (s : State) : (putAll l s).peer = s.peer := by
  induction l generalizing s with
  | nil => rfl
  | cons x l ih => exact (ih _).trans rfl

@[simp] theorem putAll_held (l : List (Fld × Nat)) (s : State) : (putAll l s).held = s.held := by
  induction l generalizing s with
  | nil => rfl
  | cons x l ih => exact (ih _).trans rfl

@[simp] theorem putAll_ring (l : List (Fld × Nat)) (s : State) : (putAll l s).ring = s.ring := by
  induction l generalizing s with
  | nil => rfl
  | cons x l ih => exact (ih _).trans rfl

@[simp] theorem putAll_eventSeq (l : List (Fld × Nat)) (s : State) : (putAll l s).eventSeq = s.eventSeq := by
  induction l generalizing s with
  | nil => rfl
  | cons x l ih => exact (ih _).trans rfl

@[simp] theorem putAll_logWait (l : List (Fld × Nat)) (s : State) : (putAll l s).logWait = s.logWait := by
  induction l generalizing s with
  | nil => rfl
  | cons x l ih => exact (ih _).trans rfl

@[simp] theorem putAll_evLog (l : List (Fld × Nat)) (s : State) : (putAll l s).evLog = s.evLog := by
  induction l generalizing s with
  | nil => rfl
  | cons x l ih => exact (ih _).trans rfl

@[simp] theorem putAll_occ (l : List (Fld × Nat)) (s : State) : (putAll l s).occ = s.occ := by
  induction l generalizing s with
  | nil => rfl
  | cons x l ih => exact (ih _).trans rfl

@[simp] theorem putAll_samplers (l : List (Fld × Nat)) (s : State) : (putAll l s).samplers = s.samplers := by
  induction l generalizing s with
  | nil => rfl
  | cons x l ih => exact (ih _).trans rfl

@[simp] theorem putAll_overruns (l : List (Fld × Nat)) (s : State) : (putAll l s).overruns = s.overruns := by
  induction l generalizing s with
  | nil => rfl
  | cons x l ih => exact (ih _).trans rfl

@[simp] theorem putAll_power (l : List (Fld × Nat)) (s : State) : (putAll l s).power = s.power := by
  induction l generalizing s with
  | nil => rfl
  | cons x l ih => exact (ih _).trans rfl

@[simp] theorem putAll_thermal (l : List (Fld × Nat)) (s : State) : (putAll l s).thermal = s.thermal := by
  induction l generalizing s with
  | nil => rfl
  | cons x l ih => exact (ih _).trans rfl

@[simp] theorem putAll_recal (l : List (Fld × Nat)) (s : State) : (putAll l s).recal = s.recal := by
  induction l generalizing s with
  | nil => rfl
  | cons x l ih => exact (ih _).trans rfl

@[simp] theorem putAll_recalNext (l : List (Fld × Nat)) (s : State) : (putAll l s).recalNext = s.recalNext := by
  induction l generalizing s with
  | nil => rfl
  | cons x l ih => exact (ih _).trans rfl

@[simp] theorem putAll_cores (l : List (Fld × Nat)) (s : State) : (putAll l s).cores = s.cores := by
  induction l generalizing s with
  | nil => rfl
  | cons x l ih => exact (ih _).trans rfl

@[simp] theorem putAll_otp (l : List (Fld × Nat)) (s : State) : (putAll l s).otp = s.otp := by
  induction l generalizing s with
  | nil => rfl
  | cons x l ih => exact (ih _).trans rfl

@[simp] theorem putAll_flash (l : List (Fld × Nat)) (s : State) : (putAll l s).flash = s.flash := by
  induction l generalizing s with
  | nil => rfl
  | cons x l ih => exact (ih _).trans rfl

@[simp] theorem putAll_fw (l : List (Fld × Nat)) (s : State) : (putAll l s).fw = s.fw := by
  induction l generalizing s with
  | nil => rfl
  | cons x l ih => exact (ih _).trans rfl

@[simp] theorem putAll_audit (l : List (Fld × Nat)) (s : State) : (putAll l s).audit = s.audit := by
  induction l generalizing s with
  | nil => rfl
  | cons x l ih => exact (ih _).trans rfl

@[simp] theorem putAll_scrubRun (l : List (Fld × Nat)) (s : State) : (putAll l s).scrubRun = s.scrubRun := by
  induction l generalizing s with
  | nil => rfl
  | cons x l ih => exact (ih _).trans rfl

@[simp] theorem putAll_remapLog (l : List (Fld × Nat)) (s : State) : (putAll l s).remapLog = s.remapLog := by
  induction l generalizing s with
  | nil => rfl
  | cons x l ih => exact (ih _).trans rfl

@[simp] theorem putAll_remapWant (l : List (Fld × Nat)) (s : State) : (putAll l s).remapWant = s.remapWant := by
  induction l generalizing s with
  | nil => rfl
  | cons x l ih => exact (ih _).trans rfl

@[simp] theorem putAll_svcWait (l : List (Fld × Nat)) (s : State) : (putAll l s).svcWait = s.svcWait := by
  induction l generalizing s with
  | nil => rfl
  | cons x l ih => exact (ih _).trans rfl

@[simp] theorem putAll_jtgIr (l : List (Fld × Nat)) (s : State) : (putAll l s).jtgIr = s.jtgIr := by
  induction l generalizing s with
  | nil => rfl
  | cons x l ih => exact (ih _).trans rfl

@[simp] theorem putAll_bwBytes (l : List (Fld × Nat)) (s : State) : (putAll l s).bwBytes = s.bwBytes := by
  induction l generalizing s with
  | nil => rfl
  | cons x l ih => exact (ih _).trans rfl

@[simp] theorem putAll_out (l : List (Fld × Nat)) (s : State) : (putAll l s).out = s.out := by
  induction l generalizing s with
  | nil => rfl
  | cons x l ih => exact (ih _).trans rfl

end Sys2Proof.Machine
end

