-- ==== Sys2Proof/Laws/Regs.lean ====
section
/-! SUPPORT. Register fields: what a read gives after a write of the same or of another field, and that fields stand for different
keys of the register maps. -/

namespace Sys2Proof.Machine

theorem rd_put_same (f : Fld) (v : Nat) (s : State) (h : f.acc ≠ .rws) : rd f (put f v s) = v % 2 ^ f.w := by
  unfold rd
  split
  · contradiction
  · simp

theorem rd_put_ne (f g : Fld) (v : Nat) (s : State) (h : g.key ≠ f.key) : rd g (put f v s) = rd g s := by
  unfold rd
  split
  · rfl
  · simp [mgetD_mset_ne _ _ _ h]

/-- A read depends on the maps of registers alone. -/
theorem rd_congr (f : Fld) {s t : State} (h : t.regs = s.regs) (k : t.force = s.force) : rd f t = rd f s := by
  unfold rd; rw [h, k]

theorem on_congr (f : Fld) {s t : State} (h : t.regs = s.regs) (k : t.force = s.force) : on f t = on f s := by
  unfold on; rw [rd_congr f h k]

/-- A field that no write of a list names keeps its value. -/
theorem rd_putAll_ne (g : Fld) (l : List (Fld × Nat)) (s : State) (h : ∀ x ∈ l, g.key ≠ x.1.key) : rd g (putAll l s) = rd g s := by
  induction l generalizing s with
  | nil => rfl
  | cons x l ih =>
    rw [putAll_cons, ih _ fun y hy => h y (List.mem_cons_of_mem _ hy), rd_put_ne _ _ _ _ (h x List.mem_cons_self)]

/-- A field keeps its value under an operation that changes neither the registers nor what commits put in force. -/
theorem Frame.rd_eq {m : Nat} {s t : State} (h : Frame m s t) (f : Fld) (h2 : m.testBit 2 = false) (h4 : m.testBit 4 = false) :
    rd f t = rd f s := rd_congr f (h.f_regs h2) (h.f_force h4)

end Sys2Proof.Machine
end

