-- ==== Sys2Proof/Laws/Events.lean ====
section
/-! SUPPORT. Posting an event and raising an interrupt leave every register alone but the three they write. -/

namespace Sys2Proof.Machine

open Reg

theorem rd_raiseInt (f : Fld) (b : Nat) (s : State) (h : f.key ≠ (intField b).key) : rd f (raiseInt b s) = rd f s := by
  unfold raiseInt
  split
  · rfl
  · dsimp only
    split
    · exact rd_put_ne _ _ _ _ h
    · rw [(fr_sendMsg ..).rd_eq f rfl rfl]
      exact rd_put_ne _ _ _ _ h

theorem rd_evQueueWrite (f : Fld) (mk : Nat → Nat → List Nat) (s : State) (h : f.key ≠ FWM_MBX_STATUS.EVT_TAIL.key) :
    rd f (evQueueWrite mk s) = rd f s := by
  unfold evQueueWrite
  dsimp only
  rw [rd_put_ne _ _ _ _ h]
  rfl

theorem rd_drainEvents (f : Fld) (l : List Event) (s : State) (h : f.key ≠ FWM_MBX_STATUS.EVT_TAIL.key) (k : f.key ≠ (intField 0).key) :
    rd f (drainEvents l s) = rd f s := by
  induction l generalizing s with
  | nil => rfl
  | cons e l ih =>
    unfold drainEvents
    split
    · rw [ih, rd_raiseInt _ _ _ k, rd_evQueueWrite _ _ _ h]
      rfl
    · rfl

theorem rd_flushEvents (f : Fld) (s : State) (h : f.key ≠ FWM_MBX_STATUS.EVT_TAIL.key) (k : f.key ≠ (intField 0).key) :
    rd f (flushEvents s) = rd f s := by
  unfold flushEvents
  split
  · rw [rd_drainEvents _ _ _ h k]; rfl
  · rfl

theorem rd_queueEvent (f : Fld) (e : Event) (s : State) (h : f.key ≠ FWM_MBX_STATUS.EVT_TAIL.key) (k : f.key ≠ (intField 0).key)
    (l : f.key ≠ FWM_MBX_LOST.COUNT.key) : rd f (queueEvent e s) = rd f s := by
  unfold queueEvent
  split
  · dsimp only
    rw [rd_flushEvents _ _ h k]
    split
    · unfold bump; rw [rd_put_ne _ _ _ _ l]; rfl
    · rfl
  · dsimp only
    split
    · unfold bump; rw [rd_put_ne _ _ _ _ l]; rfl
    · rfl

theorem rd_postEvent (f : Fld) (cls source kind : Nat) (d : List Nat) (s : State) (h : f.key ≠ FWM_MBX_STATUS.EVT_TAIL.key)
    (k : f.key ≠ (intField 0).key) (l : f.key ≠ FWM_MBX_LOST.COUNT.key) : rd f (postEvent cls source kind d s) = rd f s := by
  unfold postEvent
  dsimp only
  rw [rd_queueEvent _ _ _ h k l]
  split <;> rfl

end Sys2Proof.Machine
end

