-- ==== Sys2Proof/Laws/FramePorts.lean ====
section
/-! SUPPORT. What each operation of Ports.lean may change. -/

namespace Sys2Proof.Machine

open Reg

theorem fr_portErr (f : Fld) (s : State) : Frame 0x1000000800000004 s (portErr f s) := by
  unfold portErr
  try dsimp only
  repeat' (first
    | with_reducible apply Frame.refl
    | apply Eq.refl true
    | (with_reducible apply Frame.seq; with_reducible case k => first | apply fr_raiseInt | apply fr_bump)
    | with_reducible apply Frame.ite
    | (intro _ _; try dsimp only)
    | split)

theorem fr_egressPut (k : Nat) (e : Egr) (s : State) : Frame 0x2000 s (egressPut k e s) := by
  unfold egressPut
  try dsimp only
  repeat' (first
    | with_reducible apply Frame.refl
    | apply Eq.refl true
    | (with_reducible apply Frame.seq; with_reducible case k => first | apply fr_setPort)
    | with_reducible apply Frame.ite
    | (intro _ _; try dsimp only)
    | split)

theorem fr_answerPort (r : Req) (rtype info : Nat) (s : State) : Frame 0x2000 s (answerPort r rtype info s) := by
  unfold answerPort
  try dsimp only
  repeat' (first
    | with_reducible apply Frame.refl
    | apply Eq.refl true
    | (with_reducible apply Frame.seq; with_reducible case k => first | apply fr_egressPut)
    | with_reducible apply Frame.ite
    | (intro _ _; try dsimp only)
    | split)

theorem fr_egressAll (k : Nat) (l : List Egr) (s : State) : Frame 0x2000 s (egressAll k l s) := by
  unfold egressAll
  try dsimp only
  repeat' (first
    | with_reducible apply Frame.refl
    | apply Eq.refl true
    | (with_reducible apply Frame.seq; with_reducible case k => first | apply fr_egressPut)
    | with_reducible apply Frame.ite
    | with_reducible apply Frame.foldl
    | with_reducible apply Frame.foldl_fst
    | (intro _ _; try dsimp only)
    | split)

theorem fr_answerPoisonAll (r : Req) (s : State) : Frame 0x2000 s (answerPoisonAll r s) := by
  unfold answerPoisonAll
  try dsimp only
  repeat' (first
    | with_reducible apply Frame.refl
    | apply Eq.refl true
    | (with_reducible apply Frame.seq; with_reducible case k => first | apply fr_egressPut | apply fr_egressAll)
    | with_reducible apply Frame.ite
    | (intro _ _; try dsimp only)
    | split)

theorem fr_oweCredits (k hdr data : Nat) (s : State) : Frame 0x2000 s (oweCredits k hdr data s) := by
  unfold oweCredits
  try dsimp only
  repeat' (first
    | with_reducible apply Frame.refl
    | apply Eq.refl true
    | (with_reducible apply Frame.seq; with_reducible case k => first | apply fr_setPort)
    | with_reducible apply Frame.ite
    | (intro _ _; try dsimp only)
    | split)

theorem fr_returnCredits (r : Req) (s : State) : Frame 0x2000 s (returnCredits r s) := by
  unfold returnCredits
  try dsimp only
  repeat' (first
    | with_reducible apply Frame.refl
    | apply Eq.refl true
    | (with_reducible apply Frame.seq; with_reducible case k => first | apply fr_oweCredits)
    | with_reducible apply Frame.ite
    | (intro _ _; try dsimp only)
    | split)

theorem fr_creditCycle (k : Nat) (s : State) : Frame 0x1000000000002000 s (creditCycle k s) := by
  unfold creditCycle
  try dsimp only
  repeat' (first
    | with_reducible apply Frame.refl
    | apply Eq.refl true
    | (with_reducible apply Frame.seq; with_reducible case k => first | apply fr_setPort)
    | with_reducible apply Frame.ite
    | (intro _ _; try dsimp only)
    | split
    | with_reducible apply Frame.set_out)

theorem fr_finishAtPort (r : Req) (rtype info : Nat) (s : State) : Frame 0x2000 s (finishAtPort r rtype info s) := by
  unfold finishAtPort
  try dsimp only
  repeat' (first
    | with_reducible apply Frame.refl
    | apply Eq.refl true
    | (with_reducible apply Frame.seq; with_reducible case k => first | apply fr_returnCredits | apply fr_answerPort)
    | with_reducible apply Frame.ite
    | (intro _ _; try dsimp only)
    | split)

theorem fr_disown (k uid : Nat) (s : State) : Frame 0x2000 s (disown k uid s) := by
  unfold disown
  try dsimp only
  repeat' (first
    | with_reducible apply Frame.refl
    | apply Eq.refl true
    | (with_reducible apply Frame.seq; with_reducible case k => first | apply fr_setPort)
    | with_reducible apply Frame.ite
    | (intro _ _; try dsimp only)
    | split)

theorem fr_tearIngress (k u : Nat) (s : State) : Frame 0x2000 s (tearIngress k u s) := by
  unfold tearIngress
  try dsimp only
  repeat' (first
    | with_reducible apply Frame.refl
    | apply Eq.refl true
    | (with_reducible apply Frame.seq; with_reducible case k => first | apply fr_setPort | apply fr_disown | apply fr_finishAtPort)
    | with_reducible apply Frame.ite
    | with_reducible apply Frame.foldl
    | with_reducible apply Frame.foldl_fst
    | (intro _ _; try dsimp only)
    | split)

theorem fr_tearLive (k u : Nat) (s : State) : Frame 0x32000 s (tearLive k u s) := by
  unfold tearLive
  try dsimp only
  repeat' (first
    | with_reducible apply Frame.refl
    | apply Eq.refl true
    | (with_reducible apply Frame.seq; with_reducible case k => first | apply fr_answerPort)
    | with_reducible apply Frame.ite
    | with_reducible apply Frame.foldl
    | with_reducible apply Frame.foldl_fst
    | (intro _ _; try dsimp only)
    | split
    | with_reducible apply Frame.set_gates
    | with_reducible apply Frame.set_live
    | ((with_reducible apply Frame.parts (by with_reducible rfl) (by with_reducible rfl)) <;> first | (apply Or.inl; apply Eq.refl true; done) | (apply Or.inr; with_reducible apply Eq.refl; done) | skip))

theorem fr_tearCurtain (k u : Nat) (dog : Bool) (s : State) : Frame 0x1000040800032004 s (tearCurtain k u dog s) := by
  unfold tearCurtain
  try dsimp only
  repeat' (first
    | with_reducible apply Frame.refl
    | apply Eq.refl true
    | (with_reducible apply Frame.seq; with_reducible case k => first | apply fr_emit | apply fr_portErr | apply fr_setPort | apply fr_tearLive | apply fr_tearIngress)
    | with_reducible apply Frame.ite
    | (intro _ _; try dsimp only)
    | split)

theorem fr_tearAll (k : Nat) (s : State) : Frame 0x1000040800032004 s (tearAll k s) := by
  unfold tearAll
  try dsimp only
  repeat' (first
    | with_reducible apply Frame.refl
    | apply Eq.refl true
    | (with_reducible apply Frame.seq; with_reducible case k => first | apply fr_tearCurtain)
    | with_reducible apply Frame.ite
    | with_reducible apply Frame.foldl
    | with_reducible apply Frame.foldl_fst
    | (intro _ _; try dsimp only)
    | split)

theorem fr_poisonUnfed (k : Nat) (s : State) : Frame 0x2000 s (poisonUnfed k s) := by
  unfold poisonUnfed
  try dsimp only
  repeat' (first
    | with_reducible apply Frame.refl
    | apply Eq.refl true
    | (with_reducible apply Frame.seq; with_reducible case k => first | apply fr_returnCredits | apply fr_setPort | apply fr_answerPoisonAll)
    | with_reducible apply Frame.ite
    | with_reducible apply Frame.foldl
    | with_reducible apply Frame.foldl_fst
    | (intro _ _; try dsimp only)
    | split)

theorem fr_closeByParity (k : Nat) (s : State) : Frame 0x1000040800032004 s (closeByParity k s) := by
  unfold closeByParity
  try dsimp only
  repeat' (first
    | with_reducible apply Frame.refl
    | apply Eq.refl true
    | (with_reducible apply Frame.seq; with_reducible case k => first | apply fr_portErr | apply fr_poisonUnfed | apply fr_tearAll | apply fr_setPort)
    | with_reducible apply Frame.ite
    | (intro _ _; try dsimp only)
    | split)

theorem fr_takeSlot (k : Nat) (s : State) (w : BitVec 256) : Frame 0x1000000800002404 s (takeSlot k s w) := by
  unfold takeSlot
  try dsimp only
  repeat' (first
    | with_reducible apply Frame.refl
    | apply Eq.refl true
    | (with_reducible apply Frame.seq; with_reducible case k => first | apply fr_portErr | apply fr_setPort | apply fr_finishAtPort)
    | with_reducible apply Frame.ite
    | (intro _ _; try dsimp only)
    | split
    | with_reducible apply Frame.set_nextUid)

theorem fr_headerFlit (k : Nat) (flit : BitVec 2048) (par : BitVec 256) (s : State) : Frame 0x1000040800032404 s (headerFlit k flit par s) := by
  unfold headerFlit
  try dsimp only
  repeat' (first
    | with_reducible apply Frame.refl
    | apply Eq.refl true
    | (with_reducible apply Frame.seq; with_reducible case k => first | apply fr_closeByParity | apply fr_portErr | apply fr_takeSlot)
    | with_reducible apply Frame.ite
    | with_reducible apply Frame.foldl
    | with_reducible apply Frame.foldl_fst
    | (intro _ _; try dsimp only)
    | split)

theorem fr_answerDataParity (k : Nat) (s : State) : Frame 0x1000040800032004 s (answerDataParity k s) := by
  unfold answerDataParity
  try dsimp only
  repeat' (first
    | with_reducible apply Frame.refl
    | apply Eq.refl true
    | (with_reducible apply Frame.seq; with_reducible case k => first | apply fr_returnCredits | apply fr_portErr | apply fr_setPort | apply fr_tearCurtain | apply fr_answerPoisonAll)
    | with_reducible apply Frame.ite
    | (intro _ _; try dsimp only)
    | split)

theorem fr_takeData (k : Nat) (beats : List Beat) (parityOk : Bool) (s : State) : Frame 0x1000040800032004 s (takeData k beats parityOk s) := by
  unfold takeData
  try dsimp only
  repeat' (first
    | with_reducible apply Frame.refl
    | apply Eq.refl true
    | (with_reducible apply Frame.seq; with_reducible case k => first | apply fr_portErr | apply fr_setPort | apply fr_answerDataParity)
    | with_reducible apply Frame.ite
    | (intro _ _; try dsimp only)
    | split)

theorem fr_dataFlit (k : Nat) (flit : BitVec 2048) (par : BitVec 256) (s : State) : Frame 0x1000040800032004 s (dataFlit k flit par s) := by
  unfold dataFlit
  try dsimp only
  repeat' (first
    | with_reducible apply Frame.refl
    | apply Eq.refl true
    | (with_reducible apply Frame.seq; with_reducible case k => first | apply fr_takeData | apply fr_portErr)
    | with_reducible apply Frame.ite
    | (intro _ _; try dsimp only)
    | split)

theorem fr_dropUngranted (k : Nat) (s : State) : Frame 0x30000 s (dropUngranted k s) := by
  unfold dropUngranted
  try dsimp only
  repeat' (first
    | with_reducible apply Frame.refl
    | apply Eq.refl true
    | with_reducible apply Frame.ite
    | (intro _ _; try dsimp only)
    | split
    | with_reducible apply Frame.set_gates
    | with_reducible apply Frame.set_live
    | ((with_reducible apply Frame.parts (by with_reducible rfl) (by with_reducible rfl)) <;> first | (apply Or.inl; apply Eq.refl true; done) | (apply Or.inr; with_reducible apply Eq.refl; done) | skip))

theorem fr_linkDown (k : Nat) (s : State) : Frame 0x1000041800032004 s (linkDown k s) := by
  unfold linkDown
  try dsimp only
  repeat' (first
    | with_reducible apply Frame.refl
    | apply Eq.refl true
    | (with_reducible apply Frame.seq; with_reducible case k => first | apply fr_dropUngranted | apply fr_setPort | apply fr_tearAll)
    | with_reducible apply Frame.ite
    | (intro _ _; try dsimp only)
    | split
    | with_reducible apply Frame.set_peer)

theorem fr_openPort (k : Nat) (s : State) : Frame 0x2000 s (openPort k s) := by
  unfold openPort
  try dsimp only
  repeat' (first
    | with_reducible apply Frame.refl
    | apply Eq.refl true
    | (with_reducible apply Frame.seq; with_reducible case k => first | apply fr_setPort)
    | with_reducible apply Frame.ite
    | (intro _ _; try dsimp only)
    | split)

theorem fr_portReopen (k : Nat) (s : State) : Frame 0x2000 s (portReopen k s) := by
  unfold portReopen
  try dsimp only
  repeat' (first
    | with_reducible apply Frame.refl
    | apply Eq.refl true
    | (with_reducible apply Frame.seq; with_reducible case k => first | apply fr_openPort | apply fr_setPort)
    | with_reducible apply Frame.ite
    | (intro _ _; try dsimp only)
    | split)

theorem fr_rspCredits (k hdr data : Nat) (s : State) : Frame 0x2000 s (rspCredits k hdr data s) := by
  unfold rspCredits
  try dsimp only
  repeat' (first
    | with_reducible apply Frame.refl
    | apply Eq.refl true
    | (with_reducible apply Frame.seq; with_reducible case k => first | apply fr_setPort)
    | with_reducible apply Frame.ite
    | (intro _ _; try dsimp only)
    | split)

theorem fr_responseSend (k : Nat) (s : State) : Frame 0x1000040000002000 s (responseSend k s) := by
  unfold responseSend
  try dsimp only
  repeat' (first
    | with_reducible apply Frame.refl
    | apply Eq.refl true
    | (with_reducible apply Frame.seq; with_reducible case k => first | apply fr_emit | apply fr_setPort)
    | with_reducible apply Frame.ite
    | (intro _ _; try dsimp only)
    | split
    | with_reducible apply Frame.set_out)

end Sys2Proof.Machine
end

