-- ==== Sys2Proof/Laws/FrameIntegrity.lean ====
section
/-! SUPPORT. What each operation of Integrity.lean may change. -/

namespace Sys2Proof.Machine

open Reg

theorem fr_hiveEvent (f : Fld) (i : Nat) (s : State) : Frame 0x1000000800000004 s (hiveEvent f i s) := by
  unfold hiveEvent
  try dsimp only
  repeat' (first
    | with_reducible apply Frame.refl
    | apply Eq.refl true
    | (with_reducible apply Frame.seq; with_reducible case k => first | apply fr_raiseInt | apply fr_put)
    | with_reducible apply Frame.ite
    | (intro _ _; try dsimp only)
    | split)

theorem fr_bucketAdd (n : Nat) (s : State) : Frame 0x1000000800000004 s (bucketAdd n s) := by
  unfold bucketAdd
  try dsimp only
  repeat' (first
    | with_reducible apply Frame.refl
    | apply Eq.refl true
    | (with_reducible apply Frame.seq; with_reducible case k => first | apply fr_put | apply fr_hiveEvent)
    | with_reducible apply Frame.ite
    | (intro _ _; try dsimp only)
    | split)

theorem fr_corrected (n c off : Nat) (changed : List Nat) (onlyErased demand : Bool) (s : State) : Frame 0x1000040800100004 s (corrected n c off changed onlyErased demand s) := by
  unfold corrected
  try dsimp only
  repeat' (first
    | with_reducible apply Frame.refl
    | apply Eq.refl true
    | (with_reducible apply Frame.seq; with_reducible case k => first | apply fr_emit | apply fr_setPc | apply fr_bucketAdd | apply fr_bump)
    | with_reducible apply Frame.ite
    | with_reducible apply Frame.foldl
    | with_reducible apply Frame.foldl_fst
    | (intro _ _; try dsimp only)
    | split)

theorem fr_uncorrectable (n c off src : Nat) (marked : Bool) (s : State) : Frame 0x1000040800100004 s (uncorrectable n c off src marked s) := by
  unfold uncorrectable
  try dsimp only
  repeat' (first
    | with_reducible apply Frame.refl
    | apply Eq.refl true
    | (with_reducible apply Frame.seq; with_reducible case k => first | apply fr_emit | apply fr_hiveEvent | apply fr_put | apply fr_setPc | apply fr_bump | apply fr_putAll)
    | with_reducible apply Frame.ite
    | (intro _ _; try dsimp only)
    | split)

theorem fr_pushBeats (uid : Nat) (l : Live) (s : State) : Frame 0x22000 s (pushBeats uid l s) := by
  unfold pushBeats
  try dsimp only
  repeat' (first
    | with_reducible apply Frame.refl
    | apply Eq.refl true
    | (with_reducible apply Frame.seq; with_reducible case k => first | apply fr_egressAll)
    | with_reducible apply Frame.ite
    | (intro _ _; try dsimp only)
    | split
    | with_reducible apply Frame.set_live)

theorem fr_ppRespond (slot : BitVec 256) (rtype len info freason node gen : Nat) (d : List Byte) (s : State) : Frame 0x1000000000 s (ppRespond slot rtype len info freason node gen d s) := by
  unfold ppRespond
  try dsimp only
  repeat' (first
    | with_reducible apply Frame.refl
    | apply Eq.refl true
    | with_reducible apply Frame.ite
    | (intro _ _; try dsimp only)
    | split
    | with_reducible apply Frame.set_peer)

theorem fr_bcastWrote (uid : Nat) (fail : Option Nat) (s : State) : Frame 0x1000000000 s (bcastWrote uid fail s) := by
  unfold bcastWrote
  try dsimp only
  repeat' (first
    | with_reducible apply Frame.refl
    | apply Eq.refl true
    | with_reducible apply Frame.ite
    | (intro _ _; try dsimp only)
    | split
    | with_reducible apply Frame.set_peer)

theorem fr_arrive (x : Arrival) (s : State) : Frame 0x40000 s (arrive x s) := by
  unfold arrive
  try dsimp only
  repeat' (first
    | with_reducible apply Frame.refl
    | apply Eq.refl true
    | with_reducible apply Frame.ite
    | (intro _ _; try dsimp only)
    | split
    | with_reducible apply Frame.set_arrived)

theorem fr_tryFinish (uid : Nat) (s : State) : Frame 0x1000001000062000 s (tryFinish uid s) := by
  unfold tryFinish
  try dsimp only
  repeat' (first
    | with_reducible apply Frame.refl
    | apply Eq.refl true
    | (with_reducible apply Frame.seq; with_reducible case k => first | apply fr_egressPut | apply fr_bcastWrote | apply fr_ppRespond | apply fr_arrive | apply fr_sendCompletion)
    | with_reducible apply Frame.ite
    | (intro _ _; try dsimp only)
    | split
    | with_reducible apply Frame.set_live)

theorem fr_sampleDone (n uid rtype : Nat) (s : State) : Frame 0x80000000000 s (sampleDone n uid rtype s) := by
  unfold sampleDone
  try dsimp only
  repeat' (first
    | with_reducible apply Frame.refl
    | apply Eq.refl true
    | with_reducible apply Frame.ite
    | (intro _ _; try dsimp only)
    | split
    | with_reducible apply Frame.set_samplers)

theorem fr_retireGrant (n uid : Nat) (s : State) : Frame 0x80000030000 s (retireGrant n uid s) := by
  unfold retireGrant
  try dsimp only
  repeat' (first
    | with_reducible apply Frame.refl
    | apply Eq.refl true
    | (with_reducible apply Frame.seq; with_reducible case k => first | apply fr_sampleDone)
    | with_reducible apply Frame.ite
    | (intro _ _; try dsimp only)
    | split
    | with_reducible apply Frame.set_gates
    | with_reducible apply Frame.set_live
    | ((with_reducible apply Frame.parts (by with_reducible rfl) (by with_reducible rfl)) <;> first | (apply Or.inl; apply Eq.refl true; done) | (apply Or.inr; with_reducible apply Eq.refl; done) | skip))

theorem fr_deliver (n uid beat : Nat) (d : Option Beat) (s : State) : Frame 0x1800081000072000 s (deliver n uid beat d s) := by
  unfold deliver
  try dsimp only
  repeat' (first
    | with_reducible apply Frame.refl
    | apply Eq.refl true
    | (with_reducible apply Frame.seq; with_reducible case k => first | apply fr_pushBeats | apply fr_tryFinish | apply fr_retireGrant)
    | with_reducible apply Frame.ite
    | (intro _ _; try dsimp only)
    | split
    | with_reducible apply Frame.set_bwBytes)

theorem fr_ackWrite (n uid : Nat) (ok : Bool) (s : State) : Frame 0x1000081000072000 s (ackWrite n uid ok s) := by
  unfold ackWrite
  try dsimp only
  repeat' (first
    | with_reducible apply Frame.refl
    | apply Eq.refl true
    | (with_reducible apply Frame.seq; with_reducible case k => first | apply fr_tryFinish | apply fr_retireGrant)
    | with_reducible apply Frame.ite
    | (intro _ _; try dsimp only)
    | split
    | with_reducible apply Frame.set_live)

theorem fr_settle (n c off : Nat) (s : State) : Frame 0x101800 s (settle n c off s) := by
  unfold settle
  try dsimp only
  repeat' (first
    | with_reducible apply Frame.refl
    | apply Eq.refl true
    | (with_reducible apply Frame.seq; with_reducible case k => first | apply fr_setPc | apply fr_writeBlock)
    | with_reducible apply Frame.ite
    | with_reducible apply Frame.foldl
    | with_reducible apply Frame.foldl_fst
    | (intro _ _; try dsimp only)
    | split)

end Sys2Proof.Machine
end

