-- ==== Sys2Proof/Laws/FrameChannel.lean ====
section
/-! SUPPORT. What each operation of Channel.lean may change. -/

namespace Sys2Proof.Machine

open Reg

theorem fr_stepChannelLfsr (n c p sid bank row : Nat) (s : State) : Frame 0x300004 s (stepChannelLfsr n c p sid bank row s) := by
  unfold stepChannelLfsr
  try dsimp only
  repeat' (first
    | with_reducible apply Frame.refl
    | apply Eq.refl true
    | (with_reducible apply Frame.seq; with_reducible case k => first | apply fr_setPc | apply fr_bump)
    | with_reducible apply Frame.ite
    | (intro _ _; try dsimp only)
    | split
    | with_reducible apply Frame.set_chanLfsr)

theorem fr_neighbourDone (n c own i : Nat) (s : State) : Frame 0x40000100004 s (neighbourDone n c own i s) := by
  unfold neighbourDone
  try dsimp only
  repeat' (first
    | with_reducible apply Frame.refl
    | apply Eq.refl true
    | (with_reducible apply Frame.seq; with_reducible case k => first | apply fr_emit | apply fr_setPc | apply fr_bump)
    | with_reducible apply Frame.ite
    | (intro _ _; try dsimp only)
    | split)

theorem fr_doAct (n c p : Nat) (o : POp) (s : State) : Frame 0x40000300004 s (doAct n c p o s) := by
  unfold doAct
  try dsimp only
  repeat' (first
    | with_reducible apply Frame.refl
    | apply Eq.refl true
    | (with_reducible apply Frame.seq; with_reducible case k => first | apply fr_emit | apply fr_setPc | apply fr_stepChannelLfsr | apply fr_neighbourDone)
    | with_reducible apply Frame.ite
    | (intro _ _; try dsimp only)
    | split)

theorem fr_doPre (n c p : Nat) (o : POp) (s : State) : Frame 0x100000 s (doPre n c p o s) := by
  unfold doPre
  try dsimp only
  repeat' (first
    | with_reducible apply Frame.refl
    | apply Eq.refl true
    | (with_reducible apply Frame.seq; with_reducible case k => first | apply fr_setPc)
    | with_reducible apply Frame.ite
    | (intro _ _; try dsimp only)
    | split)

theorem fr_doRef (n c p : Nat) (o : POp) (s : State) : Frame 0x40000100004 s (doRef n c p o s) := by
  unfold doRef
  try dsimp only
  repeat' (first
    | with_reducible apply Frame.refl
    | apply Eq.refl true
    | (with_reducible apply Frame.seq; with_reducible case k => first | apply fr_emit | apply fr_setPc | apply fr_bump)
    | with_reducible apply Frame.ite
    | with_reducible apply Frame.foldl
    | with_reducible apply Frame.foldl_fst
    | (intro _ _; try dsimp only)
    | split)

theorem fr_feedStream (n : Nat) (e : QEnt) (d : Option Beat) (s : State) : Frame 0x1000000 s (feedStream n e d s) := by
  unfold feedStream
  try dsimp only
  repeat' (first
    | with_reducible apply Frame.refl
    | apply Eq.refl true
    | with_reducible apply Frame.ite
    | (intro _ _; try dsimp only)
    | split
    | with_reducible apply Frame.set_hives)

theorem fr_answerPart (n c p : Nat) (e : QEnt) (d : Option Beat) (s : State) : Frame 0x1000081000172000 s (answerPart n c p e d s) := by
  unfold answerPart
  try dsimp only
  repeat' (first
    | with_reducible apply Frame.refl
    | apply Eq.refl true
    | (with_reducible apply Frame.seq; with_reducible case k => first | apply fr_ackWrite | apply fr_setPc)
    | with_reducible apply Frame.ite
    | (intro _ _; try dsimp only)
    | split)

theorem fr_answerRead (n c p src : Nat) (e : QEnt) (d : Option Beat) (s : State) : Frame 0x1800081001172000 s (answerRead n c p src e d s) := by
  unfold answerRead
  try dsimp only
  repeat' (first
    | with_reducible apply Frame.refl
    | apply Eq.refl true
    | (with_reducible apply Frame.seq; with_reducible case k => first | apply fr_feedStream | apply fr_deliver | apply fr_answerPart)
    | with_reducible apply Frame.ite
    | (intro _ _; try dsimp only)
    | split)

theorem fr_finishRead (n c p src : Nat) (e : QEnt) (errs : ErrPat) (s : State) : Frame 0x18000C1801172004 s (finishRead n c p src e errs s) := by
  unfold finishRead
  try dsimp only
  repeat' (first
    | with_reducible apply Frame.refl
    | apply Eq.refl true
    | (with_reducible apply Frame.seq; with_reducible case k => first | apply fr_corrected | apply fr_uncorrectable | apply fr_setPc | apply fr_answerRead)
    | with_reducible apply Frame.ite
    | (intro _ _; try dsimp only)
    | split)

theorem fr_scrubUe (n c off addr : Nat) (marked : Bool) (s : State) : Frame 0x1000040800100004 s (scrubUe n c off addr marked s) := by
  unfold scrubUe
  try dsimp only
  repeat' (first
    | with_reducible apply Frame.refl
    | apply Eq.refl true
    | (with_reducible apply Frame.seq; with_reducible case k => first | apply fr_put | apply fr_bump | apply fr_uncorrectable)
    | with_reducible apply Frame.ite
    | (intro _ _; try dsimp only)
    | split)

theorem fr_scrubFix (n c p off : Nat) (left : ErrPat) (ch : List Nat) (er : Bool) (s : State) : Frame 0x1000040800100404 s (scrubFix n c p off left ch er s) := by
  unfold scrubFix
  try dsimp only
  repeat' (first
    | with_reducible apply Frame.refl
    | apply Eq.refl true
    | (with_reducible apply Frame.seq; with_reducible case k => first | apply fr_corrected | apply fr_setPc | apply fr_bump)
    | with_reducible apply Frame.ite
    | (intro _ _; try dsimp only)
    | split
    | with_reducible apply Frame.set_nextUid)

theorem fr_finishScrub (n c p off addr : Nat) (errs : ErrPat) (s : State) : Frame 0x1000040800100404 s (finishScrub n c p off addr errs s) := by
  unfold finishScrub
  try dsimp only
  repeat' (first
    | with_reducible apply Frame.refl
    | apply Eq.refl true
    | (with_reducible apply Frame.seq; with_reducible case k => first | apply fr_emit | apply fr_corrected | apply fr_uncorrectable | apply fr_setPc | apply fr_scrubUe | apply fr_scrubFix)
    | with_reducible apply Frame.ite
    | (intro _ _; try dsimp only)
    | split
    | with_reducible apply Frame.set_nextUid)

theorem fr_markReread (n uid : Nat) (s : State) : Frame 0x80000000000 s (markReread n uid s) := by
  unfold markReread
  try dsimp only
  repeat' (first
    | with_reducible apply Frame.refl
    | apply Eq.refl true
    | with_reducible apply Frame.ite
    | (intro _ _; try dsimp only)
    | split
    | with_reducible apply Frame.set_samplers)

theorem fr_finishWrite (n c p : Nat) (e : QEnt) (parityError : Bool) (s : State) : Frame 0x10000C0800131804 s (finishWrite n c p e parityError s) := by
  unfold finishWrite
  try dsimp only
  repeat' (first
    | with_reducible apply Frame.refl
    | apply Eq.refl true
    | (with_reducible apply Frame.seq; with_reducible case k => first | apply fr_markBlock | apply fr_uncorrectable | apply fr_setPc | apply fr_retireGrant | apply fr_writeBlock)
    | with_reducible apply Frame.ite
    | (intro _ _; try dsimp only)
    | split)

theorem fr_colEvents (n c : Nat) (o : POp) (b : Bank) (event : Option Nat) (s : State) : Frame 0x40000000000 s (colEvents n c o b event s) := by
  unfold colEvents
  try dsimp only
  repeat' (first
    | with_reducible apply Frame.refl
    | apply Eq.refl true
    | (with_reducible apply Frame.seq; with_reducible case k => first | apply fr_emit)
    | with_reducible apply Frame.ite
    | (intro _ _; try dsimp only)
    | split)

theorem fr_doCol (n c p : Nat) (o : POp) (errs : ErrPat) (parityError : Bool) (s : State) : Frame 0x18000C1801173804 s (doCol n c p o errs parityError s) := by
  unfold doCol
  try dsimp only
  repeat' (first
    | with_reducible apply Frame.refl
    | apply Eq.refl true
    | (with_reducible apply Frame.seq; with_reducible case k => first | apply fr_deliver | apply fr_bump | apply fr_finishRead | apply fr_markReread | apply fr_setPc | apply fr_finishWrite | apply fr_colEvents)
    | with_reducible apply Frame.ite
    | (intro _ _; try dsimp only)
    | split)

theorem fr_doProbe (n c p : Nat) (s : State) : Frame 0x40000100000 s (doProbe n c p s) := by
  unfold doProbe
  try dsimp only
  repeat' (first
    | with_reducible apply Frame.refl
    | apply Eq.refl true
    | (with_reducible apply Frame.seq; with_reducible case k => first | apply fr_emit | apply fr_setPc)
    | with_reducible apply Frame.ite
    | (intro _ _; try dsimp only)
    | split)

theorem fr_beginCclk (n c p : Nat) (s : State) : Frame 0x40000100000 s (beginCclk n c p s) := by
  unfold beginCclk
  try dsimp only
  repeat' (first
    | with_reducible apply Frame.refl
    | apply Eq.refl true
    | (with_reducible apply Frame.seq; with_reducible case k => first | apply fr_emit | apply fr_setPc)
    | with_reducible apply Frame.ite
    | (intro _ _; try dsimp only)
    | split)

theorem fr_chargeShare (n c p : Nat) (s : State) : Frame 0x100000 s (chargeShare n c p s) := by
  unfold chargeShare
  try dsimp only
  repeat' (first
    | with_reducible apply Frame.refl
    | apply Eq.refl true
    | (with_reducible apply Frame.seq; with_reducible case k => first | apply fr_setPc)
    | with_reducible apply Frame.ite
    | (intro _ _; try dsimp only)
    | split)

theorem fr_issueRow (n c p : Nat) (x : Option Cmd) (s : State) : Frame 0x40000300004 s (issueRow n c p x s) := by
  unfold issueRow
  try dsimp only
  repeat' (first
    | with_reducible apply Frame.refl
    | apply Eq.refl true
    | (with_reducible apply Frame.seq; with_reducible case k => first | apply fr_doAct | apply fr_doRef | apply fr_doPre)
    | with_reducible apply Frame.ite
    | (intro _ _; try dsimp only)
    | split)

theorem fr_issueCol (n c p : Nat) (x : Option Cmd) (errs : ErrPat) (parityError : Bool) (s : State) : Frame 0x18000C1801173804 s (issueCol n c p x errs parityError s) := by
  unfold issueCol
  try dsimp only
  repeat' (first
    | with_reducible apply Frame.refl
    | apply Eq.refl true
    | (with_reducible apply Frame.seq; with_reducible case k => first | apply fr_doCol | apply fr_doProbe)
    | with_reducible apply Frame.ite
    | (intro _ _; try dsimp only)
    | split)

theorem fr_wake (n c p : Nat) (s : State) : Frame 0x1000000900000 s (wake n c p s) := by
  unfold wake
  try dsimp only
  repeat' (first
    | with_reducible apply Frame.refl
    | apply Eq.refl true
    | (with_reducible apply Frame.seq; with_reducible case k => first | apply fr_setPc)
    | with_reducible apply Frame.ite
    | (intro _ _; try dsimp only)
    | split
    | with_reducible apply Frame.set_lanes
    | with_reducible apply Frame.set_recalNext
    | ((with_reducible apply Frame.parts (by with_reducible rfl) (by with_reducible rfl)) <;> first | (apply Or.inl; apply Eq.refl true; done) | (apply Or.inr; with_reducible apply Eq.refl; done) | skip))

theorem fr_wakeHive (n : Nat) (s : State) : Frame 0x1000000900000 s (wakeHive n s) := by
  unfold wakeHive
  try dsimp only
  repeat' (first
    | with_reducible apply Frame.refl
    | apply Eq.refl true
    | (with_reducible apply Frame.seq; with_reducible case k => first | apply fr_wake)
    | with_reducible apply Frame.ite
    | with_reducible apply Frame.foldl
    | with_reducible apply Frame.foldl_fst
    | (intro _ _; try dsimp only)
    | split)

theorem fr_sleepAgain (n c p : Nat) (s : State) : Frame 0x100000 s (sleepAgain n c p s) := by
  unfold sleepAgain
  try dsimp only
  repeat' (first
    | with_reducible apply Frame.refl
    | apply Eq.refl true
    | (with_reducible apply Frame.seq; with_reducible case k => first | apply fr_setPc)
    | with_reducible apply Frame.ite
    | (intro _ _; try dsimp only)
    | split)

theorem fr_pseudoChannelWake (n c p : Nat) (s : State) : Frame 0x1000000900000 s (pseudoChannelWake n c p s) := by
  unfold pseudoChannelWake
  try dsimp only
  repeat' (first
    | with_reducible apply Frame.refl
    | apply Eq.refl true
    | (with_reducible apply Frame.seq; with_reducible case k => first | apply fr_wake)
    | with_reducible apply Frame.ite
    | (intro _ _; try dsimp only)
    | split)

theorem fr_quiesce (extra n : Nat) (chs : List Nat) (s : State) : Frame 0x1000000900000 s (quiesce extra n chs s) := by
  unfold quiesce
  try dsimp only
  repeat' (first
    | with_reducible apply Frame.refl
    | apply Eq.refl true
    | (with_reducible apply Frame.seq; with_reducible case k => first | apply fr_setPc | apply fr_wake)
    | with_reducible apply Frame.ite
    | with_reducible apply Frame.foldl
    | with_reducible apply Frame.foldl_fst
    | (intro _ _; try dsimp only)
    | split)

theorem fr_chcCommitApply (n : Nat) (s : State) : Frame 0x14 s (chcCommitApply n s) := by
  unfold chcCommitApply
  try dsimp only
  repeat' (first
    | with_reducible apply Frame.refl
    | apply Eq.refl true
    | (with_reducible apply Frame.seq; with_reducible case k => first | apply fr_put | apply fr_commitRange)
    | with_reducible apply Frame.ite
    | (intro _ _; try dsimp only)
    | split)

theorem fr_resumeHive (n : Nat) (s : State) : Frame 0x100014 s (resumeHive n s) := by
  unfold resumeHive
  try dsimp only
  repeat' (first
    | with_reducible apply Frame.refl
    | apply Eq.refl true
    | (with_reducible apply Frame.seq; with_reducible case k => first | apply fr_chcCommitApply | apply fr_putAll)
    | with_reducible apply Frame.ite
    | (intro _ _; try dsimp only)
    | split
    | with_reducible apply Frame.set_pcs)

theorem fr_issueActive (n c p : Nat) (errs : ErrPat) (parityError : Bool) (s : State) : Frame 0x18000C1801373804 s (issueActive n c p errs parityError s) := by
  unfold issueActive
  try dsimp only
  repeat' (first
    | with_reducible apply Frame.refl
    | apply Eq.refl true
    | (with_reducible apply Frame.seq; with_reducible case k => first | apply fr_beginCclk | apply fr_issueRow | apply fr_chargeShare | apply fr_sleepAgain | apply fr_issueCol)
    | with_reducible apply Frame.ite
    | (intro _ _; try dsimp only)
    | split)

theorem fr_commandIssue (n c p : Nat) (errs : ErrPat) (parityError : Bool) (s : State) : Frame 0x18010C1801B73814 s (commandIssue n c p errs parityError s) := by
  unfold commandIssue
  try dsimp only
  repeat' (first
    | with_reducible apply Frame.refl
    | apply Eq.refl true
    | (with_reducible apply Frame.seq; with_reducible case k => first | apply fr_emit | apply fr_setPc | apply fr_resumeHive | apply fr_issueActive | apply fr_wake)
    | with_reducible apply Frame.ite
    | (intro _ _; try dsimp only)
    | split)

theorem fr_refreshInterval (n c p : Nat) (s : State) : Frame 0x1000000900000 s (refreshInterval n c p s) := by
  unfold refreshInterval
  try dsimp only
  repeat' (first
    | with_reducible apply Frame.refl
    | apply Eq.refl true
    | (with_reducible apply Frame.seq; with_reducible case k => first | apply fr_setPc | apply fr_wake)
    | with_reducible apply Frame.ite
    | (intro _ _; try dsimp only)
    | split)

theorem fr_neighbourMandatory (n c p : Nat) (s : State) : Frame 0x100000 s (neighbourMandatory n c p s) := by
  unfold neighbourMandatory
  try dsimp only
  repeat' (first
    | with_reducible apply Frame.refl
    | apply Eq.refl true
    | (with_reducible apply Frame.seq; with_reducible case k => first | apply fr_setPc)
    | with_reducible apply Frame.ite
    | (intro _ _; try dsimp only)
    | split)

theorem fr_rowCloseIdle (n c p bank : Nat) (s : State) : Frame 0x100000 s (rowCloseIdle n c p bank s) := by
  unfold rowCloseIdle
  try dsimp only
  repeat' (first
    | with_reducible apply Frame.refl
    | apply Eq.refl true
    | (with_reducible apply Frame.seq; with_reducible case k => first | apply fr_setPc)
    | with_reducible apply Frame.ite
    | (intro _ _; try dsimp only)
    | split)

theorem fr_powerDownEntry (n c p : Nat) (s : State) : Frame 0x100000 s (powerDownEntry n c p s) := by
  unfold powerDownEntry
  try dsimp only
  repeat' (first
    | with_reducible apply Frame.refl
    | apply Eq.refl true
    | (with_reducible apply Frame.seq; with_reducible case k => first | apply fr_setPc)
    | with_reducible apply Frame.ite
    | (intro _ _; try dsimp only)
    | split)

theorem fr_rowActs (n c p : Nat) (l : List (Nat × Nat × Nat)) (s : State) : Frame 0x40000300004 s (rowActs n c p l s) := by
  unfold rowActs
  try dsimp only
  repeat' (first
    | with_reducible apply Frame.refl
    | apply Eq.refl true
    | (with_reducible apply Frame.seq; with_reducible case k => first | apply fr_emit | apply fr_setPc | apply fr_stepChannelLfsr)
    | with_reducible apply Frame.ite
    | with_reducible apply Frame.foldl
    | with_reducible apply Frame.foldl_fst
    | (intro _ _; try dsimp only)
    | split)

theorem fr_selfRefreshEntry (n c p : Nat) (s : State) : Frame 0x40000300004 s (selfRefreshEntry n c p s) := by
  unfold selfRefreshEntry
  try dsimp only
  repeat' (first
    | with_reducible apply Frame.refl
    | apply Eq.refl true
    | (with_reducible apply Frame.seq; with_reducible case k => first | apply fr_setPc | apply fr_rowActs)
    | with_reducible apply Frame.ite
    | (intro _ _; try dsimp only)
    | split)

theorem fr_cacheParity (n c p i : Nat) (s : State) : Frame 0x100005E800380004 s (cacheParity n c p i s) := by
  unfold cacheParity
  try dsimp only
  repeat' (first
    | with_reducible apply Frame.refl
    | apply Eq.refl true
    | (with_reducible apply Frame.seq; with_reducible case k => first | apply fr_setPc | apply fr_bump | apply fr_postEvent | apply fr_rowActs)
    | with_reducible apply Frame.ite
    | (intro _ _; try dsimp only)
    | split)

end Sys2Proof.Machine
end

