-- ==== Sys2Proof/Laws/FrameHives.lean ====
section
/-! SUPPORT. What each operation of Hives.lean may change. -/

namespace Sys2Proof.Machine

open Reg

theorem fr_setHive (n : Nat) (h : Hive) (s : State) : Frame 0x1000000 s (setHive n h s) := by
  unfold setHive
  try dsimp only
  repeat' (first
    | with_reducible apply Frame.refl
    | apply Eq.refl true
    | with_reducible apply Frame.ite
    | (intro _ _; try dsimp only)
    | split
    | with_reducible apply Frame.set_hives)

theorem fr_setGate (n : Nat) (g : Gate) (s : State) : Frame 0x10000 s (setGate n g s) := by
  unfold setGate
  try dsimp only
  repeat' (first
    | with_reducible apply Frame.refl
    | apply Eq.refl true
    | with_reducible apply Frame.ite
    | (intro _ _; try dsimp only)
    | split
    | with_reducible apply Frame.set_gates)

theorem fr_writeColBeat (n c scl col beat : Nat) (d : List Byte) (s : State) : Frame 0x1000000 s (writeColBeat n c scl col beat d s) := by
  unfold writeColBeat
  try dsimp only
  repeat' (first
    | with_reducible apply Frame.refl
    | apply Eq.refl true
    | (with_reducible apply Frame.seq; with_reducible case k => first | apply fr_setHive)
    | with_reducible apply Frame.ite
    | (intro _ _; try dsimp only)
    | split)

theorem fr_showCells (n : Nat) (s : State) : Frame 0x4 s (showCells n s) := by
  unfold showCells
  try dsimp only
  repeat' (first
    | with_reducible apply Frame.refl
    | apply Eq.refl true
    | (with_reducible apply Frame.seq; with_reducible case k => first | apply fr_put)
    | with_reducible apply Frame.ite
    | with_reducible apply Frame.foldl
    | with_reducible apply Frame.foldl_fst
    | (intro _ _; try dsimp only)
    | split)

theorem fr_cellEvent (n c kind : Nat) (s : State) : Frame 0x100001E800080004 s (cellEvent n c kind s) := by
  unfold cellEvent
  try dsimp only
  repeat' (first
    | with_reducible apply Frame.refl
    | apply Eq.refl true
    | (with_reducible apply Frame.seq; with_reducible case k => first | apply fr_postEvent)
    | with_reducible apply Frame.ite
    | (intro _ _; try dsimp only)
    | split)

theorem fr_failCell (n c : Nat) (s : State) : Frame 0x100001E800080004 s (failCell n c s) := by
  unfold failCell
  try dsimp only
  repeat' (first
    | with_reducible apply Frame.refl
    | apply Eq.refl true
    | (with_reducible apply Frame.seq; with_reducible case k => first | apply fr_put | apply fr_showCells | apply fr_cellEvent)
    | with_reducible apply Frame.ite
    | (intro _ _; try dsimp only)
    | split)

theorem fr_standIn (n c : Nat) (s : State) : Frame 0x100001E800080004 s (standIn n c s) := by
  unfold standIn
  try dsimp only
  repeat' (first
    | with_reducible apply Frame.refl
    | apply Eq.refl true
    | (with_reducible apply Frame.seq; with_reducible case k => first | apply fr_putAll | apply fr_showCells | apply fr_cellEvent)
    | with_reducible apply Frame.ite
    | (intro _ _; try dsimp only)
    | split)

theorem fr_dropUnderstudy (n : Nat) (s : State) : Frame 0x100001E800080004 s (dropUnderstudy n s) := by
  unfold dropUnderstudy
  try dsimp only
  repeat' (first
    | with_reducible apply Frame.refl
    | apply Eq.refl true
    | (with_reducible apply Frame.seq; with_reducible case k => first | apply fr_put | apply fr_failCell | apply fr_showCells)
    | with_reducible apply Frame.ite
    | (intro _ _; try dsimp only)
    | split)

theorem fr_replaceCell (n c : Nat) (s : State) : Frame 0x100001E800080004 s (replaceCell n c s) := by
  unfold replaceCell
  try dsimp only
  repeat' (first
    | with_reducible apply Frame.refl
    | apply Eq.refl true
    | (with_reducible apply Frame.seq; with_reducible case k => first | apply fr_dropUnderstudy | apply fr_standIn | apply fr_failCell)
    | with_reducible apply Frame.ite
    | (intro _ _; try dsimp only)
    | split)

theorem fr_performBeats (n : Nat) (r : Req) (bs : List PBeat) (s : State) : Frame 0x1000000 s (performBeats n r bs s) := by
  unfold performBeats
  try dsimp only
  repeat' (first
    | with_reducible apply Frame.refl
    | apply Eq.refl true
    | (with_reducible apply Frame.seq; with_reducible case k => first | apply fr_writeColBeat)
    | with_reducible apply Frame.ite
    | with_reducible apply Frame.foldl
    | with_reducible apply Frame.foldl_fst
    | (intro _ _; try dsimp only)
    | split)

theorem fr_failPush (uid : Nat) (s : State) : Frame 0x1000083001072000 s (failPush uid s) := by
  unfold failPush
  try dsimp only
  repeat' (first
    | with_reducible apply Frame.refl
    | apply Eq.refl true
    | (with_reducible apply Frame.seq; with_reducible case k => first | apply fr_ackWrite)
    | with_reducible apply Frame.ite
    | with_reducible apply Frame.foldl
    | with_reducible apply Frame.foldl_fst
    | (intro _ _; try dsimp only)
    | split
    | with_reducible apply Frame.set_live
    | with_reducible apply Frame.set_hives
    | with_reducible apply Frame.set_held
    | ((with_reducible apply Frame.parts (by with_reducible rfl) (by with_reducible rfl)) <;> first | (apply Or.inl; apply Eq.refl true; done) | (apply Or.inr; with_reducible apply Eq.refl; done) | skip))

theorem fr_tryPush (n : Nat) (a : Part) (s : State) : Frame 0x1000083001072000 s (tryPush n a s) := by
  unfold tryPush
  try dsimp only
  repeat' (first
    | with_reducible apply Frame.refl
    | apply Eq.refl true
    | (with_reducible apply Frame.seq; with_reducible case k => first | apply fr_ackWrite | apply fr_setHive | apply fr_performBeats)
    | with_reducible apply Frame.ite
    | (intro _ _; try dsimp only)
    | split
    | with_reducible apply Frame.set_held)

theorem fr_releaseHeld (n : Nat) (s : State) : Frame 0x1000083001072000 s (releaseHeld n s) := by
  unfold releaseHeld
  try dsimp only
  repeat' (first
    | with_reducible apply Frame.refl
    | apply Eq.refl true
    | (with_reducible apply Frame.seq; with_reducible case k => first | apply fr_tryPush | apply fr_setHive)
    | with_reducible apply Frame.ite
    | with_reducible apply Frame.foldl
    | with_reducible apply Frame.foldl_fst
    | (intro _ _; try dsimp only)
    | split
    | with_reducible apply Frame.set_held)

theorem fr_startTests (n : Nat) (s : State) : Frame 0x4 s (startTests n s) := by
  unfold startTests
  try dsimp only
  repeat' (first
    | with_reducible apply Frame.refl
    | apply Eq.refl true
    | (with_reducible apply Frame.seq; with_reducible case k => first | apply fr_put | apply fr_showCells)
    | with_reducible apply Frame.ite
    | with_reducible apply Frame.foldl
    | with_reducible apply Frame.foldl_fst
    | (intro _ _; try dsimp only)
    | split)

theorem fr_endTakeovers (n : Nat) (s : State) : Frame 0x100001E801080004 s (endTakeovers n s) := by
  unfold endTakeovers
  try dsimp only
  repeat' (first
    | with_reducible apply Frame.refl
    | apply Eq.refl true
    | (with_reducible apply Frame.seq; with_reducible case k => first | apply fr_setHive | apply fr_replaceCell)
    | with_reducible apply Frame.ite
    | with_reducible apply Frame.foldl
    | with_reducible apply Frame.foldl_fst
    | (intro _ _; try dsimp only)
    | split)

theorem fr_retireCell (n c : Nat) (s : State) : Frame 0x100001E800080004 s (retireCell n c s) := by
  unfold retireCell
  try dsimp only
  repeat' (first
    | with_reducible apply Frame.refl
    | apply Eq.refl true
    | (with_reducible apply Frame.seq; with_reducible case k => first | apply fr_dropUnderstudy | apply fr_cellEvent | apply fr_bump | apply fr_standIn | apply fr_replaceCell)
    | with_reducible apply Frame.ite
    | (intro _ _; try dsimp only)
    | split)

theorem fr_applyRetire (n : Nat) (s : State) : Frame 0x100001E800080004 s (applyRetire n s) := by
  unfold applyRetire
  try dsimp only
  repeat' (first
    | with_reducible apply Frame.refl
    | apply Eq.refl true
    | (with_reducible apply Frame.seq; with_reducible case k => first | apply fr_retireCell)
    | with_reducible apply Frame.ite
    | with_reducible apply Frame.foldl
    | with_reducible apply Frame.foldl_fst
    | (intro _ _; try dsimp only)
    | split)

theorem fr_boundary (n : Nat) (s : State) : Frame 0x100009F8010F2004 s (boundary n s) := by
  unfold boundary
  try dsimp only
  repeat' (first
    | with_reducible apply Frame.refl
    | apply Eq.refl true
    | (with_reducible apply Frame.seq; with_reducible case k => first | apply fr_endTakeovers | apply fr_startTests | apply fr_applyRetire | apply fr_releaseHeld)
    | with_reducible apply Frame.ite
    | (intro _ _; try dsimp only)
    | split)

end Sys2Proof.Machine
end

