-- ==== Sys2Proof/Laws/FrameJobOps.lean ====
section
/-! SUPPORT. What each operation of JobOps.lean may change. -/

namespace Sys2Proof.Machine

open Reg

theorem fr_showCue (n : Nat) (s : State) : Frame 0x4 s (showCue n s) := by
  unfold showCue
  try dsimp only
  repeat' (first
    | with_reducible apply Frame.refl
    | apply Eq.refl true
    | (with_reducible apply Frame.seq; with_reducible case k => first | apply fr_put)
    | with_reducible apply Frame.ite
    | (intro _ _; try dsimp only)
    | split)

theorem fr_sampleJob (j n status : Nat) (s : State) : Frame 0x80000000000 s (sampleJob j n status s) := by
  unfold sampleJob
  try dsimp only
  repeat' (first
    | with_reducible apply Frame.refl
    | apply Eq.refl true
    | with_reducible apply Frame.ite
    | (intro _ _; try dsimp only)
    | split
    | with_reducible apply Frame.set_samplers)

theorem fr_clearStreams (n : Nat) (s : State) : Frame 0x100000 s (clearStreams n s) := by
  unfold clearStreams
  try dsimp only
  repeat' (first
    | with_reducible apply Frame.refl
    | apply Eq.refl true
    | with_reducible apply Frame.ite
    | (intro _ _; try dsimp only)
    | split
    | with_reducible apply Frame.set_pcs)

theorem fr_unplace (j n : Nat) (s : State) : Frame 0x100009F8011F2004 s (unplace j n s) := by
  unfold unplace
  try dsimp only
  repeat' (first
    | with_reducible apply Frame.refl
    | apply Eq.refl true
    | (with_reducible apply Frame.seq; with_reducible case k => first | apply fr_setHive | apply fr_showCue | apply fr_put | apply fr_sampleJob | apply fr_clearStreams | apply fr_boundary)
    | with_reducible apply Frame.ite
    | (intro _ _; try dsimp only)
    | split)

theorem fr_stopUnits (j : Nat) (s : State) : Frame 0x100009F8091F2004 s (stopUnits j s) := by
  unfold stopUnits
  try dsimp only
  repeat' (first
    | with_reducible apply Frame.refl
    | apply Eq.refl true
    | (with_reducible apply Frame.seq; with_reducible case k => first | apply fr_unplace | apply fr_setJob)
    | with_reducible apply Frame.ite
    | with_reducible apply Frame.foldl
    | with_reducible apply Frame.foldl_fst
    | (intro _ _; try dsimp only)
    | split
    | with_reducible apply Frame.set_ports
    | with_reducible apply Frame.set_host
    | ((with_reducible apply Frame.parts (by with_reducible rfl) (by with_reducible rfl)) <;> first | (apply Or.inl; apply Eq.refl true; done) | (apply Or.inr; with_reducible apply Eq.refl; done) | skip))

theorem fr_askUnit (m cls dom ctx : Nat) (u : UnitAcc) (op : Op) (a n byteEn : Nat) (d : List Byte) (s : State) : Frame 0x2400 s (askUnit m cls dom ctx u op a n byteEn d s) := by
  unfold askUnit
  try dsimp only
  repeat' (first
    | with_reducible apply Frame.refl
    | apply Eq.refl true
    | (with_reducible apply Frame.seq; with_reducible case k => first | apply fr_setPort)
    | with_reducible apply Frame.ite
    | (intro _ _; try dsimp only)
    | split
    | with_reducible apply Frame.set_nextUid)

theorem fr_fwEnter (s : State) (x : FwAcc) : Frame 0x2400 s (fwEnter s x) := by
  unfold fwEnter
  try dsimp only
  repeat' (first
    | with_reducible apply Frame.refl
    | apply Eq.refl true
    | (with_reducible apply Frame.seq; with_reducible case k => first | apply fr_askUnit)
    | with_reducible apply Frame.ite
    | with_reducible apply Frame.foldl
    | with_reducible apply Frame.foldl_fst
    | (intro _ _; try dsimp only)
    | split)

theorem fr_fwAccesses (s : State) : Frame 0x82400 s (fwAccesses s) := by
  unfold fwAccesses
  try dsimp only
  repeat' (first
    | with_reducible apply Frame.refl
    | apply Eq.refl true
    | (with_reducible apply Frame.seq; with_reducible case k => first | apply fr_fwEnter)
    | with_reducible apply Frame.ite
    | with_reducible apply Frame.foldl
    | with_reducible apply Frame.foldl_fst
    | (intro _ _; try dsimp only)
    | split
    | with_reducible apply Frame.set_fwAccs)

theorem fr_tableWrite (x : Nat) (s : State) : Frame 0x80000 s (tableWrite x s) := by
  unfold tableWrite
  try dsimp only
  repeat' (first
    | with_reducible apply Frame.refl
    | apply Eq.refl true
    | (with_reducible apply Frame.seq; with_reducible case k => first | apply fr_fwWrite)
    | with_reducible apply Frame.ite
    | (intro _ _; try dsimp only)
    | split)

theorem fr_askJob (j : Nat) (v : Job) (dest : AccFor) (opcode low hops : Nat) (op : Op) (a n byteEn : Nat) (d : List Byte) (s : State) : Frame 0x8002400 s (askJob j v dest opcode low hops op a n byteEn d s) := by
  unfold askJob
  try dsimp only
  repeat' (first
    | with_reducible apply Frame.refl
    | apply Eq.refl true
    | (with_reducible apply Frame.seq; with_reducible case k => first | apply fr_askUnit | apply fr_setJob)
    | with_reducible apply Frame.ite
    | (intro _ _; try dsimp only)
    | split)

theorem fr_haltCtx (x index status : Nat) (s : State) : Frame 0x2000000 s (haltCtx x index status s) := by
  unfold haltCtx
  try dsimp only
  repeat' (first
    | with_reducible apply Frame.refl
    | apply Eq.refl true
    | (with_reducible apply Frame.seq; with_reducible case k => first | apply fr_setCtx)
    | with_reducible apply Frame.ite
    | (intro _ _; try dsimp only)
    | split)

theorem fr_failJob (j status info : Nat) (s : State) : Frame 0x100009F80B1F2004 s (failJob j status info s) := by
  unfold failJob
  try dsimp only
  repeat' (first
    | with_reducible apply Frame.refl
    | apply Eq.refl true
    | (with_reducible apply Frame.seq; with_reducible case k => first | apply fr_haltCtx | apply fr_setJob | apply fr_stopUnits)
    | with_reducible apply Frame.ite
    | (intro _ _; try dsimp only)
    | split)

theorem fr_meetParity (p : Parity) (j : Nat) (s : State) : Frame 0x100009F80B1F2004 s (meetParity p j s) := by
  unfold meetParity
  try dsimp only
  repeat' (first
    | with_reducible apply Frame.refl
    | apply Eq.refl true
    | (with_reducible apply Frame.seq; with_reducible case k => first | apply fr_failJob)
    | with_reducible apply Frame.ite
    | (intro _ _; try dsimp only)
    | split)

theorem fr_parityAtWork (p : Parity) (j : Nat) (s : State) : Frame 0x100009F80B1F2004 s (parityAtWork p j s) := by
  unfold parityAtWork
  try dsimp only
  repeat' (first
    | with_reducible apply Frame.refl
    | apply Eq.refl true
    | (with_reducible apply Frame.seq; with_reducible case k => first | apply fr_meetParity)
    | with_reducible apply Frame.ite
    | (intro _ _; try dsimp only)
    | split)

theorem fr_failOnHive (n status : Nat) (info : State → Job → Nat) (s : State) : Frame 0x100009F80B1F2004 s (failOnHive n status info s) :=
  Frame.foldl (fun _ _ => Frame.mono (fr_failJob ..) rfl) .refl

end Sys2Proof.Machine
end

