-- ==== Sys2Proof/Laws/FramePower.lean ====
section
/-! SUPPORT. What each operation of Power.lean may change. -/

namespace Sys2Proof.Machine

open Reg

theorem fr_thmEvent (f : Fld) (s : State) : Frame 0x1000000800000004 s (thmEvent f s) := by
  unfold thmEvent
  try dsimp only
  repeat' (first
    | with_reducible apply Frame.refl
    | apply Eq.refl true
    | (with_reducible apply Frame.seq; with_reducible case k => first | apply fr_raiseInt | apply fr_put)
    | with_reducible apply Frame.ite
    | (intro _ _; try dsimp only)
    | split)

theorem fr_domainErr (d kind : Nat) (s : State) : Frame 0x4 s (domainErr d kind s) := by
  unfold domainErr
  try dsimp only
  repeat' (first
    | with_reducible apply Frame.refl
    | apply Eq.refl true
    | (with_reducible apply Frame.seq; with_reducible case k => first | apply fr_put | apply fr_putAll)
    | with_reducible apply Frame.ite
    | (intro _ _; try dsimp only)
    | split)

theorem fr_setPower (p : Power) (s : State) : Frame 0x200000000000 s (setPower p s) := by
  unfold setPower
  try dsimp only
  repeat' (first
    | with_reducible apply Frame.refl
    | apply Eq.refl true
    | with_reducible apply Frame.ite
    | (intro _ _; try dsimp only)
    | split
    | with_reducible apply Frame.set_power)

theorem fr_requestOn (d : Nat) (s : State) : Frame 0x1000200800000004 s (requestOn d s) := by
  unfold requestOn
  try dsimp only
  repeat' (first
    | with_reducible apply Frame.refl
    | apply Eq.refl true
    | (with_reducible apply Frame.seq; with_reducible case k => first | apply fr_setPower | apply fr_thmEvent | apply fr_domainErr)
    | with_reducible apply Frame.ite
    | (intro _ _; try dsimp only)
    | split)

theorem fr_cellsOn (n : Nat) (s : State) : Frame 0x1000001900004 s (cellsOn n s) := by
  unfold cellsOn
  try dsimp only
  repeat' (first
    | with_reducible apply Frame.refl
    | apply Eq.refl true
    | (with_reducible apply Frame.seq; with_reducible case k => first | apply fr_setHive | apply fr_put | apply fr_showCells | apply fr_wake)
    | with_reducible apply Frame.ite
    | with_reducible apply Frame.foldl
    | with_reducible apply Frame.foldl_fst
    | (intro _ _; try dsimp only)
    | split)

theorem fr_cellsOff (n : Nat) (s : State) : Frame 0x1000001900004 s (cellsOff n s) := by
  unfold cellsOff
  try dsimp only
  repeat' (first
    | with_reducible apply Frame.refl
    | apply Eq.refl true
    | (with_reducible apply Frame.seq; with_reducible case k => first | apply fr_wake | apply fr_setHive | apply fr_showCells)
    | with_reducible apply Frame.ite
    | (intro _ _; try dsimp only)
    | split)

theorem fr_poisonPart (sent : Bool) (rmw : List Nat) (a : Part) (s : State) : Frame 0x1800083001072000 s (poisonPart sent rmw a s) := by
  unfold poisonPart
  try dsimp only
  repeat' (first
    | with_reducible apply Frame.refl
    | apply Eq.refl true
    | (with_reducible apply Frame.seq; with_reducible case k => first | apply fr_ackWrite | apply fr_deliver | apply fr_failPush)
    | with_reducible apply Frame.ite
    | with_reducible apply Frame.foldl
    | with_reducible apply Frame.foldl_fst
    | (intro _ _; try dsimp only)
    | split)

theorem fr_poisonHive (n : Nat) (s : State) : Frame 0x1800083001172000 s (poisonHive n s) := by
  unfold poisonHive
  try dsimp only
  repeat' (first
    | with_reducible apply Frame.refl
    | apply Eq.refl true
    | (with_reducible apply Frame.seq; with_reducible case k => first | apply fr_poisonPart)
    | with_reducible apply Frame.ite
    | with_reducible apply Frame.foldl
    | with_reducible apply Frame.foldl_fst
    | (intro _ _; try dsimp only)
    | split
    | with_reducible apply Frame.set_gates
    | with_reducible apply Frame.set_pcs
    | with_reducible apply Frame.set_hives
    | with_reducible apply Frame.set_held
    | ((with_reducible apply Frame.parts (by with_reducible rfl) (by with_reducible rfl)) <;> first | (apply Or.inl; apply Eq.refl true; done) | (apply Or.inr; with_reducible apply Eq.refl; done) | skip))

theorem fr_isolate (d : Nat) (s : State) : Frame 0x1801083001972004 s (isolate d s) := by
  unfold isolate
  try dsimp only
  repeat' (first
    | with_reducible apply Frame.refl
    | apply Eq.refl true
    | (with_reducible apply Frame.seq; with_reducible case k => first | apply fr_poisonHive | apply fr_put | apply fr_cellsOff)
    | with_reducible apply Frame.ite
    | (intro _ _; try dsimp only)
    | split)

theorem fr_requestOff (d : Nat) (s : State) : Frame 0x1801283001972004 s (requestOff d s) := by
  unfold requestOff
  try dsimp only
  repeat' (first
    | with_reducible apply Frame.refl
    | apply Eq.refl true
    | (with_reducible apply Frame.seq; with_reducible case k => first | apply fr_setPower | apply fr_isolate)
    | with_reducible apply Frame.ite
    | (intro _ _; try dsimp only)
    | split)

theorem fr_hiveOff (n : Nat) (s : State) : Frame 0x1801283001972004 s (hiveOff n s) := by
  unfold hiveOff
  try dsimp only
  repeat' (first
    | with_reducible apply Frame.refl
    | apply Eq.refl true
    | (with_reducible apply Frame.seq; with_reducible case k => first | apply fr_isolate | apply fr_requestOff | apply fr_setPower)
    | with_reducible apply Frame.ite
    | (intro _ _; try dsimp only)
    | split)

theorem fr_startShutdown (thermal fab : Bool) (s : State) : Frame 0x100029F8091F2004 s (startShutdown thermal fab s) := by
  unfold startShutdown
  try dsimp only
  repeat' (first
    | with_reducible apply Frame.refl
    | apply Eq.refl true
    | (with_reducible apply Frame.seq; with_reducible case k => first | apply fr_setPower | apply fr_postEvent | apply fr_stopUnits | apply fr_putAll)
    | with_reducible apply Frame.ite
    | with_reducible apply Frame.foldl
    | with_reducible apply Frame.foldl_fst
    | (intro _ _; try dsimp only)
    | split
    | with_reducible apply Frame.set_ports
    | with_reducible apply Frame.set_gates
    | with_reducible apply Frame.set_live
    | ((with_reducible apply Frame.parts (by with_reducible rfl) (by with_reducible rfl)) <;> first | (apply Or.inl; apply Eq.refl true; done) | (apply Or.inr; with_reducible apply Eq.refl; done) | skip))

theorem fr_runDomains (l : List Nat) (s : State) : Frame 0x1000200800000004 s (runDomains l s) := by
  induction l generalizing s with
  | nil => exact Frame.mono (fr_setPower ..) rfl
  | cons d ds ih =>
    unfold runDomains
    dsimp only
    split
    · exact Frame.seq (Frame.mono (fr_requestOn ..) rfl) (fr_setPower ..) rfl
    · exact Frame.seq (Frame.mono (fr_requestOn ..) rfl) (ih _) rfl

theorem fr_nextDomain (s : State) : Frame 0x1000200800000004 s (nextDomain s) := by
  unfold nextDomain
  try dsimp only
  repeat' (first
    | with_reducible apply Frame.refl
    | apply Eq.refl true
    | (with_reducible apply Frame.seq; with_reducible case k => first | apply fr_runDomains)
    | with_reducible apply Frame.ite
    | (intro _ _; try dsimp only)
    | split)

theorem fr_domainSequence (s : State) : Frame 0x1000200800000004 s (domainSequence s) := by
  unfold domainSequence
  try dsimp only
  repeat' (first
    | with_reducible apply Frame.refl
    | apply Eq.refl true
    | (with_reducible apply Frame.seq; with_reducible case k => first | apply fr_setPower | apply fr_runDomains)
    | with_reducible apply Frame.ite
    | (intro _ _; try dsimp only)
    | split)

theorem fr_releaseDomain (d : Nat) (s : State) : Frame 0x1000001900004 s (releaseDomain d s) := by
  unfold releaseDomain
  try dsimp only
  repeat' (first
    | with_reducible apply Frame.refl
    | apply Eq.refl true
    | (with_reducible apply Frame.seq; with_reducible case k => first | apply fr_put | apply fr_cellsOn)
    | with_reducible apply Frame.ite
    | (intro _ _; try dsimp only)
    | split)

theorem fr_acked (d : Nat) (s : State) : Frame 0x1801283001972004 s (acked d s) := by
  unfold acked
  try dsimp only
  repeat' (first
    | with_reducible apply Frame.refl
    | apply Eq.refl true
    | (with_reducible apply Frame.seq; with_reducible case k => first | apply fr_releaseDomain | apply fr_setPower | apply fr_requestOff)
    | with_reducible apply Frame.ite
    | (intro _ _; try dsimp only)
    | split)

theorem fr_ackRise (d : Nat) (s t : State) (h : ackRise d s = .next t) : Frame 0x1801283801972004 s t := by
  unfold ackRise at h
  dsimp only at h
  split at h
  · cases h; exact .refl
  · split at h
    · cases h
    · split at h
      · cases h; exact Frame.seq (Frame.mono (fr_setPower ..) rfl) (fr_acked ..) rfl
      · cases h
        exact Frame.seq (Frame.seq (Frame.mono (fr_setPower ..) rfl) (fr_acked ..) rfl) (fr_nextDomain ..) rfl

theorem fr_lostInStart (n : Nat) (s : State) : Frame 0x100001E800080004 s (lostInStart n s) := by
  unfold lostInStart
  try dsimp only
  repeat' (first
    | with_reducible apply Frame.refl
    | apply Eq.refl true
    | (with_reducible apply Frame.seq; with_reducible case k => first | apply fr_putAll | apply fr_postEvent)
    | with_reducible apply Frame.ite
    | (intro _ _; try dsimp only)
    | split)

theorem fr_lossEffect (d : Nat) (s : State) : Frame 0x180129F80B9F2004 s (lossEffect d s) := by
  unfold lossEffect
  try dsimp only
  repeat' (first
    | with_reducible apply Frame.refl
    | apply Eq.refl true
    | (with_reducible apply Frame.seq; with_reducible case k => first | apply fr_lostInStart | apply fr_setPower | apply fr_startShutdown | apply fr_requestOff | apply fr_failOnHive | apply fr_isolate)
    | with_reducible apply Frame.ite
    | (intro _ _; try dsimp only)
    | split)

theorem fr_domainLost (d : Nat) (s : State) : Frame 0x180129F80B9F2004 s (domainLost d s) := by
  unfold domainLost
  try dsimp only
  repeat' (first
    | with_reducible apply Frame.refl
    | apply Eq.refl true
    | (with_reducible apply Frame.seq; with_reducible case k => first | apply fr_setPower | apply fr_postEvent | apply fr_lossEffect | apply fr_thmEvent | apply fr_domainErr)
    | with_reducible apply Frame.ite
    | (intro _ _; try dsimp only)
    | split)

theorem fr_ackFall (d : Nat) (s : State) : Frame 0x180129F80B9F2004 s (ackFall d s) := by
  unfold ackFall
  try dsimp only
  repeat' (first
    | with_reducible apply Frame.refl
    | apply Eq.refl true
    | (with_reducible apply Frame.seq; with_reducible case k => first | apply fr_requestOn | apply fr_setPower | apply fr_requestOff | apply fr_domainLost)
    | with_reducible apply Frame.ite
    | (intro _ _; try dsimp only)
    | split)

theorem fr_ackTimeout (d : Nat) (s : State) : Frame 0x180129F80B9F2004 s (ackTimeout d s) := by
  unfold ackTimeout
  try dsimp only
  repeat' (first
    | with_reducible apply Frame.refl
    | apply Eq.refl true
    | (with_reducible apply Frame.seq; with_reducible case k => first | apply fr_poisonPart | apply fr_setHive | apply fr_setPower | apply fr_nextDomain | apply fr_requestOff | apply fr_failOnHive | apply fr_isolate | apply fr_domainErr)
    | with_reducible apply Frame.ite
    | with_reducible apply Frame.foldl
    | with_reducible apply Frame.foldl_fst
    | (intro _ _; try dsimp only)
    | split
    | with_reducible apply Frame.set_held)

theorem fr_needCells (n : Nat) (s : State) : Frame 0x1000200800000004 s (needCells n s).1 := by
  unfold needCells
  try dsimp only
  repeat' (first
    | with_reducible apply Frame.refl
    | apply Eq.refl true
    | (with_reducible apply Frame.seq; with_reducible case k => first | apply fr_requestOn)
    | with_reducible apply Frame.ite
    | (intro _ _; try dsimp only)
    | split)

theorem fr_idlePowerDown (n : Nat) (s : State) : Frame 0x1801283001972004 s (idlePowerDown n s) := by
  unfold idlePowerDown
  try dsimp only
  repeat' (first
    | with_reducible apply Frame.refl
    | apply Eq.refl true
    | (with_reducible apply Frame.seq; with_reducible case k => first | apply fr_requestOff)
    | with_reducible apply Frame.ite
    | (intro _ _; try dsimp only)
    | split)

end Sys2Proof.Machine
end

