-- ==== Sys2Proof/Laws/FrameStreams.lean ====
section
/-! SUPPORT. What each operation of Streams.lean may change. -/

namespace Sys2Proof.Machine

open Reg

theorem fr_onCue (n : Nat) (f : Cue → Cue) (s : State) : Frame 0x1000000 s (onCue n f s) := by
  unfold onCue
  try dsimp only
  repeat' (first
    | with_reducible apply Frame.refl
    | apply Eq.refl true
    | (with_reducible apply Frame.seq; with_reducible case k => first | apply fr_setHive)
    | with_reducible apply Frame.ite
    | (intro _ _; try dsimp only)
    | split)

theorem fr_setStream (n : Nat) (f : Stream → Stream) (s : State) : Frame 0x1000000 s (setStream n f s) := by
  unfold setStream
  try dsimp only
  repeat' (first
    | with_reducible apply Frame.refl
    | apply Eq.refl true
    | (with_reducible apply Frame.seq; with_reducible case k => first | apply fr_onCue)
    | with_reducible apply Frame.ite
    | (intro _ _; try dsimp only)
    | split)

theorem fr_streamPoison (n c off : Nat) (s : State) : Frame 0x100009F80B1F2004 s (streamPoison n c off s) := by
  unfold streamPoison
  try dsimp only
  repeat' (first
    | with_reducible apply Frame.refl
    | apply Eq.refl true
    | (with_reducible apply Frame.seq; with_reducible case k => first | apply fr_failJob)
    | with_reducible apply Frame.ite
    | (intro _ _; try dsimp only)
    | split)

theorem fr_queueBlock (n l off run row blk : Nat) (s : State) : Frame 0x1000000900400 s (queueBlock n l off run row blk s) := by
  unfold queueBlock
  try dsimp only
  repeat' (first
    | with_reducible apply Frame.refl
    | apply Eq.refl true
    | (with_reducible apply Frame.seq; with_reducible case k => first | apply fr_setPc | apply fr_wake)
    | with_reducible apply Frame.ite
    | (intro _ _; try dsimp only)
    | split
    | with_reducible apply Frame.set_nextUid)

theorem fr_topUpCell (n l : Nat) (k : Nat) (s : State) : Frame 0x1000001900400 s (topUpCell n l k s) := by
  induction k generalizing s with
  | zero =>
    unfold topUpCell
    try dsimp only
    repeat' (first
      | with_reducible apply Frame.refl
      | apply Eq.refl true
      | (with_reducible apply Frame.seq; with_reducible case k => first | apply fr_onCue | apply fr_queueBlock)
      | with_reducible apply Frame.ite
      | (intro _ _; try dsimp only)
      | split)
  | succ k ih =>
    unfold topUpCell
    try dsimp only
    repeat' (first
      | with_reducible apply Frame.refl
      | apply Eq.refl true
      | (with_reducible apply Frame.seq; with_reducible case k => first | apply ih | apply fr_onCue | apply fr_queueBlock)
      | with_reducible apply Frame.ite
      | (intro _ _; try dsimp only)
      | split)

theorem fr_topUp (n : Nat) (s : State) : Frame 0x1000001900400 s (topUp n s) := by
  unfold topUp
  try dsimp only
  repeat' (first
    | with_reducible apply Frame.refl
    | apply Eq.refl true
    | (with_reducible apply Frame.seq; with_reducible case k => first | apply fr_topUpCell)
    | with_reducible apply Frame.ite
    | with_reducible apply Frame.foldl
    | with_reducible apply Frame.foldl_fst
    | (intro _ _; try dsimp only)
    | split)

theorem fr_passRow (n cells l : Nat) (s : State) : Frame 0x1000000 s (passRow n cells l s) := by
  unfold passRow
  try dsimp only
  repeat' (first
    | with_reducible apply Frame.refl
    | apply Eq.refl true
    | (with_reducible apply Frame.seq; with_reducible case k => first | apply fr_onCue)
    | with_reducible apply Frame.ite
    | (intro _ _; try dsimp only)
    | split)

theorem fr_rowEvents (n l : Nat) (x : Stream) (bytes : Nat) (s : State) : Frame 0x40000000000 s (rowEvents n l x bytes s) := by
  unfold rowEvents
  try dsimp only
  repeat' (first
    | with_reducible apply Frame.refl
    | apply Eq.refl true
    | (with_reducible apply Frame.seq; with_reducible case k => first | apply fr_emit)
    | with_reducible apply Frame.ite
    | (intro _ _; try dsimp only)
    | split)

theorem fr_endRow (n l : Nat) (x : Stream) (t : Taker) (pre : List Slot) (y : Slot) (s : State) : Frame 0x40001000000 s (endRow n l x t pre y s) := by
  unfold endRow
  try dsimp only
  repeat' (first
    | with_reducible apply Frame.refl
    | apply Eq.refl true
    | (with_reducible apply Frame.seq; with_reducible case k => first | apply fr_rowEvents | apply fr_setStream)
    | with_reducible apply Frame.ite
    | (intro _ _; try dsimp only)
    | split)

theorem fr_takeBlock {n l : Nat} {x : Stream} {t : Taker} {pre : List Slot} {y : Slot} {s u : State}
    (h : takeBlock n l x t pre y s = some u) : Frame 0x100009F80B1F2004 s u := by
  unfold takeBlock at h
  dsimp only at h
  split at h
  · cases h
  · cases h; exact Frame.mono (fr_streamPoison ..) rfl
  · cases h; exact Frame.mono (fr_setStream ..) rfl

theorem fr_beginRow {n cells l : Nat} {x : Stream} {t : Taker} {s u : State} (h : beginRow n cells l x t s = some u) :
    Frame 0x1000000 s u := by
  unfold beginRow at h
  dsimp only at h
  split at h
  · cases h
  · split at h
    · cases h; exact Frame.mono (fr_passRow ..) rfl
    · cases h; exact Frame.mono (fr_setStream ..) rfl

theorem fr_cellStep {n l : Nat} {s u : State} (h : cellStep n l s = some u) : Frame 0x10000DF80B1F2004 s u := by
  unfold cellStep at h
  repeat' (first
    | exact Frame.mono (fr_beginRow h) rfl
    | exact Frame.mono (fr_takeBlock h) rfl
    | (cases h; done)
    | (cases h; exact Frame.mono (fr_endRow ..) rfl)
    | split at h)

theorem fr_cellRun (n l : Nat) (k : Nat) (s : State) : Frame 0x10000DF80B1F2004 s (cellRun n l k s) := by
  induction k generalizing s with
  | zero =>
    unfold cellRun
    try dsimp only
    repeat' (first
      | with_reducible apply Frame.refl
      | apply Eq.refl true
      | with_reducible apply Frame.ite
      | (intro _ _; try dsimp only)
      | exact Frame.mono (fr_cellStep (by assumption)) rfl
      | split)
  | succ k ih =>
    unfold cellRun
    try dsimp only
    repeat' (first
      | with_reducible apply Frame.refl
      | apply Eq.refl true
      | (with_reducible apply Frame.seq; with_reducible case k => apply ih)
      | with_reducible apply Frame.ite
      | (intro _ _; try dsimp only)
      | exact Frame.mono (fr_cellStep (by assumption)) rfl
      | split)

theorem fr_passTaken (n : Nat) (s : State) : Frame 0x1000000 s (passTaken n s) := by
  unfold passTaken
  try dsimp only
  repeat' (first
    | with_reducible apply Frame.refl
    | apply Eq.refl true
    | (with_reducible apply Frame.seq; with_reducible case k => first | apply fr_passRow)
    | with_reducible apply Frame.ite
    | with_reducible apply Frame.foldl
    | with_reducible apply Frame.foldl_fst
    | (intro _ _; try dsimp only)
    | split)

theorem fr_endHead (n : Nat) (s : State) : Frame 0x1000083001072004 s (endHead n s) := by
  unfold endHead
  try dsimp only
  repeat' (first
    | with_reducible apply Frame.refl
    | apply Eq.refl true
    | (with_reducible apply Frame.seq; with_reducible case k => first | apply fr_onCue | apply fr_releaseHeld | apply fr_showCells)
    | with_reducible apply Frame.ite
    | (intro _ _; try dsimp only)
    | split)

theorem fr_advanceN (n : Nat) (k : Nat) (s : State) : Frame 0x10010DF80B9F2404 s (advanceN n k s) := by
  induction k generalizing s with
  | zero =>
    unfold advanceN
    try dsimp only
    repeat' (first
      | with_reducible apply Frame.refl
      | apply Eq.refl true
      | (with_reducible apply Frame.seq; with_reducible case k => first | apply fr_topUp | apply fr_passTaken | apply fr_endHead | apply fr_cellRun)
      | with_reducible apply Frame.ite
      | with_reducible apply Frame.foldl
      | with_reducible apply Frame.foldl_fst
      | (intro _ _; try dsimp only)
      | split)
  | succ k ih =>
    unfold advanceN
    try dsimp only
    repeat' (first
      | with_reducible apply Frame.refl
      | apply Eq.refl true
      | (with_reducible apply Frame.seq; with_reducible case k => first | apply ih | apply fr_topUp | apply fr_passTaken | apply fr_endHead | apply fr_cellRun)
      | with_reducible apply Frame.ite
      | with_reducible apply Frame.foldl
      | with_reducible apply Frame.foldl_fst
      | (intro _ _; try dsimp only)
      | split)

theorem fr_advance (n : Nat) (s : State) : Frame 0x10010DF80B9F2404 s (advance n s) := by
  unfold advance
  try dsimp only
  repeat' (first
    | with_reducible apply Frame.refl
    | apply Eq.refl true
    | (with_reducible apply Frame.seq; with_reducible case k => first | apply fr_advanceN)
    | with_reducible apply Frame.ite
    | (intro _ _; try dsimp only)
    | split)

theorem fr_drainStreams {n : Nat} {s t : State} (h : drainStreams n s = some t) : Frame 0x1000083001072004 s t := by
  unfold drainStreams at h
  dsimp only at h
  split at h
  · cases h; exact Frame.seq (Frame.mono (fr_passTaken ..) rfl) (fr_endHead ..) rfl
  · cases h

theorem fr_restart (n l : Nat) (s : State) : Frame 0x10010DF80B9F2404 s (restart n l s) := by
  unfold restart
  try dsimp only
  repeat' (first
    | with_reducible apply Frame.refl
    | apply Eq.refl true
    | (with_reducible apply Frame.seq; with_reducible case k => first | apply fr_onCue | apply fr_setPc | apply fr_advance)
    | with_reducible apply Frame.ite
    | (intro _ _; try dsimp only)
    | split
    | with_reducible apply Frame.set_nextUid)

theorem fr_idleEvents (n c : Nat) (s : State) : Frame 0x40000000080 s (idleEvents n c s) := by
  unfold idleEvents
  try dsimp only
  repeat' (first
    | with_reducible apply Frame.refl
    | apply Eq.refl true
    | (with_reducible apply Frame.seq; with_reducible case k => first | apply fr_emitSome)
    | with_reducible apply Frame.ite
    | (intro _ _; try dsimp only)
    | split)

theorem fr_addStream (n : Nat) (x : Stream) (s : State) : Frame 0x10010DF80B9F2484 s (addStream n x s) := by
  unfold addStream
  try dsimp only
  repeat' (first
    | with_reducible apply Frame.refl
    | apply Eq.refl true
    | (with_reducible apply Frame.seq; with_reducible case k => first | apply fr_onCue | apply fr_idleEvents | apply fr_showCells | apply fr_advance)
    | with_reducible apply Frame.ite
    | with_reducible apply Frame.foldl
    | with_reducible apply Frame.foldl_fst
    | (intro _ _; try dsimp only)
    | split
    | with_reducible apply Frame.set_nextUid)

end Sys2Proof.Machine
end

