-- ==== Sys2Proof/Laws/FrameCells.lean ====
section
/-! SUPPORT. What each operation of Cells.lean may change. -/

namespace Sys2Proof.Machine

open Reg

theorem fr_needAll (hs : List Nat) (s : State) : Frame 0x1000200800000004 s (needAll hs s).1 := by
  unfold needAll
  try dsimp only
  repeat' (first
    | with_reducible apply Frame.refl
    | apply Eq.refl true
    | (with_reducible apply Frame.seq; with_reducible case k => first | apply fr_needCells)
    | with_reducible apply Frame.ite
    | with_reducible apply Frame.foldl
    | with_reducible apply Frame.foldl_fst
    | (intro _ _; try dsimp only)
    | (rename_i h; refine Frame.of_eq1 h (fr_needCells ..) rfl ?_)
    | split)

theorem fr_pushPart (n : Nat) (a : Part) (s : State) : Frame 0x1000283801072004 s (pushPart n a s) := by
  unfold pushPart
  try dsimp only
  repeat' (first
    | with_reducible apply Frame.refl
    | apply Eq.refl true
    | (with_reducible apply Frame.seq; with_reducible case k => first | apply fr_ackWrite | apply fr_needAll | apply fr_tryPush | apply fr_failPush)
    | with_reducible apply Frame.ite
    | (intro _ _; try dsimp only)
    | (rename_i h; refine Frame.of_eq1 h (fr_needAll ..) rfl ?_)
    | split)

theorem fr_activationRelease (n : Nat) (s : State) : Frame 0x10010DF80B9F2404 s (activationRelease n s) := by
  unfold activationRelease
  try dsimp only
  repeat' (first
    | with_reducible apply Frame.refl
    | apply Eq.refl true
    | (with_reducible apply Frame.seq; with_reducible case k => first | apply fr_passTaken | apply fr_endHead | apply fr_releaseHeld | apply fr_advance)
    | with_reducible apply Frame.ite
    | (intro _ _; try dsimp only)
    | split)

theorem fr_releaseAll (s : State) : Frame 0x1000083001072000 s (releaseAll s) := by
  unfold releaseAll
  try dsimp only
  repeat' (first
    | with_reducible apply Frame.refl
    | apply Eq.refl true
    | (with_reducible apply Frame.seq; with_reducible case k => first | apply fr_releaseHeld)
    | with_reducible apply Frame.ite
    | with_reducible apply Frame.foldl
    | with_reducible apply Frame.foldl_fst
    | (intro _ _; try dsimp only)
    | split)

theorem fr_cellsWake (n : Nat) (s : State) : Frame 0x1000283801072004 s (cellsWake n s) := by
  unfold cellsWake
  try dsimp only
  repeat' (first
    | with_reducible apply Frame.refl
    | apply Eq.refl true
    | (with_reducible apply Frame.seq; with_reducible case k => first | apply fr_needCells | apply fr_releaseAll)
    | with_reducible apply Frame.ite
    | (intro _ _; try dsimp only)
    | (rename_i h; refine Frame.of_eq1 h (fr_needCells ..) rfl ?_)
    | split)

theorem fr_retireLane (n c : Nat) (s : State) (lane : Nat) : Frame 0x4 s (retireLane n c s lane) := by
  unfold retireLane
  try dsimp only
  repeat' (first
    | with_reducible apply Frame.refl
    | apply Eq.refl true
    | (with_reducible apply Frame.seq; with_reducible case k => first | apply fr_put | apply fr_putAll)
    | with_reducible apply Frame.ite
    | (intro _ _; try dsimp only)
    | split)

theorem fr_retireWrite (n c : Nat) (s : State) : Frame 0x100001E800080004 s (retireWrite n c s) := by
  unfold retireWrite
  try dsimp only
  repeat' (first
    | with_reducible apply Frame.refl
    | apply Eq.refl true
    | (with_reducible apply Frame.seq; with_reducible case k => first | apply fr_applyRetire | apply fr_put)
    | with_reducible apply Frame.ite
    | (intro _ _; try dsimp only)
    | split)

theorem fr_testStartWrite (n c : Nat) (s : State) : Frame 0x1000004 s (testStartWrite n c s) := by
  unfold testStartWrite
  try dsimp only
  repeat' (first
    | with_reducible apply Frame.refl
    | apply Eq.refl true
    | (with_reducible apply Frame.seq; with_reducible case k => first | apply fr_setHive | apply fr_startTests)
    | with_reducible apply Frame.ite
    | (intro _ _; try dsimp only)
    | split)

theorem fr_cellFault (n c column group kind : Nat) (s : State) : Frame 0x4 s (cellFault n c column group kind s) := by
  unfold cellFault
  try dsimp only
  repeat' (first
    | with_reducible apply Frame.refl
    | apply Eq.refl true
    | (with_reducible apply Frame.seq; with_reducible case k => first | apply fr_putAll)
    | with_reducible apply Frame.ite
    | (intro _ _; try dsimp only)
    | split)

theorem fr_testOutcome (n c : Nat) (x : CellTest) (s : State) : Frame 0x100001E800080004 s (testOutcome n c x s) := by
  unfold testOutcome
  try dsimp only
  repeat' (first
    | with_reducible apply Frame.refl
    | apply Eq.refl true
    | (with_reducible apply Frame.seq; with_reducible case k => first | apply fr_cellFault | apply fr_put | apply fr_retireLane | apply fr_replaceCell | apply fr_putAll)
    | with_reducible apply Frame.ite
    | with_reducible apply Frame.foldl
    | with_reducible apply Frame.foldl_fst
    | (intro _ _; try dsimp only)
    | split)

theorem fr_selfTest (n c : Nat) (x : CellTest) (s : State) : Frame 0x100109F8019F2004 s (selfTest n c x s) := by
  unfold selfTest
  try dsimp only
  repeat' (first
    | with_reducible apply Frame.refl
    | apply Eq.refl true
    | (with_reducible apply Frame.seq; with_reducible case k => first | apply fr_setHive | apply fr_testOutcome | apply fr_showCells | apply fr_wake | apply fr_releaseAll)
    | with_reducible apply Frame.ite
    | (intro _ _; try dsimp only)
    | split)

theorem fr_failRunning (n c : Nat) (s : State) : Frame 0x100009F80B1F2004 s (failRunning n c s) := by
  unfold failRunning
  try dsimp only
  repeat' (first
    | with_reducible apply Frame.refl
    | apply Eq.refl true
    | (with_reducible apply Frame.seq; with_reducible case k => first | apply fr_failJob)
    | with_reducible apply Frame.ite
    | (intro _ _; try dsimp only)
    | split)

theorem fr_openFault (n c group column : Nat) (s : State) : Frame 0x1000004 s (openFault n c group column s) := by
  unfold openFault
  try dsimp only
  repeat' (first
    | with_reducible apply Frame.refl
    | apply Eq.refl true
    | (with_reducible apply Frame.seq; with_reducible case k => first | apply fr_setHive | apply fr_showCells)
    | with_reducible apply Frame.ite
    | (intro _ _; try dsimp only)
    | split)

theorem fr_closeFault (n c : Nat) (s : State) : Frame 0x1000004 s (closeFault n c s) := by
  unfold closeFault
  try dsimp only
  repeat' (first
    | with_reducible apply Frame.refl
    | apply Eq.refl true
    | (with_reducible apply Frame.seq; with_reducible case k => first | apply fr_setHive | apply fr_showCells)
    | with_reducible apply Frame.ite
    | (intro _ _; try dsimp only)
    | split)

theorem fr_residueFault (n c group column : Nat) (s : State) : Frame 0x100009F80B1F2004 s (residueFault n c group column s) := by
  unfold residueFault
  try dsimp only
  repeat' (first
    | with_reducible apply Frame.refl
    | apply Eq.refl true
    | (with_reducible apply Frame.seq; with_reducible case k => first | apply fr_openFault | apply fr_cellFault | apply fr_failRunning)
    | with_reducible apply Frame.ite
    | (intro _ _; try dsimp only)
    | split)

theorem fr_replayCell (n c : Nat) (s : State) : Frame 0x10010DF80B9F2404 s (replayCell n c s) := by
  unfold replayCell
  try dsimp only
  repeat' (first
    | with_reducible apply Frame.refl
    | apply Eq.refl true
    | (with_reducible apply Frame.seq; with_reducible case k => first | apply fr_emit | apply fr_restart | apply fr_bump | apply fr_setStream | apply fr_showCells)
    | with_reducible apply Frame.ite
    | (intro _ _; try dsimp only)
    | split)

theorem fr_laneTest (n c : Nat) (failed : List Nat) (s : State) : Frame 0x10010DF80B9F2404 s (laneTest n c failed s) := by
  unfold laneTest
  try dsimp only
  repeat' (first
    | with_reducible apply Frame.refl
    | apply Eq.refl true
    | (with_reducible apply Frame.seq; with_reducible case k => first | apply fr_setHive | apply fr_closeFault | apply fr_failCell | apply fr_bump | apply fr_failRunning | apply fr_retireLane | apply fr_replaceCell | apply fr_replayCell)
    | with_reducible apply Frame.ite
    | with_reducible apply Frame.foldl
    | with_reducible apply Frame.foldl_fst
    | (intro _ _; try dsimp only)
    | split)

theorem fr_copyStores (n c : Nat) (s : State) : Frame 0x1000000 s (copyStores n c s) := by
  unfold copyStores
  try dsimp only
  repeat' (first
    | with_reducible apply Frame.refl
    | apply Eq.refl true
    | (with_reducible apply Frame.seq; with_reducible case k => first | apply fr_setHive)
    | with_reducible apply Frame.ite
    | with_reducible apply Frame.foldl
    | with_reducible apply Frame.foldl_fst
    | (intro _ _; try dsimp only)
    | split)

theorem fr_cellTakeover (n c : Nat) (copyParity : Option Nat) (s : State) : Frame 0x10010DF80B9F2404 s (cellTakeover n c copyParity s) := by
  unfold cellTakeover
  try dsimp only
  repeat' (first
    | with_reducible apply Frame.refl
    | apply Eq.refl true
    | (with_reducible apply Frame.seq; with_reducible case k => first | apply fr_emit | apply fr_setHive | apply fr_restart | apply fr_cellEvent | apply fr_cellFault | apply fr_closeFault | apply fr_setStream | apply fr_bump | apply fr_copyStores | apply fr_failRunning | apply fr_standIn | apply fr_showCells)
    | with_reducible apply Frame.ite
    | (intro _ _; try dsimp only)
    | split)

theorem fr_cellParity (n c kind column : Nat) (s : State) : Frame 0x100009F80B1F2004 s (cellParity n c kind column s) := by
  unfold cellParity
  try dsimp only
  repeat' (first
    | with_reducible apply Frame.refl
    | apply Eq.refl true
    | (with_reducible apply Frame.seq; with_reducible case k => first | apply fr_cellFault | apply fr_failRunning)
    | with_reducible apply Frame.ite
    | (intro _ _; try dsimp only)
    | split)

end Sys2Proof.Machine
end

