-- ==== Sys2Proof/Laws/FrameHostIo.lean ====
section
/-! SUPPORT. What each operation of HostIo.lean may change. -/

namespace Sys2Proof.Machine

open Reg

theorem fr_cfgPut (off v : Nat) (s : State) : Frame 0x800000000 s (cfgPut off v s) := by
  unfold cfgPut
  try dsimp only
  repeat' (first
    | with_reducible apply Frame.refl
    | apply Eq.refl true
    | with_reducible apply Frame.ite
    | (intro _ _; try dsimp only)
    | split
    | with_reducible apply Frame.set_host)

theorem fr_aerLog (b : Nat) (s : State) : Frame 0x800000080 s (aerLog b s) := by
  unfold aerLog
  try dsimp only
  repeat' (first
    | with_reducible apply Frame.refl
    | apply Eq.refl true
    | (with_reducible apply Frame.seq; with_reducible case k => first | apply fr_freshDraw | apply fr_cfgPut)
    | with_reducible apply Frame.ite
    | with_reducible apply Frame.foldl
    | with_reducible apply Frame.foldl_fst
    | (intro _ _; try dsimp only)
    | split)

theorem fr_aerSet (b : Nat) (s : State) : Frame 0x800000080 s (aerSet b s) := by
  unfold aerSet
  try dsimp only
  repeat' (first
    | with_reducible apply Frame.refl
    | apply Eq.refl true
    | (with_reducible apply Frame.seq; with_reducible case k => first | apply fr_aerLog | apply fr_cfgPut)
    | with_reducible apply Frame.ite
    | (intro _ _; try dsimp only)
    | split)

theorem fr_pumpReads  (k : Nat) (s : State) : Frame 0x1000000800000000 s (pumpReads  k s) := by
  induction k generalizing s with
  | zero =>
    unfold pumpReads
    try dsimp only
    repeat' (first
      | with_reducible apply Frame.refl
      | apply Eq.refl true
      | (with_reducible apply Frame.seq; with_reducible case k => first | apply fr_sendTlp)
      | with_reducible apply Frame.ite
      | (intro _ _; try dsimp only)
      | split
      | with_reducible apply Frame.set_host)
  | succ k ih =>
    unfold pumpReads
    try dsimp only
    repeat' (first
      | with_reducible apply Frame.refl
      | apply Eq.refl true
      | (with_reducible apply Frame.seq; with_reducible case k => first | apply ih | apply fr_sendTlp)
      | with_reducible apply Frame.ite
      | (intro _ _; try dsimp only)
      | split
      | with_reducible apply Frame.set_host)

theorem fr_issueReads (s : State) : Frame 0x1000000800000000 s (issueReads s) := by
  unfold issueReads
  try dsimp only
  repeat' (first
    | with_reducible apply Frame.refl
    | apply Eq.refl true
    | (with_reducible apply Frame.seq; with_reducible case k => first | apply fr_pumpReads)
    | with_reducible apply Frame.ite
    | (intro _ _; try dsimp only)
    | split)

theorem fr_askHost (r : HpRead) (s : State) : Frame 0x1000000800000000 s (askHost r s) := by
  unfold askHost
  try dsimp only
  repeat' (first
    | with_reducible apply Frame.refl
    | apply Eq.refl true
    | (with_reducible apply Frame.seq; with_reducible case k => first | apply fr_issueReads)
    | with_reducible apply Frame.ite
    | (intro _ _; try dsimp only)
    | split
    | with_reducible apply Frame.set_host)

theorem fr_sendHostWrite (a : Nat) (d : List Byte) (s : State) : Frame 0x1000000000000000 s (sendHostWrite a d s) := by
  unfold sendHostWrite
  try dsimp only
  repeat' (first
    | with_reducible apply Frame.refl
    | apply Eq.refl true
    | (with_reducible apply Frame.seq; with_reducible case k => first | apply fr_sendTlp)
    | with_reducible apply Frame.ite
    | with_reducible apply Frame.foldl
    | with_reducible apply Frame.foldl_fst
    | (intro _ _; try dsimp only)
    | split)

theorem fr_setSpill (l : List Spill) (s : State) : Frame 0x200000004 s (setSpill l s) := by
  unfold setSpill
  try dsimp only
  repeat' (first
    | with_reducible apply Frame.refl
    | apply Eq.refl true
    | (with_reducible apply Frame.seq; with_reducible case k => first | apply fr_put)
    | with_reducible apply Frame.ite
    | (intro _ _; try dsimp only)
    | split
    | with_reducible apply Frame.set_spill)

theorem fr_dropSpilled (j : Nat) (s : State) : Frame 0x200000004 s (dropSpilled j s) := by
  unfold dropSpilled
  try dsimp only
  repeat' (first
    | with_reducible apply Frame.refl
    | apply Eq.refl true
    | (with_reducible apply Frame.seq; with_reducible case k => first | apply fr_setSpill)
    | with_reducible apply Frame.ite
    | (intro _ _; try dsimp only)
    | split)

theorem fr_spillWrite (h j a : Nat) (d : List Byte) (s : State) : Frame 0x100009FA0B1F2004 s (spillWrite h j a d s) := by
  unfold spillWrite
  try dsimp only
  repeat' (first
    | with_reducible apply Frame.refl
    | apply Eq.refl true
    | (with_reducible apply Frame.seq; with_reducible case k => first | apply fr_dropSpilled | apply fr_fwWrite | apply fr_failJob | apply fr_setSpill)
    | with_reducible apply Frame.ite
    | (intro _ _; try dsimp only)
    | split)

theorem fr_hostWrite (j a : Nat) (d : List Byte) (s : State) : Frame 0x100009FA0B1F2004 s (hostWrite j a d s) := by
  unfold hostWrite
  try dsimp only
  repeat' (first
    | with_reducible apply Frame.refl
    | apply Eq.refl true
    | (with_reducible apply Frame.seq; with_reducible case k => first | apply fr_spillWrite | apply fr_sendHostWrite)
    | with_reducible apply Frame.ite
    | (intro _ _; try dsimp only)
    | split
    | with_reducible apply Frame.set_host)

theorem fr_flushWrites (s : State) : Frame 0x1000000800000000 s (flushWrites s) := by
  unfold flushWrites
  try dsimp only
  repeat' (first
    | with_reducible apply Frame.refl
    | apply Eq.refl true
    | (with_reducible apply Frame.seq; with_reducible case k => first | apply fr_sendHostWrite)
    | with_reducible apply Frame.ite
    | with_reducible apply Frame.foldl
    | with_reducible apply Frame.foldl_fst
    | (intro _ _; try dsimp only)
    | split
    | with_reducible apply Frame.set_host)

theorem fr_hostResume (s : State) : Frame 0x1000006800080004 s (hostResume s) := by
  unfold hostResume
  try dsimp only
  repeat' (first
    | with_reducible apply Frame.refl
    | apply Eq.refl true
    | (with_reducible apply Frame.seq; with_reducible case k => first | apply fr_flushWrites | apply fr_issueReads | apply fr_flushEvents)
    | with_reducible apply Frame.ite
    | (intro _ _; try dsimp only)
    | split)

end Sys2Proof.Machine
end

