-- ==== Sys2Proof/Laws/FrameContexts.lean ====
section
/-! SUPPORT. What each operation of Contexts.lean may change. -/

namespace Sys2Proof.Machine

open Reg

theorem fr_ctxDone (result word : Nat) (s : State) : Frame 0x100000000004 s (ctxDone result word s) := by
  unfold ctxDone
  try dsimp only
  repeat' (first
    | with_reducible apply Frame.refl
    | apply Eq.refl true
    | (with_reducible apply Frame.seq; with_reducible case k => first | apply fr_putAll)
    | with_reducible apply Frame.ite
    | (intro _ _; try dsimp only)
    | split
    | with_reducible apply Frame.set_overruns)

theorem fr_openCmd (x : Nat) (s : State) : Frame 0x100002080004 s (openCmd x s) := by
  unfold openCmd
  try dsimp only
  repeat' (first
    | with_reducible apply Frame.refl
    | apply Eq.refl true
    | (with_reducible apply Frame.seq; with_reducible case k => first | apply fr_ctxDone | apply fr_setCtx | apply fr_tableWrite)
    | with_reducible apply Frame.ite
    | (intro _ _; try dsimp only)
    | split)

theorem fr_freeClosing (x : Nat) (s : State) : Frame 0x2080000 s (freeClosing x s) := by
  unfold freeClosing
  try dsimp only
  repeat' (first
    | with_reducible apply Frame.refl
    | apply Eq.refl true
    | (with_reducible apply Frame.seq; with_reducible case k => first | apply fr_tableWrite | apply fr_setCtx)
    | with_reducible apply Frame.ite
    | (intro _ _; try dsimp only)
    | split)

theorem fr_closeCmd (x : Nat) (s : State) : Frame 0x100002000004 s (closeCmd x s) := by
  unfold closeCmd
  try dsimp only
  repeat' (first
    | with_reducible apply Frame.refl
    | apply Eq.refl true
    | (with_reducible apply Frame.seq; with_reducible case k => first | apply fr_ctxDone | apply fr_setCtx)
    | with_reducible apply Frame.ite
    | (intro _ _; try dsimp only)
    | split)

theorem fr_closeComplete (x : Nat) (s : State) : Frame 0x2080000 s (closeComplete x s) := by
  unfold closeComplete
  try dsimp only
  repeat' (first
    | with_reducible apply Frame.refl
    | apply Eq.refl true
    | (with_reducible apply Frame.seq; with_reducible case k => first | apply fr_freeClosing)
    | with_reducible apply Frame.ite
    | (intro _ _; try dsimp only)
    | split)

theorem fr_commitResume (x : Nat) (s : State) : Frame 0x100002000004 s (commitResume x s) := by
  unfold commitResume
  try dsimp only
  repeat' (first
    | with_reducible apply Frame.refl
    | apply Eq.refl true
    | (with_reducible apply Frame.seq; with_reducible case k => first | apply fr_ctxDone | apply fr_setCtx)
    | with_reducible apply Frame.ite
    | (intro _ _; try dsimp only)
    | split)

theorem fr_resumeCmd (discard : Option Nat) (x : Nat) (s : State) : Frame 0x100002000004 s (resumeCmd discard x s) := by
  unfold resumeCmd
  try dsimp only
  repeat' (first
    | with_reducible apply Frame.refl
    | apply Eq.refl true
    | (with_reducible apply Frame.seq; with_reducible case k => first | apply fr_commitResume | apply fr_ctxDone | apply fr_setCtx)
    | with_reducible apply Frame.ite
    | (intro _ _; try dsimp only)
    | split)

theorem fr_readCmd (x : Nat) (s : State) : Frame 0x100000000004 s (readCmd x s) := by
  unfold readCmd
  try dsimp only
  repeat' (first
    | with_reducible apply Frame.refl
    | apply Eq.refl true
    | (with_reducible apply Frame.seq; with_reducible case k => first | apply fr_ctxDone | apply fr_put | apply fr_putAll)
    | with_reducible apply Frame.ite
    | with_reducible apply Frame.foldl
    | with_reducible apply Frame.foldl_fst
    | (intro _ _; try dsimp only)
    | split)

theorem fr_modifyCmd (x : Nat) (s : State) : Frame 0x100002080004 s (modifyCmd x s) := by
  unfold modifyCmd
  try dsimp only
  repeat' (first
    | with_reducible apply Frame.refl
    | apply Eq.refl true
    | (with_reducible apply Frame.seq; with_reducible case k => first | apply fr_ctxDone | apply fr_setCtx | apply fr_tableWrite)
    | with_reducible apply Frame.ite
    | (intro _ _; try dsimp only)
    | split)

theorem fr_ctxRun (cmd x tail : Nat) (s : State) : Frame 0x100002080004 s (ctxRun cmd x tail s) := by
  unfold ctxRun
  try dsimp only
  repeat' (first
    | with_reducible apply Frame.refl
    | apply Eq.refl true
    | (with_reducible apply Frame.seq; with_reducible case k => first | apply fr_openCmd | apply fr_modifyCmd | apply fr_readCmd | apply fr_resumeCmd | apply fr_ctxDone | apply fr_closeCmd)
    | with_reducible apply Frame.ite
    | (intro _ _; try dsimp only)
    | split)

theorem fr_ctxCommand (cmd : Nat) (s : State) : Frame 0x100006080004 s (ctxCommand cmd s) := by
  unfold ctxCommand
  try dsimp only
  repeat' (first
    | with_reducible apply Frame.refl
    | apply Eq.refl true
    | (with_reducible apply Frame.seq; with_reducible case k => first | apply fr_ctxRun | apply fr_putAll)
    | with_reducible apply Frame.ite
    | (intro _ _; try dsimp only)
    | split
    | with_reducible apply Frame.set_ctxHeld
    | with_reducible apply Frame.set_overruns
    | ((with_reducible apply Frame.parts (by with_reducible rfl) (by with_reducible rfl)) <;> first | (apply Or.inl; apply Eq.refl true; done) | (apply Or.inr; with_reducible apply Eq.refl; done) | skip))

theorem fr_runHeldCtx (s : State) : Frame 0x100006080004 s (runHeldCtx s) := by
  unfold runHeldCtx
  try dsimp only
  repeat' (first
    | with_reducible apply Frame.refl
    | apply Eq.refl true
    | (with_reducible apply Frame.seq; with_reducible case k => first | apply fr_ctxRun)
    | with_reducible apply Frame.ite
    | (intro _ _; try dsimp only)
    | split
    | with_reducible apply Frame.set_ctxHeld)

theorem fr_badState (s : State) : Frame 0x4 s (badState s) := by
  unfold badState
  try dsimp only
  repeat' (first
    | with_reducible apply Frame.refl
    | apply Eq.refl true
    | (with_reducible apply Frame.seq; with_reducible case k => first | apply fr_bump)
    | with_reducible apply Frame.ite
    | (intro _ _; try dsimp only)
    | split)

theorem fr_badIndex (s : State) : Frame 0x4 s (badIndex s) := by
  unfold badIndex
  try dsimp only
  repeat' (first
    | with_reducible apply Frame.refl
    | apply Eq.refl true
    | (with_reducible apply Frame.seq; with_reducible case k => first | apply fr_bump)
    | with_reducible apply Frame.ite
    | (intro _ _; try dsimp only)
    | split)

theorem fr_bellEvent (x : Nat) (s : State) : Frame 0x40000000000 s (bellEvent x s) := by
  unfold bellEvent
  try dsimp only
  repeat' (first
    | with_reducible apply Frame.refl
    | apply Eq.refl true
    | (with_reducible apply Frame.seq; with_reducible case k => first | apply fr_emit)
    | with_reducible apply Frame.ite
    | (intro _ _; try dsimp only)
    | split)

theorem fr_descTail (x : Nat) (v : Nat) (s : State) : Frame 0x40002000004 s (descTail x v s) := by
  unfold descTail
  try dsimp only
  repeat' (first
    | with_reducible apply Frame.refl
    | apply Eq.refl true
    | (with_reducible apply Frame.seq; with_reducible case k => first | apply fr_badIndex | apply fr_setCtx | apply fr_badState | apply fr_bellEvent)
    | with_reducible apply Frame.ite
    | (intro _ _; try dsimp only)
    | split)

theorem fr_cplHead (x : Nat) (v : Nat) (s : State) : Frame 0x40002000004 s (cplHead x v s) := by
  unfold cplHead
  dsimp only
  refine Frame.ite (Frame.mono (fr_badState ..) rfl) (Frame.ite ?_ (Frame.mono (fr_badIndex ..) rfl))
  exact Frame.seq (Frame.mono (fr_setCtx ..) rfl) (fr_bellEvent ..) rfl

theorem fr_startHb (h : Nat) (s : State) : Frame 0x80000000 s (startHb h s) := by
  unfold startHb
  try dsimp only
  repeat' (first
    | with_reducible apply Frame.refl
    | apply Eq.refl true
    | with_reducible apply Frame.ite
    | (intro _ _; try dsimp only)
    | split
    | with_reducible apply Frame.set_hbStart)

theorem fr_heartbeat (x gen : Nat) (s : State) : Frame 0x80000004 s (heartbeat x gen s) := by
  unfold heartbeat
  try dsimp only
  repeat' (first
    | with_reducible apply Frame.refl
    | apply Eq.refl true
    | (with_reducible apply Frame.seq; with_reducible case k => first | apply fr_startHb | apply fr_badState | apply fr_bump)
    | with_reducible apply Frame.ite
    | (intro _ _; try dsimp only)
    | split)

theorem fr_loseSet (h : Nat) (s : State) : Frame 0x100009FA0B1F2004 s (loseSet h s) := by
  unfold loseSet
  try dsimp only
  repeat' (first
    | with_reducible apply Frame.refl
    | apply Eq.refl true
    | (with_reducible apply Frame.seq; with_reducible case k => first | apply fr_spillWrite | apply fr_setCtx | apply fr_put | apply fr_postEvent)
    | with_reducible apply Frame.ite
    | with_reducible apply Frame.foldl
    | with_reducible apply Frame.foldl_fst
    | (intro _ _; try dsimp only)
    | split
    | with_reducible apply Frame.set_host)

theorem fr_heartbeatTimeout (h : Nat) (s : State) : Frame 0x100009FA0B1F2004 s (heartbeatTimeout h s) := by
  unfold heartbeatTimeout
  try dsimp only
  repeat' (first
    | with_reducible apply Frame.refl
    | apply Eq.refl true
    | (with_reducible apply Frame.seq; with_reducible case k => first | apply fr_loseSet)
    | with_reducible apply Frame.ite
    | (intro _ _; try dsimp only)
    | split)

theorem fr_hbCfgWrite (h v : Nat) (s : State) : Frame 0x80000004 s (hbCfgWrite h v s) := by
  unfold hbCfgWrite
  try dsimp only
  repeat' (first
    | with_reducible apply Frame.refl
    | apply Eq.refl true
    | (with_reducible apply Frame.seq; with_reducible case k => first | apply fr_startHb | apply fr_put)
    | with_reducible apply Frame.ite
    | (intro _ _; try dsimp only)
    | split)

theorem fr_ackWait (discard : Bool) (h gen : Nat) (s : State) : Frame 0x400000004 s (ackWait discard h gen s) := by
  unfold ackWait
  try dsimp only
  repeat' (first
    | with_reducible apply Frame.refl
    | apply Eq.refl true
    | (with_reducible apply Frame.seq; with_reducible case k => first | apply fr_put)
    | with_reducible apply Frame.ite
    | (intro _ _; try dsimp only)
    | split
    | with_reducible apply Frame.set_acks)

theorem fr_recordMsg (irq : Option Nat) (s : State) : Frame 0x1000000800000000 s (recordMsg irq s) := by
  unfold recordMsg
  try dsimp only
  repeat' (first
    | with_reducible apply Frame.refl
    | apply Eq.refl true
    | (with_reducible apply Frame.seq; with_reducible case k => first | apply fr_sendMsg)
    | with_reducible apply Frame.ite
    | (intro _ _; try dsimp only)
    | split)

theorem fr_writeHostRecord (x : Nat) (ws : List Nat) (irq : Option Nat) (s : State) : Frame 0x1000040802000000 s (writeHostRecord x ws irq s) := by
  unfold writeHostRecord
  try dsimp only
  repeat' (first
    | with_reducible apply Frame.refl
    | apply Eq.refl true
    | (with_reducible apply Frame.seq; with_reducible case k => first | apply fr_emit | apply fr_setCtx | apply fr_recordMsg | apply fr_sendTlp)
    | with_reducible apply Frame.ite
    | (intro _ _; try dsimp only)
    | split)

theorem fr_writeDevRecord (j x : Nat) (ws : List Nat) (irq : Option Nat) (s : State) : Frame 0x2400 s (writeDevRecord j x ws irq s) := by
  unfold writeDevRecord
  try dsimp only
  repeat' (first
    | with_reducible apply Frame.refl
    | apply Eq.refl true
    | (with_reducible apply Frame.seq; with_reducible case k => first | apply fr_askUnit)
    | with_reducible apply Frame.ite
    | (intro _ _; try dsimp only)
    | split)

theorem fr_deliverSpill (s : State) (x : Spill) : Frame 0x1000040802080000 s (deliverSpill s x) := by
  unfold deliverSpill
  try dsimp only
  repeat' (first
    | with_reducible apply Frame.refl
    | apply Eq.refl true
    | (with_reducible apply Frame.seq; with_reducible case k => first | apply fr_fwRead | apply fr_writeHostRecord | apply fr_sendHostWrite)
    | with_reducible apply Frame.ite
    | (intro _ _; try dsimp only)
    | split)

theorem fr_deliverAll  (l : List Spill) (s : State) : Frame 0x1000040802080000 s (deliverAll  l s).2 := by
  induction l generalizing s with
  | nil =>
    unfold deliverAll
    try dsimp only
    repeat' (first
      | with_reducible apply Frame.refl
      | apply Eq.refl true
      | (with_reducible apply Frame.seq; with_reducible case k => first | apply fr_deliverSpill)
      | with_reducible apply Frame.ite
      | (intro _ _; try dsimp only)
      | split)
  | cons x l ih =>
    unfold deliverAll
    try dsimp only
    repeat' (first
      | with_reducible apply Frame.refl
      | apply Eq.refl true
      | (with_reducible apply Frame.seq; with_reducible case k => first | apply ih | apply fr_deliverSpill)
      | with_reducible apply Frame.ite
      | (intro _ _; try dsimp only)
      | split)

theorem fr_endDrain (h gen : Nat) (s : State) : Frame 0x480000004 s (endDrain h gen s) := by
  unfold endDrain
  try dsimp only
  repeat' (first
    | with_reducible apply Frame.refl
    | apply Eq.refl true
    | (with_reducible apply Frame.seq; with_reducible case k => first | apply fr_startHb | apply fr_put)
    | with_reducible apply Frame.ite
    | (intro _ _; try dsimp only)
    | split
    | with_reducible apply Frame.set_acks)

theorem fr_dropCtx (s : State) (x : Nat) : Frame 0x100002080004 s (dropCtx s x) := by
  unfold dropCtx
  try dsimp only
  repeat' (first
    | with_reducible apply Frame.refl
    | apply Eq.refl true
    | (with_reducible apply Frame.seq; with_reducible case k => first | apply fr_tableWrite | apply fr_ctxDone | apply fr_setCtx)
    | with_reducible apply Frame.ite
    | (intro _ _; try dsimp only)
    | split)

theorem fr_drainComplete (h : Nat) (s : State) : Frame 0x1000146E82080004 s (drainComplete h s) := by
  unfold drainComplete
  try dsimp only
  repeat' (first
    | with_reducible apply Frame.refl
    | apply Eq.refl true
    | (with_reducible apply Frame.seq; with_reducible case k => first | apply fr_freeClosing | apply fr_setSpill | apply fr_endDrain | apply fr_deliverAll | apply fr_dropCtx | apply fr_flushEvents)
    | with_reducible apply Frame.ite
    | with_reducible apply Frame.foldl
    | with_reducible apply Frame.foldl_fst
    | (intro _ _; try dsimp only)
    | split)

theorem fr_jobFinished (j : Nat) (s : State) : Frame 0x40000000 s (jobFinished j s) := by
  unfold jobFinished
  try dsimp only
  repeat' (first
    | with_reducible apply Frame.refl
    | apply Eq.refl true
    | with_reducible apply Frame.ite
    | (intro _ _; try dsimp only)
    | split
    | with_reducible apply Frame.set_finished)

theorem fr_fetchFail (x index status info : Nat) (s : State) : Frame 0x5A000000 s (fetchFail x index status info s) := by
  unfold fetchFail
  try dsimp only
  repeat' (first
    | with_reducible apply Frame.refl
    | apply Eq.refl true
    | (with_reducible apply Frame.seq; with_reducible case k => first | apply fr_haltCtx | apply fr_jobFinished)
    | with_reducible apply Frame.ite
    | (intro _ _; try dsimp only)
    | split
    | with_reducible apply Frame.set_jobs
    | with_reducible apply Frame.set_nextJob
    | ((with_reducible apply Frame.parts (by with_reducible rfl) (by with_reducible rfl)) <;> first | (apply Or.inl; apply Eq.refl true; done) | (apply Or.inr; with_reducible apply Eq.refl; done) | skip))

theorem fr_fetchArrive (x index : Nat) (d : List Byte) (s : State) : Frame 0x40002000000 s (fetchArrive x index d s) := by
  unfold fetchArrive
  try dsimp only
  repeat' (first
    | with_reducible apply Frame.refl
    | apply Eq.refl true
    | (with_reducible apply Frame.seq; with_reducible case k => first | apply fr_emit | apply fr_setCtx)
    | with_reducible apply Frame.ite
    | (intro _ _; try dsimp only)
    | split)

theorem fr_fetchEnds (x index id : Nat) (d : List Byte) (fail : Option (Nat × Nat)) (s : State) : Frame 0x4005A000000 s (fetchEnds x index id d fail s) := by
  unfold fetchEnds
  try dsimp only
  repeat' (first
    | with_reducible apply Frame.refl
    | apply Eq.refl true
    | (with_reducible apply Frame.seq; with_reducible case k => first | apply fr_setCtx | apply fr_fetchFail | apply fr_fetchArrive)
    | with_reducible apply Frame.ite
    | (intro _ _; try dsimp only)
    | split)

theorem fr_descriptorFetch (x : Nat) (s : State) : Frame 0x1000000802002400 s (descriptorFetch x s) := by
  unfold descriptorFetch
  try dsimp only
  repeat' (first
    | with_reducible apply Frame.refl
    | apply Eq.refl true
    | (with_reducible apply Frame.seq; with_reducible case k => first | apply fr_askUnit | apply fr_setCtx | apply fr_askHost)
    | with_reducible apply Frame.ite
    | (intro _ _; try dsimp only)
    | split
    | with_reducible apply Frame.set_nextUid)

end Sys2Proof.Machine
end

