-- ==== Sys2Proof/Laws/FrameFlash.lean ====
section
/-! SUPPORT. What each operation of Flash.lean may change. -/

namespace Sys2Proof.Machine

open Reg

theorem fr_flProg (a : Nat) (bs : List Byte) (s : State) : Frame 0x8000000000000 s (flProg a bs s) := by
  unfold flProg
  try dsimp only
  repeat' (first
    | with_reducible apply Frame.refl
    | apply Eq.refl true
    | with_reducible apply Frame.ite
    | (intro _ _; try dsimp only)
    | split
    | with_reducible apply Frame.set_flash)

theorem fr_flErase (a n : Nat) (s : State) : Frame 0x8000000000000 s (flErase a n s) := by
  unfold flErase
  try dsimp only
  repeat' (first
    | with_reducible apply Frame.refl
    | apply Eq.refl true
    | with_reducible apply Frame.ite
    | (intro _ _; try dsimp only)
    | split
    | with_reducible apply Frame.set_flash)

theorem fr_recordRemaps (s : State) : Frame 0x80000000000000 s (recordRemaps s) := by
  unfold recordRemaps
  try dsimp only
  repeat' (first
    | with_reducible apply Frame.refl
    | apply Eq.refl true
    | with_reducible apply Frame.ite
    | (intro _ _; try dsimp only)
    | split
    | with_reducible apply Frame.set_remapLog)

theorem fr_eraseShut (s : State) : Frame 0x8000000000000 s (eraseShut s) := by
  unfold eraseShut
  try dsimp only
  repeat' (first
    | with_reducible apply Frame.refl
    | apply Eq.refl true
    | (with_reducible apply Frame.seq; with_reducible case k => first | apply fr_flErase)
    | with_reducible apply Frame.ite
    | (intro _ _; try dsimp only)
    | split)

theorem fr_writeShutRec (r : ShutRec) (s : State) : Frame 0x1008400800000004 s (writeShutRec r s) := by
  unfold writeShutRec
  try dsimp only
  repeat' (first
    | with_reducible apply Frame.refl
    | apply Eq.refl true
    | (with_reducible apply Frame.seq; with_reducible case k => first | apply fr_put | apply fr_flProg | apply fr_eraseShut | apply fr_thmEvent)
    | with_reducible apply Frame.ite
    | (intro _ _; try dsimp only)
    | split
    | with_reducible apply Frame.set_thermal)

theorem fr_shutdownRecordWrite (s : State) : Frame 0x1008400800000004 s (shutdownRecordWrite s) := by
  unfold shutdownRecordWrite
  try dsimp only
  repeat' (first
    | with_reducible apply Frame.refl
    | apply Eq.refl true
    | (with_reducible apply Frame.seq; with_reducible case k => first | apply fr_writeShutRec)
    | with_reducible apply Frame.ite
    | (intro _ _; try dsimp only)
    | split)

theorem fr_shutdownRecordClear (s : State) : Frame 0x1008400800000004 s (shutdownRecordClear s) := by
  unfold shutdownRecordClear
  try dsimp only
  repeat' (first
    | with_reducible apply Frame.refl
    | apply Eq.refl true
    | (with_reducible apply Frame.seq; with_reducible case k => first | apply fr_put | apply fr_flProg | apply fr_eraseShut | apply fr_thmEvent)
    | with_reducible apply Frame.ite
    | (intro _ _; try dsimp only)
    | split
    | with_reducible apply Frame.set_thermal)

theorem fr_consumeShutRec (s : State) : Frame 0x8000000000004 s (consumeShutRec s) := by
  unfold consumeShutRec
  try dsimp only
  repeat' (first
    | with_reducible apply Frame.refl
    | apply Eq.refl true
    | (with_reducible apply Frame.seq; with_reducible case k => first | apply fr_put | apply fr_flProg)
    | with_reducible apply Frame.ite
    | (intro _ _; try dsimp only)
    | split)

end Sys2Proof.Machine
end

