-- ==== Sys2Proof/Laws/FrameThermal.lean ====
section
/-! SUPPORT. What each operation of Thermal.lean may change. -/

namespace Sys2Proof.Machine

open Reg

theorem fr_showSite (g k : Nat) (x : Site) (s : State) : Frame 0x100001E800080004 s (showSite g k x s) := by
  unfold showSite
  try dsimp only
  repeat' (first
    | with_reducible apply Frame.refl
    | apply Eq.refl true
    | (with_reducible apply Frame.seq; with_reducible case k => first | apply fr_postEvent | apply fr_thmEvent | apply fr_putAll)
    | with_reducible apply Frame.ite
    | (intro _ _; try dsimp only)
    | split)

theorem fr_putGroupState (g v : Nat) (s : State) : Frame 0x4 s (putGroupState g v s) := by
  unfold putGroupState
  try dsimp only
  repeat' (first
    | with_reducible apply Frame.refl
    | apply Eq.refl true
    | (with_reducible apply Frame.seq; with_reducible case k => first | apply fr_put)
    | with_reducible apply Frame.ite
    | (intro _ _; try dsimp only)
    | split)

theorem fr_putLevel (g v : Nat) (s : State) : Frame 0x4 s (putLevel g v s) := by
  unfold putLevel
  try dsimp only
  repeat' (first
    | with_reducible apply Frame.refl
    | apply Eq.refl true
    | (with_reducible apply Frame.seq; with_reducible case k => first | apply fr_put)
    | with_reducible apply Frame.ite
    | (intro _ _; try dsimp only)
    | split)

theorem fr_evalGroup (g : Nat) (sites : List Site) (s : State) : Frame 0x100041E800080004 s (evalGroup g sites s) := by
  unfold evalGroup
  try dsimp only
  repeat' (first
    | with_reducible apply Frame.refl
    | apply Eq.refl true
    | (with_reducible apply Frame.seq; with_reducible case k => first | apply fr_postEvent | apply fr_putLevel | apply fr_thmEvent | apply fr_putAll | apply fr_putGroupState)
    | with_reducible apply Frame.ite
    | with_reducible apply Frame.foldl
    | with_reducible apply Frame.foldl_fst
    | (intro _ _; try dsimp only)
    | split
    | with_reducible apply Frame.set_thermal)

theorem fr_checkMonitor (i mv : Nat) (s : State) : Frame 0x100069F8091F2004 s (checkMonitor i mv s) := by
  unfold checkMonitor
  try dsimp only
  repeat' (first
    | with_reducible apply Frame.refl
    | apply Eq.refl true
    | (with_reducible apply Frame.seq; with_reducible case k => first | apply fr_bump | apply fr_postEvent | apply fr_startShutdown | apply fr_thmEvent | apply fr_putAll)
    | with_reducible apply Frame.ite
    | (intro _ _; try dsimp only)
    | split
    | with_reducible apply Frame.set_thermal)

theorem fr_checkSupplies (mon : List Nat) (s : State) : Frame 0x100069F8091F2004 s (checkSupplies mon s) := by
  unfold checkSupplies
  try dsimp only
  repeat' (first
    | with_reducible apply Frame.refl
    | apply Eq.refl true
    | (with_reducible apply Frame.seq; with_reducible case k => first | apply fr_put | apply fr_checkMonitor)
    | with_reducible apply Frame.ite
    | with_reducible apply Frame.foldl
    | with_reducible apply Frame.foldl_fst
    | (intro _ _; try dsimp only)
    | split
    | with_reducible apply Frame.set_thermal)

theorem fr_stackRound (n : Nat) (r : Option Int) (s : State) : Frame 0x400000000004 s (stackRound n r s) := by
  unfold stackRound
  try dsimp only
  repeat' (first
    | with_reducible apply Frame.refl
    | apply Eq.refl true
    | (with_reducible apply Frame.seq; with_reducible case k => first | apply fr_put | apply fr_putAll)
    | with_reducible apply Frame.ite
    | (intro _ _; try dsimp only)
    | split
    | with_reducible apply Frame.set_thermal)

theorem fr_blockRound (s : State) : Frame 0x400000000004 s (blockRound s) := by
  unfold blockRound
  try dsimp only
  repeat' (first
    | with_reducible apply Frame.refl
    | apply Eq.refl true
    | (with_reducible apply Frame.seq; with_reducible case k => first | apply fr_put | apply fr_putAll)
    | with_reducible apply Frame.ite
    | with_reducible apply Frame.foldl
    | with_reducible apply Frame.foldl_fst
    | (intro _ _; try dsimp only)
    | split
    | with_reducible apply Frame.set_thermal)

theorem fr_thermalRound (obs : RoundObs) (s : State) : Frame 0x100069F8091F2104 s (thermalRound obs s) := by
  unfold thermalRound
  try dsimp only
  repeat' (first
    | with_reducible apply Frame.refl
    | apply Eq.refl true
    | (with_reducible apply Frame.seq; with_reducible case k => first | apply fr_showSite | apply fr_checkSupplies | apply fr_evalGroup | apply fr_startShutdown | apply fr_putLevel | apply fr_stackRound | apply fr_blockRound)
    | with_reducible apply Frame.ite
    | with_reducible apply Frame.foldl
    | with_reducible apply Frame.foldl_fst
    | (intro _ _; try dsimp only)
    | split
    | with_reducible apply Frame.set_rounds
    | with_reducible apply Frame.set_pcs
    | ((with_reducible apply Frame.parts (by with_reducible rfl) (by with_reducible rfl)) <;> first | (apply Or.inl; apply Eq.refl true; done) | (apply Or.inr; with_reducible apply Eq.refl; done) | skip))

theorem fr_levelStep (g : Nat) (s : State) : Frame 0x400000000004 s (levelStep g s) := by
  unfold levelStep
  try dsimp only
  repeat' (first
    | with_reducible apply Frame.refl
    | apply Eq.refl true
    | (with_reducible apply Frame.seq; with_reducible case k => first | apply fr_putLevel)
    | with_reducible apply Frame.ite
    | (intro _ _; try dsimp only)
    | split
    | with_reducible apply Frame.set_thermal)

theorem fr_softShutdown (s : State) : Frame 0x100029F8091F2004 s (softShutdown s) := by
  unfold softShutdown
  try dsimp only
  repeat' (first
    | with_reducible apply Frame.refl
    | apply Eq.refl true
    | (with_reducible apply Frame.seq; with_reducible case k => first | apply fr_startShutdown)
    | with_reducible apply Frame.ite
    | (intro _ _; try dsimp only)
    | split)

end Sys2Proof.Machine
end

