-- ==== Sys2Proof/Laws/FramePhy.lean ====
section
/-! SUPPORT. What each operation of Phy.lean may change. -/

namespace Sys2Proof.Machine

open Reg

theorem fr_setLane (n c p lane : Nat) (v : Lane) (s : State) : Frame 0x800000 s (setLane n c p lane v s) := by
  unfold setLane
  try dsimp only
  repeat' (first
    | with_reducible apply Frame.refl
    | apply Eq.refl true
    | with_reducible apply Frame.ite
    | (intro _ _; try dsimp only)
    | split
    | with_reducible apply Frame.set_lanes)

theorem fr_captureLane (n : Nat) (s : State) : Frame 0x4 s (captureLane n s) := by
  unfold captureLane
  try dsimp only
  repeat' (first
    | with_reducible apply Frame.refl
    | apply Eq.refl true
    | (with_reducible apply Frame.seq; with_reducible case k => first | apply fr_putAll)
    | with_reducible apply Frame.ite
    | (intro _ _; try dsimp only)
    | split)

theorem fr_takePhy (n : Nat) (s : State) : Frame 0x1000000 s (takePhy n s) := by
  unfold takePhy
  try dsimp only
  repeat' (first
    | with_reducible apply Frame.refl
    | apply Eq.refl true
    | (with_reducible apply Frame.seq; with_reducible case k => first | apply fr_setHive)
    | with_reducible apply Frame.ite
    | (intro _ _; try dsimp only)
    | split)

theorem fr_setTiming (n rate : Nat) (timing : List Nat) (rfm : Option (Nat × Nat)) (s : State) : Frame 0x18 s (setTiming n rate timing rfm s) := by
  unfold setTiming
  try dsimp only
  repeat' (first
    | with_reducible apply Frame.refl
    | apply Eq.refl true
    | (with_reducible apply Frame.seq; with_reducible case k => first | apply fr_putForce)
    | with_reducible apply Frame.ite
    | with_reducible apply Frame.foldl
    | with_reducible apply Frame.foldl_fst
    | (intro _ _; try dsimp only)
    | split)

theorem fr_trainFail (n result ch pc gen pos total : Nat) (s : State) : Frame 0x180129F8019F2004 s (trainFail n result ch pc gen pos total s) := by
  unfold trainFail
  try dsimp only
  repeat' (first
    | with_reducible apply Frame.refl
    | apply Eq.refl true
    | (with_reducible apply Frame.seq; with_reducible case k => first | apply fr_hiveOff | apply fr_postEvent | apply fr_putAll)
    | with_reducible apply Frame.ite
    | (intro _ _; try dsimp only)
    | split)

theorem fr_setLanes (n gen : Nat) (obs : List LaneObs) (c p : Nat) (bad : List Nat) (s : State) : Frame 0x800004 s (setLanes n gen obs c p bad s) := by
  unfold setLanes
  try dsimp only
  repeat' (first
    | with_reducible apply Frame.refl
    | apply Eq.refl true
    | (with_reducible apply Frame.seq; with_reducible case k => first | apply fr_setLane | apply fr_putAll)
    | with_reducible apply Frame.ite
    | with_reducible apply Frame.foldl
    | with_reducible apply Frame.foldl_fst
    | (intro _ _; try dsimp only)
    | split)

theorem fr_showBanks (n : Nat) (s : State) : Frame 0x4 s (showBanks n s) := by
  unfold showBanks
  try dsimp only
  repeat' (first
    | with_reducible apply Frame.refl
    | apply Eq.refl true
    | (with_reducible apply Frame.seq; with_reducible case k => first | apply fr_putAll)
    | with_reducible apply Frame.ite
    | (intro _ _; try dsimp only)
    | split)

theorem fr_stageTest (n : Nat) (fail : List Nat) (s : State) : Frame 0x10004 s (stageTest n fail s) := by
  unfold stageTest
  try dsimp only
  repeat' (first
    | with_reducible apply Frame.refl
    | apply Eq.refl true
    | (with_reducible apply Frame.seq; with_reducible case k => first | apply fr_setGate | apply fr_showBanks)
    | with_reducible apply Frame.ite
    | with_reducible apply Frame.foldl
    | with_reducible apply Frame.foldl_fst
    | (intro _ _; try dsimp only)
    | split)

theorem fr_reinstallRemaps (n : Nat) (s : State) : Frame 0x4 s (reinstallRemaps n s) := by
  unfold reinstallRemaps
  try dsimp only
  repeat' (first
    | with_reducible apply Frame.refl
    | apply Eq.refl true
    | (with_reducible apply Frame.seq; with_reducible case k => first | apply fr_putAll)
    | with_reducible apply Frame.ite
    | with_reducible apply Frame.foldl
    | with_reducible apply Frame.foldl_fst
    | (intro _ _; try dsimp only)
    | split)

theorem fr_narrowRail (i : Nat) (s : State) : Frame 0x84 s (narrowRail i s) := by
  unfold narrowRail
  try dsimp only
  repeat' (first
    | with_reducible apply Frame.refl
    | apply Eq.refl true
    | (with_reducible apply Frame.seq; with_reducible case k => first | apply fr_freshDraw | apply fr_putAll)
    | with_reducible apply Frame.ite
    | (intro _ _; try dsimp only)
    | split)

theorem fr_trainPass (n : Nat) (obs : TrainObs) (rate : Nat) (s : State) : Frame 0x100001E80099009C s (trainPass n obs rate s) := by
  unfold trainPass
  try dsimp only
  repeat' (first
    | with_reducible apply Frame.refl
    | apply Eq.refl true
    | (with_reducible apply Frame.seq; with_reducible case k => first | apply fr_stageTest | apply fr_narrowRail | apply fr_setLanes | apply fr_setPc | apply fr_showCells | apply fr_putAll | apply fr_reinstallRemaps | apply fr_testOutcome | apply fr_setTiming)
    | with_reducible apply Frame.ite
    | with_reducible apply Frame.foldl
    | with_reducible apply Frame.foldl_fst
    | (intro _ _; try dsimp only)
    | split)

theorem fr_trainIdentity (n : Nat) (obs : TrainObs) (s : State) : Frame 0x4 s (trainIdentity n obs s) := by
  unfold trainIdentity
  try dsimp only
  repeat' (first
    | with_reducible apply Frame.refl
    | apply Eq.refl true
    | (with_reducible apply Frame.seq; with_reducible case k => first | apply fr_put | apply fr_putAll)
    | with_reducible apply Frame.ite
    | (intro _ _; try dsimp only)
    | split)

theorem fr_trainSteps (n : Nat) (obs : TrainObs) (s : State) : Frame 0x180129F8019F209C s (trainSteps n obs s) := by
  unfold trainSteps
  try dsimp only
  repeat' (first
    | with_reducible apply Frame.refl
    | apply Eq.refl true
    | (with_reducible apply Frame.seq; with_reducible case k => first | apply fr_trainFail | apply fr_trainPass)
    | with_reducible apply Frame.ite
    | (intro _ _; try dsimp only)
    | split)

theorem fr_hiveTraining (n : Nat) (obs : TrainObs) (s : State) : Frame 0x180129F8019F209C s (hiveTraining n obs s) := by
  unfold hiveTraining
  try dsimp only
  repeat' (first
    | with_reducible apply Frame.refl
    | apply Eq.refl true
    | (with_reducible apply Frame.seq; with_reducible case k => first | apply fr_put | apply fr_trainFail | apply fr_takePhy | apply fr_trainIdentity | apply fr_trainSteps)
    | with_reducible apply Frame.ite
    | (intro _ _; try dsimp only)
    | split)

theorem fr_setProbe (n c p left : Nat) (s : State) : Frame 0x100000 s (setProbe n c p left s) := by
  unfold setProbe
  try dsimp only
  repeat' (first
    | with_reducible apply Frame.refl
    | apply Eq.refl true
    | (with_reducible apply Frame.seq; with_reducible case k => first | apply fr_setPc)
    | with_reducible apply Frame.ite
    | (intro _ _; try dsimp only)
    | split)

theorem fr_startRecal (n : Nat) (pcs : List (Nat × Nat)) (s : State) : Frame 0x800001100004 s (startRecal n pcs s) := by
  unfold startRecal
  try dsimp only
  repeat' (first
    | with_reducible apply Frame.refl
    | apply Eq.refl true
    | (with_reducible apply Frame.seq; with_reducible case k => first | apply fr_put | apply fr_setProbe | apply fr_takePhy)
    | with_reducible apply Frame.ite
    | with_reducible apply Frame.foldl
    | with_reducible apply Frame.foldl_fst
    | (intro _ _; try dsimp only)
    | split
    | with_reducible apply Frame.set_recal)

theorem fr_noteTemp (n ran : Nat) (s : State) : Frame 0x1000000 s (noteTemp n ran s) := by
  unfold noteTemp
  try dsimp only
  repeat' (first
    | with_reducible apply Frame.refl
    | apply Eq.refl true
    | (with_reducible apply Frame.seq; with_reducible case k => first | apply fr_setHive)
    | with_reducible apply Frame.ite
    | (intro _ _; try dsimp only)
    | split)

theorem fr_endRecal (n : Nat) (s : State) : Frame 0x800001000004 s (endRecal n s) := by
  unfold endRecal
  try dsimp only
  repeat' (first
    | with_reducible apply Frame.refl
    | apply Eq.refl true
    | (with_reducible apply Frame.seq; with_reducible case k => first | apply fr_putAll | apply fr_noteTemp)
    | with_reducible apply Frame.ite
    | (intro _ _; try dsimp only)
    | split
    | with_reducible apply Frame.set_recal)

theorem fr_recalLane (n : Nat) (s : State) (o : LaneObs) : Frame 0x800000800004 s (recalLane n s o) := by
  unfold recalLane
  try dsimp only
  repeat' (first
    | with_reducible apply Frame.refl
    | apply Eq.refl true
    | (with_reducible apply Frame.seq; with_reducible case k => first | apply fr_bump | apply fr_setLane)
    | with_reducible apply Frame.ite
    | (intro _ _; try dsimp only)
    | split
    | with_reducible apply Frame.set_recal)

theorem fr_recalPc (n : Nat) (obs : List LaneObs) (s : State) (k : Nat) : Frame 0x800000800004 s (recalPc n obs s k) := by
  unfold recalPc
  try dsimp only
  repeat' (first
    | with_reducible apply Frame.refl
    | apply Eq.refl true
    | (with_reducible apply Frame.seq; with_reducible case k => first | apply fr_recalLane)
    | with_reducible apply Frame.ite
    | with_reducible apply Frame.foldl
    | with_reducible apply Frame.foldl_fst
    | (intro _ _; try dsimp only)
    | split
    | with_reducible apply Frame.set_recal)

theorem fr_recalRound (n : Nat) (obs : List LaneObs) (s : State) : Frame 0x1800001900004 s (recalRound n obs s) := by
  unfold recalRound
  try dsimp only
  repeat' (first
    | with_reducible apply Frame.refl
    | apply Eq.refl true
    | (with_reducible apply Frame.seq; with_reducible case k => first | apply fr_recalPc | apply fr_endRecal | apply fr_startRecal)
    | with_reducible apply Frame.ite
    | with_reducible apply Frame.foldl
    | with_reducible apply Frame.foldl_fst
    | (intro _ _; try dsimp only)
    | split
    | with_reducible apply Frame.set_recalNext)

theorem fr_recalNow (n : Nat) (s : State) : Frame 0x800001100004 s (recalNow n s) := by
  unfold recalNow
  try dsimp only
  repeat' (first
    | with_reducible apply Frame.refl
    | apply Eq.refl true
    | (with_reducible apply Frame.seq; with_reducible case k => first | apply fr_endRecal | apply fr_startRecal)
    | with_reducible apply Frame.ite
    | (intro _ _; try dsimp only)
    | split)

theorem fr_recalDeadline (n c p : Nat) (s : State) : Frame 0x800001100004 s (recalDeadline n c p s) := by
  unfold recalDeadline
  try dsimp only
  repeat' (first
    | with_reducible apply Frame.refl
    | apply Eq.refl true
    | (with_reducible apply Frame.seq; with_reducible case k => first | apply fr_endRecal | apply fr_bump | apply fr_setProbe)
    | with_reducible apply Frame.ite
    | (intro _ _; try dsimp only)
    | split
    | with_reducible apply Frame.set_recal)

theorem fr_dropRecal (n : Nat) (s : State) : Frame 0x800000100000 s (dropRecal n s) := by
  unfold dropRecal
  try dsimp only
  repeat' (first
    | with_reducible apply Frame.refl
    | apply Eq.refl true
    | (with_reducible apply Frame.seq; with_reducible case k => first | apply fr_setProbe)
    | with_reducible apply Frame.ite
    | with_reducible apply Frame.foldl
    | with_reducible apply Frame.foldl_fst
    | (intro _ _; try dsimp only)
    | split
    | with_reducible apply Frame.set_recal)

theorem fr_eraseSlotClear (n c p i lane : Nat) (t : State) : Frame 0x4 t (eraseSlotClear n c p i lane t) := by
  unfold eraseSlotClear
  try dsimp only
  repeat' (first
    | with_reducible apply Frame.refl
    | apply Eq.refl true
    | (with_reducible apply Frame.seq; with_reducible case k => first | apply fr_put)
    | with_reducible apply Frame.ite
    | (intro _ _; try dsimp only)
    | split)

theorem fr_laneMove (n c p lane : Nat) (obs : LaneObs) (s : State) : Frame 0x100101E800980004 s (laneMove n c p lane obs s) := by
  unfold laneMove
  try dsimp only
  repeat' (first
    | with_reducible apply Frame.refl
    | apply Eq.refl true
    | (with_reducible apply Frame.seq; with_reducible case k => first | apply fr_eraseSlotClear | apply fr_postEvent | apply fr_setLane | apply fr_quiesce | apply fr_putAll)
    | with_reducible apply Frame.ite
    | with_reducible apply Frame.foldl
    | with_reducible apply Frame.foldl_fst
    | (intro _ _; try dsimp only)
    | split)

theorem fr_dlyRamp (n c p : Nat) (s : State) : Frame 0x800000 s (dlyRamp n c p s) := by
  unfold dlyRamp
  try dsimp only
  repeat' (first
    | with_reducible apply Frame.refl
    | apply Eq.refl true
    | with_reducible apply Frame.ite
    | (intro _ _; try dsimp only)
    | split
    | with_reducible apply Frame.set_lanes)

end Sys2Proof.Machine
end

