-- ==== Sys2Proof/Laws/FrameGate.lean ====
section
/-! SUPPORT. What each operation of Gate.lean may change. -/

namespace Sys2Proof.Machine

open Reg

theorem fr_sampleItem (n kind src cls uid since : Nat) (words : List Nat) (s : State) : Frame 0x80000000000 s (sampleItem n kind src cls uid since words s) := by
  unfold sampleItem
  try dsimp only
  repeat' (first
    | with_reducible apply Frame.refl
    | apply Eq.refl true
    | with_reducible apply Frame.ite
    | (intro _ _; try dsimp only)
    | split
    | with_reducible apply Frame.set_samplers)

theorem fr_sampleGrant (n : Nat) (a : Part) (s : State) : Frame 0x80000000000 s (sampleGrant n a s) := by
  unfold sampleGrant
  try dsimp only
  repeat' (first
    | with_reducible apply Frame.refl
    | apply Eq.refl true
    | (with_reducible apply Frame.seq; with_reducible case k => first | apply fr_sampleItem)
    | with_reducible apply Frame.ite
    | (intro _ _; try dsimp only)
    | split
    | with_reducible apply Frame.set_samplers)

theorem fr_grantPart (n : Nat) (urg : BitVec 32) (a : Part) (s : State) : Frame 0x8000C0000010000 s (grantPart n urg a s) := by
  unfold grantPart
  try dsimp only
  repeat' (first
    | with_reducible apply Frame.refl
    | apply Eq.refl true
    | (with_reducible apply Frame.seq; with_reducible case k => first | apply fr_emit | apply fr_setGate | apply fr_sampleGrant)
    | with_reducible apply Frame.ite
    | with_reducible apply Frame.foldl
    | with_reducible apply Frame.foldl_fst
    | (intro _ _; try dsimp only)
    | split
    | with_reducible apply Frame.set_bwBytes)

theorem fr_drawLoop (n : Nat) (urg : BitVec 32) (old : List Part) (k : Nat) (won : List Part) (s : State) : Frame 0x8000C0000010000 s (drawLoop n urg old k won s).2 := by
  induction k generalizing won s with
  | zero =>
    unfold drawLoop
    try dsimp only
    repeat' (first
      | with_reducible apply Frame.refl
      | apply Eq.refl true
      | (with_reducible apply Frame.seq; with_reducible case k => first | apply fr_emit | apply fr_grantPart | apply fr_setGate)
      | with_reducible apply Frame.ite
      | with_reducible apply Frame.foldl
      | with_reducible apply Frame.foldl_fst
      | (intro _ _; try dsimp only)
      | split)
  | succ k ih =>
    unfold drawLoop
    try dsimp only
    repeat' (first
      | with_reducible apply Frame.refl
      | apply Eq.refl true
      | (with_reducible apply Frame.seq; with_reducible case k => first | apply ih | apply fr_emit | apply fr_grantPart | apply fr_setGate)
      | with_reducible apply Frame.ite
      | with_reducible apply Frame.foldl
      | with_reducible apply Frame.foldl_fst
      | (intro _ _; try dsimp only)
      | split)

theorem fr_loseDraw (n m : Nat) (losers : List Part) (s : State) : Frame 0x40000012000 s (loseDraw n m losers s) := by
  unfold loseDraw
  try dsimp only
  repeat' (first
    | with_reducible apply Frame.refl
    | apply Eq.refl true
    | (with_reducible apply Frame.seq; with_reducible case k => first | apply fr_emit | apply fr_egressPut | apply fr_setGate)
    | with_reducible apply Frame.ite
    | (intro _ _; try dsimp only)
    | split)

theorem fr_lossStep (n : Nat) (old won : List Part) (s : State) : Frame 0x40000012000 s (lossStep n old won s) := by
  unfold lossStep
  try dsimp only
  repeat' (first
    | with_reducible apply Frame.refl
    | apply Eq.refl true
    | (with_reducible apply Frame.seq; with_reducible case k => first | apply fr_loseDraw)
    | with_reducible apply Frame.ite
    | with_reducible apply Frame.foldl
    | with_reducible apply Frame.foldl_fst
    | (intro _ _; try dsimp only)
    | split)

theorem fr_backoffExpiry (n m : Nat) (s : State) : Frame 0x10000 s (backoffExpiry n m s) := by
  unfold backoffExpiry
  try dsimp only
  repeat' (first
    | with_reducible apply Frame.refl
    | apply Eq.refl true
    | (with_reducible apply Frame.seq; with_reducible case k => first | apply fr_setGate)
    | with_reducible apply Frame.ite
    | (intro _ _; try dsimp only)
    | split)

theorem fr_pullEntries (n uid : Nat) (s : State) : Frame 0x100000 s (pullEntries n uid s) := by
  unfold pullEntries
  try dsimp only
  repeat' (first
    | with_reducible apply Frame.refl
    | apply Eq.refl true
    | with_reducible apply Frame.ite
    | (intro _ _; try dsimp only)
    | split
    | with_reducible apply Frame.set_pcs)

theorem fr_rejoin (a : Part) (s : State) : Frame 0x110000 s (rejoin a s) := by
  unfold rejoin
  try dsimp only
  repeat' (first
    | with_reducible apply Frame.refl
    | apply Eq.refl true
    | (with_reducible apply Frame.seq; with_reducible case k => first | apply fr_setGate | apply fr_pullEntries)
    | with_reducible apply Frame.ite
    | (intro _ _; try dsimp only)
    | split)

theorem fr_revoke (a : Part) (s : State) : Frame 0x40000132004 s (revoke a s) := by
  unfold revoke
  try dsimp only
  repeat' (first
    | with_reducible apply Frame.refl
    | apply Eq.refl true
    | (with_reducible apply Frame.seq; with_reducible case k => first | apply fr_emit | apply fr_egressPut | apply fr_rejoin | apply fr_bump)
    | with_reducible apply Frame.ite
    | with_reducible apply Frame.foldl
    | with_reducible apply Frame.foldl_fst
    | (intro _ _; try dsimp only)
    | split
    | with_reducible apply Frame.set_live)

theorem fr_makeRoom (n : Nat) (taken : List Part) (a : Part) (k : Nat) (s : State) : Frame 0x40000132004 s (makeRoom n taken a k s) := by
  induction k generalizing s with
  | zero =>
    unfold makeRoom
    try dsimp only
    repeat' (first
      | with_reducible apply Frame.refl
      | apply Eq.refl true
      | (with_reducible apply Frame.seq; with_reducible case k => first | apply fr_revoke)
      | with_reducible apply Frame.ite
      | (intro _ _; try dsimp only)
      | split)
  | succ k ih =>
    unfold makeRoom
    try dsimp only
    repeat' (first
      | with_reducible apply Frame.refl
      | apply Eq.refl true
      | (with_reducible apply Frame.seq; with_reducible case k => first | apply ih | apply fr_revoke)
      | with_reducible apply Frame.ite
      | (intro _ _; try dsimp only)
      | split)

theorem fr_preempt (n : Nat) (urg : BitVec 32) (taken : List Part) (s : State) : Frame 0x40000132004 s (preempt n urg taken s) := by
  unfold preempt
  try dsimp only
  repeat' (first
    | with_reducible apply Frame.refl
    | apply Eq.refl true
    | (with_reducible apply Frame.seq; with_reducible case k => first | apply fr_makeRoom)
    | with_reducible apply Frame.ite
    | with_reducible apply Frame.foldl
    | with_reducible apply Frame.foldl_fst
    | (intro _ _; try dsimp only)
    | split)

theorem fr_queueBeat (n uid : Nat) (isWrite urgent : Bool) (r : Req) (b : PBeat) (s : State) : Frame 0x40000100400 s (queueBeat n uid isWrite urgent r b s) := by
  unfold queueBeat
  try dsimp only
  repeat' (first
    | with_reducible apply Frame.refl
    | apply Eq.refl true
    | (with_reducible apply Frame.seq; with_reducible case k => first | apply fr_emit | apply fr_setPc)
    | with_reducible apply Frame.ite
    | (intro _ _; try dsimp only)
    | split
    | with_reducible apply Frame.set_nextUid)

theorem fr_moveBeat (n uid : Nat) (isWrite urgent : Bool) (r : Req) (b : PBeat) (s : State) : Frame 0x10000C1000172400 s (moveBeat n uid isWrite urgent r b s) := by
  unfold moveBeat
  try dsimp only
  repeat' (first
    | with_reducible apply Frame.refl
    | apply Eq.refl true
    | (with_reducible apply Frame.seq; with_reducible case k => first | apply fr_queueBeat | apply fr_ackWrite)
    | with_reducible apply Frame.ite
    | (intro _ _; try dsimp only)
    | split)

theorem fr_beginLock (n : Nat) (a : Part) (s : State) : Frame 0x10000 s (beginLock n a s) := by
  unfold beginLock
  try dsimp only
  repeat' (first
    | with_reducible apply Frame.refl
    | apply Eq.refl true
    | (with_reducible apply Frame.seq; with_reducible case k => first | apply fr_setGate)
    | with_reducible apply Frame.ite
    | (intro _ _; try dsimp only)
    | split)

theorem fr_endLock (n : Nat) (l : Lock) (s : State) : Frame 0x10000C1000072000 s (endLock n l s) := by
  unfold endLock
  try dsimp only
  repeat' (first
    | with_reducible apply Frame.refl
    | apply Eq.refl true
    | (with_reducible apply Frame.seq; with_reducible case k => first | apply fr_emit | apply fr_ackWrite | apply fr_setGate)
    | with_reducible apply Frame.ite
    | with_reducible apply Frame.foldl
    | with_reducible apply Frame.foldl_fst
    | (intro _ _; try dsimp only)
    | split)

theorem fr_lockBeat (n : Nat) (s : State) : Frame 0x10000C1400172400 s (lockBeat n s) := by
  unfold lockBeat
  try dsimp only
  repeat' (first
    | with_reducible apply Frame.refl
    | apply Eq.refl true
    | (with_reducible apply Frame.seq; with_reducible case k => first | apply fr_queueBeat | apply fr_setGate | apply fr_endLock)
    | with_reducible apply Frame.ite
    | (intro _ _; try dsimp only)
    | split
    | with_reducible apply Frame.set_acks)

theorem fr_curtainCommit (n : Nat) (s : State) : Frame 0x10000C1400172400 s (curtainCommit n s) := by
  unfold curtainCommit
  try dsimp only
  repeat' (first
    | with_reducible apply Frame.refl
    | apply Eq.refl true
    | (with_reducible apply Frame.seq; with_reducible case k => first | apply fr_lockBeat)
    | with_reducible apply Frame.ite
    | with_reducible apply Frame.foldl
    | with_reducible apply Frame.foldl_fst
    | (intro _ _; try dsimp only)
    | split)

theorem fr_retireBank (n k : Nat) (s : State) : Frame 0x10004 s (retireBank n k s) := by
  unfold retireBank
  try dsimp only
  repeat' (first
    | with_reducible apply Frame.refl
    | apply Eq.refl true
    | (with_reducible apply Frame.seq; with_reducible case k => first | apply fr_setGate | apply fr_showBanks)
    | with_reducible apply Frame.ite
    | (intro _ _; try dsimp only)
    | split)

theorem fr_stageParity (n k : Nat) (s : State) : Frame 0x1000040800032004 s (stageParity n k s) := by
  unfold stageParity
  try dsimp only
  repeat' (first
    | with_reducible apply Frame.refl
    | apply Eq.refl true
    | (with_reducible apply Frame.seq; with_reducible case k => first | apply fr_tearCurtain | apply fr_retireBank)
    | with_reducible apply Frame.ite
    | (intro _ _; try dsimp only)
    | split)

theorem fr_stageParityIf (parityError : Bool) (n k : Nat) (s : State) : Frame 0x1000040800032004 s (stageParityIf parityError n k s) := by
  unfold stageParityIf
  try dsimp only
  repeat' (first
    | with_reducible apply Frame.refl
    | apply Eq.refl true
    | (with_reducible apply Frame.seq; with_reducible case k => first | apply fr_stageParity)
    | with_reducible apply Frame.ite
    | (intro _ _; try dsimp only)
    | split)

theorem fr_curtainComplete (n k : Nat) (s : State) : Frame 0x10000 s (curtainComplete n k s) := by
  unfold curtainComplete
  try dsimp only
  repeat' (first
    | with_reducible apply Frame.refl
    | apply Eq.refl true
    | (with_reducible apply Frame.seq; with_reducible case k => first | apply fr_setGate)
    | with_reducible apply Frame.ite
    | with_reducible apply Frame.foldl
    | with_reducible apply Frame.foldl_fst
    | (intro _ _; try dsimp only)
    | split)

theorem fr_curtainWatchdog (k : Nat) (s : State) : Frame 0x1000040800032004 s (curtainWatchdog k s) := by
  unfold curtainWatchdog
  try dsimp only
  repeat' (first
    | with_reducible apply Frame.refl
    | apply Eq.refl true
    | (with_reducible apply Frame.seq; with_reducible case k => first | apply fr_tearCurtain)
    | with_reducible apply Frame.ite
    | with_reducible apply Frame.foldl
    | with_reducible apply Frame.foldl_fst
    | (intro _ _; try dsimp only)
    | split)

theorem fr_transfer (n : Nat) (x : Grant) (s : State) : Frame 0x10002C3801172404 s (transfer n x s) := by
  unfold transfer
  try dsimp only
  repeat' (first
    | with_reducible apply Frame.refl
    | apply Eq.refl true
    | (with_reducible apply Frame.seq; with_reducible case k => first | apply fr_setGate | apply fr_beginLock | apply fr_pushPart | apply fr_moveBeat)
    | with_reducible apply Frame.ite
    | with_reducible apply Frame.foldl
    | with_reducible apply Frame.foldl_fst
    | (intro _ _; try dsimp only)
    | split)

theorem fr_guarGain (n : Nat) (s : State) : Frame 0x10000 s (guarGain n s) := by
  unfold guarGain
  try dsimp only
  repeat' (first
    | with_reducible apply Frame.refl
    | apply Eq.refl true
    | (with_reducible apply Frame.seq; with_reducible case k => first | apply fr_setGate)
    | with_reducible apply Frame.ite
    | with_reducible apply Frame.foldl
    | with_reducible apply Frame.foldl_fst
    | (intro _ _; try dsimp only)
    | split)

theorem fr_busyStep (n : Nat) (s : State) : Frame 0x10000 s (busyStep n s) := by
  unfold busyStep
  try dsimp only
  repeat' (first
    | with_reducible apply Frame.refl
    | apply Eq.refl true
    | (with_reducible apply Frame.seq; with_reducible case k => first | apply fr_setGate)
    | with_reducible apply Frame.ite
    | with_reducible apply Frame.foldl
    | with_reducible apply Frame.foldl_fst
    | (intro _ _; try dsimp only)
    | split)

theorem fr_roomStalls (n : Nat) (old : List Part) (s : State) : Frame 0x40000000000 s (roomStalls n old s) := by
  unfold roomStalls
  try dsimp only
  repeat' (first
    | with_reducible apply Frame.refl
    | apply Eq.refl true
    | (with_reducible apply Frame.seq; with_reducible case k => first | apply fr_emit)
    | with_reducible apply Frame.ite
    | with_reducible apply Frame.foldl
    | with_reducible apply Frame.foldl_fst
    | (intro _ _; try dsimp only)
    | split)

theorem fr_gateDraw (n : Nat) (urg : BitVec 32) (s : State) : Frame 0x18002C3C01172404 s (gateDraw n urg s) := by
  unfold gateDraw
  try dsimp only
  repeat' (first
    | with_reducible apply Frame.refl
    | apply Eq.refl true
    | (with_reducible apply Frame.seq; with_reducible case k => first | apply fr_setGate | apply fr_lossStep | apply fr_preempt | apply fr_drawLoop | apply fr_busyStep | apply fr_guarGain | apply fr_lockBeat | apply fr_roomStalls | apply fr_transfer)
    | with_reducible apply Frame.ite
    | with_reducible apply Frame.foldl
    | with_reducible apply Frame.foldl_fst
    | (intro _ _; try dsimp only)
    | split)

end Sys2Proof.Machine
end

