-- ==== Sys2Proof/Laws/FrameRegulation.lean ====
section
/-! SUPPORT. What each operation of Regulation.lean may change. -/

namespace Sys2Proof.Machine

open Reg

theorem fr_faultPort (r : Req) (window : Bool) (s : State) : Frame 0x2004 s (faultPort r window s) := by
  unfold faultPort
  try dsimp only
  repeat' (first
    | with_reducible apply Frame.refl
    | apply Eq.refl true
    | (with_reducible apply Frame.seq; with_reducible case k => first | apply fr_recordFault | apply fr_finishAtPort)
    | with_reducible apply Frame.ite
    | (intro _ _; try dsimp only)
    | split)

theorem fr_setCurt (k : Nat) (c : Curt) (s : State) : Frame 0x2000 s (setCurt k c s) := by
  unfold setCurt
  try dsimp only
  repeat' (first
    | with_reducible apply Frame.refl
    | apply Eq.refl true
    | (with_reducible apply Frame.seq; with_reducible case k => first | apply fr_setPort)
    | with_reducible apply Frame.ite
    | (intro _ _; try dsimp only)
    | split)

theorem fr_tornNow (k : Nat) (r : Req) (s : State) : Frame 0x2000 s (tornNow k r s) := by
  unfold tornNow
  try dsimp only
  repeat' (first
    | with_reducible apply Frame.refl
    | apply Eq.refl true
    | (with_reducible apply Frame.seq; with_reducible case k => first | apply fr_disown | apply fr_finishAtPort)
    | with_reducible apply Frame.ite
    | (intro _ _; try dsimp only)
    | split)

theorem fr_waitIngress (k : Nat) (r : Req) (s : State) : Frame 0x2000 s (waitIngress k r s) := by
  unfold waitIngress
  try dsimp only
  repeat' (first
    | with_reducible apply Frame.refl
    | apply Eq.refl true
    | (with_reducible apply Frame.seq; with_reducible case k => first | apply fr_setPort)
    | with_reducible apply Frame.ite
    | (intro _ _; try dsimp only)
    | split)

theorem fr_arriveOpen (k : Nat) (r : Req) (s : State) : Frame 0x1000040800032004 s (arriveOpen k r s) := by
  unfold arriveOpen
  try dsimp only
  repeat' (first
    | with_reducible apply Frame.refl
    | apply Eq.refl true
    | (with_reducible apply Frame.seq; with_reducible case k => first | apply fr_emit | apply fr_portErr | apply fr_tornNow | apply fr_tearCurtain | apply fr_setCurt | apply fr_waitIngress)
    | with_reducible apply Frame.ite
    | (intro _ _; try dsimp only)
    | split)

theorem fr_arriveInside (k : Nat) (r : Req) (s : State) : Frame 0x1000040800032004 s (arriveInside k r s) := by
  unfold arriveInside
  try dsimp only
  repeat' (first
    | with_reducible apply Frame.refl
    | apply Eq.refl true
    | (with_reducible apply Frame.seq; with_reducible case k => first | apply fr_tornNow | apply fr_tearCurtain | apply fr_setCurt | apply fr_waitIngress)
    | with_reducible apply Frame.ite
    | (intro _ _; try dsimp only)
    | split)

theorem fr_decodeHead (op : Op) (k : Nat) (s : State) : Frame 0x1000040800032004 s (decodeHead op k s) := by
  unfold decodeHead
  try dsimp only
  repeat' (first
    | with_reducible apply Frame.refl
    | apply Eq.refl true
    | (with_reducible apply Frame.seq; with_reducible case k => first | apply fr_arriveInside | apply fr_setPort | apply fr_faultPort | apply fr_disown | apply fr_answerDataParity | apply fr_arriveOpen | apply fr_finishAtPort | apply fr_waitIngress)
    | with_reducible apply Frame.ite
    | (intro _ _; try dsimp only)
    | split)

theorem fr_loseWrite (m : Nat) (s : State) (uid : Nat) : Frame 0x1000041800072004 s (loseWrite m s uid) := by
  unfold loseWrite
  try dsimp only
  repeat' (first
    | with_reducible apply Frame.refl
    | apply Eq.refl true
    | (with_reducible apply Frame.seq; with_reducible case k => first | apply fr_returnCredits | apply fr_setPort | apply fr_tryFinish | apply fr_tearCurtain | apply fr_disown)
    | with_reducible apply Frame.ite
    | (intro _ _; try dsimp only)
    | split
    | with_reducible apply Frame.set_live)

theorem fr_losePath (parityError : Bool) (m : Nat) (uids : List Nat) (s : State) : Frame 0x1000041800072004 s (losePath parityError m uids s) := by
  unfold losePath
  try dsimp only
  repeat' (first
    | with_reducible apply Frame.refl
    | apply Eq.refl true
    | (with_reducible apply Frame.seq; with_reducible case k => first | apply fr_loseWrite)
    | with_reducible apply Frame.ite
    | with_reducible apply Frame.foldl
    | with_reducible apply Frame.foldl_fst
    | (intro _ _; try dsimp only)
    | split)

theorem fr_setBucket (b : Nat) (v : Int) (s : State) : Frame 0x8004 s (setBucket b v s) := by
  unfold setBucket
  try dsimp only
  repeat' (first
    | with_reducible apply Frame.refl
    | apply Eq.refl true
    | (with_reducible apply Frame.seq; with_reducible case k => first | apply fr_put)
    | with_reducible apply Frame.ite
    | (intro _ _; try dsimp only)
    | split
    | with_reducible apply Frame.set_tokens)

theorem fr_gainBuckets (s : State) : Frame 0x8004 s (gainBuckets s) := by
  unfold gainBuckets
  try dsimp only
  repeat' (first
    | with_reducible apply Frame.refl
    | apply Eq.refl true
    | (with_reducible apply Frame.seq; with_reducible case k => first | apply fr_setBucket)
    | with_reducible apply Frame.ite
    | with_reducible apply Frame.foldl
    | with_reducible apply Frame.foldl_fst
    | (intro _ _; try dsimp only)
    | split)

theorem fr_chargeClass (c beats : Nat) (s : State) : Frame 0x8004 s (chargeClass c beats s).1 := by
  unfold chargeClass
  try dsimp only
  repeat' (first
    | with_reducible apply Frame.refl
    | apply Eq.refl true
    | (with_reducible apply Frame.seq; with_reducible case k => first | apply fr_setBucket)
    | with_reducible apply Frame.ite
    | (intro _ _; try dsimp only)
    | split)

theorem fr_refillClass (c : Nat) (s : State) : Frame 0x8004 s (refillClass c s) := by
  unfold refillClass
  try dsimp only
  repeat' (first
    | with_reducible apply Frame.refl
    | apply Eq.refl true
    | (with_reducible apply Frame.seq; with_reducible case k => first | apply fr_setBucket)
    | with_reducible apply Frame.ite
    | (intro _ _; try dsimp only)
    | split)

theorem fr_bellWrite (r : Req) (s : State) : Frame 0x40002002004 s (bellWrite r s) := by
  unfold bellWrite
  try dsimp only
  repeat' (first
    | with_reducible apply Frame.refl
    | apply Eq.refl true
    | (with_reducible apply Frame.seq; with_reducible case k => first | apply fr_answerPort | apply fr_badIndex | apply fr_recordFault | apply fr_cplHead | apply fr_descTail)
    | with_reducible apply Frame.ite
    | (intro _ _; try dsimp only)
    | split)

theorem fr_arrivePart (r : Req) (s : State) (n : Nat) : Frame 0x1800083001072000 s (arrivePart r s n) := by
  unfold arrivePart
  try dsimp only
  repeat' (first
    | with_reducible apply Frame.refl
    | apply Eq.refl true
    | (with_reducible apply Frame.seq; with_reducible case k => first | apply fr_poisonPart | apply fr_setGate)
    | with_reducible apply Frame.ite
    | (intro _ _; try dsimp only)
    | split)

theorem fr_launch (r : Req) (s : State) : Frame 0x1800083001072000 s (launch r s) := by
  unfold launch
  try dsimp only
  repeat' (first
    | with_reducible apply Frame.refl
    | apply Eq.refl true
    | (with_reducible apply Frame.seq; with_reducible case k => first | apply fr_arrivePart)
    | with_reducible apply Frame.ite
    | with_reducible apply Frame.foldl
    | with_reducible apply Frame.foldl_fst
    | (intro _ _; try dsimp only)
    | split
    | with_reducible apply Frame.set_live)

theorem fr_refuse (r : Req) (s : State) : Frame 0x1000041800042004 s (refuse r s) := by
  unfold refuse
  try dsimp only
  repeat' (first
    | with_reducible apply Frame.refl
    | apply Eq.refl true
    | (with_reducible apply Frame.seq; with_reducible case k => first | apply fr_emit | apply fr_answerPort | apply fr_cfgPut | apply fr_recordFault | apply fr_bcastWrote | apply fr_bump | apply fr_ppRespond | apply fr_arrive | apply fr_sendTlp)
    | with_reducible apply Frame.ite
    | (intro _ _; try dsimp only)
    | split)

theorem fr_leaveEvents (r : Req) (s : State) : Frame 0x40000000000 s (leaveEvents r s) := by
  unfold leaveEvents
  try dsimp only
  repeat' (first
    | with_reducible apply Frame.refl
    | apply Eq.refl true
    | (with_reducible apply Frame.seq; with_reducible case k => first | apply fr_emit)
    | with_reducible apply Frame.ite
    | (intro _ _; try dsimp only)
    | split)

theorem fr_peerSilent (r : Req) (s : State) : Frame 0x42000 s (peerSilent r s) := by
  unfold peerSilent
  try dsimp only
  repeat' (first
    | with_reducible apply Frame.refl
    | apply Eq.refl true
    | (with_reducible apply Frame.seq; with_reducible case k => first | apply fr_answerPoisonAll | apply fr_arrive)
    | with_reducible apply Frame.ite
    | (intro _ _; try dsimp only)
    | split)

theorem fr_toPeer (r : Req) (s : State) : Frame 0x1000042000 s (toPeer r s) := by
  unfold toPeer
  try dsimp only
  repeat' (first
    | with_reducible apply Frame.refl
    | apply Eq.refl true
    | (with_reducible apply Frame.seq; with_reducible case k => first | apply fr_peerSilent)
    | with_reducible apply Frame.ite
    | (intro _ _; try dsimp only)
    | split
    | with_reducible apply Frame.set_peer)

theorem fr_leaveIngress (r : Req) (s : State) : Frame 0x18000C3803072004 s (leaveIngress r s) := by
  unfold leaveIngress
  try dsimp only
  repeat' (first
    | with_reducible apply Frame.refl
    | apply Eq.refl true
    | (with_reducible apply Frame.seq; with_reducible case k => first | apply fr_returnCredits | apply fr_launch | apply fr_toPeer | apply fr_setGate | apply fr_leaveEvents | apply fr_refuse | apply fr_bellWrite)
    | with_reducible apply Frame.ite
    | (intro _ _; try dsimp only)
    | split)

theorem fr_passReq (m level : Nat) (r : Req) (s : State) : Frame 0x18000C380307A004 s (passReq m level r s) := by
  unfold passReq
  try dsimp only
  repeat' (first
    | with_reducible apply Frame.refl
    | apply Eq.refl true
    | (with_reducible apply Frame.seq; with_reducible case k => first | apply fr_setPort | apply fr_leaveIngress | apply fr_chargeClass)
    | with_reducible apply Frame.ite
    | (intro _ _; try dsimp only)
    | (rename_i h; refine Frame.of_eq1 h (fr_chargeClass ..) rfl ?_)
    | split)

theorem fr_roundOf (m level : Nat) (l : List Nat) (k : Nat) (s : State) : Frame 0x18000C380307A004 s (roundOf m level l k s).2.2 := by
  induction l generalizing k s with
  | nil => exact .refl
  | cons c cs ih =>
    unfold roundOf
    split
    · exact .refl
    · split
      · exact ih ..
      · dsimp only
        split
        · exact Frame.seq (Frame.mono (fr_passReq ..) rfl) (ih ..) rfl
        · exact ih ..

theorem fr_rounds (m level : Nat) (k : Nat) (cs : List Nat) (j : Nat) (s : State) : Frame 0x18000C380307A004 s (rounds m level k cs j s) := by
  induction k generalizing cs j s with
  | zero =>
    unfold rounds
    try dsimp only
    repeat' (first
      | with_reducible apply Frame.refl
      | apply Eq.refl true
      | (with_reducible apply Frame.seq; with_reducible case k => first | apply fr_roundOf)
      | with_reducible apply Frame.ite
      | (intro _ _; try dsimp only)
      | split)
  | succ k ih =>
    unfold rounds
    try dsimp only
    repeat' (first
      | with_reducible apply Frame.refl
      | apply Eq.refl true
      | (with_reducible apply Frame.seq; with_reducible case k => first | apply ih | apply fr_roundOf)
      | with_reducible apply Frame.ite
      | (intro _ _; try dsimp only)
      | split)

theorem fr_heldEvents (m level : Nat) (s : State) : Frame 0x40000000000 s (heldEvents m level s) := by
  unfold heldEvents
  try dsimp only
  repeat' (first
    | with_reducible apply Frame.refl
    | apply Eq.refl true
    | (with_reducible apply Frame.seq; with_reducible case k => first | apply fr_emit)
    | with_reducible apply Frame.ite
    | (intro _ _; try dsimp only)
    | split)

theorem fr_examine (urg : BitVec 32) (s : State) (m : Nat) : Frame 0x18000C380307A004 s (examine urg s m) := by
  unfold examine
  try dsimp only
  repeat' (first
    | with_reducible apply Frame.refl
    | apply Eq.refl true
    | (with_reducible apply Frame.seq; with_reducible case k => first | apply fr_heldEvents | apply fr_rounds)
    | with_reducible apply Frame.ite
    | (intro _ _; try dsimp only)
    | split)

theorem fr_regulationCheck (urg : BitVec 32) (s : State) : Frame 0x18000C38030FE404 s (regulationCheck urg s) := by
  unfold regulationCheck
  try dsimp only
  repeat' (first
    | with_reducible apply Frame.refl
    | apply Eq.refl true
    | (with_reducible apply Frame.seq; with_reducible case k => first | apply fr_emit | apply fr_creditCycle | apply fr_gainBuckets | apply fr_examine | apply fr_fwAccesses)
    | with_reducible apply Frame.ite
    | with_reducible apply Frame.foldl
    | with_reducible apply Frame.foldl_fst
    | (intro _ _; try dsimp only)
    | split
    | with_reducible apply Frame.set_rotation)

end Sys2Proof.Machine
end

