-- ==== Sys2Proof/Laws/FramePeer.lean ====
section
/-! SUPPORT. What each operation of Peer.lean may change. -/

namespace Sys2Proof.Machine

open Reg

theorem fr_ppOpen (s : State) : Frame 0x1000002004 s (ppOpen s) := by
  unfold ppOpen
  try dsimp only
  repeat' (first
    | with_reducible apply Frame.refl
    | apply Eq.refl true
    | (with_reducible apply Frame.seq; with_reducible case k => first | apply fr_put | apply fr_openPort)
    | with_reducible apply Frame.ite
    | (intro _ _; try dsimp only)
    | split
    | with_reducible apply Frame.set_peer)

theorem fr_winCommit (s : State) : Frame 0x1000002014 s (winCommit s) := by
  unfold winCommit
  try dsimp only
  repeat' (first
    | with_reducible apply Frame.refl
    | apply Eq.refl true
    | (with_reducible apply Frame.seq; with_reducible case k => first | apply fr_putAll | apply fr_put | apply fr_commitRange | apply fr_ppOpen)
    | with_reducible apply Frame.ite
    | (intro _ _; try dsimp only)
    | split)

theorem fr_rspCreditCycle (s : State) : Frame 0x1000001000000000 s (rspCreditCycle s) := by
  unfold rspCreditCycle
  try dsimp only
  repeat' (first
    | with_reducible apply Frame.refl
    | apply Eq.refl true
    | with_reducible apply Frame.ite
    | (intro _ _; try dsimp only)
    | split
    | with_reducible apply Frame.set_peer
    | with_reducible apply Frame.set_out
    | ((with_reducible apply Frame.parts (by with_reducible rfl) (by with_reducible rfl)) <;> first | (apply Or.inl; apply Eq.refl true; done) | (apply Or.inr; with_reducible apply Eq.refl; done) | skip))

theorem fr_pumpPeer  (k : Nat) (s : State) : Frame 0x1000041000000000 s (pumpPeer  k s) := by
  induction k generalizing s with
  | zero =>
    unfold pumpPeer
    try dsimp only
    repeat' (first
      | with_reducible apply Frame.refl
      | apply Eq.refl true
      | (with_reducible apply Frame.seq; with_reducible case k => first | apply fr_emit)
      | with_reducible apply Frame.ite
      | (intro _ _; try dsimp only)
      | split
      | with_reducible apply Frame.set_peer
      | with_reducible apply Frame.set_out
      | ((with_reducible apply Frame.parts (by with_reducible rfl) (by with_reducible rfl)) <;> first | (apply Or.inl; apply Eq.refl true; done) | (apply Or.inr; with_reducible apply Eq.refl; done) | skip))
  | succ k ih =>
    unfold pumpPeer
    try dsimp only
    repeat' (first
      | with_reducible apply Frame.refl
      | apply Eq.refl true
      | (with_reducible apply Frame.seq; with_reducible case k => first | apply ih | apply fr_emit)
      | with_reducible apply Frame.ite
      | (intro _ _; try dsimp only)
      | split
      | with_reducible apply Frame.set_peer
      | with_reducible apply Frame.set_out
      | ((with_reducible apply Frame.parts (by with_reducible rfl) (by with_reducible rfl)) <;> first | (apply Or.inl; apply Eq.refl true; done) | (apply Or.inr; with_reducible apply Eq.refl; done) | skip))

theorem fr_pumpRsp  (k : Nat) (s : State) : Frame 0x1000001000002000 s (pumpRsp  k s) := by
  induction k generalizing s with
  | zero =>
    unfold pumpRsp
    try dsimp only
    repeat' (first
      | with_reducible apply Frame.refl
      | apply Eq.refl true
      | (with_reducible apply Frame.seq; with_reducible case k => first | apply fr_setPort)
      | with_reducible apply Frame.ite
      | (intro _ _; try dsimp only)
      | split
      | with_reducible apply Frame.set_peer
      | with_reducible apply Frame.set_out
      | ((with_reducible apply Frame.parts (by with_reducible rfl) (by with_reducible rfl)) <;> first | (apply Or.inl; apply Eq.refl true; done) | (apply Or.inr; with_reducible apply Eq.refl; done) | skip))
  | succ k ih =>
    unfold pumpRsp
    try dsimp only
    repeat' (first
      | with_reducible apply Frame.refl
      | apply Eq.refl true
      | (with_reducible apply Frame.seq; with_reducible case k => first | apply ih | apply fr_setPort)
      | with_reducible apply Frame.ite
      | (intro _ _; try dsimp only)
      | split
      | with_reducible apply Frame.set_peer
      | with_reducible apply Frame.set_out
      | ((with_reducible apply Frame.parts (by with_reducible rfl) (by with_reducible rfl)) <;> first | (apply Or.inl; apply Eq.refl true; done) | (apply Or.inr; with_reducible apply Eq.refl; done) | skip))

theorem fr_pumpPp (s : State) : Frame 0x1000041000002000 s (pumpPp s) := by
  unfold pumpPp
  try dsimp only
  repeat' (first
    | with_reducible apply Frame.refl
    | apply Eq.refl true
    | (with_reducible apply Frame.seq; with_reducible case k => first | apply fr_pumpPeer | apply fr_pumpRsp)
    | with_reducible apply Frame.ite
    | (intro _ _; try dsimp only)
    | split)

theorem fr_sendPeer (r : PeerReq) (s : State) : Frame 0x1000041000002000 s (sendPeer r s) := by
  unfold sendPeer
  try dsimp only
  repeat' (first
    | with_reducible apply Frame.refl
    | apply Eq.refl true
    | (with_reducible apply Frame.seq; with_reducible case k => first | apply fr_pumpPp)
    | with_reducible apply Frame.ite
    | (intro _ _; try dsimp only)
    | split
    | with_reducible apply Frame.set_peer)

theorem fr_peerRefused (r : Req) (window : Bool) (s : State) : Frame 0x42004 s (peerRefused r window s) := by
  unfold peerRefused
  try dsimp only
  repeat' (first
    | with_reducible apply Frame.refl
    | apply Eq.refl true
    | (with_reducible apply Frame.seq; with_reducible case k => first | apply fr_answerPort | apply fr_recordFault | apply fr_arrive)
    | with_reducible apply Frame.ite
    | (intro _ _; try dsimp only)
    | split)

theorem fr_peerOutbound (m : Nat) (s : State) : Frame 0x1000041000062004 s (peerOutbound m s) := by
  unfold peerOutbound
  try dsimp only
  repeat' (first
    | with_reducible apply Frame.refl
    | apply Eq.refl true
    | (with_reducible apply Frame.seq; with_reducible case k => first | apply fr_sendPeer | apply fr_peerSilent | apply fr_peerRefused)
    | with_reducible apply Frame.ite
    | (intro _ _; try dsimp only)
    | split
    | with_reducible apply Frame.set_live
    | with_reducible apply Frame.set_peer
    | ((with_reducible apply Frame.parts (by with_reducible rfl) (by with_reducible rfl)) <;> first | (apply Or.inl; apply Eq.refl true; done) | (apply Or.inr; with_reducible apply Eq.refl; done) | skip))

theorem fr_ppAnswer (w : BitVec 256) (rt info fr : Nat) (s : State) : Frame 0x1000000000 s (ppAnswer w rt info fr s) := by
  unfold ppAnswer
  try dsimp only
  repeat' (first
    | with_reducible apply Frame.refl
    | apply Eq.refl true
    | (with_reducible apply Frame.seq; with_reducible case k => first | apply fr_ppRespond)
    | with_reducible apply Frame.ite
    | (intro _ _; try dsimp only)
    | split)

theorem fr_ppFault (w : BitVec 256) (window : Bool) (fr : Nat) (s : State) : Frame 0x41000000004 s (ppFault w window fr s) := by
  unfold ppFault
  try dsimp only
  repeat' (first
    | with_reducible apply Frame.refl
    | apply Eq.refl true
    | (with_reducible apply Frame.seq; with_reducible case k => first | apply fr_ppAnswer | apply fr_bump | apply fr_recordFault | apply fr_emit)
    | with_reducible apply Frame.ite
    | (intro _ _; try dsimp only)
    | split)

theorem fr_ppCheck {m : Nat} (w : BitVec 256) (s : State) (k : Option Nat → State → State) (hm : Within 0x41000000004 m)
    (hk : ∀ x u, Frame m u (k x u)) : Frame m s (ppCheck w s k) := by
  unfold ppCheck
  dsimp only
  repeat' (first
    | exact Frame.seq .refl (fr_ppAnswer ..) (within_trans rfl hm)
    | exact Frame.seq .refl (fr_ppFault ..) (within_trans rfl hm)
    | exact hk _ _
    | with_reducible apply Frame.ite
    | split)

theorem fr_trimGen (s : State) : Frame 0x1000000000 s (trimGen s) := by
  unfold trimGen
  try dsimp only
  repeat' (first
    | with_reducible apply Frame.refl
    | apply Eq.refl true
    | with_reducible apply Frame.ite
    | (intro _ _; try dsimp only)
    | split
    | with_reducible apply Frame.set_peer)

theorem fr_ppPerform (w : BitVec 256) (op : Op) (x : Nat) (d : List Byte) (s : State) : Frame 0x1000002400 s (ppPerform w op x d s) := by
  unfold ppPerform
  try dsimp only
  repeat' (first
    | with_reducible apply Frame.refl
    | apply Eq.refl true
    | (with_reducible apply Frame.seq; with_reducible case k => first | apply fr_waitIngress | apply fr_trimGen)
    | with_reducible apply Frame.ite
    | (intro _ _; try dsimp only)
    | split
    | with_reducible apply Frame.set_nextUid
    | with_reducible apply Frame.set_peer
    | ((with_reducible apply Frame.parts (by with_reducible rfl) (by with_reducible rfl)) <;> first | (apply Or.inl; apply Eq.refl true; done) | (apply Or.inr; with_reducible apply Eq.refl; done) | skip))

theorem fr_ppParityClose (s : State) : Frame 0x1000040800032004 s (ppParityClose s) := by
  unfold ppParityClose
  try dsimp only
  repeat' (first
    | with_reducible apply Frame.refl
    | apply Eq.refl true
    | (with_reducible apply Frame.seq; with_reducible case k => first | apply fr_put | apply fr_closeByParity)
    | with_reducible apply Frame.ite
    | (intro _ _; try dsimp only)
    | split)

theorem fr_ppArrive {m : Nat} (op : Nat) (x : PpIn) (s : State) (k : State → State) (hm : Within 0x1000041800032004 m)
    (hk : ∀ u, Frame m u (k u)) : Frame m s (ppArrive op x s k) := by
  unfold ppArrive
  dsimp only
  have e : Frame m s (emit 0x603 (256 * ppFlits x.slot) none none none none (emit 0x601 1 none none none none
      (setPort 17 { port 17 s with reqHdr := (port 17 s).reqHdr - 1, reqData := (port 17 s).reqData - ppFlits x.slot } s))) :=
    Frame.seq (Frame.seq (Frame.seq .refl (fr_setPort ..) (within_trans rfl hm)) (fr_emit ..) (within_trans rfl hm)) (fr_emit ..)
      (within_trans rfl hm)
  have p : Frame m s (ppAnswer x.slot rtPoison (ones (ppBeats x.slot)) 0 (portErr (ARB_PORT_ERR.DATA_PARITY 17) (emit 0x603
      (256 * ppFlits x.slot) none none none none (emit 0x601 1 none none none none
      (setPort 17 { port 17 s with reqHdr := (port 17 s).reqHdr - 1, reqData := (port 17 s).reqData - ppFlits x.slot } s))))) :=
    Frame.seq (e.seq (fr_portErr ..) (within_trans rfl hm)) (fr_ppAnswer ..) (within_trans rfl hm)
  refine Frame.ite .refl (Frame.ite (Frame.ite (Frame.mono (fr_portErr ..) (within_trans rfl hm)) .refl)
    (Frame.ite (Frame.mono (fr_ppParityClose ..) (within_trans rfl hm))
      (Frame.ite (Frame.mono (fr_portErr ..) (within_trans rfl hm)) ?_)))
  refine Frame.seq ?_ (fr_pumpPp _) (within_trans rfl hm)
  exact Frame.ite (Frame.ite p (e.seq (hk _) within_self))
    (Frame.seq (Frame.ite p (e.seq (hk _) within_self)) (fr_oweCredits ..) (within_trans rfl hm))

theorem fr_ppInRead (x : PpIn) (s : State) : Frame 0x1000041800032404 s (ppInRead x s) := by
  unfold ppInRead
  try dsimp only
  repeat' (first
    | with_reducible apply Frame.refl
    | apply Eq.refl true
    | (with_reducible apply Frame.seq; with_reducible case k => first | apply fr_ppPerform)
    | with_reducible apply fr_ppArrive
    | with_reducible apply fr_ppCheck
    | (intro _; try dsimp only)
    | with_reducible apply Frame.ite
    | (intro _ _; try dsimp only)
    | split)

theorem fr_ppInWrite (x : PpIn) (s : State) : Frame 0x1000041800032404 s (ppInWrite x s) := by
  unfold ppInWrite
  try dsimp only
  repeat' (first
    | with_reducible apply Frame.refl
    | apply Eq.refl true
    | (with_reducible apply Frame.seq; with_reducible case k => first | apply fr_ppPerform)
    | with_reducible apply fr_ppArrive
    | with_reducible apply fr_ppCheck
    | (intro _; try dsimp only)
    | with_reducible apply Frame.ite
    | (intro _ _; try dsimp only)
    | split)

theorem fr_ppInReduce (p : PpIn) (s : State) : Frame 0x10000418000B2004 s (ppInReduce p s) := by
  unfold ppInReduce
  try dsimp only
  repeat' (first
    | with_reducible apply Frame.refl
    | apply Eq.refl true
    | (with_reducible apply Frame.seq; with_reducible case k => first | apply fr_ppAnswer | apply fr_bump | apply fr_ppFault | apply fr_fwWrite)
    | with_reducible apply fr_ppCheck
    | with_reducible apply fr_ppArrive
    | (intro _; try dsimp only)
    | with_reducible apply Frame.ite
    | (intro _ _; try dsimp only)
    | split
    | with_reducible apply Frame.set_peer)

theorem fr_openSlot {g : GatherSlot} {s t : State} (h : openSlot g s = some t) : Frame 0x1000000000 s t := by
  unfold openSlot at h
  split at h
  · cases h
  · cases h
    exact Frame.set_peer rfl .refl

theorem fr_discardRound (j : Nat) (s : State) : Frame 0x1000000000 s (discardRound j s) := by
  unfold discardRound
  try dsimp only
  repeat' (first
    | with_reducible apply Frame.refl
    | apply Eq.refl true
    | with_reducible apply Frame.ite
    | (intro _ _; try dsimp only)
    | split
    | with_reducible apply Frame.set_peer)

theorem fr_closeSlot (j : Nat) (s : State) : Frame 0x1000000000 s (closeSlot j s) := by
  unfold closeSlot
  try dsimp only
  repeat' (first
    | with_reducible apply Frame.refl
    | apply Eq.refl true
    | with_reducible apply Frame.ite
    | (intro _ _; try dsimp only)
    | split
    | with_reducible apply Frame.set_peer)

theorem fr_orphanExpiry (r : Nat) (s : State) : Frame 0x1000000004 s (orphanExpiry r s) := by
  unfold orphanExpiry
  try dsimp only
  repeat' (first
    | with_reducible apply Frame.refl
    | apply Eq.refl true
    | (with_reducible apply Frame.seq; with_reducible case k => first | apply fr_bump)
    | with_reducible apply Frame.ite
    | (intro _ _; try dsimp only)
    | split
    | with_reducible apply Frame.set_peer)

theorem fr_bcastFail (u : Nat) (f : Nat × Nat × Nat) (s : State) : Frame 0x1000000000 s (bcastFail u f s) := by
  unfold bcastFail
  try dsimp only
  repeat' (first
    | with_reducible apply Frame.refl
    | apply Eq.refl true
    | with_reducible apply Frame.ite
    | (intro _ _; try dsimp only)
    | split
    | with_reducible apply Frame.set_peer)

theorem fr_forwardTo (u : Nat) (w : BitVec 256) (d : List Byte) (dom : Nat) (s : State) (child : Nat) : Frame 0x1000041000002004 s (forwardTo u w d dom s child) := by
  unfold forwardTo
  try dsimp only
  repeat' (first
    | with_reducible apply Frame.refl
    | apply Eq.refl true
    | (with_reducible apply Frame.seq; with_reducible case k => first | apply fr_recordFault | apply fr_pumpPp | apply fr_bcastFail)
    | with_reducible apply Frame.ite
    | (intro _ _; try dsimp only)
    | split
    | with_reducible apply Frame.set_peer)

theorem fr_ppInBroadcast (p : PpIn) (s : State) : Frame 0x1000041800032404 s (ppInBroadcast p s) := by
  unfold ppInBroadcast
  try dsimp only
  repeat' (first
    | with_reducible apply Frame.refl
    | apply Eq.refl true
    | (with_reducible apply Frame.seq; with_reducible case k => first | apply fr_ppFault | apply fr_forwardTo | apply fr_ppPerform)
    | with_reducible apply fr_ppCheck
    | with_reducible apply fr_ppArrive
    | (intro _; try dsimp only)
    | with_reducible apply Frame.ite
    | with_reducible apply Frame.foldl
    | with_reducible apply Frame.foldl_fst
    | (intro _ _; try dsimp only)
    | split
    | with_reducible apply Frame.set_peer)

theorem fr_bcastAck (u : Nat) (s : State) : Frame 0x1000041000002000 s (bcastAck u s) := by
  unfold bcastAck
  try dsimp only
  repeat' (first
    | with_reducible apply Frame.refl
    | apply Eq.refl true
    | (with_reducible apply Frame.seq; with_reducible case k => first | apply fr_ppRespond | apply fr_trimGen | apply fr_pumpPp)
    | with_reducible apply Frame.ite
    | (intro _ _; try dsimp only)
    | split
    | with_reducible apply Frame.set_peer)

theorem fr_ppInEmpty (par : BitVec 32) (w : BitVec 256) (s : State) : Frame 0x1000040800032004 s (ppInEmpty par w s) := by
  unfold ppInEmpty
  try dsimp only
  repeat' (first
    | with_reducible apply Frame.refl
    | apply Eq.refl true
    | (with_reducible apply Frame.seq; with_reducible case k => first | apply fr_ppParityClose)
    | with_reducible apply Frame.ite
    | (intro _ _; try dsimp only)
    | split)

theorem fr_ppLinkLost (s : State) : Frame 0x1000032004 s (ppLinkLost s) := by
  unfold ppLinkLost
  try dsimp only
  repeat' (first
    | with_reducible apply Frame.refl
    | apply Eq.refl true
    | (with_reducible apply Frame.seq; with_reducible case k => first | apply fr_dropUngranted | apply fr_put | apply fr_setPort | apply fr_trimGen)
    | with_reducible apply Frame.ite
    | (intro _ _; try dsimp only)
    | split
    | with_reducible apply Frame.set_peer)

theorem fr_ppReadyRise (s : State) : Frame 0x1000002004 s (ppReadyRise s) := by
  unfold ppReadyRise
  try dsimp only
  repeat' (first
    | with_reducible apply Frame.refl
    | apply Eq.refl true
    | (with_reducible apply Frame.seq; with_reducible case k => first | apply fr_setPort | apply fr_ppOpen)
    | with_reducible apply Frame.ite
    | (intro _ _; try dsimp only)
    | split)

theorem fr_ppCredits (reqHdr reqData rspHdr rspData : Nat) (s : State) : Frame 0x1000041000002000 s (ppCredits reqHdr reqData rspHdr rspData s) := by
  unfold ppCredits
  try dsimp only
  repeat' (first
    | with_reducible apply Frame.refl
    | apply Eq.refl true
    | (with_reducible apply Frame.seq; with_reducible case k => first | apply fr_setPort | apply fr_pumpPp)
    | with_reducible apply Frame.ite
    | (intro _ _; try dsimp only)
    | split
    | with_reducible apply Frame.set_peer)

theorem fr_peerTimeoutSet (v : Nat) (s : State) : Frame 0x4 s (peerTimeoutSet v s) := by
  unfold peerTimeoutSet
  try dsimp only
  repeat' (first
    | with_reducible apply Frame.refl
    | apply Eq.refl true
    | (with_reducible apply Frame.seq; with_reducible case k => first | apply fr_put)
    | with_reducible apply Frame.ite
    | (intro _ _; try dsimp only)
    | split)

theorem fr_peerShow (s : State) : Frame 0x4 s (peerShow s) := by
  unfold peerShow
  try dsimp only
  repeat' (first
    | with_reducible apply Frame.refl
    | apply Eq.refl true
    | (with_reducible apply Frame.seq; with_reducible case k => first | apply fr_putAll)
    | with_reducible apply Frame.ite
    | (intro _ _; try dsimp only)
    | split)

end Sys2Proof.Machine
end

