-- ==== Sys2Proof/Laws/FrameJobs.lean ====
section
/-! SUPPORT. What each operation of Jobs.lean may change. -/

namespace Sys2Proof.Machine

open Reg

theorem fr_finishWork (j : Nat) (s : State) : Frame 0x8000000 s (finishWork j s) := by
  unfold finishWork
  try dsimp only
  repeat' (first
    | with_reducible apply Frame.refl
    | apply Eq.refl true
    | (with_reducible apply Frame.seq; with_reducible case k => first | apply fr_setJob)
    | with_reducible apply Frame.ite
    | (intro _ _; try dsimp only)
    | split)

theorem fr_refuseJob (j status info : Nat) (s : State) : Frame 0x100009F80B1F2004 s (refuseJob j status info s) := by
  unfold refuseJob
  try dsimp only
  repeat' (first
    | with_reducible apply Frame.refl
    | apply Eq.refl true
    | (with_reducible apply Frame.seq; with_reducible case k => first | apply fr_failJob | apply fr_finishWork | apply fr_setJob)
    | with_reducible apply Frame.ite
    | (intro _ _; try dsimp only)
    | split)

theorem fr_jobStart (x : Nat) (s : State) : Frame 0x10000DF81B1F2004 s (jobStart x s) := by
  unfold jobStart
  try dsimp only
  repeat' (first
    | with_reducible apply Frame.refl
    | apply Eq.refl true
    | (with_reducible apply Frame.seq; with_reducible case k => first | apply fr_emit | apply fr_refuseJob | apply fr_setCtx | apply fr_put | apply fr_setJob)
    | with_reducible apply Frame.ite
    | (intro _ _; try dsimp only)
    | split
    | with_reducible apply Frame.set_nextJob)

theorem fr_parityOf (p : Parity) (j type : Nat) (s : State) : Frame 0x100009F80B1F2004 s (parityOf p j type s) := by
  unfold parityOf
  try dsimp only
  repeat' (first
    | with_reducible apply Frame.refl
    | apply Eq.refl true
    | (with_reducible apply Frame.seq; with_reducible case k => first | apply fr_meetParity)
    | with_reducible apply Frame.ite
    | (intro _ _; try dsimp only)
    | split)

theorem fr_jobNop (j : Nat) (s : State) : Frame 0x8000000 s (jobNop j s) := by
  unfold jobNop
  try dsimp only
  repeat' (first
    | with_reducible apply Frame.refl
    | apply Eq.refl true
    | (with_reducible apply Frame.seq; with_reducible case k => first | apply fr_finishWork)
    | with_reducible apply Frame.ite
    | (intro _ _; try dsimp only)
    | split)

theorem fr_digestAt (j pos : Nat) (d : List Byte) (s : State) : Frame 0x8000000 s (digestAt j pos d s) := by
  unfold digestAt
  try dsimp only
  repeat' (first
    | with_reducible apply Frame.refl
    | apply Eq.refl true
    | (with_reducible apply Frame.seq; with_reducible case k => first | apply fr_setJob)
    | with_reducible apply Frame.ite
    | (intro _ _; try dsimp only)
    | split)

theorem fr_readSource (j : Nat) (v : Job) (dest : AccFor) (n : Nat) (s : State) : Frame 0x1000000808002400 s (readSource j v dest n s) := by
  unfold readSource
  try dsimp only
  repeat' (first
    | with_reducible apply Frame.refl
    | apply Eq.refl true
    | (with_reducible apply Frame.seq; with_reducible case k => first | apply fr_setJob | apply fr_askJob | apply fr_askHost)
    | with_reducible apply Frame.ite
    | (intro _ _; try dsimp only)
    | split)

theorem fr_writePiece (j : Nat) (v : Job) (dest : AccFor) (opcode low : Nat) (d : List Byte) (s : State) : Frame 0x8002400 s (writePiece j v dest opcode low d s) := by
  unfold writePiece
  try dsimp only
  repeat' (first
    | with_reducible apply Frame.refl
    | apply Eq.refl true
    | (with_reducible apply Frame.seq; with_reducible case k => first | apply fr_askJob)
    | with_reducible apply Frame.ite
    | (intro _ _; try dsimp only)
    | split)

theorem fr_castTo (j pos : Nat) (d : List Byte) (s : State) (node : Nat) : Frame 0x8002400 s (castTo j pos d s node) := by
  unfold castTo
  try dsimp only
  repeat' (first
    | with_reducible apply Frame.refl
    | apply Eq.refl true
    | (with_reducible apply Frame.seq; with_reducible case k => first | apply fr_askJob)
    | with_reducible apply Frame.ite
    | (intro _ _; try dsimp only)
    | split)

theorem fr_jobNext (j : Nat) (s : State) : Frame 0x1000000808002400 s (jobNext j s) := by
  unfold jobNext
  try dsimp only
  repeat' (first
    | with_reducible apply Frame.refl
    | apply Eq.refl true
    | (with_reducible apply Frame.seq; with_reducible case k => first | apply fr_finishWork | apply fr_writePiece | apply fr_askJob | apply fr_readSource)
    | with_reducible apply Frame.ite
    | (intro _ _; try dsimp only)
    | split)

theorem fr_sourceArrives (j : Nat) (d : List Byte) (s : State) : Frame 0x100009FA0B1F2404 s (sourceArrives j d s) := by
  unfold sourceArrives
  try dsimp only
  repeat' (first
    | with_reducible apply Frame.refl
    | apply Eq.refl true
    | (with_reducible apply Frame.seq; with_reducible case k => first | apply fr_digestAt | apply fr_hostWrite | apply fr_writePiece | apply fr_jobNext | apply fr_setJob | apply fr_castTo)
    | with_reducible apply Frame.ite
    | with_reducible apply Frame.foldl
    | with_reducible apply Frame.foldl_fst
    | (intro _ _; try dsimp only)
    | split)

theorem fr_beginMove (type j : Nat) (s : State) : Frame 0x1000000808002400 s (beginMove type j s) := by
  unfold beginMove
  try dsimp only
  repeat' (first
    | with_reducible apply Frame.refl
    | apply Eq.refl true
    | (with_reducible apply Frame.seq; with_reducible case k => first | apply fr_jobNext)
    | with_reducible apply Frame.ite
    | (intro _ _; try dsimp only)
    | split)

theorem fr_copyJob (j : Nat) (s : State) : Frame 0x1000000808002400 s (copyJob j s) := by
  unfold copyJob
  try dsimp only
  repeat' (first
    | with_reducible apply Frame.refl
    | apply Eq.refl true
    | (with_reducible apply Frame.seq; with_reducible case k => first | apply fr_beginMove)
    | with_reducible apply Frame.ite
    | (intro _ _; try dsimp only)
    | split)

theorem fr_fillJob (j : Nat) (s : State) : Frame 0x1000000808002400 s (fillJob j s) := by
  unfold fillJob
  try dsimp only
  repeat' (first
    | with_reducible apply Frame.refl
    | apply Eq.refl true
    | (with_reducible apply Frame.seq; with_reducible case k => first | apply fr_beginMove)
    | with_reducible apply Frame.ite
    | (intro _ _; try dsimp only)
    | split)

theorem fr_reduceSend (j : Nat) (s : State) : Frame 0x1000000808002400 s (reduceSend j s) := by
  unfold reduceSend
  try dsimp only
  repeat' (first
    | with_reducible apply Frame.refl
    | apply Eq.refl true
    | (with_reducible apply Frame.seq; with_reducible case k => first | apply fr_beginMove)
    | with_reducible apply Frame.ite
    | (intro _ _; try dsimp only)
    | split)

theorem fr_broadcastJob (j : Nat) (s : State) : Frame 0x1000000808002400 s (broadcastJob j s) := by
  unfold broadcastJob
  try dsimp only
  repeat' (first
    | with_reducible apply Frame.refl
    | apply Eq.refl true
    | (with_reducible apply Frame.seq; with_reducible case k => first | apply fr_beginMove)
    | with_reducible apply Frame.ite
    | (intro _ _; try dsimp only)
    | split)

theorem fr_reduceGather (j : Nat) (s : State) : Frame 0x1008000000 s (reduceGather j s) := by
  unfold reduceGather
  try dsimp only
  repeat' (first
    | with_reducible apply Frame.refl
    | apply Eq.refl true
    | (with_reducible apply Frame.seq; with_reducible case k => first | apply fr_setJob)
    | with_reducible apply Frame.ite
    | (intro _ _; try dsimp only)
    | exact Frame.mono (fr_openSlot (by assumption)) rfl
    | split)

theorem fr_dropRound (j : Nat) (s : State) : Frame 0x1000000000 s (dropRound j s) := by
  unfold dropRound
  try dsimp only
  repeat' (first
    | with_reducible apply Frame.refl
    | apply Eq.refl true
    | with_reducible apply Frame.ite
    | (intro _ _; try dsimp only)
    | split
    | with_reducible apply Frame.set_peer)

theorem fr_gatherPut (j : Nat) (s : State) : Frame 0x1008002400 s (gatherPut j s) := by
  unfold gatherPut
  try dsimp only
  repeat' (first
    | with_reducible apply Frame.refl
    | apply Eq.refl true
    | (with_reducible apply Frame.seq; with_reducible case k => first | apply fr_dropRound | apply fr_finishWork | apply fr_writePiece | apply fr_setJob)
    | with_reducible apply Frame.ite
    | (intro _ _; try dsimp only)
    | split)

theorem fr_gatherGet (j : Nat) (s : State) : Frame 0x1008082400 s (gatherGet j s) := by
  unfold gatherGet
  try dsimp only
  repeat' (first
    | with_reducible apply Frame.refl
    | apply Eq.refl true
    | (with_reducible apply Frame.seq; with_reducible case k => first | apply fr_gatherPut | apply fr_setJob | apply fr_askJob | apply fr_fwRead)
    | with_reducible apply Frame.ite
    | (intro _ _; try dsimp only)
    | split)

theorem fr_gatherApply (j : Nat) (s : State) : Frame 0x1008082400 s (gatherApply j s) := by
  unfold gatherApply
  try dsimp only
  repeat' (first
    | with_reducible apply Frame.refl
    | apply Eq.refl true
    | (with_reducible apply Frame.seq; with_reducible case k => first | apply fr_gatherGet)
    | with_reducible apply Frame.ite
    | (intro _ _; try dsimp only)
    | split)

theorem fr_jobAnswer {m : Nat} (j : Nat) (x : Arrival) (k : State → State) (s : State) (hm : Within 0x100009F80B1F2004 m)
    (hk : ∀ u, Frame m u (k u)) : Frame m s (jobAnswer j x k s) := by
  unfold jobAnswer
  dsimp only
  have h := fun (v : Job) => Frame.seq (m := m) .refl (fr_setJob j v s) (within_trans rfl hm)
  split
  · exact .refl
  · refine Frame.ite (h _) ?_
    split
    · exact Frame.seq (h _) (fr_failJob ..) (within_trans rfl hm)
    · exact (h _).seq (hk _) within_self

theorem fr_writeAnswered (j : Nat) (s : State) : Frame 0x1000000808002400 s (writeAnswered j s) := by
  unfold writeAnswered
  try dsimp only
  repeat' (first
    | with_reducible apply Frame.refl
    | apply Eq.refl true
    | (with_reducible apply Frame.seq; with_reducible case k => first | apply fr_jobNext)
    | with_reducible apply Frame.ite
    | (intro _ _; try dsimp only)
    | split)

theorem fr_gatherArrives (j : Nat) (d : List Byte) (s : State) : Frame 0x1008082400 s (gatherArrives j d s) := by
  unfold gatherArrives
  try dsimp only
  repeat' (first
    | with_reducible apply Frame.refl
    | apply Eq.refl true
    | (with_reducible apply Frame.seq; with_reducible case k => first | apply fr_gatherGet | apply fr_setJob)
    | with_reducible apply Frame.ite
    | (intro _ _; try dsimp only)
    | split)

theorem fr_ioDone (j : Nat) (s : State) : Frame 0x8000000 s (ioDone j s) := by
  unfold ioDone
  try dsimp only
  repeat' (first
    | with_reducible apply Frame.refl
    | apply Eq.refl true
    | (with_reducible apply Frame.seq; with_reducible case k => first | apply fr_setJob)
    | with_reducible apply Frame.ite
    | (intro _ _; try dsimp only)
    | split)

theorem fr_readFails (r : HpRead) (s : State) : Frame 0x10100DF85B1F2004 s (readFails r s) := by
  unfold readFails
  try dsimp only
  repeat' (first
    | with_reducible apply Frame.refl
    | apply Eq.refl true
    | (with_reducible apply Frame.seq; with_reducible case k => first | apply fr_failJob | apply fr_fetchEnds | apply fr_ioDone)
    | with_reducible apply Frame.ite
    | (intro _ _; try dsimp only)
    | split
    | with_reducible apply Frame.set_fw)

theorem fr_readArrives (r : HpRead) (s : State) : Frame 0x10100DFA5B1F2404 s (readArrives r s) := by
  unfold readArrives
  try dsimp only
  repeat' (first
    | with_reducible apply Frame.refl
    | apply Eq.refl true
    | (with_reducible apply Frame.seq; with_reducible case k => first | apply fr_fwWrite | apply fr_put | apply fr_sourceArrives | apply fr_fetchEnds | apply fr_ioDone)
    | with_reducible apply Frame.ite
    | (intro _ _; try dsimp only)
    | split
    | with_reducible apply Frame.set_fw)

theorem fr_hpCompletion (tag : Nat) (ok poisoned last : Bool) (data : List Byte) (s : State) : Frame 0x10100DFA5B1F2484 s (hpCompletion tag ok poisoned last data s) := by
  unfold hpCompletion
  try dsimp only
  repeat' (first
    | with_reducible apply Frame.refl
    | apply Eq.refl true
    | (with_reducible apply Frame.seq; with_reducible case k => first | apply fr_aerSet | apply fr_readFails | apply fr_issueReads | apply fr_bump | apply fr_readArrives)
    | with_reducible apply Frame.ite
    | (intro _ _; try dsimp only)
    | split
    | with_reducible apply Frame.set_host)

theorem fr_abandonRead (tag : Nat) (s : State) : Frame 0x10100DF85B1F2004 s (abandonRead tag s) := by
  unfold abandonRead
  try dsimp only
  repeat' (first
    | with_reducible apply Frame.refl
    | apply Eq.refl true
    | (with_reducible apply Frame.seq; with_reducible case k => first | apply fr_readFails)
    | with_reducible apply Frame.ite
    | (intro _ _; try dsimp only)
    | split
    | with_reducible apply Frame.set_host)

theorem fr_hpTimeout (tag : Nat) (s : State) : Frame 0x10100DF85B1F2084 s (hpTimeout tag s) := by
  unfold hpTimeout
  try dsimp only
  repeat' (first
    | with_reducible apply Frame.refl
    | apply Eq.refl true
    | (with_reducible apply Frame.seq; with_reducible case k => first | apply fr_aerSet | apply fr_abandonRead)
    | with_reducible apply Frame.ite
    | (intro _ _; try dsimp only)
    | split)

theorem fr_quarantineExpiry (pp : Bool) (tag : Nat) (s : State) : Frame 0x1000041800002000 s (quarantineExpiry pp tag s) := by
  unfold quarantineExpiry
  try dsimp only
  repeat' (first
    | with_reducible apply Frame.refl
    | apply Eq.refl true
    | (with_reducible apply Frame.seq; with_reducible case k => first | apply fr_pumpPp | apply fr_issueReads)
    | with_reducible apply Frame.ite
    | (intro _ _; try dsimp only)
    | split
    | with_reducible apply Frame.set_host
    | with_reducible apply Frame.set_peer
    | ((with_reducible apply Frame.parts (by with_reducible rfl) (by with_reducible rfl)) <;> first | (apply Or.inl; apply Eq.refl true; done) | (apply Or.inr; with_reducible apply Eq.refl; done) | skip))

theorem fr_peerToPort (u rt info : Nat) (d : List Byte) (s : State) : Frame 0x22000 s (peerToPort u rt info d s) := by
  unfold peerToPort
  try dsimp only
  repeat' (first
    | with_reducible apply Frame.refl
    | apply Eq.refl true
    | (with_reducible apply Frame.seq; with_reducible case k => first | apply fr_egressPut | apply fr_egressAll)
    | with_reducible apply Frame.ite
    | (intro _ _; try dsimp only)
    | split
    | with_reducible apply Frame.set_live)

theorem fr_peerToUnit (q : Req) (r : PeerReq) (rt info node : Nat) (d : List Byte) (s : State) : Frame 0x40000 s (peerToUnit q r rt info node d s) := by
  unfold peerToUnit
  try dsimp only
  repeat' (first
    | with_reducible apply Frame.refl
    | apply Eq.refl true
    | (with_reducible apply Frame.seq; with_reducible case k => first | apply fr_arrive)
    | with_reducible apply Frame.ite
    | (intro _ _; try dsimp only)
    | split)

theorem fr_relayAcked (s : State) : Frame 0x4 s (relayAcked s) := by
  unfold relayAcked
  try dsimp only
  repeat' (first
    | with_reducible apply Frame.refl
    | apply Eq.refl true
    | (with_reducible apply Frame.seq; with_reducible case k => first | apply fr_put)
    | with_reducible apply Frame.ite
    | with_reducible apply Frame.foldl
    | with_reducible apply Frame.foldl_fst
    | (intro _ _; try dsimp only)
    | split)

theorem fr_peerAnswer (tag : Nat) (r : PeerReq) (rt info node fr : Nat) (d : List Byte) (s : State) : Frame 0x1000062004 s (peerAnswer tag r rt info node fr d s) := by
  unfold peerAnswer
  try dsimp only
  repeat' (first
    | with_reducible apply Frame.refl
    | apply Eq.refl true
    | (with_reducible apply Frame.seq; with_reducible case k => first | apply fr_peerToPort | apply fr_relayAcked | apply fr_peerToUnit | apply fr_bcastFail)
    | with_reducible apply Frame.ite
    | (intro _ _; try dsimp only)
    | split
    | with_reducible apply Frame.set_peer)

theorem fr_ppAccept (w : BitVec 256) (rt : Nat) (d : List Byte) (s : State) : Frame 0x1000041000062004 s (ppAccept w rt d s) := by
  unfold ppAccept
  try dsimp only
  repeat' (first
    | with_reducible apply Frame.refl
    | apply Eq.refl true
    | (with_reducible apply Frame.seq; with_reducible case k => first | apply fr_egressPut | apply fr_pumpPp | apply fr_bump | apply fr_peerAnswer)
    | with_reducible apply Frame.ite
    | (intro _ _; try dsimp only)
    | split
    | with_reducible apply Frame.set_peer)

theorem fr_ppResponse (x : PpIn) (s : State) : Frame 0x1000041800072004 s (ppResponse x s) := by
  unfold ppResponse
  try dsimp only
  repeat' (first
    | with_reducible apply Frame.refl
    | apply Eq.refl true
    | (with_reducible apply Frame.seq; with_reducible case k => first | apply fr_portErr | apply fr_ppAccept | apply fr_ppParityClose)
    | with_reducible apply Frame.ite
    | (intro _ _; try dsimp only)
    | split
    | with_reducible apply Frame.set_peer)

theorem fr_peerTimeout (tag : Nat) (s : State) : Frame 0x41000062004 s (peerTimeout tag s) := by
  unfold peerTimeout
  try dsimp only
  repeat' (first
    | with_reducible apply Frame.refl
    | apply Eq.refl true
    | (with_reducible apply Frame.seq; with_reducible case k => first | apply fr_emit | apply fr_peerToPort | apply fr_bump | apply fr_arrive | apply fr_bcastFail)
    | with_reducible apply Frame.ite
    | (intro _ _; try dsimp only)
    | split
    | with_reducible apply Frame.set_peer)

theorem fr_jobDone (j : Nat) (s : State) : Frame 0x1068000004 s (jobDone j s) := by
  unfold jobDone
  try dsimp only
  repeat' (first
    | with_reducible apply Frame.refl
    | apply Eq.refl true
    | (with_reducible apply Frame.seq; with_reducible case k => first | apply fr_bump | apply fr_setJob | apply fr_discardRound | apply fr_jobFinished)
    | with_reducible apply Frame.ite
    | (intro _ _; try dsimp only)
    | split
    | with_reducible apply Frame.set_lateJobs)

theorem fr_jobTimeout (j elapsed : Nat) (s : State) : Frame 0x100009F86B1F2004 s (jobTimeout j elapsed s) := by
  unfold jobTimeout
  try dsimp only
  repeat' (first
    | with_reducible apply Frame.refl
    | apply Eq.refl true
    | (with_reducible apply Frame.seq; with_reducible case k => first | apply fr_failJob | apply fr_setJob | apply fr_discardRound | apply fr_jobFinished)
    | with_reducible apply Frame.ite
    | (intro _ _; try dsimp only)
    | split
    | with_reducible apply Frame.set_lateJobs)

theorem fr_showAudit (s : State) : Frame 0x4 s (showAudit s) := by
  unfold showAudit
  try dsimp only
  repeat' (first
    | with_reducible apply Frame.refl
    | apply Eq.refl true
    | (with_reducible apply Frame.seq; with_reducible case k => first | apply fr_put)
    | with_reducible apply Frame.ite
    | (intro _ _; try dsimp only)
    | split)

theorem fr_appendLedger (e : List Byte) (s : State) : Frame 0x20000100080004 s (appendLedger e s) := by
  unfold appendLedger
  try dsimp only
  repeat' (first
    | with_reducible apply Frame.refl
    | apply Eq.refl true
    | (with_reducible apply Frame.seq; with_reducible case k => first | apply fr_fwWrite | apply fr_showAudit | apply fr_bump)
    | with_reducible apply Frame.ite
    | (intro _ _; try dsimp only)
    | split
    | with_reducible apply Frame.set_auditSeq
    | with_reducible apply Frame.set_audit
    | ((with_reducible apply Frame.parts (by with_reducible rfl) (by with_reducible rfl)) <;> first | (apply Or.inl; apply Eq.refl true; done) | (apply Or.inr; with_reducible apply Eq.refl; done) | skip))

theorem fr_dropJob (j : Nat) (s : State) : Frame 0x1048000000 s (dropJob j s) := by
  unfold dropJob
  try dsimp only
  repeat' (first
    | with_reducible apply Frame.refl
    | apply Eq.refl true
    | (with_reducible apply Frame.seq; with_reducible case k => first | apply fr_closeSlot)
    | with_reducible apply Frame.ite
    | (intro _ _; try dsimp only)
    | split
    | with_reducible apply Frame.set_jobs
    | with_reducible apply Frame.set_finished
    | ((with_reducible apply Frame.parts (by with_reducible rfl) (by with_reducible rfl)) <;> first | (apply Or.inl; apply Eq.refl true; done) | (apply Or.inr; with_reducible apply Eq.refl; done) | skip))

theorem fr_recordWrite (j : Nat) (s : State) : Frame 0x1020041B4A082404 s (recordWrite j s) := by
  unfold recordWrite
  try dsimp only
  repeat' (first
    | with_reducible apply Frame.refl
    | apply Eq.refl true
    | (with_reducible apply Frame.seq; with_reducible case k => first | apply fr_emit | apply fr_fwWrite | apply fr_setSpill | apply fr_writeDevRecord | apply fr_setJob | apply fr_writeHostRecord | apply fr_appendLedger | apply fr_dropJob)
    | with_reducible apply Frame.ite
    | (intro _ _; try dsimp only)
    | split)

theorem fr_recordWritten (j x : Nat) (irq : Option Nat) (a : Arrival) (s : State) : Frame 0x100004184A000000 s (recordWritten j x irq a s) := by
  unfold recordWritten
  try dsimp only
  repeat' (first
    | with_reducible apply Frame.refl
    | apply Eq.refl true
    | (with_reducible apply Frame.seq; with_reducible case k => first | apply fr_emit | apply fr_setCtx | apply fr_haltCtx | apply fr_dropJob | apply fr_recordMsg)
    | with_reducible apply Frame.ite
    | (intro _ _; try dsimp only)
    | split)

theorem fr_fetchAnswered (x index id : Nat) (a : Arrival) (s : State) : Frame 0x4005A000000 s (fetchAnswered x index id a s) := by
  unfold fetchAnswered
  try dsimp only
  repeat' (first
    | with_reducible apply Frame.refl
    | apply Eq.refl true
    | (with_reducible apply Frame.seq; with_reducible case k => first | apply fr_fetchEnds)
    | with_reducible apply Frame.ite
    | (intro _ _; try dsimp only)
    | split)

end Sys2Proof.Machine
end

