-- ==== Sys2Proof/Laws/FrameCueLoad.lean ====
section
/-! SUPPORT. What each operation of CueLoad.lean may change. -/

namespace Sys2Proof.Machine

open Reg

theorem fr_recordRefuse (n word reason : Nat) (s : State) : Frame 0x4 s (recordRefuse n word reason s) := by
  unfold recordRefuse
  try dsimp only
  repeat' (first
    | with_reducible apply Frame.refl
    | apply Eq.refl true
    | (with_reducible apply Frame.seq; with_reducible case k => first | apply fr_putAll)
    | with_reducible apply Frame.ite
    | (intro _ _; try dsimp only)
    | split)

theorem fr_preloadNext (n : Nat) (s : State) : Frame 0x1000004 s (preloadNext n s) := by
  unfold preloadNext
  try dsimp only
  repeat' (first
    | with_reducible apply Frame.refl
    | apply Eq.refl true
    | (with_reducible apply Frame.seq; with_reducible case k => first | apply fr_setHive | apply fr_put)
    | with_reducible apply Frame.ite
    | (intro _ _; try dsimp only)
    | split)

theorem fr_placeOn (j : Nat) (x : State × Bool) (n : Nat) : Frame 0x1001200801900004 x.1 (placeOn j x n).1 := by
  unfold placeOn
  dsimp only
  exact Frame.seq (Frame.seq (Frame.seq (Frame.seq (Frame.seq .refl (fr_setHive ..) rfl) (fr_wakeHive ..) rfl) (fr_needCells ..) rfl)
    (fr_showCue ..) rfl) (fr_preloadNext ..) rfl

theorem fr_refuseSpan (j : Nat) (v : Job) (x : Nat × Nat) (s : State) : Frame 0x100009F80B1F2004 s (refuseSpan j v x s) := by
  unfold refuseSpan
  try dsimp only
  repeat' (first
    | with_reducible apply Frame.refl
    | apply Eq.refl true
    | (with_reducible apply Frame.seq; with_reducible case k => first | apply fr_recordFault | apply fr_failJob)
    | with_reducible apply Frame.ite
    | (intro _ _; try dsimp only)
    | split)

theorem fr_placeProgram (type j : Nat) (v : Job) (ab : List Byte) (ws : List Nat) (s : State) : Frame 0x100129F80B9F2004 s (placeProgram type j v ab ws s) := by
  unfold placeProgram
  try dsimp only
  repeat' (first
    | with_reducible apply Frame.refl
    | apply Eq.refl true
    | (with_reducible apply Frame.seq; with_reducible case k => first | apply fr_failJob | apply fr_recordRefuse | apply fr_placeOn | apply fr_setJob)
    | with_reducible apply Frame.ite
    | with_reducible apply Frame.foldl
    | with_reducible apply Frame.foldl_fst
    | (intro _ _; try dsimp only)
    | (rename_i h; refine Frame.of_eq1 h (fr_placeOn ..) rfl ?_)
    | split
    | with_reducible apply Frame.set_hives)

theorem fr_readImage (j : Nat) (v : Job) (s : State) : Frame 0x8002400 s (readImage j v s) := by
  unfold readImage
  try dsimp only
  repeat' (first
    | with_reducible apply Frame.refl
    | apply Eq.refl true
    | (with_reducible apply Frame.seq; with_reducible case k => first | apply fr_askJob)
    | with_reducible apply Frame.ite
    | (intro _ _; try dsimp only)
    | split)

theorem fr_placeCue (type j : Nat) (s : State) : Frame 0x8002400 s (placeCue type j s) := by
  unfold placeCue
  try dsimp only
  repeat' (first
    | with_reducible apply Frame.refl
    | apply Eq.refl true
    | (with_reducible apply Frame.seq; with_reducible case k => first | apply fr_askJob)
    | with_reducible apply Frame.ite
    | (intro _ _; try dsimp only)
    | split)

theorem fr_argsArrive (j : Nat) (ab : List Byte) (s : State) : Frame 0x100009F80B1F2404 s (argsArrive j ab s) := by
  unfold argsArrive
  try dsimp only
  repeat' (first
    | with_reducible apply Frame.refl
    | apply Eq.refl true
    | (with_reducible apply Frame.seq; with_reducible case k => first | apply fr_refuseSpan | apply fr_readImage)
    | with_reducible apply Frame.ite
    | (intro _ _; try dsimp only)
    | split)

theorem fr_imageArrives (j : Nat) (d : List Byte) (s : State) : Frame 0x100129F80B9F2404 s (imageArrives j d s) := by
  unfold imageArrives
  try dsimp only
  repeat' (first
    | with_reducible apply Frame.refl
    | apply Eq.refl true
    | (with_reducible apply Frame.seq; with_reducible case k => first | apply fr_readImage | apply fr_placeProgram | apply fr_setJob)
    | with_reducible apply Frame.ite
    | (intro _ _; try dsimp only)
    | split)

theorem fr_beginHead (n : Nat) (s : State) : Frame 0x10000DF80B1F2004 s (beginHead n s) := by
  unfold beginHead
  try dsimp only
  repeat' (first
    | with_reducible apply Frame.refl
    | apply Eq.refl true
    | (with_reducible apply Frame.seq; with_reducible case k => first | apply fr_emit | apply fr_sampleItem | apply fr_setHive | apply fr_failJob | apply fr_preloadNext | apply fr_putAll)
    | with_reducible apply Frame.ite
    | (intro _ _; try dsimp only)
    | split)

theorem fr_jobBegin (n : Nat) (s : State) : Frame 0x10000DF80B1F2004 s (jobBegin n s) := by
  unfold jobBegin
  try dsimp only
  repeat' (first
    | with_reducible apply Frame.refl
    | apply Eq.refl true
    | (with_reducible apply Frame.seq; with_reducible case k => first | apply fr_applyRetire | apply fr_showCells | apply fr_beginHead)
    | with_reducible apply Frame.ite
    | (intro _ _; try dsimp only)
    | split)

end Sys2Proof.Machine
end

