-- ==== Sys2Proof/Laws/FrameCueExec.lean ====
section
/-! SUPPORT. What each operation of CueExec.lean may change. -/

namespace Sys2Proof.Machine

open Reg

theorem fr_refetch (parityError : Bool) (n : Nat) (word : Option (Cue × Job × Nat)) (s : State) : Frame 0x40000000004 s (refetch parityError n word s) := by
  unfold refetch
  try dsimp only
  repeat' (first
    | with_reducible apply Frame.refl
    | apply Eq.refl true
    | (with_reducible apply Frame.seq; with_reducible case k => first | apply fr_emit | apply fr_bump)
    | with_reducible apply Frame.ite
    | (intro _ _; try dsimp only)
    | split)

theorem fr_meetAtIssue (p : Parity) (n : Nat) (word : Option (Cue × Job × Nat)) (s : State) : Frame 0x10000DF80B1F2004 s (meetAtIssue p n word s) := by
  unfold meetAtIssue
  try dsimp only
  repeat' (first
    | with_reducible apply Frame.refl
    | apply Eq.refl true
    | (with_reducible apply Frame.seq; with_reducible case k => first | apply fr_refetch | apply fr_meetParity)
    | with_reducible apply Frame.ite
    | (intro _ _; try dsimp only)
    | split)

theorem fr_goOn (n pc : Nat) (c : Cue) (s : State) : Frame 0x40001000004 s (goOn n pc c s) := by
  unfold goOn
  try dsimp only
  repeat' (first
    | with_reducible apply Frame.refl
    | apply Eq.refl true
    | (with_reducible apply Frame.seq; with_reducible case k => first | apply fr_emit | apply fr_put | apply fr_setHive)
    | with_reducible apply Frame.ite
    | (intro _ _; try dsimp only)
    | split)

theorem fr_refuseWord (n : Nat) (c : Cue) (reason : Nat) (s : State) : Frame 0x100009F80B1F2004 s (refuseWord n c reason s) := by
  unfold refuseWord
  try dsimp only
  repeat' (first
    | with_reducible apply Frame.refl
    | apply Eq.refl true
    | (with_reducible apply Frame.seq; with_reducible case k => first | apply fr_failJob | apply fr_recordRefuse)
    | with_reducible apply Frame.ite
    | (intro _ _; try dsimp only)
    | split)

theorem fr_drained {n : Nat} {s t : State} (h : drained n s = some t) : Frame 0x1000083001072004 s t := by
  unfold drained at h
  split at h
  · exact fr_drainStreams h
  · cases h

theorem fr_issueAfter {op n : Nat} {s t : State} {c : Cue} {v : Job} {w : Nat} (h : issueAfter op n s = some (t, c, v, w)) :
    Frame 0x1000083001072004 s t := by
  unfold issueAfter at h
  split at h
  · cases h
  · obtain ⟨u, hu, he⟩ := Option.map_eq_some_iff.mp h
    cases he; exact fr_drainStreams hu

theorem fr_nopOp (n : Nat) (s : State) : Frame 0x40001000004 s (nopOp n s) := by
  unfold nopOp
  try dsimp only
  repeat' (first
    | with_reducible apply Frame.refl
    | apply Eq.refl true
    | (with_reducible apply Frame.seq; with_reducible case k => first | apply fr_goOn)
    | with_reducible apply Frame.ite
    | (intro _ _; try dsimp only)
    | split)

theorem fr_leaveHive (n j : Nat) (s : State) : Frame 0x100009F8010F2004 s (leaveHive n j s) := by
  unfold leaveHive
  try dsimp only
  repeat' (first
    | with_reducible apply Frame.refl
    | apply Eq.refl true
    | (with_reducible apply Frame.seq; with_reducible case k => first | apply fr_setHive | apply fr_showCue | apply fr_sampleJob | apply fr_boundary)
    | with_reducible apply Frame.ite
    | (intro _ _; try dsimp only)
    | split)

theorem fr_hiveEnds (n j : Nat) (s : State) : Frame 0x8000000 s (hiveEnds n j s) := by
  unfold hiveEnds
  try dsimp only
  repeat' (first
    | with_reducible apply Frame.refl
    | apply Eq.refl true
    | (with_reducible apply Frame.seq; with_reducible case k => first | apply fr_finishWork | apply fr_setJob)
    | with_reducible apply Frame.ite
    | (intro _ _; try dsimp only)
    | split)

theorem fr_endOp (n : Nat) (s : State) : Frame 0x10000DF8090F2004 s (endOp n s) := by
  unfold endOp
  try dsimp only
  repeat' (first
    | with_reducible apply Frame.refl
    | apply Eq.refl true
    | (with_reducible apply Frame.seq; with_reducible case k => first | apply fr_hiveEnds | apply fr_emit | apply fr_leaveHive)
    | with_reducible apply Frame.ite
    | (intro _ _; try dsimp only)
    | exact Frame.mono (fr_drained (by assumption)) rfl
    | split)

theorem fr_waitOp (n : Nat) (s : State) : Frame 0x10000C3001072004 s (waitOp n s) := by
  unfold waitOp
  try dsimp only
  repeat' (first
    | with_reducible apply Frame.refl
    | apply Eq.refl true
    | (with_reducible apply Frame.seq; with_reducible case k => first | apply fr_setHive | apply fr_goOn)
    | with_reducible apply Frame.ite
    | (intro _ _; try dsimp only)
    | exact Frame.mono (fr_drained (by assumption)) rfl
    | split)

theorem fr_lsetOp (n : Nat) (s : State) : Frame 0x40001000004 s (lsetOp n s) := by
  unfold lsetOp
  try dsimp only
  repeat' (first
    | with_reducible apply Frame.refl
    | apply Eq.refl true
    | (with_reducible apply Frame.seq; with_reducible case k => first | apply fr_goOn)
    | with_reducible apply Frame.ite
    | (intro _ _; try dsimp only)
    | split)

theorem fr_loopOp (n : Nat) (s : State) : Frame 0x10000DF80B1F2004 s (loopOp n s) := by
  unfold loopOp
  try dsimp only
  repeat' (first
    | with_reducible apply Frame.refl
    | apply Eq.refl true
    | (with_reducible apply Frame.seq; with_reducible case k => first | apply fr_goOn | apply fr_refuseWord)
    | with_reducible apply Frame.ite
    | (intro _ _; try dsimp only)
    | split)

theorem fr_asetOp (n : Nat) (s : State) : Frame 0x40001000004 s (asetOp n s) := by
  unfold asetOp
  try dsimp only
  repeat' (first
    | with_reducible apply Frame.refl
    | apply Eq.refl true
    | (with_reducible apply Frame.seq; with_reducible case k => first | apply fr_goOn)
    | with_reducible apply Frame.ite
    | (intro _ _; try dsimp only)
    | split)

theorem fr_amovOp (n : Nat) (s : State) : Frame 0x40001000004 s (amovOp n s) := by
  unfold amovOp
  try dsimp only
  repeat' (first
    | with_reducible apply Frame.refl
    | apply Eq.refl true
    | (with_reducible apply Frame.seq; with_reducible case k => first | apply fr_goOn)
    | with_reducible apply Frame.ite
    | (intro _ _; try dsimp only)
    | split)

theorem fr_aaddOp (n : Nat) (s : State) : Frame 0x40001000004 s (aaddOp n s) := by
  unfold aaddOp
  try dsimp only
  repeat' (first
    | with_reducible apply Frame.refl
    | apply Eq.refl true
    | (with_reducible apply Frame.seq; with_reducible case k => first | apply fr_goOn)
    | with_reducible apply Frame.ite
    | (intro _ _; try dsimp only)
    | split)

theorem fr_amadOp (n : Nat) (s : State) : Frame 0x40001000004 s (amadOp n s) := by
  unfold amadOp
  try dsimp only
  repeat' (first
    | with_reducible apply Frame.refl
    | apply Eq.refl true
    | (with_reducible apply Frame.seq; with_reducible case k => first | apply fr_goOn)
    | with_reducible apply Frame.ite
    | (intro _ _; try dsimp only)
    | split)

theorem fr_modeOp (n : Nat) (s : State) : Frame 0x40001000004 s (modeOp n s) := by
  unfold modeOp
  try dsimp only
  repeat' (first
    | with_reducible apply Frame.refl
    | apply Eq.refl true
    | (with_reducible apply Frame.seq; with_reducible case k => first | apply fr_goOn)
    | with_reducible apply Frame.ite
    | (intro _ _; try dsimp only)
    | split)

theorem fr_scaleOp (n : Nat) (s : State) : Frame 0x40001000004 s (scaleOp n s) := by
  unfold scaleOp
  try dsimp only
  repeat' (first
    | with_reducible apply Frame.refl
    | apply Eq.refl true
    | (with_reducible apply Frame.seq; with_reducible case k => first | apply fr_goOn)
    | with_reducible apply Frame.ite
    | (intro _ _; try dsimp only)
    | split)

theorem fr_freeIf {b : Bool} {n : Nat} {s t : State} (h : freeIf b n s = some t) : Frame 0x1000083001072004 s t := by
  unfold freeIf at h
  split at h
  · exact fr_drainStreams h
  · cases h; exact .refl

theorem fr_writeColumn (n c scl col off : Nat) (d : List Byte) (beats : Nat) (s : State) : Frame 0x1000000 s (writeColumn n c scl col off d beats s) := by
  unfold writeColumn
  try dsimp only
  repeat' (first
    | with_reducible apply Frame.refl
    | apply Eq.refl true
    | (with_reducible apply Frame.seq; with_reducible case k => first | apply fr_writeColBeat)
    | with_reducible apply Frame.ite
    | with_reducible apply Frame.foldl
    | with_reducible apply Frame.foldl_fst
    | (intro _ _; try dsimp only)
    | split)

theorem fr_writeColumns (n c scl col nc off beats : Nat) (d : List Byte) (s : State) : Frame 0x1000000 s (writeColumns n c scl col nc off beats d s) := by
  unfold writeColumns
  try dsimp only
  repeat' (first
    | with_reducible apply Frame.refl
    | apply Eq.refl true
    | (with_reducible apply Frame.seq; with_reducible case k => first | apply fr_writeColumn)
    | with_reducible apply Frame.ite
    | with_reducible apply Frame.foldl
    | with_reducible apply Frame.foldl_fst
    | (intro _ _; try dsimp only)
    | split)

theorem fr_loadBeat (n : Nat) (x : Load) (q : Nat) (d : List Byte) (s : State) : Frame 0x1000000 s (loadBeat n x q d s) := by
  unfold loadBeat
  try dsimp only
  repeat' (first
    | with_reducible apply Frame.refl
    | apply Eq.refl true
    | (with_reducible apply Frame.seq; with_reducible case k => first | apply fr_writeColBeat)
    | with_reducible apply Frame.ite
    | with_reducible apply Frame.foldl
    | with_reducible apply Frame.foldl_fst
    | (intro _ _; try dsimp only)
    | split)

theorem fr_askCue (n : Nat) (dest : AccFor) (load : Bool) (opcode : Nat) (op : Op) (a k byteEn : Nat) (d : List Byte) (s : State) : Frame 0x9002400 s (askCue n dest load opcode op a k byteEn d s) := by
  unfold askCue
  try dsimp only
  repeat' (first
    | with_reducible apply Frame.refl
    | apply Eq.refl true
    | (with_reducible apply Frame.seq; with_reducible case k => first | apply fr_onCue | apply fr_askJob)
    | with_reducible apply Frame.ite
    | (intro _ _; try dsimp only)
    | split)

theorem fr_ldactOp (n : Nat) (s : State) : Frame 0x100009F80B1F2404 s (ldactOp n s) := by
  unfold ldactOp
  try dsimp only
  repeat' (first
    | with_reducible apply Frame.refl
    | apply Eq.refl true
    | (with_reducible apply Frame.seq; with_reducible case k => first | apply fr_askCue | apply fr_refuseWord)
    | with_reducible apply Frame.ite
    | with_reducible apply Frame.foldl
    | with_reducible apply Frame.foldl_fst
    | (intro _ _; try dsimp only)
    | exact Frame.mono (fr_freeIf (by assumption)) rfl
    | split)

theorem fr_ldactArrives (j n pc q : Nat) (d : List Byte) (s : State) : Frame 0x40001000004 s (ldactArrives j n pc q d s) := by
  unfold ldactArrives
  try dsimp only
  repeat' (first
    | with_reducible apply Frame.refl
    | apply Eq.refl true
    | (with_reducible apply Frame.seq; with_reducible case k => first | apply fr_onCue | apply fr_goOn | apply fr_loadBeat)
    | with_reducible apply Frame.ite
    | with_reducible apply Frame.foldl
    | with_reducible apply Frame.foldl_fst
    | (intro _ _; try dsimp only)
    | split)

theorem fr_clrcOp (n : Nat) (s : State) : Frame 0x10000C3001072004 s (clrcOp n s) := by
  unfold clrcOp
  try dsimp only
  repeat' (first
    | with_reducible apply Frame.refl
    | apply Eq.refl true
    | (with_reducible apply Frame.seq; with_reducible case k => first | apply fr_setHive | apply fr_goOn)
    | with_reducible apply Frame.ite
    | (intro _ _; try dsimp only)
    | exact Frame.mono (fr_freeIf (by assumption)) rfl
    | split)

theorem fr_runStream (n : Nat) (x : Stream) (c : Cue) (s : State) : Frame 0x10010DF80B9F2484 s (runStream n x c s) := by
  unfold runStream
  try dsimp only
  repeat' (first
    | with_reducible apply Frame.refl
    | apply Eq.refl true
    | (with_reducible apply Frame.seq; with_reducible case k => first | apply fr_addStream | apply fr_goOn)
    | with_reducible apply Frame.ite
    | (intro _ _; try dsimp only)
    | split)

theorem fr_digestBanks (n : Nat) (v : Job) (c : Cue) (a : StreamArgs) (s : State) : Frame 0x8000000 s (digestBanks n v c a s) := by
  unfold digestBanks
  try dsimp only
  repeat' (first
    | with_reducible apply Frame.refl
    | apply Eq.refl true
    | (with_reducible apply Frame.seq; with_reducible case k => first | apply fr_setJob)
    | with_reducible apply Frame.ite
    | (intro _ _; try dsimp only)
    | split)

theorem fr_passOp (n : Nat) (s : State) : Frame 0x10010DF80B9F2484 s (passOp n s) := by
  unfold passOp
  try dsimp only
  repeat' (first
    | with_reducible apply Frame.refl
    | apply Eq.refl true
    | (with_reducible apply Frame.seq; with_reducible case k => first | apply fr_digestBanks | apply fr_runStream | apply fr_refuseWord)
    | with_reducible apply Frame.ite
    | (intro _ _; try dsimp only)
    | split)

theorem fr_zrbOp (n : Nat) (s : State) : Frame 0x10000C3001072004 s (zrbOp n s) := by
  unfold zrbOp
  try dsimp only
  repeat' (first
    | with_reducible apply Frame.refl
    | apply Eq.refl true
    | (with_reducible apply Frame.seq; with_reducible case k => first | apply fr_goOn)
    | with_reducible apply Frame.ite
    | (intro _ _; try dsimp only)
    | exact Frame.mono (fr_issueAfter (by assumption)) rfl
    | split)

theorem fr_redOp (n : Nat) (s : State) : Frame 0x10000DF80B1F2004 s (redOp n s) := by
  unfold redOp
  try dsimp only
  repeat' (first
    | with_reducible apply Frame.refl
    | apply Eq.refl true
    | (with_reducible apply Frame.seq; with_reducible case k => first | apply fr_goOn | apply fr_refuseWord)
    | with_reducible apply Frame.ite
    | with_reducible apply Frame.foldl
    | with_reducible apply Frame.foldl_fst
    | (intro _ _; try dsimp only)
    | exact Frame.mono (fr_issueAfter (by assumption)) rfl
    | split)

theorem fr_gatherOp (n : Nat) (s : State) : Frame 0x1000083001072004 s (gatherOp n s) := by
  unfold gatherOp
  try dsimp only
  repeat' (first
    | with_reducible apply Frame.refl
    | apply Eq.refl true
    | (with_reducible apply Frame.seq; with_reducible case k => first | apply fr_setHive)
    | with_reducible apply Frame.ite
    | (intro _ _; try dsimp only)
    | exact Frame.mono (fr_issueAfter (by assumption)) rfl
    | split)

theorem fr_emitBytes (n j : Nat) (v : Job) (s : State) (x : Nat × List Byte) : Frame 0x10000DFA0B1F2404 s (emitBytes n j v s x) := by
  unfold emitBytes
  try dsimp only
  repeat' (first
    | with_reducible apply Frame.refl
    | apply Eq.refl true
    | (with_reducible apply Frame.seq; with_reducible case k => first | apply fr_emit | apply fr_hostWrite | apply fr_askCue)
    | with_reducible apply Frame.ite
    | with_reducible apply Frame.foldl
    | with_reducible apply Frame.foldl_fst
    | (intro _ _; try dsimp only)
    | split)

theorem fr_emitAnswered (j n : Nat) (s : State) : Frame 0x1000000 s (emitAnswered j n s) := by
  unfold emitAnswered
  try dsimp only
  repeat' (first
    | with_reducible apply Frame.refl
    | apply Eq.refl true
    | (with_reducible apply Frame.seq; with_reducible case k => first | apply fr_onCue)
    | with_reducible apply Frame.ite
    | (intro _ _; try dsimp only)
    | split)

theorem fr_emitWrite (n : Nat) (c : Cue) (v : Job) (w : Nat) (s : State) : Frame 0x10000DFA0B1F2404 s (emitWrite n c v w s) := by
  unfold emitWrite
  try dsimp only
  repeat' (first
    | with_reducible apply Frame.refl
    | apply Eq.refl true
    | (with_reducible apply Frame.seq; with_reducible case k => first | apply fr_setJob | apply fr_emitBytes | apply fr_goOn)
    | with_reducible apply Frame.ite
    | with_reducible apply Frame.foldl
    | with_reducible apply Frame.foldl_fst
    | (intro _ _; try dsimp only)
    | split)

theorem fr_emitOp (n : Nat) (s : State) : Frame 0x10000DFA0B1F2404 s (emitOp n s) := by
  unfold emitOp
  try dsimp only
  repeat' (first
    | with_reducible apply Frame.refl
    | apply Eq.refl true
    | (with_reducible apply Frame.seq; with_reducible case k => first | apply fr_emitWrite | apply fr_recordFault | apply fr_failJob | apply fr_goOn | apply fr_refuseWord)
    | with_reducible apply Frame.ite
    | (intro _ _; try dsimp only)
    | exact Frame.mono (fr_issueAfter (by assumption)) rfl
    | split)

end Sys2Proof.Machine
end

