-- ==== Sys2Proof/Laws/Failing.lean ====
section
/-! SUPPORT. What failing a job leaves, and that the clean case of each parity operation changes nothing. -/

namespace Sys2Proof.Machine

@[simp] theorem meetParity_clean (j : Nat) (s : State) : meetParity .clean j s = s := rfl

@[simp] theorem parityOf_clean (j type : Nat) (s : State) : parityOf .clean j type s = s := by
  unfold parityOf; split <;> rfl

@[simp] theorem parityAtWork_clean (j : Nat) (s : State) : parityAtWork .clean j s = s := by
  unfold parityAtWork; split <;> rfl

@[simp] theorem meetAtIssue_clean (n : Nat) (word : Option (Cue × Job × Nat)) (s : State) : meetAtIssue .clean n word s = s := by
  cases word <;> rfl

@[simp] theorem losePath_false (m : Nat) (uids : List Nat) (s : State) : losePath false m uids s = s := rfl

@[simp] theorem setJob_same (j : Nat) (v : Job) (s : State) : mfind (setJob j v s).jobs j = some v := by
  unfold setJob; simp

/-- A job that has not failed, ended or timed out carries the status and INFO of its failure, and is stopped. -/
theorem failJob_fails (j status info : Nat) (v : Job) (s : State) (h : mfind s.jobs j = some v) (h1 : v.status = 0) (h2 : v.done = false)
    (h3 : v.timedOut = false) :
    mfind (failJob j status info s).jobs j = some { v with status := status, info := info, stopped := true, running := [] } := by
  have hs : ∀ u w, mfind u.jobs j = some w → mfind (stopUnits j u).jobs j = some { w with stopped := true, running := [] } := by
    intro u w hw
    unfold stopUnits
    simp only [hw]
    exact setJob_same ..
  unfold failJob
  simp only [h, h1, h2, h3, ne_eq, not_true_eq_false, decide_false, Bool.or_false, Bool.false_eq_true, if_false]
  split
  · rw [(fr_haltCtx ..).f_jobs rfl]
    exact hs _ _ (setJob_same ..)
  · exact hs _ _ (setJob_same ..)

end Sys2Proof.Machine
end

