-- ==== Sys2Proof/Laws/FrameAttention.lean ====
section
/-! SUPPORT. What each operation of Attention.lean may change. -/

namespace Sys2Proof.Machine

open Reg

theorem fr_kstreamOp (n : Nat) (s : State) : Frame 0x10010DF80B9F2484 s (kstreamOp n s) := by
  unfold kstreamOp
  try dsimp only
  repeat' (first
    | with_reducible apply Frame.refl
    | apply Eq.refl true
    | (with_reducible apply Frame.seq; with_reducible case k => first | apply fr_runStream | apply fr_refuseWord)
    | with_reducible apply Frame.ite
    | (intro _ _; try dsimp only)
    | split)

theorem fr_issueSmax {stage n : Nat} {s t : State} {c : Cue} {v : Job} {w : Nat} (h : issueSmax stage n s = some (t, c, v, w)) :
    Frame 0x1000083001072004 s t := fr_issueAfter (Option.filter_eq_some_iff.mp h).1

theorem fr_smaxMaxOp (n : Nat) (s : State) : Frame 0x1000083001072004 s (smaxMaxOp n s) := by
  unfold smaxMaxOp
  try dsimp only
  repeat' (first
    | with_reducible apply Frame.refl
    | apply Eq.refl true
    | (with_reducible apply Frame.seq; with_reducible case k => first | apply fr_setHive)
    | with_reducible apply Frame.ite
    | with_reducible apply Frame.foldl
    | with_reducible apply Frame.foldl_fst
    | (intro _ _; try dsimp only)
    | exact Frame.mono (fr_issueSmax (by assumption)) rfl
    | split)

theorem fr_smaxExpOp (n : Nat) (s : State) : Frame 0x10000C3001072004 s (smaxExpOp n s) := by
  unfold smaxExpOp
  try dsimp only
  repeat' (first
    | with_reducible apply Frame.refl
    | apply Eq.refl true
    | (with_reducible apply Frame.seq; with_reducible case k => first | apply fr_goOn)
    | with_reducible apply Frame.ite
    | with_reducible apply Frame.foldl
    | with_reducible apply Frame.foldl_fst
    | (intro _ _; try dsimp only)
    | exact Frame.mono (fr_issueSmax (by assumption)) rfl
    | split)

theorem fr_smaxCloseOp (n : Nat) (s : State) : Frame 0x1000083001072004 s (smaxCloseOp n s) := by
  unfold smaxCloseOp
  try dsimp only
  repeat' (first
    | with_reducible apply Frame.refl
    | apply Eq.refl true
    | (with_reducible apply Frame.seq; with_reducible case k => first | apply fr_setHive)
    | with_reducible apply Frame.ite
    | (intro _ _; try dsimp only)
    | exact Frame.mono (fr_issueSmax (by assumption)) rfl
    | split)

theorem fr_placeProbs (n cell cells : Nat) (m : Mode) (a : VArgs) (c : Cue) (s : State) : Frame 0x1000000 s (placeProbs n cell cells m a c s) := by
  unfold placeProbs
  try dsimp only
  repeat' (first
    | with_reducible apply Frame.refl
    | apply Eq.refl true
    | (with_reducible apply Frame.seq; with_reducible case k => first | apply fr_setHive)
    | with_reducible apply Frame.ite
    | with_reducible apply Frame.foldl
    | with_reducible apply Frame.foldl_fst
    | (intro _ _; try dsimp only)
    | split)

theorem fr_vstreamOp (n : Nat) (s : State) : Frame 0x10010DF80B9F2484 s (vstreamOp n s) := by
  unfold vstreamOp
  try dsimp only
  repeat' (first
    | with_reducible apply Frame.refl
    | apply Eq.refl true
    | (with_reducible apply Frame.seq; with_reducible case k => first | apply fr_placeProbs | apply fr_runStream | apply fr_goOn | apply fr_refuseWord)
    | with_reducible apply Frame.ite
    | with_reducible apply Frame.foldl
    | with_reducible apply Frame.foldl_fst
    | (intro _ _; try dsimp only)
    | exact Frame.mono (fr_issueAfter (by assumption)) rfl
    | split)

theorem fr_goOnAll (hs : List Nat) (s : State) : Frame 0x40001000084 s (goOnAll hs s) := by
  unfold goOnAll
  try dsimp only
  repeat' (first
    | with_reducible apply Frame.refl
    | apply Eq.refl true
    | (with_reducible apply Frame.seq; with_reducible case k => first | apply fr_emitSome | apply fr_goOn)
    | with_reducible apply Frame.ite
    | with_reducible apply Frame.foldl
    | with_reducible apply Frame.foldl_fst
    | (intro _ _; try dsimp only)
    | split)

theorem fr_leaveIn0 (hs : List Nat) (k : Nat) (e : Option Entry) (s : State) : Frame 0x1000000 s (leaveIn0 hs k e s) := by
  unfold leaveIn0
  try dsimp only
  repeat' (first
    | with_reducible apply Frame.refl
    | apply Eq.refl true
    | (with_reducible apply Frame.seq; with_reducible case k => first | apply fr_onCue)
    | with_reducible apply Frame.ite
    | with_reducible apply Frame.foldl
    | with_reducible apply Frame.foldl_fst
    | (intro _ _; try dsimp only)
    | split)

theorem fr_gatherExchange (j : Nat) (hs : List Nat) (w : Nat) (s : State) : Frame 0x10000DF80B1F2084 s (gatherExchange j hs w s) := by
  unfold gatherExchange
  try dsimp only
  repeat' (first
    | with_reducible apply Frame.refl
    | apply Eq.refl true
    | (with_reducible apply Frame.seq; with_reducible case k => first | apply fr_failJob | apply fr_recordRefuse | apply fr_goOnAll | apply fr_leaveIn0)
    | with_reducible apply Frame.ite
    | with_reducible apply Frame.foldl
    | with_reducible apply Frame.foldl_fst
    | (intro _ _; try dsimp only)
    | split)

theorem fr_maxExchange (hs : List Nat) (w : Nat) (s : State) : Frame 0x40001000084 s (maxExchange hs w s) := by
  unfold maxExchange
  try dsimp only
  repeat' (first
    | with_reducible apply Frame.refl
    | apply Eq.refl true
    | (with_reducible apply Frame.seq; with_reducible case k => first | apply fr_onCue | apply fr_goOnAll)
    | with_reducible apply Frame.ite
    | with_reducible apply Frame.foldl
    | with_reducible apply Frame.foldl_fst
    | (intro _ _; try dsimp only)
    | split)

theorem fr_closeExchange (hs : List Nat) (w : Nat) (s : State) : Frame 0x40001000084 s (closeExchange hs w s) := by
  unfold closeExchange
  try dsimp only
  repeat' (first
    | with_reducible apply Frame.refl
    | apply Eq.refl true
    | (with_reducible apply Frame.seq; with_reducible case k => first | apply fr_onCue | apply fr_goOnAll | apply fr_leaveIn0)
    | with_reducible apply Frame.ite
    | with_reducible apply Frame.foldl
    | with_reducible apply Frame.foldl_fst
    | (intro _ _; try dsimp only)
    | split)

theorem fr_spanSync (j : Nat) (s : State) : Frame 0x10000DF80B1F2084 s (spanSync j s) := by
  unfold spanSync
  try dsimp only
  repeat' (first
    | with_reducible apply Frame.refl
    | apply Eq.refl true
    | (with_reducible apply Frame.seq; with_reducible case k => first | apply fr_goOnAll | apply fr_closeExchange | apply fr_gatherExchange | apply fr_maxExchange)
    | with_reducible apply Frame.ite
    | (intro _ _; try dsimp only)
    | split)

end Sys2Proof.Machine
end

