-- ==== Sys2Proof/Laws/FrameCommits.lean ====
section
/-! SUPPORT. What each operation of Commits.lean may change. -/

namespace Sys2Proof.Machine

open Reg

theorem fr_glbCommit (s : State) : Frame 0x10 s (glbCommit s) := by
  unfold glbCommit
  try dsimp only
  repeat' (first
    | with_reducible apply Frame.refl
    | apply Eq.refl true
    | (with_reducible apply Frame.seq; with_reducible case k => first | apply fr_commitRange)
    | with_reducible apply Frame.ite
    | (intro _ _; try dsimp only)
    | split)

theorem fr_endBusy (s : State) (x : Fld × Fld) : Frame 0x4 s (endBusy s x) := by
  unfold endBusy
  try dsimp only
  repeat' (first
    | with_reducible apply Frame.refl
    | apply Eq.refl true
    | (with_reducible apply Frame.seq; with_reducible case k => first | apply fr_putAll)
    | with_reducible apply Frame.ite
    | (intro _ _; try dsimp only)
    | split)

theorem fr_resumeBut (off len : Nat) (s : State) : Frame 0x100014 s (resumeBut off len s) := by
  unfold resumeBut
  try dsimp only
  repeat' (first
    | with_reducible apply Frame.refl
    | apply Eq.refl true
    | (with_reducible apply Frame.seq; with_reducible case k => first | apply fr_resumeHive)
    | with_reducible apply Frame.ite
    | with_reducible apply Frame.foldl
    | with_reducible apply Frame.foldl_fst
    | (intro _ _; try dsimp only)
    | split)

theorem fr_settleBut (off len : Nat) (s : State) : Frame 0x100014 s (settleBut off len s) := by
  unfold settleBut
  try dsimp only
  repeat' (first
    | with_reducible apply Frame.refl
    | apply Eq.refl true
    | (with_reducible apply Frame.seq; with_reducible case k => first | apply fr_endBusy | apply fr_resumeBut)
    | with_reducible apply Frame.ite
    | with_reducible apply Frame.foldl
    | with_reducible apply Frame.foldl_fst
    | (intro _ _; try dsimp only)
    | split)

theorem fr_idleTick (s : State) : Frame 0x100014 s (idleTick s) := by
  unfold idleTick
  try dsimp only
  repeat' (first
    | with_reducible apply Frame.refl
    | apply Eq.refl true
    | (with_reducible apply Frame.seq; with_reducible case k => first | apply fr_endBusy | apply fr_resumeHive)
    | with_reducible apply Frame.ite
    | with_reducible apply Frame.foldl
    | with_reducible apply Frame.foldl_fst
    | (intro _ _; try dsimp only)
    | split)

theorem fr_arbCommit (s : State) : Frame 0x8014 s (arbCommit s) := by
  unfold arbCommit
  try dsimp only
  repeat' (first
    | with_reducible apply Frame.refl
    | apply Eq.refl true
    | (with_reducible apply Frame.seq; with_reducible case k => first | apply fr_put | apply fr_commitRange | apply fr_setBucket | apply fr_putAll)
    | with_reducible apply Frame.ite
    | with_reducible apply Frame.foldl
    | with_reducible apply Frame.foldl_fst
    | (intro _ _; try dsimp only)
    | split)

theorem fr_qosTokenReset (mask : BitVec 32) (s : State) : Frame 0x8004 s (qosTokenReset mask s) := by
  unfold qosTokenReset
  try dsimp only
  repeat' (first
    | with_reducible apply Frame.refl
    | apply Eq.refl true
    | (with_reducible apply Frame.seq; with_reducible case k => first | apply fr_refillClass)
    | with_reducible apply Frame.ite
    | with_reducible apply Frame.foldl
    | with_reducible apply Frame.foldl_fst
    | (intro _ _; try dsimp only)
    | split)

theorem fr_guarFactor (n : Nat) (s : State) : Frame 0x100001E800080004 s (guarFactor n s) := by
  unfold guarFactor
  try dsimp only
  repeat' (first
    | with_reducible apply Frame.refl
    | apply Eq.refl true
    | (with_reducible apply Frame.seq; with_reducible case k => first | apply fr_put | apply fr_postEvent | apply fr_raiseInt)
    | with_reducible apply Frame.ite
    | (intro _ _; try dsimp only)
    | split)

theorem fr_recordMiss (n : Nat) (s : State) (m : Nat) : Frame 0x100005E800080004 s (recordMiss n s m) := by
  unfold recordMiss
  try dsimp only
  repeat' (first
    | with_reducible apply Frame.refl
    | apply Eq.refl true
    | (with_reducible apply Frame.seq; with_reducible case k => first | apply fr_emit | apply fr_put | apply fr_bump | apply fr_postEvent | apply fr_raiseInt | apply fr_putAll)
    | with_reducible apply Frame.ite
    | (intro _ _; try dsimp only)
    | split)

theorem fr_qosMissWindow (n : Nat) (s : State) : Frame 0x100005E800090004 s (qosMissWindow n s) := by
  unfold qosMissWindow
  try dsimp only
  repeat' (first
    | with_reducible apply Frame.refl
    | apply Eq.refl true
    | (with_reducible apply Frame.seq; with_reducible case k => first | apply fr_setGate | apply fr_recordMiss)
    | with_reducible apply Frame.ite
    | with_reducible apply Frame.foldl
    | with_reducible apply Frame.foldl_fst
    | (intro _ _; try dsimp only)
    | split)

end Sys2Proof.Machine
end

