-- ==== Sys2Proof/Laws/FrameCores.lean ====
section
/-! SUPPORT. What each operation of Cores.lean may change. -/

namespace Sys2Proof.Machine

open Reg

theorem fr_setCore (i : Nat) (c : Core) (s : State) : Frame 0x2000000000000 s (setCore i c s) := by
  unfold setCore
  try dsimp only
  repeat' (first
    | with_reducible apply Frame.refl
    | apply Eq.refl true
    | with_reducible apply Frame.ite
    | (intro _ _; try dsimp only)
    | split
    | with_reducible apply Frame.set_cores)

theorem fr_putReady (i : Nat) (b : Bool) (s : State) : Frame 0x4 s (putReady i b s) := by
  unfold putReady
  try dsimp only
  repeat' (first
    | with_reducible apply Frame.refl
    | apply Eq.refl true
    | (with_reducible apply Frame.seq; with_reducible case k => first | apply fr_put)
    | with_reducible apply Frame.ite
    | (intro _ _; try dsimp only)
    | split)

theorem fr_updEnd (state result : Nat) (s : State) : Frame 0x101001E800080004 s (updEnd state result s) := by
  unfold updEnd
  try dsimp only
  repeat' (first
    | with_reducible apply Frame.refl
    | apply Eq.refl true
    | (with_reducible apply Frame.seq; with_reducible case k => first | apply fr_putAll | apply fr_postEvent)
    | with_reducible apply Frame.ite
    | (intro _ _; try dsimp only)
    | split
    | with_reducible apply Frame.set_fw)

theorem fr_coreDown (i : Nat) (s : State) : Frame 0x101081E800180004 s (coreDown i s) := by
  unfold coreDown
  try dsimp only
  repeat' (first
    | with_reducible apply Frame.refl
    | apply Eq.refl true
    | (with_reducible apply Frame.seq; with_reducible case k => first | apply fr_updEnd | apply fr_putReady | apply fr_dropRecal)
    | with_reducible apply Frame.ite
    | (intro _ _; try dsimp only)
    | split)

theorem fr_coreLoad (i : Nat) (s : State) : Frame 0x2000000000000 s (coreLoad i s) := by
  unfold coreLoad
  try dsimp only
  repeat' (first
    | with_reducible apply Frame.refl
    | apply Eq.refl true
    | (with_reducible apply Frame.seq; with_reducible case k => first | apply fr_setCore)
    | with_reducible apply Frame.ite
    | (intro _ _; try dsimp only)
    | split)

theorem fr_takeOver (n : Nat) (s : State) : Frame 0x100001E800080004 s (takeOver n s) := by
  unfold takeOver
  try dsimp only
  repeat' (first
    | with_reducible apply Frame.refl
    | apply Eq.refl true
    | (with_reducible apply Frame.seq; with_reducible case k => first | apply fr_putAll | apply fr_postEvent)
    | with_reducible apply Frame.ite
    | (intro _ _; try dsimp only)
    | split)

theorem fr_retireCore (i : Nat) (s : State) : Frame 0x100201E800080004 s (retireCore i s) := by
  unfold retireCore
  try dsimp only
  repeat' (first
    | with_reducible apply Frame.refl
    | apply Eq.refl true
    | (with_reducible apply Frame.seq; with_reducible case k => first | apply fr_setCore | apply fr_takeOver | apply fr_put)
    | with_reducible apply Frame.ite
    | (intro _ _; try dsimp only)
    | split)

theorem fr_coreFail (i reason : Nat) (s : State) : Frame 0x101281E800180004 s (coreFail i reason s) := by
  unfold coreFail
  try dsimp only
  repeat' (first
    | with_reducible apply Frame.refl
    | apply Eq.refl true
    | (with_reducible apply Frame.seq; with_reducible case k => first | apply fr_coreDown | apply fr_setCore | apply fr_retireCore | apply fr_bump | apply fr_postEvent | apply fr_coreLoad | apply fr_putAll)
    | with_reducible apply Frame.ite
    | (intro _ _; try dsimp only)
    | split)

theorem fr_coreWatchdog (i : Nat) (s : State) : Frame 0x101281E800180004 s (coreWatchdog i s) := by
  unfold coreWatchdog
  try dsimp only
  repeat' (first
    | with_reducible apply Frame.refl
    | apply Eq.refl true
    | (with_reducible apply Frame.seq; with_reducible case k => first | apply fr_coreFail)
    | with_reducible apply Frame.ite
    | (intro _ _; try dsimp only)
    | split)

theorem fr_coreDelayEnd (i : Nat) (s : State) : Frame 0x2000000000000 s (coreDelayEnd i s) := by
  unfold coreDelayEnd
  try dsimp only
  repeat' (first
    | with_reducible apply Frame.refl
    | apply Eq.refl true
    | (with_reducible apply Frame.seq; with_reducible case k => first | apply fr_coreLoad)
    | with_reducible apply Frame.ite
    | (intro _ _; try dsimp only)
    | split)

theorem fr_coreUp (s : State) (i : Nat) : Frame 0x2100006080004 s (coreUp s i) := by
  unfold coreUp
  try dsimp only
  repeat' (first
    | with_reducible apply Frame.refl
    | apply Eq.refl true
    | (with_reducible apply Frame.seq; with_reducible case k => first | apply fr_runHeldCtx | apply fr_setCore | apply fr_putReady)
    | with_reducible apply Frame.ite
    | (intro _ _; try dsimp only)
    | split)

theorem fr_finishRestarts (s : State) : Frame 0x2100006080004 s (finishRestarts s) := by
  unfold finishRestarts
  try dsimp only
  repeat' (first
    | with_reducible apply Frame.refl
    | apply Eq.refl true
    | (with_reducible apply Frame.seq; with_reducible case k => first | apply fr_coreUp)
    | with_reducible apply Frame.ite
    | with_reducible apply Frame.foldl
    | with_reducible apply Frame.foldl_fst
    | (intro _ _; try dsimp only)
    | split)

end Sys2Proof.Machine
end

