-- ==== Sys2Proof/Laws/FrameEcc.lean ====
section
/-! SUPPORT. What each operation of Ecc.lean may change. -/

namespace Sys2Proof.Machine

open Reg

theorem fr_rereadGood (n c p : Nat) (r : Retry) (left : ErrPat) (fixed : Option (List Nat × Bool)) (s : State) : Frame 0x18000C1801172404 s (rereadGood n c p r left fixed s) := by
  unfold rereadGood
  try dsimp only
  repeat' (first
    | with_reducible apply Frame.refl
    | apply Eq.refl true
    | (with_reducible apply Frame.seq; with_reducible case k => first | apply fr_corrected | apply fr_bump | apply fr_answerRead | apply fr_scrubFix)
    | with_reducible apply Frame.ite
    | (intro _ _; try dsimp only)
    | split)

theorem fr_rereadFails (n c p : Nat) (r : Retry) (s : State) : Frame 0x18000C1801172004 s (rereadFails n c p r s) := by
  unfold rereadFails
  try dsimp only
  repeat' (first
    | with_reducible apply Frame.refl
    | apply Eq.refl true
    | (with_reducible apply Frame.seq; with_reducible case k => first | apply fr_uncorrectable | apply fr_answerRead | apply fr_scrubUe)
    | with_reducible apply Frame.ite
    | (intro _ _; try dsimp only)
    | split)

theorem fr_reread (n c p : Nat) (errs : ErrPat) (s : State) : Frame 0x18000C1801172404 s (reread n c p errs s) := by
  unfold reread
  try dsimp only
  repeat' (first
    | with_reducible apply Frame.refl
    | apply Eq.refl true
    | (with_reducible apply Frame.seq; with_reducible case k => first | apply fr_rereadGood | apply fr_corrected | apply fr_uncorrectable | apply fr_setPc | apply fr_rereadFails)
    | with_reducible apply Frame.ite
    | (intro _ _; try dsimp only)
    | split)

theorem fr_readModifyWrite (n c p : Nat) (errs : ErrPat) (s : State) : Frame 0x18000C1801172004 s (readModifyWrite n c p errs s) := by
  unfold readModifyWrite
  try dsimp only
  repeat' (first
    | with_reducible apply Frame.refl
    | apply Eq.refl true
    | (with_reducible apply Frame.seq; with_reducible case k => first | apply fr_finishRead)
    | with_reducible apply Frame.ite
    | (intro _ _; try dsimp only)
    | split)

theorem fr_ceLeak (n : Nat) (s : State) : Frame 0x4 s (ceLeak n s) := by
  unfold ceLeak
  try dsimp only
  repeat' (first
    | with_reducible apply Frame.refl
    | apply Eq.refl true
    | (with_reducible apply Frame.seq; with_reducible case k => first | apply fr_put)
    | with_reducible apply Frame.ite
    | (intro _ _; try dsimp only)
    | split)

theorem fr_laneErasure (n c p lane : Nat) (s : State) : Frame 0x100001E800080004 s (laneErasure n c p lane s) := by
  unfold laneErasure
  try dsimp only
  repeat' (first
    | with_reducible apply Frame.refl
    | apply Eq.refl true
    | (with_reducible apply Frame.seq; with_reducible case k => first | apply fr_postEvent | apply fr_putAll)
    | with_reducible apply Frame.ite
    | (intro _ _; try dsimp only)
    | split)

theorem fr_homeActs (n c : Nat) (x : Nat × Nat × Nat × Nat) (s : State) : Frame 0x40000300004 s (homeActs n c x s) := by
  unfold homeActs
  try dsimp only
  repeat' (first
    | with_reducible apply Frame.refl
    | apply Eq.refl true
    | (with_reducible apply Frame.seq; with_reducible case k => first | apply fr_rowActs)
    | with_reducible apply Frame.ite
    | (intro _ _; try dsimp only)
    | split)

theorem fr_copyBlock (n c off : Nat) (errs : ErrPat) (s : State) : Frame 0x1000040800101804 s (copyBlock n c off errs s) := by
  unfold copyBlock
  try dsimp only
  repeat' (first
    | with_reducible apply Frame.refl
    | apply Eq.refl true
    | (with_reducible apply Frame.seq; with_reducible case k => first | apply fr_markBlock | apply fr_corrected | apply fr_uncorrectable | apply fr_settle | apply fr_writeBlock)
    | with_reducible apply Frame.ite
    | (intro _ _; try dsimp only)
    | split)

theorem fr_copyBlocks (n c p sid bank row : Nat) (errs : List (Nat × ErrPat)) (s : State) : Frame 0x1000040800101804 s (copyBlocks n c p sid bank row errs s) := by
  unfold copyBlocks
  try dsimp only
  repeat' (first
    | with_reducible apply Frame.refl
    | apply Eq.refl true
    | (with_reducible apply Frame.seq; with_reducible case k => first | apply fr_copyBlock)
    | with_reducible apply Frame.ite
    | with_reducible apply Frame.foldl
    | with_reducible apply Frame.foldl_fst
    | (intro _ _; try dsimp only)
    | split)

theorem fr_copyRow (n c p sid bank row i : Nat) (errs : List (Nat × ErrPat)) (s : State) : Frame 0x1000040800301804 s (copyRow n c p sid bank row i errs s) := by
  unfold copyRow
  try dsimp only
  repeat' (first
    | with_reducible apply Frame.refl
    | apply Eq.refl true
    | (with_reducible apply Frame.seq; with_reducible case k => first | apply fr_copyBlocks | apply fr_homeActs | apply fr_setPc)
    | with_reducible apply Frame.ite
    | (intro _ _; try dsimp only)
    | split)

theorem fr_reroute (n c : Nat) (s : State) : Frame 0x110000 s (reroute n c s) := by
  unfold reroute
  try dsimp only
  repeat' (first
    | with_reducible apply Frame.refl
    | apply Eq.refl true
    | (with_reducible apply Frame.seq; with_reducible case k => first | apply fr_setGate | apply fr_setPc)
    | with_reducible apply Frame.ite
    | (intro _ _; try dsimp only)
    | split)

theorem fr_setEntry (n c i p sid bank row source : Nat) (s : State) : Frame 0x180000000110004 s (setEntry n c i p sid bank row source s) := by
  unfold setEntry
  try dsimp only
  repeat' (first
    | with_reducible apply Frame.refl
    | apply Eq.refl true
    | (with_reducible apply Frame.seq; with_reducible case k => first | apply fr_reroute | apply fr_recordRemaps | apply fr_putAll)
    | with_reducible apply Frame.ite
    | (intro _ _; try dsimp only)
    | split
    | with_reducible apply Frame.set_remapWant)

theorem fr_freeEntryOf (n c i : Nat) (s : State) : Frame 0x180000000110004 s (freeEntryOf n c i s) := by
  unfold freeEntryOf
  try dsimp only
  repeat' (first
    | with_reducible apply Frame.refl
    | apply Eq.refl true
    | (with_reducible apply Frame.seq; with_reducible case k => first | apply fr_reroute | apply fr_recordRemaps | apply fr_putAll)
    | with_reducible apply Frame.ite
    | (intro _ _; try dsimp only)
    | split
    | with_reducible apply Frame.set_remapWant)

theorem fr_remapInstall (n c p sid bank row : Nat) (errs : List (Nat × ErrPat)) (s : State) : Frame 0x118005E800391804 s (remapInstall n c p sid bank row errs s) := by
  unfold remapInstall
  try dsimp only
  repeat' (first
    | with_reducible apply Frame.refl
    | apply Eq.refl true
    | (with_reducible apply Frame.seq; with_reducible case k => first | apply fr_postEvent | apply fr_copyRow | apply fr_setEntry)
    | with_reducible apply Frame.ite
    | (intro _ _; try dsimp only)
    | split)

theorem fr_remapMove (n c i : Nat) (errs : List (Nat × ErrPat)) (s : State) : Frame 0x118005E800391804 s (remapMove n c i errs s) := by
  unfold remapMove
  try dsimp only
  repeat' (first
    | with_reducible apply Frame.refl
    | apply Eq.refl true
    | (with_reducible apply Frame.seq; with_reducible case k => first | apply fr_put | apply fr_postEvent | apply fr_copyRow | apply fr_setEntry | apply fr_freeEntryOf)
    | with_reducible apply Frame.ite
    | (intro _ _; try dsimp only)
    | split)

theorem fr_rmpDone (n result entry : Nat) (s : State) : Frame 0x4 s (rmpDone n result entry s) := by
  unfold rmpDone
  try dsimp only
  repeat' (first
    | with_reducible apply Frame.refl
    | apply Eq.refl true
    | (with_reducible apply Frame.seq; with_reducible case k => first | apply fr_putAll)
    | with_reducible apply Frame.ite
    | (intro _ _; try dsimp only)
    | split)

theorem fr_rmpOverrun (n : Nat) (s : State) : Frame 0x4 s (rmpOverrun n s) := by
  unfold rmpOverrun
  try dsimp only
  repeat' (first
    | with_reducible apply Frame.refl
    | apply Eq.refl true
    | (with_reducible apply Frame.seq; with_reducible case k => first | apply fr_put)
    | with_reducible apply Frame.ite
    | (intro _ _; try dsimp only)
    | split)

theorem fr_install (n : Nat) (errs : List (Nat × ErrPat)) (s : State) : Frame 0x118005E800391804 s (install n errs s) := by
  unfold install
  try dsimp only
  repeat' (first
    | with_reducible apply Frame.refl
    | apply Eq.refl true
    | (with_reducible apply Frame.seq; with_reducible case k => first | apply fr_rmpDone | apply fr_put | apply fr_postEvent | apply fr_rmpOverrun | apply fr_copyRow | apply fr_setEntry)
    | with_reducible apply Frame.ite
    | (intro _ _; try dsimp only)
    | split)

theorem fr_repair (n : Nat) (stackOk : Bool) (errs : List (Nat × ErrPat)) (s : State) : Frame 0x1181040800B11804 s (repair n stackOk errs s) := by
  unfold repair
  try dsimp only
  repeat' (first
    | with_reducible apply Frame.refl
    | apply Eq.refl true
    | (with_reducible apply Frame.seq; with_reducible case k => first | apply fr_copyBlocks | apply fr_rmpDone | apply fr_put | apply fr_homeActs | apply fr_rmpOverrun | apply fr_quiesce | apply fr_freeEntryOf)
    | with_reducible apply Frame.ite
    | (intro _ _; try dsimp only)
    | split)

theorem fr_checkHive (fails : List (Nat × Bool × Nat × Nat)) (s : State) (n : Nat) : Frame 0x180129F8019F2004 s (checkHive fails s n) := by
  unfold checkHive
  try dsimp only
  repeat' (first
    | with_reducible apply Frame.refl
    | apply Eq.refl true
    | (with_reducible apply Frame.seq; with_reducible case k => first | apply fr_put | apply fr_hiveOff | apply fr_postEvent | apply fr_putAll)
    | with_reducible apply Frame.ite
    | with_reducible apply Frame.foldl
    | with_reducible apply Frame.foldl_fst
    | (intro _ _; try dsimp only)
    | split)

theorem fr_checkerSelfTest (fails : List (Nat × Bool × Nat × Nat)) (s : State) : Frame 0x180129F8019F2004 s (checkerSelfTest fails s) := by
  unfold checkerSelfTest
  try dsimp only
  repeat' (first
    | with_reducible apply Frame.refl
    | apply Eq.refl true
    | (with_reducible apply Frame.seq; with_reducible case k => first | apply fr_put | apply fr_checkHive)
    | with_reducible apply Frame.ite
    | with_reducible apply Frame.foldl
    | with_reducible apply Frame.foldl_fst
    | (intro _ _; try dsimp only)
    | split)

theorem fr_fill (s : State) : Frame 0x1804 s (fill s) := by
  unfold fill
  split
  · exact .refl
  · exact Frame.seq (Frame.memory rfl rfl (memWf_filter _) (Frame.mono (fr_put ..) rfl)) (fr_put ..) rfl

theorem fr_queueScrub (a : Nat) (s : State) : Frame 0x1000000900400 s (queueScrub a s) := by
  unfold queueScrub
  try dsimp only
  repeat' (first
    | with_reducible apply Frame.refl
    | apply Eq.refl true
    | (with_reducible apply Frame.seq; with_reducible case k => first | apply fr_setPc | apply fr_wake)
    | with_reducible apply Frame.ite
    | (intro _ _; try dsimp only)
    | split
    | with_reducible apply Frame.set_nextUid)

theorem fr_dropScrubs (s : State) : Frame 0x100000 s (dropScrubs s) := by
  unfold dropScrubs
  try dsimp only
  repeat' (first
    | with_reducible apply Frame.refl
    | apply Eq.refl true
    | with_reducible apply Frame.ite
    | (intro _ _; try dsimp only)
    | split
    | with_reducible apply Frame.set_pcs)

theorem fr_scrubEnd (s : State) : Frame 0x40000000000004 s (scrubEnd s) := by
  unfold scrubEnd
  try dsimp only
  repeat' (first
    | with_reducible apply Frame.refl
    | apply Eq.refl true
    | (with_reducible apply Frame.seq; with_reducible case k => first | apply fr_putAll)
    | with_reducible apply Frame.ite
    | (intro _ _; try dsimp only)
    | split
    | with_reducible apply Frame.set_scrubRun)

theorem fr_scrubGo (s : State) : Frame 0x41000000900404 s (scrubGo s) := by
  unfold scrubGo
  try dsimp only
  repeat' (first
    | with_reducible apply Frame.refl
    | apply Eq.refl true
    | (with_reducible apply Frame.seq; with_reducible case k => first | apply fr_put | apply fr_queueScrub | apply fr_scrubEnd | apply fr_putAll)
    | with_reducible apply Frame.ite
    | (intro _ _; try dsimp only)
    | split
    | with_reducible apply Frame.set_scrubRun)

theorem fr_scrubStop (s : State) : Frame 0x40000000100004 s (scrubStop s) := by
  unfold scrubStop
  try dsimp only
  repeat' (first
    | with_reducible apply Frame.refl
    | apply Eq.refl true
    | (with_reducible apply Frame.seq; with_reducible case k => first | apply fr_dropScrubs | apply fr_put | apply fr_scrubEnd)
    | with_reducible apply Frame.ite
    | (intro _ _; try dsimp only)
    | split
    | with_reducible apply Frame.set_scrubRun)

theorem fr_scrubNext (b a l : Nat) (s : State) : Frame 0x41000000900404 s (scrubNext b a l s) := by
  unfold scrubNext
  try dsimp only
  repeat' (first
    | with_reducible apply Frame.refl
    | apply Eq.refl true
    | (with_reducible apply Frame.seq; with_reducible case k => first | apply fr_put | apply fr_queueScrub)
    | with_reducible apply Frame.ite
    | (intro _ _; try dsimp only)
    | split
    | with_reducible apply Frame.set_scrubRun)

theorem fr_scrubRead (errs : ErrPat) (s : State) : Frame 0x1041040800900404 s (scrubRead errs s) := by
  unfold scrubRead
  try dsimp only
  repeat' (first
    | with_reducible apply Frame.refl
    | apply Eq.refl true
    | (with_reducible apply Frame.seq; with_reducible case k => first | apply fr_finishScrub | apply fr_setPc | apply fr_scrubNext)
    | with_reducible apply Frame.ite
    | (intro _ _; try dsimp only)
    | split)

theorem fr_scrubRunEnd (s : State) : Frame 0x40000000000004 s (scrubRunEnd s) := by
  unfold scrubRunEnd
  try dsimp only
  repeat' (first
    | with_reducible apply Frame.refl
    | apply Eq.refl true
    | (with_reducible apply Frame.seq; with_reducible case k => first | apply fr_scrubEnd)
    | with_reducible apply Frame.ite
    | (intro _ _; try dsimp only)
    | split)

end Sys2Proof.Machine
end

