-- ==== Sys2Proof/Laws/FrameRegs.lean ====
section
/-! SUPPORT. What each operation of Regs.lean may change. -/

namespace Sys2Proof.Machine

open Reg

theorem fr_refresh (base : Nat) (ix : List Nat) (s : State) : Frame 0x4 s (refresh base ix s) := by
  unfold refresh
  try dsimp only
  repeat' (first
    | with_reducible apply Frame.refl
    | apply Eq.refl true
    | (with_reducible apply Frame.seq; with_reducible case k => first | apply fr_put | apply fr_putAll | apply fr_peerShow)
    | with_reducible apply Frame.ite
    | (intro _ _; try dsimp only)
    | split)

theorem fr_regRead (off : Nat) (s : State) : Frame 0x40 s (regRead off s).2 := by
  unfold regRead
  try dsimp only
  repeat' (first
    | with_reducible apply Frame.refl
    | apply Eq.refl true
    | with_reducible apply Frame.ite
    | (intro _ _; try dsimp only)
    | split
    | with_reducible apply Frame.set_hiCap)

theorem fr_fieldWrite (v : Nat) (s : State) (f : Fld) : Frame 0xC s (fieldWrite v s f) := by
  unfold fieldWrite
  try dsimp only
  repeat' (first
    | with_reducible apply Frame.refl
    | apply Eq.refl true
    | (with_reducible apply Frame.seq; with_reducible case k => first | apply fr_putShadow | apply fr_put)
    | with_reducible apply Frame.ite
    | (intro _ _; try dsimp only)
    | split)

theorem fr_plainWrite (off v : Nat) (s : State) : Frame 0x2C s (plainWrite off v s) := by
  unfold plainWrite
  try dsimp only
  repeat' (first
    | with_reducible apply Frame.refl
    | apply Eq.refl true
    | (with_reducible apply Frame.seq; with_reducible case k => first | apply fr_fieldWrite)
    | with_reducible apply Frame.ite
    | with_reducible apply Frame.foldl
    | with_reducible apply Frame.foldl_fst
    | (intro _ _; try dsimp only)
    | split
    | with_reducible apply Frame.set_loHeld)

end Sys2Proof.Machine
end

