-- ==== Sys2Proof/Laws/FrameImage.lean ====
section
/-! SUPPORT. What each operation of Image.lean may change. -/

namespace Sys2Proof.Machine

open Reg

theorem fr_bootProgram (i : Nat) (body : List Byte) (s : State) : Frame 0x8000000000000 s (bootProgram i body s) := by
  unfold bootProgram
  try dsimp only
  repeat' (first
    | with_reducible apply Frame.refl
    | apply Eq.refl true
    | (with_reducible apply Frame.seq; with_reducible case k => first | apply fr_flProg)
    | with_reducible apply Frame.ite
    | (intro _ _; try dsimp only)
    | split)

theorem fr_writeBoot (slot : Nat) (img : List Byte) (s : State) : Frame 0x8000000000000 s (writeBoot slot img s) := by
  unfold writeBoot
  try dsimp only
  repeat' (first
    | with_reducible apply Frame.refl
    | apply Eq.refl true
    | (with_reducible apply Frame.seq; with_reducible case k => first | apply fr_bootProgram | apply fr_flErase)
    | with_reducible apply Frame.ite
    | (intro _ _; try dsimp only)
    | split)

theorem fr_writeSettings (fmt : Nat) (items : AMap (List Byte)) (s : State) : Frame 0x8000000000000 s (writeSettings fmt items s) := by
  unfold writeSettings
  try dsimp only
  repeat' (first
    | with_reducible apply Frame.refl
    | apply Eq.refl true
    | (with_reducible apply Frame.seq; with_reducible case k => first | apply fr_flProg | apply fr_flErase)
    | with_reducible apply Frame.ite
    | (intro _ _; try dsimp only)
    | split)

theorem fr_loadItems (s : State) : Frame 0x4 s (loadItems s) := by
  unfold loadItems
  try dsimp only
  repeat' (first
    | with_reducible apply Frame.refl
    | apply Eq.refl true
    | (with_reducible apply Frame.seq; with_reducible case k => first | apply fr_putAll)
    | with_reducible apply Frame.ite
    | (intro _ _; try dsimp only)
    | split)

end Sys2Proof.Machine
end

