-- ==== Sys2Proof/Laws/FrameUpdate.lean ====
section
/-! SUPPORT. What each operation of Update.lean may change. -/

namespace Sys2Proof.Machine

open Reg

theorem fr_svcSend (ty : Nat) (payload : List Byte) (s : State) : Frame 0x1000000000000000 s (svcSend ty payload s) := by
  unfold svcSend
  try dsimp only
  repeat' (first
    | with_reducible apply Frame.refl
    | apply Eq.refl true
    | with_reducible apply Frame.ite
    | (intro _ _; try dsimp only)
    | split
    | with_reducible apply Frame.set_out)

theorem fr_svcError (reason : Nat) (s : State) : Frame 0x1000000000000000 s (svcError reason s) := by
  unfold svcError
  try dsimp only
  repeat' (first
    | with_reducible apply Frame.refl
    | apply Eq.refl true
    | (with_reducible apply Frame.seq; with_reducible case k => first | apply fr_svcSend)
    | with_reducible apply Frame.ite
    | (intro _ _; try dsimp only)
    | split)

theorem fr_svcHold (k : Nat) (s : State) : Frame 0x1200000000000080 s (svcHold k s) := by
  unfold svcHold
  try dsimp only
  repeat' (first
    | with_reducible apply Frame.refl
    | apply Eq.refl true
    | (with_reducible apply Frame.seq; with_reducible case k => first | apply fr_freshDraw)
    | with_reducible apply Frame.ite
    | (intro _ _; try dsimp only)
    | split
    | with_reducible apply Frame.set_svcWait
    | with_reducible apply Frame.set_out
    | ((with_reducible apply Frame.parts (by with_reducible rfl) (by with_reducible rfl)) <;> first | (apply Or.inl; apply Eq.refl true; done) | (apply Or.inr; with_reducible apply Eq.refl; done) | skip))

theorem fr_svcFlush (s : State) : Frame 0x1200000000000000 s (svcFlush s) := by
  unfold svcFlush
  try dsimp only
  repeat' (first
    | with_reducible apply Frame.refl
    | apply Eq.refl true
    | with_reducible apply Frame.ite
    | (intro _ _; try dsimp only)
    | split
    | with_reducible apply Frame.set_svcWait
    | with_reducible apply Frame.set_out
    | ((with_reducible apply Frame.parts (by with_reducible rfl) (by with_reducible rfl)) <;> first | (apply Or.inl; apply Eq.refl true; done) | (apply Or.inr; with_reducible apply Eq.refl; done) | skip))

theorem fr_svcIn {m : Nat} (ty : Nat) (msg : List Byte) (rom : Bool) (serve : List Byte → State → State) (s : State)
    (hm : Within 0x1200000000000080 m) (hk : ∀ p u, Frame m u (serve p u)) : Frame m s (svcIn ty msg rom serve s) := by
  unfold svcIn
  dsimp only
  repeat' (first
    | with_reducible apply Frame.refl
    | exact Frame.seq .refl (fr_svcError ..) (within_trans rfl hm)
    | exact Frame.seq (hk _ _) (fr_svcHold ..) (within_trans rfl hm)
    | with_reducible apply Frame.ite)

theorem fr_statusReq (msg : List Byte) (s : State) : Frame 0x1200000000000080 s (statusReq msg s) := by
  unfold statusReq
  try dsimp only
  repeat' (first
    | with_reducible apply Frame.refl
    | apply Eq.refl true
    | (with_reducible apply Frame.seq; with_reducible case k => first | apply fr_svcSend)
    | with_reducible apply fr_svcIn
    | (intro _; try dsimp only)
    | with_reducible apply Frame.ite
    | (intro _ _; try dsimp only)
    | split)

theorem fr_svcProgress (result : Option Nat) (s : State) : Frame 0x1000000000000000 s (svcProgress result s) := by
  unfold svcProgress
  try dsimp only
  repeat' (first
    | with_reducible apply Frame.refl
    | apply Eq.refl true
    | (with_reducible apply Frame.seq; with_reducible case k => first | apply fr_svcSend)
    | with_reducible apply Frame.ite
    | (intro _ _; try dsimp only)
    | split)

theorem fr_updProgress (pct bytes : Nat) (s : State) : Frame 0x4 s (updProgress pct bytes s) := by
  unfold updProgress
  try dsimp only
  repeat' (first
    | with_reducible apply Frame.refl
    | apply Eq.refl true
    | (with_reducible apply Frame.seq; with_reducible case k => first | apply fr_put)
    | with_reducible apply Frame.ite
    | (intro _ _; try dsimp only)
    | split)

theorem fr_updStart (len : Nat) (full act : Bool) (s : State) : Frame 0x10000000000004 s (updStart len full act s) := by
  unfold updStart
  try dsimp only
  repeat' (first
    | with_reducible apply Frame.refl
    | apply Eq.refl true
    | (with_reducible apply Frame.seq; with_reducible case k => first | apply fr_putAll)
    | with_reducible apply Frame.ite
    | (intro _ _; try dsimp only)
    | split
    | with_reducible apply Frame.set_fw)

theorem fr_updateBegin (msg : List Byte) (s : State) : Frame 0x1210000000000084 s (updateBegin msg s) := by
  unfold updateBegin
  try dsimp only
  repeat' (first
    | with_reducible apply Frame.refl
    | apply Eq.refl true
    | (with_reducible apply Frame.seq; with_reducible case k => first | apply fr_svcError | apply fr_updStart | apply fr_svcProgress)
    | with_reducible apply fr_svcIn
    | (intro _; try dsimp only)
    | with_reducible apply Frame.ite
    | (intro _ _; try dsimp only)
    | split)

theorem fr_updateChunk (msg : List Byte) (s : State) : Frame 0x1210000000080084 s (updateChunk msg s) := by
  unfold updateChunk
  try dsimp only
  repeat' (first
    | with_reducible apply Frame.refl
    | apply Eq.refl true
    | (with_reducible apply Frame.seq; with_reducible case k => first | apply fr_svcError | apply fr_updProgress | apply fr_fwWrite | apply fr_svcProgress)
    | with_reducible apply fr_svcIn
    | (intro _; try dsimp only)
    | with_reducible apply Frame.ite
    | (intro _ _; try dsimp only)
    | split
    | with_reducible apply Frame.set_fw)

theorem fr_updateEnd (msg : List Byte) (s : State) : Frame 0x1200000000000084 s (updateEnd msg s) := by
  unfold updateEnd
  try dsimp only
  repeat' (first
    | with_reducible apply Frame.refl
    | apply Eq.refl true
    | (with_reducible apply Frame.seq; with_reducible case k => first | apply fr_put | apply fr_svcProgress)
    | with_reducible apply fr_svcIn
    | (intro _; try dsimp only)
    | with_reducible apply Frame.ite
    | (intro _ _; try dsimp only)
    | split)

theorem fr_updChecked (s : State) : Frame 0x101001E800080004 s (updChecked s) := by
  unfold updChecked
  try dsimp only
  repeat' (first
    | with_reducible apply Frame.refl
    | apply Eq.refl true
    | (with_reducible apply Frame.seq; with_reducible case k => first | apply fr_updProgress | apply fr_put | apply fr_updEnd | apply fr_fwRead)
    | with_reducible apply Frame.ite
    | (intro _ _; try dsimp only)
    | split)

theorem fr_updateApplyDone (flashError : Bool) (s : State) : Frame 0x101801E800080004 s (updateApplyDone flashError s) := by
  unfold updateApplyDone
  try dsimp only
  repeat' (first
    | with_reducible apply Frame.refl
    | apply Eq.refl true
    | (with_reducible apply Frame.seq; with_reducible case k => first | apply fr_updProgress | apply fr_put | apply fr_updEnd | apply fr_flErase | apply fr_flProg)
    | with_reducible apply Frame.ite
    | (intro _ _; try dsimp only)
    | split)

theorem fr_updateVerifyDone (flashError : Bool) (s : State) : Frame 0x101801E800080004 s (updateVerifyDone flashError s) := by
  unfold updateVerifyDone
  try dsimp only
  repeat' (first
    | with_reducible apply Frame.refl
    | apply Eq.refl true
    | (with_reducible apply Frame.seq; with_reducible case k => first | apply fr_updProgress | apply fr_writeBoot | apply fr_updEnd | apply fr_putAll)
    | with_reducible apply Frame.ite
    | (intro _ _; try dsimp only)
    | split)

theorem fr_updateLoadDone (s : State) : Frame 0x101001E800080004 s (updateLoadDone s) := by
  unfold updateLoadDone
  try dsimp only
  repeat' (first
    | with_reducible apply Frame.refl
    | apply Eq.refl true
    | (with_reducible apply Frame.seq; with_reducible case k => first | apply fr_updProgress | apply fr_put | apply fr_updEnd)
    | with_reducible apply Frame.ite
    | (intro _ _; try dsimp only)
    | split
    | with_reducible apply Frame.set_fw)

theorem fr_evalActivation (s : State) : Frame 0x10000000000004 s (evalActivation s) := by
  unfold evalActivation
  try dsimp only
  repeat' (first
    | with_reducible apply Frame.refl
    | apply Eq.refl true
    | (with_reducible apply Frame.seq; with_reducible case k => first | apply fr_put)
    | with_reducible apply Frame.ite
    | (intro _ _; try dsimp only)
    | split
    | with_reducible apply Frame.set_fw)

theorem fr_switchBanks (s : State) : Frame 0x12000000000004 s (switchBanks s) := by
  unfold switchBanks
  try dsimp only
  repeat' (first
    | with_reducible apply Frame.refl
    | apply Eq.refl true
    | (with_reducible apply Frame.seq; with_reducible case k => first | apply fr_setCore | apply fr_putAll)
    | with_reducible apply Frame.ite
    | with_reducible apply Frame.foldl
    | with_reducible apply Frame.foldl_fst
    | (intro _ _; try dsimp only)
    | split
    | with_reducible apply Frame.set_fw)

theorem fr_handover (safe stageSafe : Bool) (ready : List Nat) (s : State) : Frame 0x101281E800180004 s (handover safe stageSafe ready s) := by
  unfold handover
  try dsimp only
  repeat' (first
    | with_reducible apply Frame.refl
    | apply Eq.refl true
    | (with_reducible apply Frame.seq; with_reducible case k => first | apply fr_coreFail | apply fr_put | apply fr_updEnd | apply fr_switchBanks)
    | with_reducible apply Frame.ite
    | with_reducible apply Frame.foldl
    | with_reducible apply Frame.foldl_fst
    | (intro _ _; try dsimp only)
    | split
    | with_reducible apply Frame.set_fw)

theorem fr_bootRecordWrite (s : State) : Frame 0x101801E800080004 s (bootRecordWrite s) := by
  unfold bootRecordWrite
  try dsimp only
  repeat' (first
    | with_reducible apply Frame.refl
    | apply Eq.refl true
    | (with_reducible apply Frame.seq; with_reducible case k => first | apply fr_updEnd | apply fr_writeBoot)
    | with_reducible apply Frame.ite
    | (intro _ _; try dsimp only)
    | split)

theorem fr_deferralTimeout (s : State) : Frame 0x101001E800080004 s (deferralTimeout s) := by
  unfold deferralTimeout
  try dsimp only
  repeat' (first
    | with_reducible apply Frame.refl
    | apply Eq.refl true
    | (with_reducible apply Frame.seq; with_reducible case k => first | apply fr_updEnd)
    | with_reducible apply Frame.ite
    | (intro _ _; try dsimp only)
    | split)

theorem fr_setRelay (r : Relay) (s : State) : Frame 0x1000000000 s (setRelay r s) := by
  unfold setRelay
  try dsimp only
  repeat' (first
    | with_reducible apply Frame.refl
    | apply Eq.refl true
    | with_reducible apply Frame.ite
    | (intro _ _; try dsimp only)
    | split
    | with_reducible apply Frame.set_peer)

theorem fr_relayEnd (result : Nat) (s : State) : Frame 0x1000000004 s (relayEnd result s) := by
  unfold relayEnd
  try dsimp only
  repeat' (first
    | with_reducible apply Frame.refl
    | apply Eq.refl true
    | (with_reducible apply Frame.seq; with_reducible case k => first | apply fr_setRelay | apply fr_putAll)
    | with_reducible apply Frame.ite
    | (intro _ _; try dsimp only)
    | split)

theorem fr_relayTake (o : Nat) (d : List Byte) (s : State) : Frame 0x1000000004 s (relayTake o d s) := by
  unfold relayTake
  try dsimp only
  repeat' (first
    | with_reducible apply Frame.refl
    | apply Eq.refl true
    | (with_reducible apply Frame.seq; with_reducible case k => first | apply fr_setRelay | apply fr_putAll)
    | with_reducible apply Frame.ite
    | (intro _ _; try dsimp only)
    | split)

theorem fr_ppInRelay (x : PpIn) (s : State) : Frame 0x1000041800032004 s (ppInRelay x s) := by
  unfold ppInRelay
  try dsimp only
  repeat' (first
    | with_reducible apply Frame.refl
    | apply Eq.refl true
    | (with_reducible apply Frame.seq; with_reducible case k => first | apply fr_relayTake | apply fr_bump | apply fr_ppAnswer)
    | with_reducible apply fr_ppArrive
    | with_reducible apply fr_ppCheck
    | (intro _; try dsimp only)
    | with_reducible apply Frame.ite
    | (intro _ _; try dsimp only)
    | split)

theorem fr_relayApply (p : List Byte) (s : State) : Frame 0x10000000000004 s (relayApply p s) := by
  unfold relayApply
  try dsimp only
  repeat' (first
    | with_reducible apply Frame.refl
    | apply Eq.refl true
    | (with_reducible apply Frame.seq; with_reducible case k => first | apply fr_put | apply fr_updStart)
    | with_reducible apply Frame.ite
    | (intro _ _; try dsimp only)
    | split
    | with_reducible apply Frame.set_fw)

theorem fr_startForward (p : List Byte) (s : State) : Frame 0x1000041000002004 s (startForward p s) := by
  unfold startForward
  try dsimp only
  repeat' (first
    | with_reducible apply Frame.refl
    | apply Eq.refl true
    | (with_reducible apply Frame.seq; with_reducible case k => first | apply fr_pumpPp | apply fr_setRelay | apply fr_putAll)
    | with_reducible apply Frame.ite
    | (intro _ _; try dsimp only)
    | split
    | with_reducible apply Frame.set_peer)

theorem fr_relayForward (s : State) : Frame 0x1010041000002004 s (relayForward s) := by
  unfold relayForward
  try dsimp only
  repeat' (first
    | with_reducible apply Frame.refl
    | apply Eq.refl true
    | (with_reducible apply Frame.seq; with_reducible case k => first | apply fr_startForward | apply fr_put | apply fr_relayEnd | apply fr_relayApply)
    | with_reducible apply Frame.ite
    | (intro _ _; try dsimp only)
    | split)

theorem fr_relayOfSvc (s : State) : Frame 0x1000041000002004 s (relayOfSvc s) := by
  unfold relayOfSvc
  try dsimp only
  repeat' (first
    | with_reducible apply Frame.refl
    | apply Eq.refl true
    | (with_reducible apply Frame.seq; with_reducible case k => first | apply fr_startForward | apply fr_putAll)
    | with_reducible apply Frame.ite
    | (intro _ _; try dsimp only)
    | split)

theorem fr_updateCheckDone (s : State) : Frame 0x101005F800082004 s (updateCheckDone s) := by
  unfold updateCheckDone
  try dsimp only
  repeat' (first
    | with_reducible apply Frame.refl
    | apply Eq.refl true
    | (with_reducible apply Frame.seq; with_reducible case k => first | apply fr_relayOfSvc | apply fr_updChecked)
    | with_reducible apply Frame.ite
    | (intro _ _; try dsimp only)
    | split)

theorem fr_relayResend (tag : Nat) (s : State) : Frame 0x100005F800082004 s (relayResend tag s) := by
  unfold relayResend
  try dsimp only
  repeat' (first
    | with_reducible apply Frame.refl
    | apply Eq.refl true
    | (with_reducible apply Frame.seq; with_reducible case k => first | apply fr_pumpPp | apply fr_relayEnd | apply fr_postEvent | apply fr_sendPeer)
    | with_reducible apply Frame.ite
    | (intro _ _; try dsimp only)
    | split
    | with_reducible apply Frame.set_peer)

end Sys2Proof.Machine
end

