-- ==== Sys2Proof/Laws/FrameMailbox.lean ====
section
/-! SUPPORT. What each operation of Mailbox.lean may change. -/

namespace Sys2Proof.Machine

open Reg

theorem fr_mbxPump (s : State) : Frame 0x1010000800000000 s (mbxPump s) := by
  unfold mbxPump
  try dsimp only
  repeat' (first
    | with_reducible apply Frame.refl
    | apply Eq.refl true
    | (with_reducible apply Frame.seq; with_reducible case k => first | apply fr_askHost)
    | with_reducible apply Frame.ite
    | (intro _ _; try dsimp only)
    | split
    | with_reducible apply Frame.set_fw)

theorem fr_mbxAnswer (result : Nat) (payload : List Nat) (s : State) : Frame 0x1010000000080004 s (mbxAnswer result payload s) := by
  unfold mbxAnswer
  try dsimp only
  repeat' (first
    | with_reducible apply Frame.refl
    | apply Eq.refl true
    | (with_reducible apply Frame.seq; with_reducible case k => first | apply fr_fwRead | apply fr_evQueueWrite)
    | with_reducible apply Frame.ite
    | (intro _ _; try dsimp only)
    | split
    | with_reducible apply Frame.set_fw)

theorem fr_skipBad  (k : Nat) (s : State) : Frame 0x1010000000080004 s (skipBad  k s) := by
  induction k generalizing s with
  | zero =>
    unfold skipBad
    try dsimp only
    repeat' (first
      | with_reducible apply Frame.refl
      | apply Eq.refl true
      | (with_reducible apply Frame.seq; with_reducible case k => first | apply fr_mbxAnswer)
      | with_reducible apply Frame.ite
      | (intro _ _; try dsimp only)
      | split)
  | succ k ih =>
    unfold skipBad
    try dsimp only
    repeat' (first
      | with_reducible apply Frame.refl
      | apply Eq.refl true
      | (with_reducible apply Frame.seq; with_reducible case k => first | apply ih | apply fr_mbxAnswer)
      | with_reducible apply Frame.ite
      | (intro _ _; try dsimp only)
      | split)

theorem fr_mbxGo (s : State) : Frame 0x1010000800080004 s (mbxGo s) := by
  unfold mbxGo
  try dsimp only
  repeat' (first
    | with_reducible apply Frame.refl
    | apply Eq.refl true
    | (with_reducible apply Frame.seq; with_reducible case k => first | apply fr_mbxPump | apply fr_skipBad)
    | with_reducible apply Frame.ite
    | (intro _ _; try dsimp only)
    | split)

theorem fr_mbxServe {m : Nat} (ty : Nat) (f : List Nat → State → State) (s : State) (hm : Within 0x1010000800080004 m)
    (hk : ∀ r u, Frame m u (f r u)) : Frame m s (mbxServe ty f s) := by
  have h := Frame.seq (m := m) .refl (fr_mbxGo s) (within_trans rfl hm)
  unfold mbxServe
  dsimp only
  split
  · refine Frame.ite ?_ h
    exact Frame.seq (h.seq (hk _ _) within_self) (fr_mbxGo _) (within_trans rfl hm)
  · exact h

theorem fr_mbxReqTailWrite (v : Nat) (s : State) : Frame 0x1010000800080004 s (mbxReqTailWrite v s) := by
  unfold mbxReqTailWrite
  try dsimp only
  repeat' (first
    | with_reducible apply Frame.refl
    | apply Eq.refl true
    | (with_reducible apply Frame.seq; with_reducible case k => first | apply fr_mbxGo | apply fr_put)
    | with_reducible apply Frame.ite
    | (intro _ _; try dsimp only)
    | split)

theorem fr_mbxEvtHeadWrite (v : Nat) (s : State) : Frame 0x1010006800080004 s (mbxEvtHeadWrite v s) := by
  unfold mbxEvtHeadWrite
  try dsimp only
  repeat' (first
    | with_reducible apply Frame.refl
    | apply Eq.refl true
    | (with_reducible apply Frame.seq; with_reducible case k => first | apply fr_mbxGo | apply fr_put | apply fr_flushEvents)
    | with_reducible apply Frame.ite
    | (intro _ _; try dsimp only)
    | split)

theorem fr_mbxStatus (s : State) : Frame 0x1010000800080004 s (mbxStatus s) := by
  unfold mbxStatus
  try dsimp only
  repeat' (first
    | with_reducible apply Frame.refl
    | apply Eq.refl true
    | (with_reducible apply Frame.seq; with_reducible case k => first | apply fr_mbxAnswer)
    | with_reducible apply fr_mbxServe
    | (intro _; try dsimp only)
    | with_reducible apply Frame.ite
    | (intro _ _; try dsimp only)
    | split)

theorem fr_settingsRead (s : State) : Frame 0x1010000800080004 s (settingsRead s) := by
  unfold settingsRead
  try dsimp only
  repeat' (first
    | with_reducible apply Frame.refl
    | apply Eq.refl true
    | (with_reducible apply Frame.seq; with_reducible case k => first | apply fr_mbxAnswer)
    | with_reducible apply fr_mbxServe
    | (intro _; try dsimp only)
    | with_reducible apply Frame.ite
    | (intro _ _; try dsimp only)
    | split)

theorem fr_storeItem (ty : Nat) (v : List Byte) (s : State) : Frame 0x8000000000000 s (storeItem ty v s) := by
  unfold storeItem
  try dsimp only
  repeat' (first
    | with_reducible apply Frame.refl
    | apply Eq.refl true
    | (with_reducible apply Frame.seq; with_reducible case k => first | apply fr_writeSettings)
    | with_reducible apply Frame.ite
    | (intro _ _; try dsimp only)
    | split)

theorem fr_settingsWrite (flashError : Bool) (s : State) : Frame 0x1018000800080004 s (settingsWrite flashError s) := by
  unfold settingsWrite
  try dsimp only
  repeat' (first
    | with_reducible apply Frame.refl
    | apply Eq.refl true
    | (with_reducible apply Frame.seq; with_reducible case k => first | apply fr_mbxAnswer | apply fr_storeItem | apply fr_flErase)
    | with_reducible apply fr_mbxServe
    | (intro _; try dsimp only)
    | with_reducible apply Frame.ite
    | (intro _ _; try dsimp only)
    | split)

theorem fr_coreAsked (i : Nat) (s : State) : Frame 0x101281E800180004 s (coreAsked i s) := by
  unfold coreAsked
  try dsimp only
  repeat' (first
    | with_reducible apply Frame.refl
    | apply Eq.refl true
    | (with_reducible apply Frame.seq; with_reducible case k => first | apply fr_coreDown | apply fr_setCore | apply fr_bump | apply fr_postEvent | apply fr_putAll)
    | with_reducible apply Frame.ite
    | (intro _ _; try dsimp only)
    | split)

theorem fr_coreRestart (core reason : Nat) (s : State) : Frame 0x101281E800180004 s (coreRestart core reason s) := by
  unfold coreRestart
  try dsimp only
  repeat' (first
    | with_reducible apply Frame.refl
    | apply Eq.refl true
    | (with_reducible apply Frame.seq; with_reducible case k => first | apply fr_coreFail | apply fr_mbxAnswer | apply fr_coreAsked)
    | with_reducible apply fr_mbxServe
    | (intro _; try dsimp only)
    | with_reducible apply Frame.ite
    | (intro _ _; try dsimp only)
    | split)

theorem fr_coldRecord (s : State) : Frame 0x101801E800080004 s (coldRecord s) := by
  unfold coldRecord
  try dsimp only
  repeat' (first
    | with_reducible apply Frame.refl
    | apply Eq.refl true
    | (with_reducible apply Frame.seq; with_reducible case k => first | apply fr_updEnd | apply fr_writeBoot)
    | with_reducible apply Frame.ite
    | (intro _ _; try dsimp only)
    | split
    | with_reducible apply Frame.set_fw)

theorem fr_updActivate (s : State) : Frame 0x101801E800080004 s (updActivate s) := by
  unfold updActivate
  try dsimp only
  repeat' (first
    | with_reducible apply Frame.refl
    | apply Eq.refl true
    | (with_reducible apply Frame.seq; with_reducible case k => first | apply fr_mbxAnswer | apply fr_coldRecord)
    | with_reducible apply fr_mbxServe
    | (intro _; try dsimp only)
    | with_reducible apply Frame.ite
    | (intro _ _; try dsimp only)
    | split
    | with_reducible apply Frame.set_fw)

theorem fr_updAbort (s : State) : Frame 0x101001E800080004 s (updAbort s) := by
  unfold updAbort
  try dsimp only
  repeat' (first
    | with_reducible apply Frame.refl
    | apply Eq.refl true
    | (with_reducible apply Frame.seq; with_reducible case k => first | apply fr_mbxAnswer | apply fr_updEnd)
    | with_reducible apply fr_mbxServe
    | (intro _; try dsimp only)
    | with_reducible apply Frame.ite
    | (intro _ _; try dsimp only)
    | split)

theorem fr_eventRead (s : State) : Frame 0x1010000800080004 s (eventRead s) := by
  unfold eventRead
  try dsimp only
  repeat' (first
    | with_reducible apply Frame.refl
    | apply Eq.refl true
    | (with_reducible apply Frame.seq; with_reducible case k => first | apply fr_mbxAnswer)
    | with_reducible apply fr_mbxServe
    | (intro _; try dsimp only)
    | with_reducible apply Frame.ite
    | (intro _ _; try dsimp only)
    | split)

theorem fr_intMaskWrite (v : Nat) (s : State) : Frame 0x1000000800000004 s (intMaskWrite v s) := by
  unfold intMaskWrite
  try dsimp only
  repeat' (first
    | with_reducible apply Frame.refl
    | apply Eq.refl true
    | (with_reducible apply Frame.seq; with_reducible case k => first | apply fr_sendMsg | apply fr_put)
    | with_reducible apply Frame.ite
    | (intro _ _; try dsimp only)
    | split)

end Sys2Proof.Machine
end

