-- ==== Sys2Proof/Laws/FrameLifeCycle.lean ====
section
/-! SUPPORT. What each operation of LifeCycle.lean may change. -/

namespace Sys2Proof.Machine

open Reg

theorem or_kept_left (a b : Nat) : a ||| (a ||| b) = a ||| b := by rw [← Nat.or_assoc, Nat.or_self]

theorem triple_orCopy (w : Nat × Nat × Nat) (c b : Nat) : TripleKept w (orCopy w c b) := by
  unfold orCopy
  split <;> exact ⟨by simp [or_kept_left], by simp [or_kept_left], by simp [or_kept_left]⟩

theorem otpKept_prog (o : Otp) (w : OtpWord) : OtpKept o (otpProg o w) := by
  unfold otpProg
  split
  · exact ⟨triple_orCopy .., .refl _, .refl _, .refl _, Nat.or_self _, Nat.or_self _, .refl _, fun _ => Nat.or_self _, Nat.or_self _⟩
  · exact ⟨.refl _, triple_orCopy .., .refl _, .refl _, Nat.or_self _, Nat.or_self _, .refl _, fun _ => Nat.or_self _, Nat.or_self _⟩
  · exact ⟨.refl _, .refl _, triple_orCopy .., .refl _, Nat.or_self _, Nat.or_self _, .refl _, fun _ => Nat.or_self _, Nat.or_self _⟩
  · exact ⟨.refl _, .refl _, .refl _, triple_orCopy .., Nat.or_self _, Nat.or_self _, .refl _, fun _ => Nat.or_self _, Nat.or_self _⟩
  · exact ⟨.refl _, .refl _, .refl _, .refl _, or_kept_left .., Nat.or_self _, .refl _, fun _ => Nat.or_self _, Nat.or_self _⟩
  · exact ⟨.refl _, .refl _, .refl _, .refl _, Nat.or_self _, or_kept_left .., .refl _, fun _ => Nat.or_self _, Nat.or_self _⟩

theorem otpFixed_prog (o : Otp) (w : OtpWord) : OtpFixed o (otpProg o w) := by
  unfold otpProg
  split <;> exact ⟨rfl, rfl, rfl⟩

/-- Programming any words only sets bits. -/
theorem otpKept_foldl (o : Otp) (ws : List OtpWord) : OtpKept o (ws.foldl otpProg o) := by
  induction ws generalizing o with
  | nil => exact .refl _
  | cons w ws ih => exact (otpKept_prog o w).trans (ih _)

theorem otpFixed_foldl (o : Otp) (ws : List OtpWord) : OtpFixed o (ws.foldl otpProg o) := by
  induction ws generalizing o with
  | nil => exact .refl _
  | cons w ws ih => exact (otpFixed_prog o w).trans (ih _)

theorem fr_otpRun (run : OtpRun) (ws : List OtpWord) (s : State) : Frame 0x4000000000080 s (otpRun run ws s).1 := by
  have h : ∀ {t : State} {x : Otp}, OtpKept t.otp x → OtpFixed t.otp x → Frame 0x4000000000080 s t → Frame 0x4000000000080 s { t with otp := x } :=
    fun k l f => Frame.set_otp rfl k l f
  unfold otpRun
  dsimp only
  split
  · exact .refl
  · split
    · exact .refl
    · split
      · exact h (otpKept_foldl ..) (otpFixed_foldl ..) .refl
      · split
        · exact h (otpKept_foldl ..) (otpFixed_foldl ..) .refl
        · exact h (otpKept_foldl ..) (otpFixed_foldl ..) .refl
      · split
        · exact h (otpKept_foldl ..) (otpFixed_foldl ..) .refl
        · exact h ((otpKept_foldl ..).trans (otpKept_prog ..)) ((otpFixed_foldl ..).trans (otpFixed_prog ..)) (Frame.mono (fr_freshDraw ..) rfl)

theorem fr_lcsDone (r : State × Nat) : Frame 0x4 r.1 (lcsDone r) := Frame.mono (fr_putAll ..) rfl

theorem fr_lcsCommand {m : Nat} (f : State → State × Nat) (s : State) (hm : Within 0x4 m) (hk : ∀ u, Frame m u (f u).1) :
    Frame m s (lcsCommand f s) := by
  unfold lcsCommand
  split
  · exact .refl
  · split
    · exact Frame.seq .refl (fr_put ..) (within_trans rfl hm)
    · split
      · exact Frame.seq (t := s) .refl (fr_lcsDone (s, 1)) (within_trans rfl hm)
      · exact Frame.seq (hk s) (fr_lcsDone (f s)) (within_trans rfl hm)

theorem fr_advanceCmd (target : Nat) (run : OtpRun) (s : State) : Frame 0x4000000000084 s (advanceCmd target run s) := by
  unfold advanceCmd
  try dsimp only
  repeat' (first
    | with_reducible apply Frame.refl
    | apply Eq.refl true
    | (with_reducible apply Frame.seq; with_reducible case k => first | apply fr_otpRun)
    | with_reducible apply fr_lcsCommand
    | (intro _; try dsimp only)
    | with_reducible apply Frame.ite
    | (intro _ _; try dsimp only)
    | (rename_i h; refine Frame.of_eq1 h (fr_otpRun ..) rfl ?_)
    | split)

theorem fr_resumeLcs (run : OtpRun) (s : State) : Frame 0x4000000000084 s (resumeLcs run s) := by
  unfold resumeLcs
  try dsimp only
  repeat' (first
    | with_reducible apply Frame.refl
    | apply Eq.refl true
    | (with_reducible apply Frame.seq; with_reducible case k => first | apply fr_lcsDone | apply fr_put | apply fr_otpRun)
    | with_reducible apply Frame.ite
    | (intro _ _; try dsimp only)
    | (rename_i h; refine Frame.of_eq1 h (fr_otpRun ..) rfl ?_)
    | split)

theorem fr_showFloor (s : State) : Frame 0x4 s (showFloor s) := by
  unfold showFloor
  try dsimp only
  repeat' (first
    | with_reducible apply Frame.refl
    | apply Eq.refl true
    | (with_reducible apply Frame.seq; with_reducible case k => first | apply fr_put)
    | with_reducible apply Frame.ite
    | (intro _ _; try dsimp only)
    | split)

theorem fr_raiseFloorCmd (run : OtpRun) (s : State) : Frame 0x4000000000084 s (raiseFloorCmd run s) := by
  unfold raiseFloorCmd
  try dsimp only
  repeat' (first
    | with_reducible apply Frame.refl
    | apply Eq.refl true
    | (with_reducible apply Frame.seq; with_reducible case k => first | apply fr_showFloor | apply fr_put | apply fr_otpRun)
    | with_reducible apply fr_lcsCommand
    | (intro _; try dsimp only)
    | with_reducible apply Frame.ite
    | (intro _ _; try dsimp only)
    | (rename_i h; refine Frame.of_eq1 h (fr_otpRun ..) rfl ?_)
    | split)

theorem fr_showSlots (s : State) : Frame 0x4 s (showSlots s) := by
  unfold showSlots
  try dsimp only
  repeat' (first
    | with_reducible apply Frame.refl
    | apply Eq.refl true
    | (with_reducible apply Frame.seq; with_reducible case k => first | apply fr_putAll)
    | with_reducible apply Frame.ite
    | with_reducible apply Frame.foldl
    | with_reducible apply Frame.foldl_fst
    | (intro _ _; try dsimp only)
    | split)

theorem fr_revokeCmd (slot : Nat) (run : OtpRun) (s : State) : Frame 0x4000000000084 s (revokeCmd slot run s) := by
  unfold revokeCmd
  try dsimp only
  repeat' (first
    | with_reducible apply Frame.refl
    | apply Eq.refl true
    | (with_reducible apply Frame.seq; with_reducible case k => first | apply fr_showSlots | apply fr_otpRun)
    | with_reducible apply fr_lcsCommand
    | (intro _; try dsimp only)
    | with_reducible apply Frame.ite
    | (intro _ _; try dsimp only)
    | (rename_i h; refine Frame.of_eq1 h (fr_otpRun ..) rfl ?_)
    | split)

theorem fr_dbgCloseCmd (s : State) : Frame 0x100001E800080004 s (dbgCloseCmd s) := by
  unfold dbgCloseCmd
  try dsimp only
  repeat' (first
    | with_reducible apply Frame.refl
    | apply Eq.refl true
    | (with_reducible apply Frame.seq; with_reducible case k => first | apply fr_putAll | apply fr_postEvent)
    | with_reducible apply fr_lcsCommand
    | (intro _; try dsimp only)
    | with_reducible apply Frame.ite
    | (intro _ _; try dsimp only)
    | split)

theorem fr_lcsShow (s : State) : Frame 0x4 s (lcsShow s) := by
  unfold lcsShow
  try dsimp only
  repeat' (first
    | with_reducible apply Frame.refl
    | apply Eq.refl true
    | (with_reducible apply Frame.seq; with_reducible case k => first | apply fr_showFloor | apply fr_showSlots | apply fr_putAll)
    | with_reducible apply Frame.ite
    | (intro _ _; try dsimp only)
    | split)

theorem fr_debugResult (r : Nat) (s : State) : Frame 0x1000000000000000 s (debugResult r s) := by
  unfold debugResult
  try dsimp only
  repeat' (first
    | with_reducible apply Frame.refl
    | apply Eq.refl true
    | (with_reducible apply Frame.seq; with_reducible case k => first | apply fr_svcSend)
    | with_reducible apply Frame.ite
    | (intro _ _; try dsimp only)
    | split)

theorem fr_debugChallengeReq (msg : List Byte) (s : State) : Frame 0x1210000000000084 s (debugChallengeReq msg s) := by
  unfold debugChallengeReq
  try dsimp only
  repeat' (first
    | with_reducible apply Frame.refl
    | apply Eq.refl true
    | (with_reducible apply Frame.seq; with_reducible case k => first | apply fr_debugResult | apply fr_svcError | apply fr_put | apply fr_bump | apply fr_svcSend | apply fr_freshDraw)
    | with_reducible apply fr_svcIn
    | (intro _; try dsimp only)
    | with_reducible apply Frame.ite
    | (intro _ _; try dsimp only)
    | split
    | with_reducible apply Frame.set_fw)

theorem fr_debugResponse (msg : List Byte) (s : State) : Frame 0x121001E800080084 s (debugResponse msg s) := by
  unfold debugResponse
  try dsimp only
  repeat' (first
    | with_reducible apply Frame.refl
    | apply Eq.refl true
    | (with_reducible apply Frame.seq; with_reducible case k => first | apply fr_debugResult | apply fr_svcError | apply fr_put | apply fr_bump | apply fr_putAll | apply fr_postEvent)
    | with_reducible apply fr_svcIn
    | (intro _; try dsimp only)
    | with_reducible apply Frame.ite
    | (intro _ _; try dsimp only)
    | split
    | with_reducible apply Frame.set_fw)

theorem fr_closeBatch (s : State) : Frame 0x20000000080084 s (closeBatch s) := by
  unfold closeBatch
  try dsimp only
  repeat' (first
    | with_reducible apply Frame.refl
    | apply Eq.refl true
    | (with_reducible apply Frame.seq; with_reducible case k => first | apply fr_put | apply fr_fwRead | apply fr_freshDraw)
    | with_reducible apply Frame.ite
    | (intro _ _; try dsimp only)
    | split
    | with_reducible apply Frame.set_audit)

theorem fr_auditBatchClose (s : State) : Frame 0x20000000080084 s (auditBatchClose s) := by
  unfold auditBatchClose
  try dsimp only
  repeat' (first
    | with_reducible apply Frame.refl
    | apply Eq.refl true
    | (with_reducible apply Frame.seq; with_reducible case k => first | apply fr_closeBatch)
    | with_reducible apply Frame.ite
    | (intro _ _; try dsimp only)
    | split)

theorem fr_closeAll  (k : Nat) (s : State) : Frame 0x20000000080084 s (closeAll  k s) := by
  induction k generalizing s with
  | zero =>
    unfold closeAll
    try dsimp only
    repeat' (first
      | with_reducible apply Frame.refl
      | apply Eq.refl true
      | (with_reducible apply Frame.seq; with_reducible case k => first | apply fr_closeBatch)
      | with_reducible apply Frame.ite
      | (intro _ _; try dsimp only)
      | split)
  | succ k ih =>
    unfold closeAll
    try dsimp only
    repeat' (first
      | with_reducible apply Frame.refl
      | apply Eq.refl true
      | (with_reducible apply Frame.seq; with_reducible case k => first | apply ih | apply fr_closeBatch)
      | with_reducible apply Frame.ite
      | (intro _ _; try dsimp only)
      | split)

theorem fr_releaseEntries (seq : Nat) (s : State) : Frame 0x20000000000004 s (releaseEntries seq s) := by
  unfold releaseEntries
  try dsimp only
  repeat' (first
    | with_reducible apply Frame.refl
    | apply Eq.refl true
    | (with_reducible apply Frame.seq; with_reducible case k => first | apply fr_put | apply fr_showAudit)
    | with_reducible apply Frame.ite
    | (intro _ _; try dsimp only)
    | split
    | with_reducible apply Frame.set_audit)

theorem fr_batchPart (no part : Nat) (last : Bool) (d : List Byte) (s : State) : Frame 0x1000000000000000 s (batchPart no part last d s) := by
  unfold batchPart
  try dsimp only
  repeat' (first
    | with_reducible apply Frame.refl
    | apply Eq.refl true
    | (with_reducible apply Frame.seq; with_reducible case k => first | apply fr_svcSend)
    | with_reducible apply Frame.ite
    | (intro _ _; try dsimp only)
    | split)

theorem fr_sendBatch (no : Nat) (k : Nat) (i : Nat) (d : List Byte) (s : State) : Frame 0x1000000000000000 s (sendBatch no k i d s) := by
  induction k generalizing i d s with
  | zero =>
    unfold sendBatch
    try dsimp only
    repeat' (first
      | with_reducible apply Frame.refl
      | apply Eq.refl true
      | (with_reducible apply Frame.seq; with_reducible case k => first | apply fr_batchPart)
      | with_reducible apply Frame.ite
      | (intro _ _; try dsimp only)
      | split)
  | succ k ih =>
    unfold sendBatch
    try dsimp only
    repeat' (first
      | with_reducible apply Frame.refl
      | apply Eq.refl true
      | (with_reducible apply Frame.seq; with_reducible case k => first | apply ih | apply fr_batchPart)
      | with_reducible apply Frame.ite
      | (intro _ _; try dsimp only)
      | split)

theorem fr_auditFetch (msg : List Byte) (s : State) : Frame 0x1220000000080084 s (auditFetch msg s) := by
  unfold auditFetch
  try dsimp only
  repeat' (first
    | with_reducible apply Frame.refl
    | apply Eq.refl true
    | (with_reducible apply Frame.seq; with_reducible case k => first | apply fr_sendBatch | apply fr_svcError | apply fr_releaseEntries | apply fr_closeAll | apply fr_batchPart)
    | with_reducible apply fr_svcIn
    | (intro _; try dsimp only)
    | with_reducible apply Frame.ite
    | (intro _ _; try dsimp only)
    | split)

end Sys2Proof.Machine
end

