-- ==== Sys2Proof/Laws/FrameModes.lean ====
section
/-! SUPPORT. What each operation of Modes.lean may change. -/

namespace Sys2Proof.Machine

open Reg

theorem fr_mrDone (n result : Nat) (s : State) : Frame 0x4 s (mrDone n result s) := by
  unfold mrDone
  try dsimp only
  repeat' (first
    | with_reducible apply Frame.refl
    | apply Eq.refl true
    | (with_reducible apply Frame.seq; with_reducible case k => first | apply fr_putAll)
    | with_reducible apply Frame.ite
    | (intro _ _; try dsimp only)
    | split)

theorem fr_mrStart (write : Nat) (n : Nat) (s : State) : Frame 0x1000000900004 s (mrStart write n s) := by
  unfold mrStart
  try dsimp only
  repeat' (first
    | with_reducible apply Frame.refl
    | apply Eq.refl true
    | (with_reducible apply Frame.seq; with_reducible case k => first | apply fr_quiesce | apply fr_putAll)
    | with_reducible apply Frame.ite
    | (intro _ _; try dsimp only)
    | split)

theorem fr_mrOverrun (n : Nat) (s : State) : Frame 0x4 s (mrOverrun n s) := by
  unfold mrOverrun
  try dsimp only
  repeat' (first
    | with_reducible apply Frame.refl
    | apply Eq.refl true
    | (with_reducible apply Frame.seq; with_reducible case k => first | apply fr_put)
    | with_reducible apply Frame.ite
    | (intro _ _; try dsimp only)
    | split)

theorem fr_modeRegisterRead (n : Nat) (known : Bool) (value : Byte) (s : State) : Frame 0x1000000900004 s (modeRegisterRead n known value s) := by
  unfold modeRegisterRead
  try dsimp only
  repeat' (first
    | with_reducible apply Frame.refl
    | apply Eq.refl true
    | (with_reducible apply Frame.seq; with_reducible case k => first | apply fr_mrDone | apply fr_mrOverrun | apply fr_put | apply fr_mrStart)
    | with_reducible apply Frame.ite
    | (intro _ _; try dsimp only)
    | split)

theorem fr_modeRegisterWrite (n : Nat) (known : Bool) (s : State) : Frame 0x1000000900004 s (modeRegisterWrite n known s) := by
  unfold modeRegisterWrite
  try dsimp only
  repeat' (first
    | with_reducible apply Frame.refl
    | apply Eq.refl true
    | (with_reducible apply Frame.seq; with_reducible case k => first | apply fr_mrDone | apply fr_put | apply fr_mrOverrun | apply fr_mrStart)
    | with_reducible apply Frame.ite
    | (intro _ _; try dsimp only)
    | split)

theorem fr_chcCommit (n : Nat) (s : State) : Frame 0x1000000900004 s (chcCommit n s) := by
  unfold chcCommit
  try dsimp only
  repeat' (first
    | with_reducible apply Frame.refl
    | apply Eq.refl true
    | (with_reducible apply Frame.seq; with_reducible case k => first | apply fr_quiesce | apply fr_put)
    | with_reducible apply Frame.ite
    | (intro _ _; try dsimp only)
    | split)

end Sys2Proof.Machine
end

