-- ==== Sys2Proof/Laws/FramePmc.lean ====
section
/-! SUPPORT. What each operation of Pmc.lean may change. -/

namespace Sys2Proof.Machine

open Reg

theorem fr_countInto (cnt ovf : Fld) (bit k : Nat) (x : State × Bool) : Frame 0x4 x.1 (countInto cnt ovf bit k x).1 := by
  unfold countInto
  split
  · exact .refl
  · dsimp only
    split
    · exact fr_put ..
    · exact Frame.seq (fr_put ..) (fr_put ..) rfl

theorem fr_countBlock (occ : List Occ) (x : State × Bool) (i : Nat) : Frame 0x4 x.1 (countBlock occ x i).1 := by
  unfold countBlock
  split
  · exact .refl
  · exact fr_countInto ..

theorem fr_countHive (occ : List Occ) (n : Nat) (x : State × Bool) (i : Nat) : Frame 0x4 x.1 (countHive occ n x i).1 := by
  unfold countHive
  dsimp only
  split
  · exact .refl
  · exact fr_countInto ..

theorem fr_pmcCountUpdate (s : State) : Frame 0x40000000204 s (pmcCountUpdate s) := by
  have h : Frame 0x40000000204 s { s with occ := [], fclk := s.fclk + 1 } :=
    Frame.set_fclk (t := { s with occ := [] }) rfl (Frame.set_occ rfl .refl)
  unfold pmcCountUpdate
  dsimp only
  split
  · exact h
  · have k := Frame.foldl_fst (s := s) (m := 0x40000000204) (l := List.range 64) (y := ({ s with occ := [], fclk := s.fclk + 1 }, false))
      (f := countBlock (s.occ ++ [⟨0x000, 1, none, none, none, none⟩])) (fun u x => Frame.mono (fr_countBlock ..) rfl) h
    have k := Frame.foldl_fst (l := List.range 16)
      (f := fun x n => if hOn n x.1 then (List.range 32).foldl (countHive (s.occ ++ [⟨0x000, 1, none, none, none, none⟩]) n) x else x)
      (fun u x => by
        split
        · exact Frame.foldl_fst (fun u x => Frame.mono (fr_countHive ..) rfl) .refl
        · exact .refl) k
    split
    · exact Frame.seq k (fr_put ..) rfl
    · exact k

theorem fr_pmcClear (s : State) : Frame 0x40000000004 s (pmcClear s) := by
  unfold pmcClear
  try dsimp only
  repeat' (first
    | with_reducible apply Frame.refl
    | apply Eq.refl true
    | with_reducible apply Frame.ite
    | (intro _ _; try dsimp only)
    | split
    | with_reducible apply Frame.set_regs
    | with_reducible apply Frame.set_occ
    | ((with_reducible apply Frame.parts (by with_reducible rfl) (by with_reducible rfl)) <;> first | (apply Or.inl; apply Eq.refl true; done) | (apply Or.inr; with_reducible apply Eq.refl; done) | skip))

theorem fr_bwWindowEnd (s : State) : Frame 0x800000000000004 s (bwWindowEnd s) := by
  unfold bwWindowEnd
  try dsimp only
  repeat' (first
    | with_reducible apply Frame.refl
    | apply Eq.refl true
    | (with_reducible apply Frame.seq; with_reducible case k => first | apply fr_put | apply fr_putAll)
    | with_reducible apply Frame.ite
    | with_reducible apply Frame.foldl
    | with_reducible apply Frame.foldl_fst
    | (intro _ _; try dsimp only)
    | split
    | with_reducible apply Frame.set_bwBytes)

theorem fr_pmcBwCfgWrite (v : Nat) (s : State) : Frame 0x800000000000004 s (pmcBwCfgWrite v s) := by
  unfold pmcBwCfgWrite
  try dsimp only
  repeat' (first
    | with_reducible apply Frame.refl
    | apply Eq.refl true
    | (with_reducible apply Frame.seq; with_reducible case k => first | apply fr_put)
    | with_reducible apply Frame.ite
    | (intro _ _; try dsimp only)
    | split
    | with_reducible apply Frame.set_bwBytes)

theorem fr_samplerStart (n : Nat) (s : State) : Frame 0x80000000004 s (samplerStart n s) := by
  unfold samplerStart
  try dsimp only
  repeat' (first
    | with_reducible apply Frame.refl
    | apply Eq.refl true
    | (with_reducible apply Frame.seq; with_reducible case k => first | apply fr_putAll)
    | with_reducible apply Frame.ite
    | (intro _ _; try dsimp only)
    | split
    | with_reducible apply Frame.set_samplers)

theorem fr_pmcSmpWrite (n v : Nat) (s : State) : Frame 0x80000000004 s (pmcSmpWrite n v s) := by
  unfold pmcSmpWrite
  try dsimp only
  repeat' (first
    | with_reducible apply Frame.refl
    | apply Eq.refl true
    | (with_reducible apply Frame.seq; with_reducible case k => first | apply fr_samplerStart | apply fr_putAll)
    | with_reducible apply Frame.ite
    | (intro _ _; try dsimp only)
    | split)

theorem fr_sampleRecordWrite (n : Nat) (s : State) : Frame 0x80000000004 s (sampleRecordWrite n s) := by
  unfold sampleRecordWrite
  try dsimp only
  repeat' (first
    | with_reducible apply Frame.refl
    | apply Eq.refl true
    | (with_reducible apply Frame.seq; with_reducible case k => first | apply fr_put | apply fr_bump | apply fr_putAll)
    | with_reducible apply Frame.ite
    | (intro _ _; try dsimp only)
    | split
    | with_reducible apply Frame.set_samplers)

end Sys2Proof.Machine
end

