-- ==== Sys2Proof/Laws/FrameRegWrite.lean ====
section
/-! SUPPORT. What each operation of RegWrite.lean may change. -/

namespace Sys2Proof.Machine

open Reg

theorem fr_mapWrite (off v : Nat) (s : State) : Frame 0x2C s (mapWrite off v s) := by
  unfold mapWrite
  try dsimp only
  repeat' (first
    | with_reducible apply Frame.refl
    | apply Eq.refl true
    | (with_reducible apply Frame.seq; with_reducible case k => first | apply fr_put | apply fr_plainWrite)
    | with_reducible apply Frame.ite
    | (intro _ _; try dsimp only)
    | split)

theorem fr_floorWrite (g off v : Nat) (s : State) : Frame 0x2C s (floorWrite g off v s) := by
  unfold floorWrite
  try dsimp only
  repeat' (first
    | with_reducible apply Frame.refl
    | apply Eq.refl true
    | (with_reducible apply Frame.seq; with_reducible case k => first | apply fr_putLevel | apply fr_plainWrite)
    | with_reducible apply Frame.ite
    | (intro _ _; try dsimp only)
    | split)

theorem fr_scrubCtrlWrite (off v : Nat) (s : State) : Frame 0x4100000090042C s (scrubCtrlWrite off v s) := by
  unfold scrubCtrlWrite
  try dsimp only
  repeat' (first
    | with_reducible apply Frame.refl
    | apply Eq.refl true
    | (with_reducible apply Frame.seq; with_reducible case k => first | apply fr_scrubStop | apply fr_scrubGo | apply fr_plainWrite)
    | with_reducible apply Frame.ite
    | (intro _ _; try dsimp only)
    | split)

theorem fr_lcsCmdWrite (v : Nat) (s : State) : Frame 0x100401E800080084 s (lcsCmdWrite v s) := by
  unfold lcsCmdWrite
  try dsimp only
  repeat' (first
    | with_reducible apply Frame.refl
    | apply Eq.refl true
    | (with_reducible apply Frame.seq; with_reducible case k => first | apply fr_dbgCloseCmd | apply fr_revokeCmd | apply fr_advanceCmd | apply fr_resumeLcs | apply fr_raiseFloorCmd)
    | with_reducible apply Frame.ite
    | (intro _ _; try dsimp only)
    | split)

theorem fr_updCfgWrite (v : Nat) (s : State) : Frame 0x10000000000004 s (updCfgWrite v s) := by
  unfold updCfgWrite
  try dsimp only
  repeat' (first
    | with_reducible apply Frame.refl
    | apply Eq.refl true
    | (with_reducible apply Frame.seq; with_reducible case k => first | apply fr_putAll)
    | with_reducible apply Frame.ite
    | (intro _ _; try dsimp only)
    | split
    | with_reducible apply Frame.set_fw)

theorem fr_mbxCfgWrite (en : Fld) (off v : Nat) (s : State) : Frame 0x101000680008002C s (mbxCfgWrite en off v s) := by
  unfold mbxCfgWrite
  try dsimp only
  repeat' (first
    | with_reducible apply Frame.refl
    | apply Eq.refl true
    | (with_reducible apply Frame.seq; with_reducible case k => first | apply fr_plainWrite | apply fr_mbxGo | apply fr_put | apply fr_flushEvents)
    | with_reducible apply Frame.ite
    | (intro _ _; try dsimp only)
    | split)

theorem fr_msixWrite (off v : Nat) (s : State) : Frame 0x800000000 s (msixWrite off v s) := by
  unfold msixWrite
  try dsimp only
  repeat' (first
    | with_reducible apply Frame.refl
    | apply Eq.refl true
    | with_reducible apply Frame.ite
    | (intro _ _; try dsimp only)
    | split
    | with_reducible apply Frame.set_host)

theorem fr_blockWrite (off v : Nat) (s : State) : Frame 0x18553DFC8F9FA4BC s (blockWrite off v s) := by
  unfold blockWrite
  try dsimp only
  repeat' (first
    | with_reducible apply Frame.refl
    | apply Eq.refl true
    | (with_reducible apply Frame.seq; with_reducible case k => first | apply fr_ackWait | apply fr_mbxReqTailWrite | apply fr_plainWrite | apply fr_msixWrite | apply fr_glbCommit | apply fr_intMaskWrite | apply fr_peerTimeoutSet | apply fr_ctxCommand | apply fr_hbCfgWrite | apply fr_put | apply fr_mbxCfgWrite | apply fr_pmcClear | apply fr_pmcBwCfgWrite | apply fr_qosTokenReset | apply fr_updCfgWrite | apply fr_floorWrite | apply fr_arbCommit | apply fr_lcsCmdWrite | apply fr_mbxEvtHeadWrite | apply fr_mapWrite | apply fr_softShutdown | apply fr_scrubCtrlWrite | apply fr_winCommit)
    | with_reducible apply Frame.ite
    | (intro _ _; try dsimp only)
    | split)

theorem fr_mrCmdWrite (n off v : Nat) (s : State) : Frame 0x10000009000AC s (mrCmdWrite n off v s) := by
  unfold mrCmdWrite
  try dsimp only
  repeat' (first
    | with_reducible apply Frame.refl
    | apply Eq.refl true
    | (with_reducible apply Frame.seq; with_reducible case k => first | apply fr_mrOverrun | apply fr_freshDraw | apply fr_plainWrite | apply fr_modeRegisterRead | apply fr_modeRegisterWrite)
    | with_reducible apply Frame.ite
    | (intro _ _; try dsimp only)
    | split)

theorem fr_hiveRegWrite (n rel off v : Nat) (s : State) : Frame 0x11818DE801B918AC s (hiveRegWrite n rel off v s) := by
  unfold hiveRegWrite
  try dsimp only
  repeat' (first
    | with_reducible apply Frame.refl
    | apply Eq.refl true
    | (with_reducible apply Frame.seq; with_reducible case k => first | apply fr_floorWrite | apply fr_freshDraw | apply fr_plainWrite | apply fr_pmcSmpWrite | apply fr_retireWrite | apply fr_rmpOverrun | apply fr_repair | apply fr_install | apply fr_mapWrite | apply fr_recalNow | apply fr_captureLane | apply fr_testStartWrite | apply fr_mrCmdWrite | apply fr_chcCommit)
    | with_reducible apply Frame.ite
    | (intro _ _; try dsimp only)
    | split)

theorem fr_regWrite (off v : Nat) (s : State) : Frame 0x19D5BDFC8FBFBCBC s (regWrite off v s) := by
  unfold regWrite
  try dsimp only
  repeat' (first
    | with_reducible apply Frame.refl
    | apply Eq.refl true
    | (with_reducible apply Frame.seq; with_reducible case k => first | apply fr_hiveRegWrite | apply fr_blockWrite)
    | with_reducible apply Frame.ite
    | (intro _ _; try dsimp only)
    | split)

theorem fr_registerWriteOp (off v : Nat) (s : State) : Frame 0x19D5BDFC8FBFBCBC s (registerWriteOp off v s) := by
  unfold registerWriteOp
  try dsimp only
  repeat' (first
    | with_reducible apply Frame.refl
    | apply Eq.refl true
    | (with_reducible apply Frame.seq; with_reducible case k => first | apply fr_regWrite | apply fr_settleBut)
    | with_reducible apply Frame.ite
    | (intro _ _; try dsimp only)
    | split)

end Sys2Proof.Machine
end

