-- ==== Sys2Proof/Laws/FrameHost.lean ====
section
/-! SUPPORT. What each operation of Host.lean may change. -/

namespace Sys2Proof.Machine

open Reg

theorem fr_unsupported (posted : Bool) (tag : Nat) (s : State) : Frame 0x1000000800000080 s (unsupported posted tag s) := by
  unfold unsupported
  try dsimp only
  repeat' (first
    | with_reducible apply Frame.refl
    | apply Eq.refl true
    | (with_reducible apply Frame.seq; with_reducible case k => first | apply fr_aerSet | apply fr_sendTlp)
    | with_reducible apply Frame.ite
    | (intro _ _; try dsimp only)
    | split)

theorem fr_readWords (lo hi : Nat) (k w : Nat) (s : State) : Frame 0x40 s (readWords lo hi k w s).2 := by
  induction k generalizing w s with
  | zero => exact .refl
  | succ k ih =>
    rw [readWords]
    dsimp only
    split
    · exact Frame.seq (Frame.mono (fr_regRead ..) rfl) (ih ..) rfl
    · exact ih ..

theorem fr_bar0Read (off len : Nat) (s : State) : Frame 0x40 s (bar0Read off len s).2 := by
  unfold bar0Read
  try dsimp only
  repeat' (first
    | with_reducible apply Frame.refl
    | apply Eq.refl true
    | (with_reducible apply Frame.seq; with_reducible case k => first | apply fr_readWords)
    | with_reducible apply Frame.ite
    | (intro _ _; try dsimp only)
    | split)

theorem fr_writeWords (lo : Nat) (d : List Byte) (k : Nat) (w : Nat) (s : State) : Frame 0x19D5BDFC8FBFBCBC s (writeWords lo d k w s) := by
  induction k generalizing w s with
  | zero =>
    unfold writeWords
    try dsimp only
    repeat' (first
      | with_reducible apply Frame.refl
      | apply Eq.refl true
      | (with_reducible apply Frame.seq; with_reducible case k => first | apply fr_regWrite)
      | with_reducible apply Frame.ite
      | (intro _ _; try dsimp only)
      | split)
  | succ k ih =>
    unfold writeWords
    try dsimp only
    repeat' (first
      | with_reducible apply Frame.refl
      | apply Eq.refl true
      | (with_reducible apply Frame.seq; with_reducible case k => first | apply ih | apply fr_regWrite)
      | with_reducible apply Frame.ite
      | (intro _ _; try dsimp only)
      | split)

theorem fr_bar0Write (off : Nat) (d : List Byte) (s : State) : Frame 0x19D5BDFC8FBFBCBC s (bar0Write off d s) := by
  unfold bar0Write
  try dsimp only
  repeat' (first
    | with_reducible apply Frame.refl
    | apply Eq.refl true
    | (with_reducible apply Frame.seq; with_reducible case k => first | apply fr_writeWords)
    | with_reducible apply Frame.ite
    | (intro _ _; try dsimp only)
    | split)

theorem fr_bar2Write (off : Nat) (d : List Byte) (s : State) : Frame 0x40082000004 s (bar2Write off d s) := by
  unfold bar2Write
  try dsimp only
  repeat' (first
    | with_reducible apply Frame.refl
    | apply Eq.refl true
    | (with_reducible apply Frame.seq; with_reducible case k => first | apply fr_heartbeat | apply fr_badState | apply fr_cplHead | apply fr_descTail)
    | with_reducible apply Frame.ite
    | (intro _ _; try dsimp only)
    | split)

theorem fr_hpRequest (src : Src) (op : Op) (a beats be : Nat) (d : List Beat) (s : State) : Frame 0x2400 s (hpRequest src op a beats be d s) := by
  unfold hpRequest
  try dsimp only
  repeat' (first
    | with_reducible apply Frame.refl
    | apply Eq.refl true
    | (with_reducible apply Frame.seq; with_reducible case k => first | apply fr_waitIngress)
    | with_reducible apply Frame.ite
    | (intro _ _; try dsimp only)
    | split
    | with_reducible apply Frame.set_nextUid)

theorem fr_bar4Read (off len tag : Nat) (s : State) : Frame 0x1000000800002484 s (bar4Read off len tag s) := by
  unfold bar4Read
  try dsimp only
  repeat' (first
    | with_reducible apply Frame.refl
    | apply Eq.refl true
    | (with_reducible apply Frame.seq; with_reducible case k => first | apply fr_aerSet | apply fr_recordFault | apply fr_sendTlp | apply fr_hpRequest)
    | with_reducible apply Frame.ite
    | (intro _ _; try dsimp only)
    | split)

theorem fr_bar4Writes  (k : Nat) (a : Nat) (d : List Byte) (s : State) : Frame 0x2400 s (bar4Writes  k a d s) := by
  induction k generalizing a d s with
  | zero =>
    unfold bar4Writes
    try dsimp only
    repeat' (first
      | with_reducible apply Frame.refl
      | apply Eq.refl true
      | (with_reducible apply Frame.seq; with_reducible case k => first | apply fr_hpRequest)
      | with_reducible apply Frame.ite
      | (intro _ _; try dsimp only)
      | split)
  | succ k ih =>
    unfold bar4Writes
    try dsimp only
    repeat' (first
      | with_reducible apply Frame.refl
      | apply Eq.refl true
      | (with_reducible apply Frame.seq; with_reducible case k => first | apply ih | apply fr_hpRequest)
      | with_reducible apply Frame.ite
      | (intro _ _; try dsimp only)
      | split)

theorem fr_bar4Write (off : Nat) (d : List Byte) (s : State) : Frame 0x2404 s (bar4Write off d s) := by
  unfold bar4Write
  try dsimp only
  repeat' (first
    | with_reducible apply Frame.refl
    | apply Eq.refl true
    | (with_reducible apply Frame.seq; with_reducible case k => first | apply fr_recordFault | apply fr_bar4Writes)
    | with_reducible apply Frame.ite
    | (intro _ _; try dsimp only)
    | split)

theorem fr_hpMemRead (bar off len tag : Nat) (s : State) : Frame 0x10000008001024D4 s (hpMemRead bar off len tag s) := by
  unfold hpMemRead
  try dsimp only
  repeat' (first
    | with_reducible apply Frame.refl
    | apply Eq.refl true
    | (with_reducible apply Frame.seq; with_reducible case k => first | apply fr_bar4Read | apply fr_bar0Read | apply fr_unsupported | apply fr_idleTick | apply fr_sendCompletion)
    | with_reducible apply Frame.ite
    | (intro _ _; try dsimp only)
    | (rename_i h; refine Frame.of_eq2 h (fr_bar0Read ..) rfl ?_)
    | split)

theorem fr_hpMemWrite (bar off : Nat) (d : List Byte) (poisoned : Bool) (s : State) : Frame 0x19D5BDFC8FBFBCBC s (hpMemWrite bar off d poisoned s) := by
  unfold hpMemWrite
  try dsimp only
  repeat' (first
    | with_reducible apply Frame.refl
    | apply Eq.refl true
    | (with_reducible apply Frame.seq; with_reducible case k => first | apply fr_aerSet | apply fr_bar0Write | apply fr_bar4Write | apply fr_settleBut | apply fr_bar2Write | apply fr_unsupported)
    | with_reducible apply Frame.ite
    | (intro _ _; try dsimp only)
    | split)

theorem fr_hpUnsupported (kind : UrKind) (tag : Nat) (s : State) : Frame 0x1000000800000080 s (hpUnsupported kind tag s) := by
  unfold hpUnsupported
  try dsimp only
  repeat' (first
    | with_reducible apply Frame.refl
    | apply Eq.refl true
    | (with_reducible apply Frame.seq; with_reducible case k => first | apply fr_unsupported)
    | with_reducible apply Frame.ite
    | (intro _ _; try dsimp only)
    | split)

theorem fr_resizeBar (v : Nat) (s : State) : Frame 0x800000000 s (resizeBar v s) := by
  unfold resizeBar
  try dsimp only
  repeat' (first
    | with_reducible apply Frame.refl
    | apply Eq.refl true
    | (with_reducible apply Frame.seq; with_reducible case k => first | apply fr_cfgPut)
    | with_reducible apply Frame.ite
    | (intro _ _; try dsimp only)
    | split)

theorem fr_dropSet (s : State) (h : Nat) : Frame 0x100009FE0B1F2004 s (dropSet s h) := by
  unfold dropSet
  try dsimp only
  repeat' (first
    | with_reducible apply Frame.refl
    | apply Eq.refl true
    | (with_reducible apply Frame.seq; with_reducible case k => first | apply fr_loseSet | apply fr_put)
    | with_reducible apply Frame.ite
    | (intro _ _; try dsimp only)
    | split
    | with_reducible apply Frame.set_acks)

theorem fr_functionResetOp (s : State) : Frame 0x10100DFE5B1F2004 s (functionResetOp s) := by
  unfold functionResetOp
  try dsimp only
  repeat' (first
    | with_reducible apply Frame.refl
    | apply Eq.refl true
    | (with_reducible apply Frame.seq; with_reducible case k => first | apply fr_dropSet | apply fr_abandonRead)
    | with_reducible apply Frame.ite
    | with_reducible apply Frame.foldl
    | with_reducible apply Frame.foldl_fst
    | (intro _ _; try dsimp only)
    | split
    | with_reducible apply Frame.set_host)

theorem fr_cfgWrite (off be v : Nat) (s : State) : Frame 0x10100DFE5B1F2004 s (cfgWrite off be v s) := by
  unfold cfgWrite
  try dsimp only
  repeat' (first
    | with_reducible apply Frame.refl
    | apply Eq.refl true
    | (with_reducible apply Frame.seq; with_reducible case k => first | apply fr_cfgPut | apply fr_functionResetOp | apply fr_resizeBar)
    | with_reducible apply Frame.ite
    | (intro _ _; try dsimp only)
    | split)

theorem fr_hpConfigRead (off be tag : Nat) (s : State) : Frame 0x1000000000000000 s (hpConfigRead off be tag s) := by
  unfold hpConfigRead
  try dsimp only
  repeat' (first
    | with_reducible apply Frame.refl
    | apply Eq.refl true
    | (with_reducible apply Frame.seq; with_reducible case k => first | apply fr_sendTlp)
    | with_reducible apply Frame.ite
    | (intro _ _; try dsimp only)
    | split)

theorem fr_hpConfigWrite (off be v tag : Nat) (poisoned : Bool) (s : State) : Frame 0x10100DFE5B1F2084 s (hpConfigWrite off be v tag poisoned s) := by
  unfold hpConfigWrite
  try dsimp only
  repeat' (first
    | with_reducible apply Frame.refl
    | apply Eq.refl true
    | (with_reducible apply Frame.seq; with_reducible case k => first | apply fr_aerSet | apply fr_unsupported | apply fr_hostResume | apply fr_cfgWrite | apply fr_sendTlp)
    | with_reducible apply Frame.ite
    | (intro _ _; try dsimp only)
    | split)

theorem fr_msixRelease (v : Nat) (s : State) : Frame 0x1000000800000000 s (msixRelease v s) := by
  unfold msixRelease
  try dsimp only
  repeat' (first
    | with_reducible apply Frame.refl
    | apply Eq.refl true
    | (with_reducible apply Frame.seq; with_reducible case k => first | apply fr_sendMsgNow)
    | with_reducible apply Frame.ite
    | (intro _ _; try dsimp only)
    | split
    | with_reducible apply Frame.set_host)

end Sys2Proof.Machine
end

