-- ==== Sys2Proof/Laws/FrameJtg.lean ====
section
/-! SUPPORT. What each operation of Jtg.lean may change. -/

namespace Sys2Proof.Machine

open Reg

theorem fr_tdo (v : Nat) (s : State) : Frame 0x1000000000000000 s (tdo v s) := by
  unfold tdo
  try dsimp only
  repeat' (first
    | with_reducible apply Frame.refl
    | apply Eq.refl true
    | with_reducible apply Frame.ite
    | (intro _ _; try dsimp only)
    | split
    | with_reducible apply Frame.set_out)

theorem otpKept_debug (item index v : Nat) (o : Otp) : OtpKept o (debugProg item index v o) := by
  unfold debugProg
  split
  · refine ⟨.refl _, .refl _, .refl _, .refl _, Nat.or_self _, Nat.or_self _, .refl _, fun i => ?_, Nat.or_self _⟩
    dsimp only
    by_cases hi : i < max 6 o.digests.length
    · rw [List.getD_eq_getElem?_getD (l := List.map _ _), List.getElem?_map, List.getElem?_range hi]
      simp only [Option.map_some, Option.getD_some]
      exact or_kept_left ..
    · have hl : o.digests.length ≤ i := by omega
      rw [List.getD_eq_getElem?_getD, List.getElem?_eq_none hl]
      simp
  · exact ⟨.refl _, .refl _, .refl _, .refl _, Nat.or_self _, Nat.or_self _, triple_orCopy .., fun _ => Nat.or_self _, Nat.or_self _⟩
  · exact ⟨.refl _, .refl _, .refl _, .refl _, Nat.or_self _, Nat.or_self _, .refl _, fun _ => Nat.or_self _, or_kept_left ..⟩

theorem fr_debugOtp (item index v : Nat) (s : State) : Frame 0x2004000000000000 s (debugOtp item index v s) := by
  unfold debugOtp
  dsimp only
  split
  · exact Frame.any_otp rfl rfl (otpKept_debug ..) .refl
  · exact .refl

theorem fr_debugAccess (tdi : BitVec 32) (s : State) : Frame 0x39D5BDFC8FBFBCFC s (debugAccess tdi s) := by
  unfold debugAccess
  try dsimp only
  repeat' (first
    | with_reducible apply Frame.refl
    | apply Eq.refl true
    | (with_reducible apply Frame.seq; with_reducible case k => first | apply fr_freshDraw | apply fr_debugOtp | apply fr_regRead | apply fr_tdo | apply fr_regWrite)
    | with_reducible apply Frame.ite
    | (intro _ _; try dsimp only)
    | (rename_i h; refine Frame.of_eq2 h (fr_regRead ..) rfl ?_)
    | split)

theorem fr_stackRelay (tdi : BitVec 32) (s : State) : Frame 0x1000000000000080 s (stackRelay tdi s) := by
  unfold stackRelay
  try dsimp only
  repeat' (first
    | with_reducible apply Frame.refl
    | apply Eq.refl true
    | (with_reducible apply Frame.seq; with_reducible case k => first | apply fr_freshDraw | apply fr_tdo)
    | with_reducible apply Frame.ite
    | (intro _ _; try dsimp only)
    | split
    | with_reducible apply Frame.set_out)

theorem fr_closedScan (s : State) : Frame 0x1000000000000080 s (closedScan s) := by
  unfold closedScan
  try dsimp only
  repeat' (first
    | with_reducible apply Frame.refl
    | apply Eq.refl true
    | (with_reducible apply Frame.seq; with_reducible case k => first | apply fr_freshDraw | apply fr_tdo)
    | with_reducible apply Frame.ite
    | (intro _ _; try dsimp only)
    | split)

theorem fr_jtgScan (ir : BitVec 8) (tdi : BitVec 32) (s : State) : Frame 0x3DD5BDFC8FBFBCFC s (jtgScan ir tdi s) := by
  unfold jtgScan
  try dsimp only
  repeat' (first
    | with_reducible apply Frame.refl
    | apply Eq.refl true
    | (with_reducible apply Frame.seq; with_reducible case k => first | apply fr_closedScan | apply fr_debugAccess | apply fr_tdo | apply fr_stackRelay)
    | with_reducible apply Frame.ite
    | (intro _ _; try dsimp only)
    | split
    | with_reducible apply Frame.set_jtgIr)

end Sys2Proof.Machine
end

