-- ==== Sys2Proof/Laws/FrameStart.lean ====
section
/-! SUPPORT. What each operation of Start.lean may change. -/

namespace Sys2Proof.Machine

open Reg

theorem fr_variantRegs (s : State) : Frame 0x4 s (variantRegs s) := by
  unfold variantRegs
  try dsimp only
  repeat' (first
    | with_reducible apply Frame.refl
    | apply Eq.refl true
    | (with_reducible apply Frame.seq; with_reducible case k => first | apply fr_putAll)
    | with_reducible apply Frame.ite
    | (intro _ _; try dsimp only)
    | split)

theorem fr_resetOp (porst : Bool) (s : State) : Frame 0xF7BFDFFFFFFFFFC s (resetOp porst s) := by
  unfold resetOp
  dsimp only
  refine Frame.seq (Frame.seq (Frame.seq (t := { State.blank s.env with
    pending := s.pending, free := s.free + 1,
    regs := mset (keepFields trimFields s.regs) PEER_TIMEOUT.US.key (resetTimeout s.env), force := keepFields seedFields s.regs,
    otp := s.otp, flash := tornFlash s, evLog := s.evLog, remapLog := s.remapLog, remapWant := s.remapLog, out := s.out,
    thermal := { (State.blank s.env).thermal with recSeq := s.thermal.recSeq } }) ?_ (fr_variantRegs ..) rfl)
    (fr_putAll ..) rfl) (fr_lcsShow ..) rfl
  constructor
  case memOk => intro _; rfl
  case otpOk => exact .refl _
  all_goals first | exact fun _ => rfl | exact fun h => absurd h (by decide) | exact fun _ => .refl _

theorem fr_romStop (st : Nat) (s : State) : Frame 0x10000800000000 s (romStop st s) := by
  unfold romStop
  try dsimp only
  repeat' (first
    | with_reducible apply Frame.refl
    | apply Eq.refl true
    | with_reducible apply Frame.ite
    | (intro _ _; try dsimp only)
    | split
    | with_reducible apply Frame.set_host
    | with_reducible apply Frame.set_fw
    | ((with_reducible apply Frame.parts (by with_reducible rfl) (by with_reducible rfl)) <;> first | (apply Or.inl; apply Eq.refl true; done) | (apply Or.inr; with_reducible apply Eq.refl; done) | skip))

theorem fr_writeDefaults (s : State) : Frame 0x18000000000000 s (writeDefaults s) := by
  unfold writeDefaults
  try dsimp only
  repeat' (first
    | with_reducible apply Frame.refl
    | apply Eq.refl true
    | (with_reducible apply Frame.seq; with_reducible case k => first | apply fr_writeSettings)
    | with_reducible apply Frame.ite
    | (intro _ _; try dsimp only)
    | split
    | with_reducible apply Frame.set_fw)

theorem fr_loadSettings (s : State) : Frame 0x18000000000004 s (loadSettings s) := by
  unfold loadSettings
  try dsimp only
  repeat' (first
    | with_reducible apply Frame.refl
    | apply Eq.refl true
    | (with_reducible apply Frame.seq; with_reducible case k => first | apply fr_put | apply fr_writeDefaults)
    | with_reducible apply Frame.ite
    | (intro _ _; try dsimp only)
    | split
    | with_reducible apply Frame.set_fw)

theorem fr_romBoot (flashFails : Bool) (s : State) : Frame 0x101821E800080004 s (romBoot flashFails s) := by
  unfold romBoot
  try dsimp only
  repeat' (first
    | with_reducible apply Frame.refl
    | apply Eq.refl true
    | (with_reducible apply Frame.seq; with_reducible case k => first | apply fr_loadSettings | apply fr_setPower | apply fr_put | apply fr_lcsShow | apply fr_postEvent | apply fr_romStop | apply fr_putAll | apply fr_consumeShutRec)
    | with_reducible apply Frame.ite
    | (intro _ _; try dsimp only)
    | split
    | with_reducible apply Frame.set_fw)

theorem fr_programKey (item old : Nat) (s : State) : Frame 0x4000000000080 s (programKey item old s) := by
  unfold programKey
  split
  · exact Frame.seq (Frame.set_otp rfl (otpKept_foldl ..) (otpFixed_foldl ..) .refl) (fr_freshDraw ..) rfl
  · exact .refl

theorem fr_programKeys (s : State) : Frame 0x4000000000080 s (programKeys s) := by
  unfold programKeys
  try dsimp only
  repeat' (first
    | with_reducible apply Frame.refl
    | apply Eq.refl true
    | (with_reducible apply Frame.seq; with_reducible case k => first | apply fr_programKey)
    | with_reducible apply Frame.ite
    | (intro _ _; try dsimp only)
    | split)

theorem fr_deriveKeys (s : State) : Frame 0x10000000000084 s (deriveKeys s) := by
  unfold deriveKeys
  try dsimp only
  repeat' (first
    | with_reducible apply Frame.refl
    | apply Eq.refl true
    | (with_reducible apply Frame.seq; with_reducible case k => first | apply fr_freshDraw | apply fr_put)
    | with_reducible apply Frame.ite
    | (intro _ _; try dsimp only)
    | split
    | with_reducible apply Frame.set_fw)

theorem fr_coreRelease (s : State) : Frame 0x16100006080084 s (coreRelease s) := by
  unfold coreRelease
  try dsimp only
  repeat' (first
    | with_reducible apply Frame.refl
    | apply Eq.refl true
    | (with_reducible apply Frame.seq; with_reducible case k => first | apply fr_loadItems | apply fr_freshDraw | apply fr_coreUp | apply fr_put | apply fr_programKeys | apply fr_deriveKeys | apply fr_putAll)
    | with_reducible apply Frame.ite
    | with_reducible apply Frame.foldl
    | with_reducible apply Frame.foldl_fst
    | (intro _ _; try dsimp only)
    | split
    | with_reducible apply Frame.set_cores
    | with_reducible apply Frame.set_fw
    | ((with_reducible apply Frame.parts (by with_reducible rfl) (by with_reducible rfl)) <;> first | (apply Or.inl; apply Eq.refl true; done) | (apply Or.inr; with_reducible apply Eq.refl; done) | skip))

theorem fr_writeSet (i base size : Nat) (x : ISet) (s : State) : Frame 0x4 s (writeSet i base size x s) := by
  unfold writeSet
  try dsimp only
  repeat' (first
    | with_reducible apply Frame.refl
    | apply Eq.refl true
    | (with_reducible apply Frame.seq; with_reducible case k => first | apply fr_putAll)
    | with_reducible apply Frame.ite
    | with_reducible apply Frame.foldl
    | with_reducible apply Frame.foldl_fst
    | (intro _ _; try dsimp only)
    | split)

theorem fr_writeSets (l : List ISet) (i top : Nat) (used : Bool) (s : State) : Frame 0x4 s (writeSets l i top used s) := by
  induction l generalizing i top used s with
  | nil => exact Frame.mono (fr_put ..) rfl
  | cons x xs ih =>
    rw [writeSets]
    exact Frame.seq (Frame.mono (fr_writeSet ..) rfl) (ih ..) rfl

theorem fr_layMap (s : State) : Frame 0x4 s (layMap s) := by
  unfold layMap
  try dsimp only
  repeat' (first
    | with_reducible apply Frame.refl
    | apply Eq.refl true
    | (with_reducible apply Frame.seq; with_reducible case k => first | apply fr_writeSets | apply fr_putAll)
    | with_reducible apply Frame.ite
    | (intro _ _; try dsimp only)
    | split)

theorem fr_openAll (cpLinks : BitVec 16) (ppLink : Bool) (s : State) : Frame 0x1000082014 s (openAll cpLinks ppLink s) := by
  unfold openAll
  try dsimp only
  repeat' (first
    | with_reducible apply Frame.refl
    | apply Eq.refl true
    | (with_reducible apply Frame.seq; with_reducible case k => first | apply fr_ppOpen | apply fr_openPort | apply fr_setPort | apply fr_takeMap | apply fr_ringWrite | apply fr_putAll)
    | with_reducible apply Frame.ite
    | with_reducible apply Frame.foldl
    | with_reducible apply Frame.foldl_fst
    | (intro _ _; try dsimp only)
    | split)

theorem fr_portOpening (cpLinks : BitVec 16) (ppLink : Bool) (s : State) : Frame 0x10001000082014 s (portOpening cpLinks ppLink s) := by
  unfold portOpening
  try dsimp only
  repeat' (first
    | with_reducible apply Frame.refl
    | apply Eq.refl true
    | (with_reducible apply Frame.seq; with_reducible case k => first | apply fr_layMap | apply fr_openAll | apply fr_put)
    | with_reducible apply Frame.ite
    | (intro _ _; try dsimp only)
    | split
    | with_reducible apply Frame.set_fw)

theorem fr_heldEventFlush (s : State) : Frame 0x1000006800080004 s (heldEventFlush s) := by
  unfold heldEventFlush
  try dsimp only
  repeat' (first
    | with_reducible apply Frame.refl
    | apply Eq.refl true
    | (with_reducible apply Frame.seq; with_reducible case k => first | apply fr_flushEvents)
    | with_reducible apply Frame.ite
    | (intro _ _; try dsimp only)
    | split)

theorem fr_performPart (a : Part) (s : State) : Frame 0x1800081000173800 s (performPart a s) := by
  unfold performPart
  try dsimp only
  repeat' (first
    | with_reducible apply Frame.refl
    | apply Eq.refl true
    | (with_reducible apply Frame.seq; with_reducible case k => first | apply fr_ackWrite | apply fr_deliver | apply fr_settle | apply fr_writeBlock)
    | with_reducible apply Frame.ite
    | with_reducible apply Frame.foldl
    | with_reducible apply Frame.foldl_fst
    | (intro _ _; try dsimp only)
    | split)

theorem fr_performQueued (a : Part) (s : State) : Frame 0x1800081000173800 s (performQueued a s) := by
  unfold performQueued
  try dsimp only
  repeat' (first
    | with_reducible apply Frame.refl
    | apply Eq.refl true
    | (with_reducible apply Frame.seq; with_reducible case k => first | apply fr_deliver | apply fr_settle | apply fr_answerPart)
    | with_reducible apply Frame.ite
    | with_reducible apply Frame.foldl
    | with_reducible apply Frame.foldl_fst
    | (intro _ _; try dsimp only)
    | split)

theorem fr_settleAll (s : State) : Frame 0x101800 s (settleAll s) := by
  unfold settleAll
  try dsimp only
  repeat' (first
    | with_reducible apply Frame.refl
    | apply Eq.refl true
    | (with_reducible apply Frame.seq; with_reducible case k => first | apply fr_settle)
    | with_reducible apply Frame.ite
    | with_reducible apply Frame.foldl
    | with_reducible apply Frame.foldl_fst
    | (intro _ _; try dsimp only)
    | split)

theorem fr_drainEgress (s : State) (k : Nat) : Frame 0x1000040000002000 s (drainEgress s k) := by
  unfold drainEgress
  try dsimp only
  repeat' (first
    | with_reducible apply Frame.refl
    | apply Eq.refl true
    | (with_reducible apply Frame.seq; with_reducible case k => first | apply fr_responseSend)
    | with_reducible apply Frame.ite
    | with_reducible apply Frame.foldl
    | with_reducible apply Frame.foldl_fst
    | (intro _ _; try dsimp only)
    | split)

theorem fr_finishRequests (s : State) : Frame 0x18000C1000173800 s (finishRequests s) := by
  unfold finishRequests
  try dsimp only
  repeat' (first
    | with_reducible apply Frame.refl
    | apply Eq.refl true
    | (with_reducible apply Frame.seq; with_reducible case k => first | apply fr_drainEgress | apply fr_performPart | apply fr_performQueued | apply fr_settleAll | apply fr_pumpRsp)
    | with_reducible apply Frame.ite
    | with_reducible apply Frame.foldl
    | with_reducible apply Frame.foldl_fst
    | (intro _ _; try dsimp only)
    | split
    | with_reducible apply Frame.set_ports
    | with_reducible apply Frame.set_gates
    | with_reducible apply Frame.set_live
    | with_reducible apply Frame.set_arrived
    | with_reducible apply Frame.set_pcs
    | with_reducible apply Frame.set_peer
    | ((with_reducible apply Frame.parts (by with_reducible rfl) (by with_reducible rfl)) <;> first | (apply Or.inl; apply Eq.refl true; done) | (apply Or.inr; with_reducible apply Eq.refl; done) | skip))

theorem fr_sleepStacks (s : State) : Frame 0x40000300004 s (sleepStacks s) := by
  unfold sleepStacks
  try dsimp only
  repeat' (first
    | with_reducible apply Frame.refl
    | apply Eq.refl true
    | (with_reducible apply Frame.seq; with_reducible case k => first | apply fr_rowActs)
    | with_reducible apply Frame.ite
    | with_reducible apply Frame.foldl
    | with_reducible apply Frame.foldl_fst
    | (intro _ _; try dsimp only)
    | split
    | with_reducible apply Frame.set_pcs)

theorem fr_orderlyShutdown (s : State) : Frame 0x18012C3001B73804 s (orderlyShutdown s) := by
  unfold orderlyShutdown
  try dsimp only
  repeat' (first
    | with_reducible apply Frame.refl
    | apply Eq.refl true
    | (with_reducible apply Frame.seq; with_reducible case k => first | apply fr_sleepStacks | apply fr_setPower | apply fr_requestOff | apply fr_finishRequests)
    | with_reducible apply Frame.ite
    | with_reducible apply Frame.foldl
    | with_reducible apply Frame.foldl_fst
    | (intro _ _; try dsimp only)
    | split)

theorem fr_logEvents (s : State) : Frame 0x30000000000 s (logEvents s) := by
  unfold logEvents
  try dsimp only
  repeat' (first
    | with_reducible apply Frame.refl
    | apply Eq.refl true
    | with_reducible apply Frame.ite
    | (intro _ _; try dsimp only)
    | split
    | with_reducible apply Frame.set_logWait
    | with_reducible apply Frame.set_evLog
    | ((with_reducible apply Frame.parts (by with_reducible rfl) (by with_reducible rfl)) <;> first | (apply Or.inl; apply Eq.refl true; done) | (apply Or.inr; with_reducible apply Eq.refl; done) | skip))

theorem fr_firmwareRound (s : State) : Frame 0x109A130806080004 s (firmwareRound s) := by
  unfold firmwareRound
  try dsimp only
  repeat' (first
    | with_reducible apply Frame.refl
    | apply Eq.refl true
    | (with_reducible apply Frame.seq; with_reducible case k => first | apply fr_finishRestarts | apply fr_mbxGo | apply fr_writeDefaults | apply fr_logEvents | apply fr_evalActivation | apply fr_recordRemaps)
    | with_reducible apply Frame.ite
    | (intro _ _; try dsimp only)
    | split)

theorem fr_roundEvents (s : State) : Frame 0x40000000000 s (roundEvents s) := by
  unfold roundEvents
  try dsimp only
  repeat' (first
    | with_reducible apply Frame.refl
    | apply Eq.refl true
    | (with_reducible apply Frame.seq; with_reducible case k => first | apply fr_emit)
    | with_reducible apply Frame.ite
    | (intro _ _; try dsimp only)
    | split)

theorem fr_readyRound (s : State) : Frame 0x800000000 s (readyRound s) := by
  unfold readyRound
  try dsimp only
  repeat' (first
    | with_reducible apply Frame.refl
    | apply Eq.refl true
    | with_reducible apply Frame.ite
    | (intro _ _; try dsimp only)
    | split
    | with_reducible apply Frame.set_host)

theorem fr_housekeepingRound (obs : RoundObs) (s : State) : Frame 0x129A7FF80F1F2114 s (housekeepingRound obs s) := by
  unfold housekeepingRound
  try dsimp only
  repeat' (first
    | with_reducible apply Frame.refl
    | apply Eq.refl true
    | (with_reducible apply Frame.seq; with_reducible case k => first | apply fr_thermalRound | apply fr_roundEvents | apply fr_svcFlush | apply fr_readyRound | apply fr_firmwareRound | apply fr_idleTick)
    | with_reducible apply Frame.ite
    | (intro _ _; try dsimp only)
    | split)

end Sys2Proof.Machine
end

