-- ==== Sys2Proof/Laws/FrameUnits.lean ====
section
/-! SUPPORT. What each operation of Units.lean may change. -/

namespace Sys2Proof.Machine

open Reg

theorem fr_settleUnit (x : Arrival) (u : UnitAcc) (s : State) : Frame 0x10012DFA5B9F2404 s (settleUnit x u s) := by
  unfold settleUnit
  try dsimp only
  repeat' (first
    | with_reducible apply Frame.refl
    | apply Eq.refl true
    | (with_reducible apply Frame.seq; with_reducible case k => first | apply fr_emit | apply fr_recordWritten | apply fr_fetchAnswered | apply fr_gatherArrives | apply fr_gatherPut | apply fr_writeAnswered | apply fr_sourceArrives | apply fr_imageArrives | apply fr_emitAnswered | apply fr_postEvent | apply fr_argsArrive | apply fr_ldactArrives)
    | with_reducible apply fr_jobAnswer
    | (intro _; try dsimp only)
    | with_reducible apply Frame.ite
    | (intro _ _; try dsimp only)
    | split)

theorem fr_settleUnits (s : State) : Frame 0x10012DFA5B9F2404 s (settleUnits s) := by
  unfold settleUnits
  try dsimp only
  repeat' (first
    | with_reducible apply Frame.refl
    | apply Eq.refl true
    | (with_reducible apply Frame.seq; with_reducible case k => first | apply fr_settleUnit)
    | with_reducible apply Frame.ite
    | with_reducible apply Frame.foldl
    | with_reducible apply Frame.foldl_fst
    | (intro _ _; try dsimp only)
    | split
    | with_reducible apply Frame.set_arrived)

theorem fr_settleCells (s : State) : Frame 0x10010DF80B9F2404 s (settleCells s) := by
  unfold settleCells
  try dsimp only
  repeat' (first
    | with_reducible apply Frame.refl
    | apply Eq.refl true
    | (with_reducible apply Frame.seq; with_reducible case k => first | apply fr_advance)
    | with_reducible apply Frame.ite
    | with_reducible apply Frame.foldl
    | with_reducible apply Frame.foldl_fst
    | (intro _ _; try dsimp only)
    | split)

theorem fr_settled (s : State) : Frame 0x10012DFA5B9F2404 s (settled s) := by
  unfold settled
  try dsimp only
  repeat' (first
    | with_reducible apply Frame.refl
    | apply Eq.refl true
    | (with_reducible apply Frame.seq; with_reducible case k => first | apply fr_settleCells | apply fr_settleUnits)
    | with_reducible apply Frame.ite
    | (intro _ _; try dsimp only)
    | split)

end Sys2Proof.Machine
end

