-- ==== Sys2Proof/Laws/Pieces.lean ====
section
/-! SUPPORT. From the frame of an operation to the pieces of State that stay the same. -/

namespace Sys2Proof.Machine

/-- The bit of a piece in the masks of `Frame`. -/
def Piece.ix : Piece → Nat
  | .pending => 0
  | .env => 1
  | .regs => 2
  | .shadow => 3
  | .force => 4
  | .loHeld => 5
  | .hiCap => 6
  | .free => 7
  | .rounds => 8
  | .fclk => 9
  | .nextUid => 10
  | .mem => 11
  | .marked => 12
  | .ports => 13
  | .rotation => 14
  | .tokens => 15
  | .gates => 16
  | .live => 17
  | .arrived => 18
  | .fwAccs => 19
  | .pcs => 20
  | .chanLfsr => 21
  | .ceLeaks => 22
  | .lanes => 23
  | .hives => 24
  | .ctxs => 25
  | .ctxHeld => 26
  | .jobs => 27
  | .nextJob => 28
  | .lateJobs => 29
  | .finished => 30
  | .hbStart => 31
  | .auditSeq => 32
  | .spill => 33
  | .acks => 34
  | .host => 35
  | .peer => 36
  | .held => 37
  | .ring => 38
  | .eventSeq => 39
  | .logWait => 40
  | .evLog => 41
  | .occ => 42
  | .samplers => 43
  | .overruns => 44
  | .power => 45
  | .thermal => 46
  | .recal => 47
  | .recalNext => 48
  | .cores => 49
  | .otp => 50
  | .flash => 51
  | .fw => 52
  | .audit => 53
  | .scrubRun => 54
  | .remapLog => 55
  | .remapWant => 56
  | .svcWait => 57
  | .jtgIr => 58
  | .bwBytes => 59
  | .out => 60

/-- Every piece. -/
def Piece.all : List Piece :=
  [.pending, .env, .regs, .shadow, .force, .loHeld, .hiCap, .free, .rounds, .fclk, .nextUid, .mem, .marked, .ports, .rotation, .tokens, .gates, .live, .arrived, .fwAccs, .pcs, .chanLfsr, .ceLeaks, .lanes, .hives, .ctxs, .ctxHeld, .jobs, .nextJob, .lateJobs, .finished, .hbStart, .auditSeq, .spill, .acks, .host, .peer, .held, .ring, .eventSeq, .logWait, .evLog, .occ, .samplers, .overruns, .power, .thermal, .recal, .recalNext, .cores, .otp, .flash, .fw, .audit, .scrubRun, .remapLog, .remapWant, .svcWait, .jtgIr, .bwBytes, .out]

theorem Piece.mem_all (p : Piece) : p ∈ Piece.all := by cases p <;> decide

theorem Frame.same {m : Nat} {s t : State} (h : Frame m s t) (p : Piece) (hp : m.testBit p.ix = false) : p.same s t := by
  cases p
  · exact h.f_pending hp
  · exact h.f_env hp
  · exact h.f_regs hp
  · exact h.f_shadow hp
  · exact h.f_force hp
  · exact h.f_loHeld hp
  · exact h.f_hiCap hp
  · exact h.f_free hp
  · exact h.f_rounds hp
  · exact h.f_fclk hp
  · exact h.f_nextUid hp
  · exact h.f_mem hp
  · exact h.f_marked hp
  · exact h.f_ports hp
  · exact h.f_rotation hp
  · exact h.f_tokens hp
  · exact h.f_gates hp
  · exact h.f_live hp
  · exact h.f_arrived hp
  · exact h.f_fwAccs hp
  · exact h.f_pcs hp
  · exact h.f_chanLfsr hp
  · exact h.f_ceLeaks hp
  · exact h.f_lanes hp
  · exact h.f_hives hp
  · exact h.f_ctxs hp
  · exact h.f_ctxHeld hp
  · exact h.f_jobs hp
  · exact h.f_nextJob hp
  · exact h.f_lateJobs hp
  · exact h.f_finished hp
  · exact h.f_hbStart hp
  · exact h.f_auditSeq hp
  · exact h.f_spill hp
  · exact h.f_acks hp
  · exact h.f_host hp
  · exact h.f_peer hp
  · exact h.f_held hp
  · exact h.f_ring hp
  · exact h.f_eventSeq hp
  · exact h.f_logWait hp
  · exact h.f_evLog hp
  · exact h.f_occ hp
  · exact h.f_samplers hp
  · exact h.f_overruns hp
  · exact h.f_power hp
  · exact h.f_thermal hp
  · exact h.f_recal hp
  · exact h.f_recalNext hp
  · exact h.f_cores hp
  · exact h.f_otp hp
  · exact h.f_flash hp
  · exact h.f_fw hp
  · exact h.f_audit hp
  · exact h.f_scrubRun hp
  · exact h.f_remapLog hp
  · exact h.f_remapWant hp
  · exact h.f_svcWait hp
  · exact h.f_jtgIr hp
  · exact h.f_bwBytes hp
  · exact h.f_out hp

/-- The mask of a list of pieces; the bit of the words that debug access programs is no piece of its own. -/
def maskOf (ps : List Piece) : Nat := ps.foldl (fun m p => m ||| 2 ^ p.ix) (2 ^ 61)

theorem testBit_maskOf (ps : List Piece) (m k : Nat) (h : ∀ p ∈ ps, p.ix ≠ k) (hm : m.testBit k = false) :
    (ps.foldl (fun m p => m ||| 2 ^ p.ix) m).testBit k = false := by
  induction ps generalizing m with
  | nil => exact hm
  | cons p ps ih =>
    refine ih _ (fun q hq => h q (List.mem_cons_of_mem _ hq)) ?_
    rw [Nat.testBit_or, hm, Nat.testBit_two_pow_of_ne (h p List.mem_cons_self)]; rfl

theorem Piece.ix_inj {p q : Piece} (h : p.ix = q.ix) : p = q := by
  have e : ∀ p : Piece, Piece.all[p.ix]? = some p := by intro p; cases p <;> rfl
  have := e p
  rw [h, e q] at this
  exact (Option.some.inj this).symm

/-- The pieces outside a list that covers the mask stay the same. -/
theorem Frame.keepsBut {m : Nat} {ps : List Piece} {s t : State} (h : Frame m s t) (hps : Within m (maskOf ps)) : keepsBut ps s t := by
  intro p hp
  refine h.same p (bit_of_sub hps ?_)
  exact testBit_maskOf ps _ p.ix (fun q hq e => hp (Piece.ix_inj e ▸ hq)) (by cases p <;> rfl)

end Sys2Proof.Machine
end

