-- ==== Sys2Proof/WellFormed.lean ====
section
/-! DEFINITION. Which commands are well formed: every index names a unit that some variant has, and every operand fits the
wires or the field that it stands for. `exec` gives an ill-formed command no effect on a unit that is not there. -/

namespace Sys2Proof

/-- A hive index. -/
def hiveIx (n : Nat) : Bool := decide (n < 16)

/-- A hive, a channel and a pseudo-channel. -/
def pcIx (n c p : Nat) : Bool := decide (n < 16) && decide (c < 32) && decide (p < 2)

/-- A compute port. -/
def portIx (k : Nat) : Bool := decide (k < 16)

/-- A requester, firmware aside (R317). -/
def masterIx (m : Nat) : Bool := decide (m < 18)

/-- A power domain with a handshake (R80). -/
def domainIx (d : Nat) : Bool := decide (d < 33)

/-- A context (R170). -/
def ctxIx (x : Nat) : Bool := decide (x < 65536)

/-- A host context set. -/
def setIx (h : Nat) : Bool := decide (h < 64)

/-- A cell of a hive, the understudy cell 32 included. -/
def cellIx (n c : Nat) : Bool := decide (n < 16) && decide (c < 33)

/-- A firmware core (R432). -/
def coreIx (i : Nat) : Bool := decide (i < 21)

/-- A payload in 64-byte beats of at most 4 KiB. -/
def beatsIx (d : List Byte) : Bool := decide (d.length ≤ 4096) && d.length % 64 == 0

/-- A parity error, if there is one, strikes in one of the listed places. -/
def strikes (l : List Parity) (p : Parity) : Bool := p == .clean || l.contains p

/-- The command is well formed. -/
def Instr.wf : Instr → Bool
  | .reset _ | .romBoot _ | .coreRelease | .domainSequence | .checkerSelfTest _ | .fill | .portOpening _ _ | .heldEventFlush => true
  | .hiveTraining n _ => hiveIx n
  | .housekeepingRound obs => obs.osc.length == 144 && obs.mon.length == 48 && obs.stack.length == 16
  | .throttleLevelStep g => decide (g < 17)
  | .shutdownRecordWrite | .shutdownRecordClear | .orderlyShutdown | .shutdown => true
  | .pwrAckRise d | .pwrAckFall d | .pwrAckTimeout d | .domainLoss d => domainIx d
  | .pdCIdlePowerDown n | .pdCWake n => hiveIx n
  | .cpLinkDown k | .cpPortReopen k | .cpRd k | .cpWr k _ | .cpActPush k _ | .responseSend k | .curtainWatchdogExpiry k => portIx k
  | .cpHeaderFlit k _ _ | .cpDataFlit k _ _ => portIx k
  | .cpRspCreditReturn k _ _ => portIx k
  | .regulationCheck _ => true
  | .curtainComplete n k _ => hiveIx n && portIx k
  | .gateDraw n _ | .curtainCommit n | .guarFactorRecompute n | .qosMissWindow n => hiveIx n
  | .backoffExpiry n m => hiveIx n && masterIx m
  | .chcCommandIssue n c p _ _ | .refreshInterval n c p | .neighbourRefreshMandatory n c p | .powerDownEntry n c p
  | .selfRefreshEntry n c p | .pseudoChannelWake n c p | .reread n c p _ | .readModifyWrite n c p _ | .recalDeadline n c p
  | .dlyRampStep n c p => pcIx n c p
  | .rowCloseIdle n c p bank => pcIx n c p && decide (bank < 64)
  | .checkCacheParityError n c p i => pcIx n c p && decide (i < 8)
  | .chcCommit n | .modeRegisterRead n _ _ | .modeRegisterWrite n _ | .ceLeak n | .install n _ | .repair n _ _ | .recalRound n _
  | .recalNow n | .jobBeginOnHive n => hiveIx n
  | .laneErasure n c p lane | .laneMove n c p lane _ => pcIx n c p && decide (lane < 36)
  | .remapInstall n c p sid bank row _ => pcIx n c p && decide (sid < 4) && decide (bank < 16) && decide (row < 2 ^ 18)
  | .remapMove n c i _ => hiveIx n && decide (c < 32) && decide (i < 32)
  | .scrubGo | .scrubStop | .scrubRead _ | .scrubRunEnd => true
  | .hpMemRead bar _ len tag => [0, 2, 4].contains bar && decide (len ≤ 4096) && decide (tag < 1024)
  | .hpMemWrite bar _ data _ _ => [0, 2, 4].contains bar && decide (1 ≤ data.length) && decide (data.length ≤ 512)
  | .hpConfigRead off be tag => decide (off < 4096) && decide (be < 16) && decide (tag < 1024)
  | .hpConfigWrite off be _ tag _ => decide (off < 4096) && decide (be < 16) && decide (tag < 1024)
  | .hpUnsupportedRequest _ tag | .hpCompletion tag _ _ _ _ | .hpCompletionTimeout tag => decide (tag < 1024)
  | .tagQuarantineExpiry _ tag | .peerRequestTimeout tag | .relayResend tag => decide (tag < 4096)
  | .functionReset _ => true
  | .msixPendingRelease v => decide (v < 64)
  | .descTail x _ | .cplHead x _ | .heartbeat x _ | .closeComplete x | .resumeCommit x | .descriptorFetch x | .jobStart x => ctxIx x
  | .heartbeatTimeout h | .ctxHbCfgWrite h _ | .ackDrain h _ | .ackDiscard h _ | .drainComplete h => setIx h
  | .ctxOpen | .ctxClose | .ctxResume | .ctxResumeDiscard | .ctxRead | .ctxModify => true
  | .jobNop _ p | .copy _ p | .fillRange _ p | .runCue _ p | .attnStream _ p | .peerReduceSend _ p | .peerReduceGather _ p
  | .broadcast _ p | .gatherApply _ p => strikes [.crossbar, .stage] p
  | .spanSyncComplete _ p => strikes [.sequencer, .results] p
  | .jobDoneReport _ | .jobTimeout _ _ | .completionRecordWrite _ | .auditBatchClose => true
  | .cueNop n p | .cueEnd n p | .cueWait n p | .cueLset n p | .cueLoop n p | .cueAset n p | .cueAmov n p | .cueAadd n p | .cueAmad n p
  | .cueMode n p | .cueScale n p | .cueClrc n p | .cueZrb n p => hiveIx n && strikes [.store, .sequencer] p
  | .cueLdact n p => hiveIx n && strikes [.store, .sequencer, .crossbar] p
  | .cuePass n p | .cueRed n p | .cueGather n p | .cueKstream n p | .cueVstream n p | .smaxStageMax n p | .smaxStageExp n p
  | .smaxStageClose n p => hiveIx n && strikes [.store, .sequencer, .results] p
  | .cueEmit n p => hiveIx n && strikes [.store, .sequencer, .results, .crossbar] p
  | .activationWriteRelease n => hiveIx n
  | .residueFault n cell group column => cellIx n cell && decide (group < 36) && decide (column < 20)
  | .laneTestComplete n cell _ | .cellTakeover n cell _ | .cellRetire n cell | .testStart n cell | .cellSelfTest n cell _ => cellIx n cell
  | .cellParityError n cell kind column => cellIx n cell && decide (2 ≤ kind) && decide (kind ≤ 4) && decide (column < 20)
  | .glbCommit | .arbCommit | .qosTokenReset _ | .winCommit | .peerTimeoutWrite _ | .ppLinkDown | .ppReadyRise => true
  | .peerOutboundRequest m => decide (m < 19)
  | .ppInRd _ _ | .ppInNop _ _ | .orphanExpiry _ | .bcastAck _ | .relayForward => true
  | .ppInWr _ _ data _ _ | .ppInRed _ _ data _ | .ppInBcast _ _ data _ _ | .ppInRelay _ _ data _ | .ppRspIn _ _ data _ => beatsIx data
  | .statusReq _ | .updateBegin _ | .updateChunk _ | .updateEnd _ | .debugChallengeReq _ | .debugResponse _ | .auditFetch _ => true
  | .updateCheckDone | .updateApplyDone _ | .updateVerifyDone _ | .updateLoadDone | .handover _ _ _ | .bootRecordWrite
  | .deferralTimeout => true
  | .mbxReqTailWrite _ | .mbxStatus | .settingsRead | .settingsWrite _ | .updActivate | .updAbort | .eventRead | .intMaskWrite _ => true
  | .coreRestart core reason => coreIx core && decide (1 ≤ reason) && decide (reason ≤ 4)
  | .coreWatchdogExpiry core | .coreRestartDelayExpiry core => coreIx core
  | .advance target _ => decide (target < 8)
  | .lcsResume _ | .raiseFloor _ | .dbgClose => true
  | .revoke slot _ => decide (slot < 8)
  | .pmcClear | .pmcCountUpdate | .bwWindowEnd | .pmcBwCfgWrite _ => true
  | .pmcSmpEnable n _ | .sampleRecordWrite n => hiveIx n
  | .registerWrite off _ => decide (off < 2 ^ 24) && off % 4 == 0
  | .ppCreditReturn _ _ _ _ | .mbxEvtHeadWrite _ | .jtgAccess _ _ => true

end Sys2Proof
end

