-- ==== Sys2Proof/Tests/Slice0.lean ====
section
/-! SUPPORT. Tests on fixed values: for each clause of the statements that has premises, a state and operands that meet them all
(`wit_…`); an ill-formed command for each check of well-formedness; and a few single steps whose results the rules give. -/

namespace Sys2Proof.Tests

set_option Elab.async false
set_option linter.unusedVariables false

open Sys2Proof Sys2Proof.Machine Sys2Proof.Machine.Reg

/-! ### Test machines -/

/-- Straps of a test machine. -/
def straps : Env := ⟨.mls1600, 100, 0x123, 0x10EE, 1, 2, 3, 64⟩

/-- A test machine just after reset, with known straps. -/
def fresh : State := State.blank straps

/-- The test machine with some fields set. -/
def withRegs (l : List (Fld × Nat)) : State := putAll l fresh

/-- Every domain is on, every core READY and hive 0 holds a trained stack of 16 GiB with sixteen-bit rows. -/
def liveRegs : List (Fld × Nat) :=
  [(GLB_STATUS.PHASE, 5), (GLB_STATUS.PORTS_OPEN, 1), (FWM_CORE_READY.CORES, 2 ^ 21 - 1), (GLB_MEM_TOP.TOP, 0x4000),
    (PWR_DOM_0.H_ON, 0xFFFF), (PWR_DOM_0.C_ON, 0xFFFF), (PWR_DOM_1.FAB_ON, 1), (CHC_HIVE_CFG.GEN 0, 3), (CHC_HIVE_CFG.NSID 0, 0),
    (GLB_ISET.HIVES 0, 1), (GLB_ISET.VALID 0, 1), (GLB_ISET_SIZE.SIZE 0, 0x4000), (GLB_HIVE_CAP.CAP 0, 0x4000), (GLB_HIVE_CAP.GEN 0, 3)]

/-- The test machine at work, with further fields set. -/
def live (l : List (Fld × Nat)) : State :=
  let s := withRegs (liveRegs ++ l)
  { s with power := { s.power with req := 2 ^ 33 - 1, ack := 2 ^ 33 - 1, started := true }, fw := { s.fw with stage := 2 },
           host := { s.host with ready := true } }

/-! ### Reset and start-up -/

/-- The test machine in a phase of its start, with every domain on. -/
def starting (ph : Nat) (l : List (Fld × Nat)) : State :=
  { live ((GLB_STATUS.PHASE, ph) :: (GLB_STATUS.PORTS_OPEN, 0) :: l) with rounds := 1 }

theorem wit_coreRelease : ∃ s : State, s.fw.stage = 1 ∧ rd GLB_STATUS.PHASE s = 0 ∧ s.ctxHeld = none :=
  ⟨{ fresh with fw := { fresh.fw with stage := 1 } }, by decide +kernel⟩

theorem wit_domainSequence : ∃ s : State, s.power.started = false ∧ rd GLB_STATUS.PHASE s = 1 ∧ stopped s = false ∧ s.power.req = 0 ∧ s.power.ack = 0 ∧ s.power.gone = 0 :=
  ⟨withRegs [(GLB_STATUS.PHASE, 1)], by decide +kernel⟩

/-- What a stack answers when every lane trains. -/
def goodStack : TrainObs := ⟨true, 3, 1, 14, [], none, 0, [], [], [], [], []⟩

/-- The centred result of a lane. -/
def centred (c p l : Nat) : LaneObs := ⟨c, p, l, 256, 256, 64, 0, 256, 256, 64, 0⟩

theorem goodStack_lane (gen c p l : Nat) (pcs : List (Nat × Nat)) : laneObs (resultsAt gen goodStack pcs) c p l = centred c p l := by
  unfold laneObs
  cases h : (resultsAt gen goodStack pcs).find? (fun o => o.ch == c && o.pc == p && o.lane == l) with
  | none => rfl
  | some o =>
    have h1 := List.mem_of_find?_eq_some h
    have h2 := List.find?_some h
    unfold resultsAt at h1
    obtain ⟨x, _, h3⟩ := List.mem_flatMap.mp h1
    obtain ⟨m, _, h4⟩ := List.mem_map.mp h3
    have h5 : o = centred x.1 x.2 m := h4.symm
    subst h5
    simp only [centred, Bool.and_eq_true, beq_iff_eq] at h2
    obtain ⟨⟨h6, h7⟩, h8⟩ := h2
    subst h6 h7 h8
    rfl

theorem low_centred (f : LaneObs → Nat) (l : List LaneObs) (k : Nat) (hk : 256 ≤ k) (h : ∀ o ∈ l, f o = 256) : 256 ≤ l.foldl (fun m x => min m (f x)) k := by
  induction l generalizing k with
  | nil => exact hk
  | cons o l ih =>
    refine ih _ ?_ fun x hx => h x (List.mem_cons_of_mem _ hx)
    show 256 ≤ min k (f o)
    rw [h o (List.mem_cons_self ..)]
    omega

theorem goodStack_loses_none (n : Nat) (s : State) (h : (hive n s).phy.eyeMin ≤ 64) : lanesLost n goodStack s = [] := by
  have eye : ∀ c p l, eyeOk n (centred c p l) s = true := by intro c p l; simp [eyeOk, centred, h]
  have low : ∀ gen pcs c p i, 256 ≤ (halfLow n gen (resultsAt gen goodStack pcs) c p i s).1 ∧ 256 ≤ (halfLow n gen (resultsAt gen goodStack pcs) c p i s).2 := by
    intro gen pcs c p i
    have all : ∀ o ∈ ((halfLanes gen i).map fun l => laneObs (resultsAt gen goodStack pcs) c p l).filter fun o => eyeOk n o s, o.rx1 = 256 ∧ o.tx1 = 256 := by
      intro o ho
      obtain ⟨l, _, e⟩ := List.mem_map.mp (List.mem_filter.mp ho).1
      rw [goodStack_lane] at e
      subst e
      exact ⟨rfl, rfl⟩
    exact ⟨low_centred (fun o => o.rx1) _ 511 (by decide) fun o ho => (all o ho).1, low_centred (fun o => o.tx1) _ 511 (by decide) fun o ho => (all o ho).2⟩
  have bad : ∀ gen pcs c p, badLanes n gen (resultsAt gen goodStack pcs) c p s = [] := by
    intro gen pcs c p
    unfold badLanes
    rw [List.filter_eq_nil_iff]
    intro l _
    have h0 := low gen pcs c p 0
    have h1 := low gen pcs c p 1
    dsimp only
    rw [goodStack_lane, eye]
    have c1 : (centred c p l).rx1 = 256 := rfl
    have c2 : (centred c p l).tx1 = 256 := rfl
    rw [c1, c2]
    simp only [Bool.not_true, Bool.false_or, Bool.or_eq_true, decide_eq_true_eq]
    split <;> omega
  unfold lanesLost
  dsimp only
  rw [List.filter_eq_nil_iff]
  intro x _
  rw [bad]
  simp [canSpare]

theorem wit_hiveTraining : ∃ (n : Nat) (obs : TrainObs) (s : State), trainDue n s = true ∧ hOn n s = true ∧ obs.answers = true ∧ knownStack obs = true ∧
    obs.failStep = 0 ∧ lanesLost n obs (trainIdentity n obs (takePhy n (put GLB_STATUS.PHASE 2 s))) = [] :=
  ⟨0, goodStack, starting 1 [], by decide +kernel, by decide +kernel, rfl, by decide +kernel, rfl, goodStack_loses_none _ _ (by decide +kernel)⟩

theorem wit_checkerSelfTest : ∃ s : State, rd GLB_STATUS.PHASE s = 2 ∧ trainingEnded s = true :=
  ⟨starting 2 ((List.range 16).map fun n => (PHY_TRAIN_SUMMARY.VALID n, 1)), by decide +kernel⟩

theorem wit_fill : ∃ s : State, rd GLB_STATUS.PHASE s = 3 := ⟨starting 3 [], by decide +kernel⟩

theorem wit_portOpening : ∃ s : State, rd GLB_STATUS.PHASE s = 4 ∧ s.fw.opening = false ∧ coreReady 0 s = true ∧
    fwReserve (layMap { s with fw := { s.fw with opening := true } }) < rd GLB_MEM_TOP.TOP (layMap { s with fw := { s.fw with opening := true } }) :=
  ⟨starting 4 [], by decide +kernel⟩

theorem wit_heldEventFlush : ∃ s : State, evQueueReady s = true :=
  ⟨{ live [(FWM_MBX_EVT_CFG.EN, 1)] with host := { (live []).host with cfg := [(0x04, 6)] } }, by decide +kernel⟩


/-! ### Power and temperature -/

/-- A flash whose first shutdown record slot is pending. -/
def pendingFlash : AMap Byte := [(slotAddr 0, 0x3F)]

/-- The test machine with the cells of hive 0 off and a job placed on it. -/
def cellsOff : State :=
  let s := live [(PWR_DOM_0.C_ON, 0xFFFE)]
  { s with power := { s.power with req := 2 ^ 33 - 1 - 2 ^ 16, ack := 2 ^ 33 - 1 - 2 ^ 16 },
           hives := [(0, { Hive.init with placed := [1] })] }

theorem wit_throttleLevelStep : ∃ (g : Nat) (s : State),
    g ≤ 16 ∧
    (g < 16 → hOn g s = true) ∧
    emergHolds g s = false ∧
    stepEnds g s = true ∧
    levelOf g s < 8 ∧
    floorOf g s < 8 :=
  ⟨0, { live [(HIV_THM_STATE.STATE 0, 2)] with rounds := 10000 }, by decide +kernel⟩

theorem wit_shutdownRecordWrite : ∃ (r : ShutRec) (s : State),
    s.thermal.due = some r ∧
    flashOk s = true ∧
    coreReady 1 s = true ∧
    pendingSlot s = none ∧
    freeSlots (eraseShut s) ≠ [] :=
  ⟨⟨0, 440, 0⟩, { live [(THM_STATE.HOTTEST, 400)] with thermal := { fresh.thermal with due := some ⟨0, 440, 0⟩ } }, by decide +kernel⟩

theorem wit_shutdownRecordClear : ∃ (i : Nat) (s : State),
    pendingSlot s = some i ∧
    100 ≤ s.thermal.recClean ∧
    flashOk s = true ∧
    coreReady 1 s = true :=
  ⟨0, { live [(THM_STATE.HOTTEST, 400)] with flash := pendingFlash, thermal := { fresh.thermal with recClean := 100 } }, by decide +kernel⟩

theorem wit_orderlyShutdown : ∃ (sh : Shut) (s : State),
    s.power.shut = some sh ∧
    sh.step = 1 :=
  ⟨⟨false, true, 1, 0⟩, { live [] with power := { (live []).power with shut := some ⟨false, true, 1, 0⟩ } }, by decide +kernel⟩

theorem wit_shutdown : ∃ (s : State),
    s.power.shut = none ∧
    rd GLB_STATUS.PHASE s ≠ 7 :=
  ⟨live [], by decide +kernel⟩

theorem wit_pwrAckRise : ∃ (d : Nat) (s : State),
    d ≤ 32 ∧
    s.power.req.testBit d = true ∧
    s.power.ack.testBit d = false :=
  ⟨32, { fresh with power := { fresh.power with req := 2 ^ 32 } }, by decide +kernel⟩

theorem wit_pwrAckFall : ∃ (d : Nat) (s : State),
    d ≤ 32 ∧
    s.power.ack.testBit d = true ∧
    s.power.req.testBit d = false :=
  ⟨32, { fresh with power := { fresh.power with ack := 2 ^ 32 } }, by decide +kernel⟩

theorem wit_pwrAckTimeout : ∃ (d : Nat) (s : State),
    d ≤ 32 ∧
    s.power.req.testBit d ≠ s.power.ack.testBit d ∧
    s.power.timed.testBit d = false ∧
    s.power.lost.testBit d = false ∧
    d ∉ s.power.todo :=
  ⟨32, { fresh with power := { fresh.power with req := 2 ^ 32 } }, by decide +kernel⟩

theorem wit_domainLoss : ∃ (d : Nat) (s : State),
    d ≤ 32 ∧
    s.power.req.testBit d = true ∧
    s.power.ack.testBit d = true :=
  ⟨3, live [], by decide +kernel⟩

theorem wit_pdCIdlePowerDown : ∃ (n : Nat) (s : State),
    cOn n s = true ∧
    on (CEL_HIVE_CFG.GATE_EN n) s = true ∧
    on (CEL_HIVE_CFG.IDLE_US n) s = true ∧
    (hive n s).placed = [] ∧
    (hive n s).cue = none ∧
    (hive n s).held = [] ∧
    s.power.req.testBit (16 + n) = true ∧
    s.power.ack.testBit (16 + n) = true ∧
    n < 16 :=
  ⟨15, live [(CEL_HIVE_CFG.GATE_EN 15, 1), (CEL_HIVE_CFG.IDLE_US 15, 5)], by decide +kernel⟩

theorem wit_pdCWake : ∃ (n : Nat) (s : State),
    n < 16 ∧
    cOn n s = false ∧
    ((hive n s).placed ≠ [] ∨ pushWaits n s = true) ∧
    requiredOn (16 + n) s = true ∧
    stopped s = false ∧
    s.power.gone.testBit (16 + n) = false ∧
    s.power.ack.testBit (16 + n) = false :=
  ⟨0, cellsOff, by decide +kernel⟩

/-! ### Ports and gates -/

/-- A context of CP_0, of class 5 and domain 1, and one of HP, of set 2. -/
def ctxCp : Ctx := { Ctx.init with state := .opened, words := [0x4A0, 0x84, 100, 0, 0x10000, 0, 0x20000, 0] }
def ctxHp : Ctx := { Ctx.init with state := .opened, words := [0x40000 + 0x4B0, 0x884, 100, 0, 0x10000, 0, 0x20000, 0] }

/-- An open port. -/
def openP : Port := { Port.init with linkUp := true, ready := true, reqHdr := 256, reqData := 512, rspHdr := 8, rspData := 8 }

/-- The test machine with port 0 in a state of its own and context 7 open at it. -/
def atPort (p : Port) : State := { live [] with ports := [(0, p)], ctxs := [(7, ctxCp)] }

/-- A request of one beat of context 7 at CP_0. -/
def req (op : Op) : Req := ⟨1, 0, .cp 0, op, 5, 1, 0, 7, 0x1000, 2 ^ 64 - 1, false, [], 0, false, 0, 0, false, 0, 0, 0⟩

/-- A part of request 1 at the gate of hive 0: one write beat of channel 0. -/
def partW : Part := ⟨1, 0, 0, true, .wr, [⟨0, 0, 0, 0x1000⟩], 0, false, false, false, 0, none, 0⟩

/-- A request in flight. -/
def liveReq (curt : Nat) : Live := ⟨{ req .wr with curt := curt, data := [7] }, [partW], 1, [], 0, false, false⟩

/-- The test machine with one request in flight and a gate at hive 0. -/
def atGate (g : Gate) (curt : Nat) : State := { live [] with gates := [(0, g)], live := [(1, liveReq curt)], ctxs := [(7, ctxCp)], ports := [(0, openP)] }

/-- An empty gate. -/
def idleGate : Gate := gate 0 fresh

theorem wit_cpPortReopen : ∃ (k : Nat) (s : State),
    k < 16 ∧
    portsOpen s = true ∧
    undrained k s = false ∧
    (port k s).ready = false ∧
    (port k s).parityClosed = false :=
  ⟨15, live [], by decide +kernel⟩

theorem wit_cpHeaderFlit : ∃ (k : Nat) (flit : BitVec 2048) (w : BitVec 256) (s : State),
    flitSlots flit = w :: List.replicate 7 0 ∧
    (port k s).ready = true ∧
    0 < (port k s).reqHdr ∧
    1 ≤ slotF w 0 4 ∧
    slotF w 0 4 ≤ 3 ∧
    (port k s).tags.contains (slotF w 8 12) = false :=
  ⟨0, 0x501, 0x501, atPort openP, by decide +kernel⟩

theorem wit_cpRd : ∃ (k : Nat) (r : Req) (rest : List Req) (s : State),
    (port k s).rx = r :: rest ∧
    r.op = .rd ∧
    k < 16 ∧
    formatAt k r s = 0 ∧
    openOn r.ctx k s = true ∧
    r.curt = 0 ∧
    (∀ x ∈ (port k s).ing ++ [r], x.parityBad = false) :=
  ⟨0, req .rd, [], atPort { openP with rx := [req .rd] }, by decide +kernel⟩

theorem wit_cpWr : ∃ (k : Nat) (r : Req) (rest : List Req) (s : State),
    (port k s).rx = r :: rest ∧
    r.op = .wr ∧
    k < 16 ∧
    formatAt k r s = 0 ∧
    openOn r.ctx k s = true ∧
    r.curt = 0 ∧
    (∀ x ∈ (port k s).ing ++ [r], x.parityBad = false) :=
  ⟨0, req .wr, [], atPort { openP with rx := [req .wr] }, by decide +kernel⟩

theorem wit_cpActPush : ∃ (k : Nat) (r : Req) (rest : List Req) (s : State),
    (port k s).rx = r :: rest ∧
    r.op = .push ∧
    k < 16 ∧
    formatAt k r s = 0 ∧
    openOn r.ctx k s = true ∧
    r.curt = 0 ∧
    (∀ x ∈ (port k s).ing ++ [r], x.parityBad = false) :=
  ⟨0, req .push, [], atPort { openP with rx := [req .push] }, by decide +kernel⟩

theorem wit_cpDataFlit : ∃ (k : Nat) (flit : BitVec 2048) (o : Owed) (os : List Owed) (u : Nat) (s : State),
    (port k s).ready = true ∧
    0 < (port k s).reqData ∧
    (port k s).owed = o :: os ∧
    o.owner = some u ∧
    (∀ x ∈ (port k s).ing, x.parityBad = false) :=
  ⟨0, 0x1234, ⟨some 1, 8, false⟩, [], 1, atPort { openP with owed := [⟨some 1, 8, false⟩], ing := [{ req .wr with beats := 8, need := 8 }] }, by decide +kernel⟩

theorem wit_cpRspCreditReturn : ∃ (k : Nat) (hdr : Nat) (data : Nat) (s : State),
    (port k s).ready = true :=
  ⟨0, 3, 4, atPort openP, by decide +kernel⟩

theorem wit_responseSend : ∃ (k : Nat) (e : Egr) (rest : List Egr) (s : State),
    takeSendable (port k s).rspHdr (port k s).rspData [] (port k s).egress = some (e, rest) :=
  ⟨0, .hdr rtWrAck 5 0 0 0 true, [], atPort { openP with egress := [.hdr rtWrAck 5 0 0 0 true] }, by decide +kernel⟩

theorem wit_curtainComplete : ∃ (n : Nat) (k : Nat) (st : Stage) (s : State),
    mfind (gate n s).stage k = some st ∧
    st.complete = false ∧
    (st.parts.any fun a => (mfind s.live a.uid).any fun l => l.req.curt == 3 || l.req.curt == 4) = true :=
  ⟨0, 0, ⟨9, [partW], false⟩, atGate { idleGate with stage := [(0, ⟨9, [partW], false⟩)] } 3, by decide +kernel⟩

theorem wit_curtainWatchdogExpiry : ∃ (k : Nat) (x : Nat × Gate) (st : Stage) (s : State),
    x ∈ s.gates ∧
    mfind x.2.stage k = some st ∧
    st.complete = false :=
  ⟨0, (0, { idleGate with stage := [(0, ⟨9, [partW], false⟩)] }), ⟨9, [partW], false⟩, atGate { idleGate with stage := [(0, ⟨9, [partW], false⟩)] } 3, by decide +kernel⟩

theorem wit_backoffExpiry : ∃ (n : Nat) (m : Nat) (c : Nat) (s : State),
    mfind (gate n s).backoff m = some c :=
  ⟨0, 3, 5, atGate { idleGate with backoff := [(3, 5)] } 0, by decide +kernel⟩

theorem wit_curtainCommit : ∃ (n : Nat) (l : Lock) (s : State),
    (gate n s).lock = some l :=
  ⟨0, ⟨0, 9, [], [], []⟩, atGate { idleGate with lock := some ⟨0, 9, [], [], []⟩ } 0, by decide +kernel⟩

theorem wit_gateDraw : ∃ (n : Nat) (urg : BitVec 32) (a : Part) (s : State),
    n < 16 ∧
    hOn n s = true ∧
    (mfind s.gates n).isSome = true ∧
    (gate n s).parts = [a] ∧
    (gate n s).chosen = [] ∧
    (gate n s).skip = false ∧
    a.m < 18 ∧
    eligible n (gate n s) [] a s = true :=
  ⟨0, 0, partW, { atGate { idleGate with parts := [partW] } 0 with pcs := [(0, { Pc.init with st := .active })] }, by decide +kernel⟩

/-! ### Channels and code -/

/-- The test machine with a state of pseudo-channel 0 of channel 0 of hive 0, and further fields set. -/
def atPcWith (l : List (Fld × Nat)) (q : Pc) : State := { live ((CHC_HIVE_CFG.ROWBITS 0, 14) :: l) with pcs := [(0, q)] }
def atPc (q : Pc) : State := atPcWith [] q

/-- A pseudo-channel that owes no refresh, with row 0 of bank 0 open or not. -/
def calm : Pc := { Pc.init with st := .active, owed := -8 }
def opened : Pc := { calm with banks := [(0, { Bank.init with openRow := some 0 })] }

/-- A queue entry of offset 0. -/
def ent : QEnt := QEnt.plain 0 1 0 0 0 false none

/-- Five symbols in error, more than the code corrects. -/
def fiveErrs : ErrPat := [(0, 1), (1, 1), (2, 1), (3, 1), (4, 1)]

/-- A re-read of that entry that has issued, for a read of a port. -/
def again (tries : Nat) : Retry := ⟨ent, 1, tries, true, 0⟩
/-- A write of two bytes whose block is read first. -/
def partEnt : QEnt := { ent with data := some 0xFFFF, mask := some 3, asked := true }

theorem wit_issueRead : ∃ (n : Nat) (c : Nat) (p : Nat) (k : Nat) (o : POp) (e : QEnt) (errs : ErrPat) (left : ErrPat) (s : State) (u : State),
    pcUsed n c p s = true ∧
    (pcOf n c p s).st = .active ∧
    u = beginCclk n c p s ∧
    (pcOf n c p u).hold ≤ (pcOf n c p u).cclk ∧
    rowPick n c p u = none ∧
    colPick n c p u = some (.col o) ∧
    o.kind = .read k ∧
    (pcOf n c p (chargeShare n c p u)).rdq.find? (fun x => x.seq == k) = some e ∧
    isMarked n c e.off s = false ∧
    decodeErr errs (erasedSymbols n c p s) = .clean left :=
  ⟨0, 0, 0, 0, ⟨3, 0, 0, 0, 0, .read 0⟩, ent, [], [], atPc { opened with rdq := [ent] }, beginCclk 0 0 0 (atPc { opened with rdq := [ent] }), by decide +kernel⟩

theorem wit_issueStream : ∃ (n : Nat) (c : Nat) (p : Nat) (k : Nat) (o : POp) (e : QEnt) (errs : ErrPat) (left : ErrPat) (s : State) (u : State),
    pcUsed n c p s = true ∧
    (pcOf n c p s).st = .active ∧
    u = beginCclk n c p s ∧
    (pcOf n c p u).hold ≤ (pcOf n c p u).cclk ∧
    rowPick n c p u = none ∧
    colPick n c p u = some (.col o) ∧
    o.kind = .stream k ∧
    (pcOf n c p (chargeShare n c p u)).strq.find? (fun x => x.seq == k) = some e ∧
    isMarked n c e.off s = false ∧
    decodeErr errs (erasedSymbols n c p s) = .clean left :=
  ⟨0, 0, 0, 0, ⟨3, 0, 0, 0, 0, .stream 0⟩, ent, [], [], atPc { opened with strq := [ent] }, beginCclk 0 0 0 (atPc { opened with strq := [ent] }), by decide +kernel⟩

theorem wit_issueWrite : ∃ (n : Nat) (c : Nat) (p : Nat) (k : Nat) (o : POp) (e : QEnt) (d : Beat) (errs : ErrPat) (s : State) (u : State),
    pcUsed n c p s = true ∧
    (pcOf n c p s).st = .active ∧
    u = beginCclk n c p s ∧
    (pcOf n c p u).hold ≤ (pcOf n c p u).cclk ∧
    rowPick n c p u = none ∧
    colPick n c p u = some (.col o) ∧
    o.kind = .write k ∧
    (pcOf n c p (chargeShare n c p u)).wrq.find? (fun x => x.seq == k) = some e ∧
    e.applied = false ∧
    e.data = some d :=
  ⟨0, 0, 0, 0, ⟨4, 0, 0, 0, 0, .write 0⟩, { ent with data := some 7 }, 7, [], atPc { opened with wrq := [{ ent with data := some 7 }] }, beginCclk 0 0 0 (atPc { opened with wrq := [{ ent with data := some 7 }] }), by decide +kernel⟩

theorem wit_issueWriteLost : ∃ (n : Nat) (c : Nat) (p : Nat) (k : Nat) (o : POp) (e : QEnt) (errs : ErrPat) (s : State) (u : State),
    pcUsed n c p s = true ∧
    (pcOf n c p s).st = .active ∧
    u = beginCclk n c p s ∧
    (pcOf n c p u).hold ≤ (pcOf n c p u).cclk ∧
    rowPick n c p u = none ∧
    colPick n c p u = some (.col o) ∧
    o.kind = .write k ∧
    (pcOf n c p (chargeShare n c p u)).wrq.find? (fun x => x.seq == k) = some e :=
  ⟨0, 0, 0, 0, ⟨4, 0, 0, 0, 0, .write 0⟩, { ent with data := some 7 }, [], atPc { opened with wrq := [{ ent with data := some 7 }] }, beginCclk 0 0 0 (atPc { opened with wrq := [{ ent with data := some 7 }] }), by decide +kernel⟩

theorem wit_issueAct : ∃ (n : Nat) (c : Nat) (p : Nat) (k : Nat) (o : POp) (s : State) (u : State),
    pcUsed n c p s = true ∧
    (pcOf n c p s).st = .active ∧
    u = beginCclk n c p s ∧
    (pcOf n c p u).hold ≤ (pcOf n c p u).cclk ∧
    rowPick n c p u = some (.act o) ∧
    colPick n c p u = none ∧
    o.kind = .read k :=
  ⟨0, 0, 0, 0, ⟨3, 0, 0, 0, 0, .read 0⟩, atPc { calm with rdq := [ent] }, beginCclk 0 0 0 (atPc { calm with rdq := [ent] }), by decide +kernel⟩

theorem wit_quiesceEnds : ∃ (n : Nat) (c : Nat) (p : Nat) (errs : ErrPat) (parityError : Bool) (s : State),
    pcUsed n c p s = true ∧
    (pcOf n c p s).st = .quiesced ∧
    (pcOf n c p s).hold ≤ (pcOf n c p s).cclk + 1 ∧
    on (CHC_HIVE_STATUS.COMMIT_PENDING n) s = true :=
  ⟨0, 0, 0, [], false, atPcWith [(CHC_HIVE_STATUS.COMMIT_PENDING 0, 1), (CHC_MR_CMD.BUSY 0, 1)] { calm with st := .quiesced }, by decide +kernel⟩

theorem wit_refreshInterval : ∃ (n : Nat) (c : Nat) (p : Nat) (s : State),
    pcUsed n c p s = true ∧
    (pcOf n c p s).st ≠ .off ∧
    (pcOf n c p s).st ≠ .selfRefresh ∧
    ((pcOf n c p s).st = .powerDown → (pcOf n c p s).owed + 1 < postpone n s) :=
  ⟨0, 0, 0, atPc calm, by decide +kernel⟩

theorem wit_neighbourRefreshMandatory : ∃ (n : Nat) (c : Nat) (p : Nat) (a : Nat) (b : Nat) (r : Nat) (st : Nat) (ms : List Maint) (s : State),
    (pcOf n c p s).maint = .neighbour a b r st false :: ms :=
  ⟨0, 0, 0, 1, 2, 30, 0, [], atPc { calm with maint := [.neighbour 1 2 30 0 false] }, by decide +kernel⟩

theorem wit_rowCloseIdle : ∃ (n : Nat) (c : Nat) (p : Nat) (bank : Nat) (r : Nat) (s : State),
    (mgetD (pcOf n c p s).banks bank Bank.init).openRow = some r ∧
    pcUsed n c p s = true ∧
    hitQueued n c bank r (pcOf n c p s) s = false ∧
    (mgetD (pcOf n c p s).banks bank Bank.init).lastHit + rd (CHC_ARB.CLOSE_IDLE n) s ≤ (pcOf n c p s).cclk ∧
    (mgetD (pcOf n c p s).banks bank Bank.init).preAt ≤ (pcOf n c p s).cclk :=
  ⟨0, 0, 0, 0, 0, atPc { opened with cclk := 1000 }, by decide +kernel⟩

theorem wit_powerDownEntry : ∃ (n : Nat) (c : Nat) (p : Nat) (s : State),
    pcUsed n c p s = true ∧
    (pcOf n c p s).st = .active ∧
    pcIdle n (pcOf n c p s) s = true ∧
    rd (CHC_PD_TIMER.CCLK n) s ≠ 0 :=
  ⟨0, 0, 0, atPcWith [(CHC_PD_TIMER.CCLK 0, 10)] calm, by decide +kernel⟩

theorem wit_selfRefreshEntry : ∃ (n : Nat) (c : Nat) (p : Nat) (s : State),
    pcUsed n c p s = true ∧
    (pcOf n c p s).st = .powerDown ∧
    rd (CHC_SR_TIMER.US n) s ≠ 0 :=
  ⟨0, 0, 0, atPcWith [(CHC_SR_TIMER.US 0, 10)] { calm with st := .powerDown, cache := [⟨0, 0, 0, true, 0, 0⟩] }, by decide +kernel⟩

theorem wit_pseudoChannelWake : ∃ (n : Nat) (c : Nat) (p : Nat) (s : State),
    pcUsed n c p s = true ∧
    stacksDown s = false ∧
    (pcOf n c p s).st = .selfRefresh :=
  ⟨0, 0, 0, atPc { calm with st := .selfRefresh }, by decide +kernel⟩

theorem wit_checkCacheParityError : ∃ (n : Nat) (c : Nat) (p : Nat) (i : Nat) (e : CheckRow) (s : State),
    pcUsed n c p s = true ∧
    (pcOf n c p s).cache[i]? = some e ∧
    e.dirty = true :=
  ⟨0, 0, 0, 0, ⟨0, 0, 0, true, 0, 0⟩, atPc { calm with cache := [⟨0, 0, 0, true, 0, 0⟩] }, by decide +kernel⟩

theorem wit_chcCommit : ∃ (n : Nat) (s : State),
    hOn n s = true ∧
    n < 16 :=
  ⟨15, live [], by decide +kernel⟩

theorem wit_modeRegisterRead : ∃ (n : Nat) (value : Byte) (s : State),
    hOn n s = true ∧
    n < 16 ∧
    on (CHC_MR_CMD.BUSY n) s = false ∧
    mrChannels n (mrStart 0 n s) ≠ [] :=
  ⟨0, 0x5A, live [], by decide +kernel⟩

theorem wit_modeRegisterWrite : ∃ (n : Nat) (s : State),
    hOn n s = true ∧
    n < 16 ∧
    on (CHC_MR_CMD.BUSY n) s = false ∧
    factoryState s = true :=
  ⟨0, live [], by decide +kernel⟩

theorem wit_reread : ∃ (n : Nat) (c : Nat) (p : Nat) (r : Retry) (errs : ErrPat) (s : State),
    pcUsed n c p s = true ∧
    ((pcOf n c p s).retries.find? fun x => x.asked || !mayReread n (pcOf n c p s) x s) = some r ∧
    r.asked = true ∧
    mayReread n (pcOf n c p s) r s = true ∧
    decodeErr errs (erasedSymbols n c p s) = .uncorrectable :=
  ⟨0, 0, 0, again 1, fiveErrs, atPc { calm with retries := [again 1] }, by decide +kernel⟩

theorem wit_readModifyWrite : ∃ (n : Nat) (c : Nat) (p : Nat) (e : QEnt) (errs : ErrPat) (left : ErrPat) (s : State),
    pcUsed n c p s = true ∧
    ((pcOf n c p s).wrq.find? fun e => e.mask.isSome && e.asked && !(pcOf n c p s).retries.any fun r => r.ent.seq == e.seq) = some e ∧
    isMarked n c e.off s = false ∧
    decodeErr errs (erasedSymbols n c p s) = .clean left :=
  ⟨0, 0, 0, partEnt, [], [], atPc { calm with wrq := [partEnt] }, by decide +kernel⟩

theorem wit_ceLeak : ∃ (n : Nat) (s : State),
    hOn n s = true ∧
    on (ECC_CE_LEAK.LEAK_US n) s = true :=
  ⟨0, live [(ECC_CE_LEAK.LEAK_US 0, 5), (ECC_CE_BUCKET.LEVEL 0, 3)], by decide +kernel⟩

theorem wit_laneErasure : ∃ (n : Nat) (c : Nat) (p : Nat) (lane : Nat) (i : Nat) (s : State),
    pcUsed n c p s = true ∧
    keeperReady n s = true ∧
    rd (ECC_LOCAL_CFG.ERASE_THR n) s ≠ 0 ∧
    rd (ECC_LOCAL_CFG.ERASE_THR n) s ≤ mgetD (pcOf n c p s).laneCnt lane 0 ∧
    (erasedLanes n c p s).contains lane = false ∧
    (List.range 4).find? (fun i => !on (eraseFld n c p i).2 s) = some i :=
  ⟨0, 0, 0, 7, 0, atPcWith [(ECC_LOCAL_CFG.ERASE_THR 0, 4)] { calm with laneCnt := [(7, 4)] }, by decide +kernel⟩

theorem wit_remapInstall : ∃ (n : Nat) (c : Nat) (p : Nat) (sid : Nat) (bank : Nat) (row : Nat) (i : Nat) (s : State),
    pcUsed n c p s = true ∧
    keeperReady n s = true ∧
    badRow n c sid row s = false ∧
    bank < 16 ∧
    remapHit n c p sid bank row s = none ∧
    rowFails (on (ECC_LOCAL_CFG.AUTO_REMAP n) s) n c p (placedKey n sid bank row s) s = true ∧
    freeEntry n c s = some i :=
  ⟨0, 0, 0, 0, 2, 3, 0, atPcWith [(ECC_LOCAL_CFG.ROW_CE_THR 0, 4)] { calm with rowCe := [(2 * 2 ^ 18 + 3, 4)] }, by decide +kernel⟩

theorem wit_install : ∃ (n : Nat) (i : Nat) (s : State),
    hOn n s = true ∧
    n < 16 ∧
    keeperReady n s = true ∧
    on (ECC_RMP_CMD.BUSY n) s = false ∧
    badRow n (rd (ECC_RMP_ADDR.CH n) s) (rd (ECC_RMP_ADDR.SID n) s) (rd (ECC_RMP_ADDR.ROW n) s) s = false ∧
    ((setsInUse s).any fun i => (setHives i s).contains n) = true ∧
    remapHit n (rd (ECC_RMP_ADDR.CH n) s) (rd (ECC_RMP_ADDR.PC n) s) (rd (ECC_RMP_ADDR.SID n) s) (rd (ECC_RMP_ADDR.BANK n) s) (rd (ECC_RMP_ADDR.ROW n) s) s = none ∧
    freeEntry n (rd (ECC_RMP_ADDR.CH n) s) s = some i :=
  ⟨0, 0, atPcWith [(ECC_RMP_ADDR.ROW 0, 3)] calm, by decide +kernel⟩

theorem wit_repair : ∃ (n : Nat) (i : Nat) (errs : List (Nat × ErrPat)) (s : State),
    hOn n s = true ∧
    n < 16 ∧
    keeperReady n s = true ∧
    on (ECC_RMP_CMD.BUSY n) s = false ∧
    factoryState s = true ∧
    ((mfind s.thermal.stack n).any fun t => decide (t ≤ 85)) = true ∧
    badRow n (rd (ECC_RMP_ADDR.CH n) s) (rd (ECC_RMP_ADDR.SID n) s) (rd (ECC_RMP_ADDR.ROW n) s) s = false ∧
    remapHit n (rd (ECC_RMP_ADDR.CH n) s) (rd (ECC_RMP_ADDR.PC n) s) (rd (ECC_RMP_ADDR.SID n) s) (rd (ECC_RMP_ADDR.BANK n) s) (rd (ECC_RMP_ADDR.ROW n) s) s = some i :=
  ⟨0, 0, [], { atPcWith [(ECC_RMP_ADDR.ROW 0, 3), (ECC_RMP_ROW.VALID 0 0 0, 1), (ECC_RMP_ROW.ROW 0 0 0, 3)] calm with thermal := { fresh.thermal with stack := [(0, 80)] }, remapLog := [[0, 0, 0, 0, 0, 0, 3]] }, by decide +kernel⟩

theorem wit_remapMove : ∃ (n : Nat) (c : Nat) (i : Nat) (j : Nat) (s : State),
    pcUsed n c (rd (ECC_RMP_ROW.PC n c i) s) s = true ∧
    i < 32 ∧
    keeperReady n s = true ∧
    on (ECC_RMP_ROW.VALID n c i) s = true ∧
    rowFails true n c (rd (ECC_RMP_ROW.PC n c i) s) (placedKey n (rd (ECC_RMP_ROW.SID n c i) s) (rd (ECC_RMP_ROW.BANK n c i) s) (rd (ECC_RMP_ROW.ROW n c i) s) s) s = true ∧
    freeEntry n c s = some j :=
  ⟨0, 0, 0, 1, atPcWith [(ECC_RMP_ROW.VALID 0 0 0, 1), (ECC_RMP_ROW.ROW 0 0 0, 3)] { calm with ueRows := [3] }, by decide +kernel⟩

theorem wit_scrubGo : ∃ (s : State),
    on ECC_SCRUB_CTRL.BUSY s = false ∧
    s.fw.stage ≠ 0 ∧
    rd ECC_SCRUB_LIMIT.ADDR s / 64 * 64 < rd GLB_MEM_TOP.TOP s * 2 ^ 20 ∧
    rd ECC_SCRUB_BASE.ADDR s / 64 * 64 ≤ rd ECC_SCRUB_LIMIT.ADDR s / 64 * 64 :=
  ⟨live [(ECC_SCRUB_LIMIT.ADDR, 0x1000)], by decide +kernel⟩

theorem wit_scrubStop : ∃ (b : Nat) (a : Nat) (l : Nat) (s : State),
    s.scrubRun = some (b, a, l) ∧
    a ≤ l ∧
    (∀ x ∈ s.pcs, x.2.retries = [] ∧ x.2.scrubs = []) :=
  ⟨0, 64, 128, { live [] with scrubRun := some (0, 64, 128) }, by decide +kernel⟩

theorem wit_scrubRead : ∃ (b : Nat) (a : Nat) (l : Nat) (x : Place) (errs : ErrPat) (s : State),
    s.scrubRun = some (b, a, l) ∧
    a ≤ l ∧
    mapAddr a s = some x ∧
    pcUsed x.n x.c (workPc x.n x.c x.off s) s = true ∧
    (pcOf x.n x.c (workPc x.n x.c x.off s) s).scrubs.contains x.off = true :=
  ⟨0, 64, 64, ⟨0, 0, 64⟩, [], { live [] with scrubRun := some (0, 64, 64), pcs := [(0, { calm with scrubs := [64] }), (1, { calm with scrubs := [64] })] }, by decide +kernel⟩

theorem wit_scrubRunEnd : ∃ (b : Nat) (a : Nat) (l : Nat) (s : State),
    s.scrubRun = some (b, a, l) ∧
    l < a ∧
    scrubSettled s = true :=
  ⟨0, 128, 64, { live [] with scrubRun := some (0, 128, 64) }, by decide +kernel⟩

/-! ### Recalibration, host and contexts -/

/-- A trained hive 0 whose pseudo-channel 0 of channel 0 is active, without recalibration or with one that runs. -/
def trained (l : List (Fld × Nat)) : State :=
  { atPcWith ((PHY_TRAIN_SUMMARY.VALID 0, 1) :: l) calm with hives := [(0, { Hive.init with phy := ⟨20, 24, 600, 10, 4, 3⟩ })] }
def recal0 : Recal := ⟨[0], 0, 63, 0, 0⟩
def laneObs : LaneObs := ⟨0, 0, 3, 100, 101, 30, 0, 90, 91, 31, 0⟩

/-- The test machine with context 7 at HP and memory and bus-master requests enabled. -/
def atHost (l : List (Fld × Nat)) (c : Ctx) : State :=
  let s := live l
  { s with ctxs := [(7, c)], host := { s.host with cfg := [(0x04, 6)] } }

/-- A bus-master read of a mailbox request and of two descriptors. -/
def mailRead : HpRead := ⟨0x1000, 64, .mailbox 0, []⟩
def withRead (r : HpRead) : State := { atHost [] ctxHp with host := { (atHost [] ctxHp).host with reads := [(3, r)] } }

/-- A staged entry of a context of CP_0, and the selection of context 7. -/
def stage7 : List (Fld × Nat) := [(CTX_SEL.CTX, 7), (CTX_ENTRY.WORD 0, 0x4A0), (CTX_ENTRY.WORD 1, 0x84), (CTX_ENTRY.WORD 2, 100),
  (CTX_ENTRY.WORD 4, 0x10000), (CTX_ENTRY.WORD 6, 0x20000)]
def ctx7 (c : Ctx) : State := { live stage7 with ctxs := [(7, c)] }

theorem wit_recalRoundStart : ∃ (n : Nat) (s : State),
    hOn n s = true ∧
    keeperReady n s = true ∧
    rd (PHY_TRAIN_SUMMARY.RESULT n) s = 0 ∧
    on (PHY_TRAIN_SUMMARY.VALID n) s = true ∧
    mfind s.recal n = none ∧
    mgetD s.recalNext n [] = [] ∧
    recalDue n s = true ∧
    ((allPcs n s).any fun x => (pcOf n x.1 x.2 s).st == .active) = true :=
  ⟨0, trained [(PHY_CTRL.RECAL_EN 0, 1), (PHY_RECAL_CFG.PERIOD_MS 0, 10)], by decide +kernel⟩

theorem wit_recalRoundEnd : ∃ (n : Nat) (c : Nat) (p : Nat) (r : Recal) (o : LaneObs) (s : State),
    hOn n s = true ∧
    keeperReady n s = true ∧
    rd (PHY_TRAIN_SUMMARY.RESULT n) s = 0 ∧
    on (PHY_TRAIN_SUMMARY.VALID n) s = true ∧
    mfind s.recal n = some r ∧
    p < 2 ∧
    r.waiting = [2 * c + p] ∧
    (pcOf n c p s).st = .active ∧
    probing n c p s = false ∧
    o.ch = c ∧
    o.pc = p :=
  ⟨0, 0, 0, recal0, laneObs, { trained [] with recal := [(0, recal0)] }, by decide +kernel⟩

theorem wit_recalNow : ∃ (n : Nat) (s : State),
    hOn n s = true ∧
    keeperReady n s = true ∧
    rd (PHY_TRAIN_SUMMARY.RESULT n) s = 0 ∧
    on (PHY_TRAIN_SUMMARY.VALID n) s = true ∧
    mfind s.recal n = none ∧
    ((allPcs n s).any fun x => (pcOf n x.1 x.2 s).st == .active) = true :=
  ⟨0, trained [], by decide +kernel⟩

theorem wit_recalDeadline : ∃ (n : Nat) (c : Nat) (p : Nat) (r : Recal) (s : State),
    mfind s.recal n = some r ∧
    r.waiting.contains (2 * c + p) = true :=
  ⟨0, 0, 0, recal0, { trained [] with recal := [(0, recal0)] }, by decide +kernel⟩

theorem wit_laneMoveSpare : ∃ (n : Nat) (c : Nat) (p : Nat) (lane : Nat) (o : LaneObs) (s : State),
    pcUsed n c p s = true ∧
    keeperReady n s = true ∧
    lane < logLanes (rd (CHC_HIVE_CFG.GEN n) s) ∧
    (hive n s).phy.rejLimit ≠ 0 ∧
    (hive n s).phy.rejLimit ≤ (laneAt n c p (physLane n c p lane s) s).rejects ∧
    spareFree n c p lane s = true ∧
    moveOk n c p lane (heldObs o) (quiesce 0 n [c] s) = true :=
  ⟨0, 0, 0, 3, laneObs, { trained [] with lanes := [(laneKey 0 0 0 3, { Lane.init with inUse := true, rejects := 3 })] }, by decide +kernel⟩

theorem wit_laneMoveNone : ∃ (n : Nat) (c : Nat) (p : Nat) (lane : Nat) (o : LaneObs) (s : State),
    pcUsed n c p s = true ∧
    keeperReady n s = true ∧
    lane < logLanes (rd (CHC_HIVE_CFG.GEN n) s) ∧
    (hive n s).phy.rejLimit ≠ 0 ∧
    (hive n s).phy.rejLimit ≤ (laneAt n c p (physLane n c p lane s) s).rejects ∧
    spareFree n c p lane s = false :=
  ⟨0, 0, 0, 3, laneObs, { trained [((repairFld 0 0 0 0).2, 1), ((repairFld 0 0 0 0).1, 5)] with lanes := [(laneKey 0 0 0 3, { Lane.init with inUse := true, rejects := 3 })] }, by decide +kernel⟩

theorem wit_dlyRampStep : ∃ (n : Nat) (c : Nat) (p : Nat) (s : State),
    pcUsed n c p s = true ∧
    (pcOf n c p s).st ≠ .selfRefresh ∧
    (pcOf n c p s).st ≠ .off :=
  ⟨0, 0, 0, { trained [] with lanes := [(laneKey 0 0 0 3, { Lane.init with inUse := true, rxTgt := 9, txTgt := 0, txLive := 9 })] }, by decide +kernel⟩

theorem wit_hpMemRead0 : ∃ (off : BitVec 64) (len : Nat) (tag : Nat) (s : State),
    memEnabled s = true ∧
    off.toNat + len ≤ 2 ^ 24 :=
  ⟨0x4, 4, 9, atHost [] ctxHp, by decide +kernel⟩

theorem wit_hpMemRead2 : ∃ (off : BitVec 64) (len : Nat) (tag : Nat) (s : State),
    memEnabled s = true ∧
    off.toNat + len ≤ 2 ^ 30 :=
  ⟨0x3FFFFFFC, 4, 9, atHost [] ctxHp, by decide +kernel⟩

theorem wit_hpMemWrite : ∃ (off : BitVec 64) (x : Nat) (d : List Byte) (s : State),
    memEnabled s = true ∧
    x < 65536 ∧
    off.toNat = 0x4000 * x ∧
    d.length = 4 ∧
    cHome (ctxOf x s) = 16 ∧
    belled x s = true :=
  ⟨0x1C000, 7, [1, 0, 0, 0], atHost [] ctxHp, by decide +kernel⟩

theorem wit_hpMemWriteReg : ∃ (off : BitVec 64) (d : List Byte) (s : State),
    memEnabled s = true ∧
    off.toNat + d.length ≤ 2 ^ 24 :=
  ⟨0x10, [1, 0, 0, 0], atHost [] ctxHp, by decide +kernel⟩

theorem wit_hpConfigRead : ∃ (off : Nat) (be : Nat) (tag : Nat) (s : State),
    s.host.ready = true :=
  ⟨4, 15, 9, atHost [] ctxHp, by decide +kernel⟩

theorem wit_hpConfigWrite : ∃ (off : Nat) (be : Nat) (tag : Nat) (v : BitVec 32) (s : State),
    s.host.ready = true :=
  ⟨4, 15, 9, 4, atHost [] ctxHp, by decide +kernel⟩

theorem wit_hpUnsupportedRequest : ∃ (kind : UrKind) (tag : Nat) (s : State),
    kind ≠ .message ∧
    kind ≠ .barAccess :=
  ⟨.io, 9, atHost [] ctxHp, by decide +kernel⟩

theorem wit_hpCompletion : ∃ (tag : Nat) (data : List Byte) (r : HpRead) (s : State),
    s.host.quarantine.contains tag = false ∧
    mfind s.host.reads tag = some r :=
  ⟨3, List.replicate 32 5, mailRead, withRead mailRead, by decide +kernel⟩

theorem wit_hpCompletionLast : ∃ (tag : Nat) (i : Nat) (data : List Byte) (r : HpRead) (s : State),
    s.host.quarantine.contains tag = false ∧
    mfind s.host.reads tag = some r ∧
    r.dest = .mailbox i :=
  ⟨3, 0, List.replicate 64 5, mailRead, withRead mailRead, by decide +kernel⟩

theorem wit_hpCompletionTimeout : ∃ (tag : Nat) (r : HpRead) (s : State),
    mfind s.host.reads tag = some r :=
  ⟨3, mailRead, withRead mailRead, by decide +kernel⟩

theorem wit_functionReset : ∃ (cause : FlrCause) (s : State),
    s.host.reads = [] :=
  ⟨.hotReset, atHost [] ctxHp, by decide +kernel⟩

theorem wit_msixPendingRelease : ∃ (v : Nat) (s : State),
    s.host.pba.testBit v = true ∧
    msgBlocked v s = false :=
  ⟨5, { atHost [] ctxHp with host := { (atHost [] ctxHp).host with cfg := [(0x04, 6), (0xB0, 2 ^ 31)], msix := [(20, 0x1000), (22, 0x77), (23, 0)], pba := 32 } }, by decide +kernel⟩

theorem wit_descTail : ∃ (x : Nat) (v : BitVec 32) (s : State),
    belled x s = true ∧
    ringDist (cDescLog (ctxOf x s)) (ctxOf x s).head (ctxOf x s).tail ≤ ringDist (cDescLog (ctxOf x s)) (ctxOf x s).head (v.toNat % 2 ^ (cDescLog (ctxOf x s) + 1)) ∧
    ringDist (cDescLog (ctxOf x s)) (ctxOf x s).head (v.toNat % 2 ^ (cDescLog (ctxOf x s) + 1)) ≤ 2 ^ cDescLog (ctxOf x s) :=
  ⟨7, 3, atHost [] ctxHp, by decide +kernel⟩

theorem wit_cplHead : ∃ (x : Nat) (v : BitVec 32) (s : State),
    belled x s = true ∧
    ringDist (cCplLog (ctxOf x s)) (ctxOf x s).cplHead (v.toNat % 2 ^ (cCplLog (ctxOf x s) + 1)) ≤ ringDist (cCplLog (ctxOf x s)) (ctxOf x s).cplHead (ctxOf x s).cplTail :=
  ⟨7, 2, atHost [] { ctxHp with cplTail := 3 }, by decide +kernel⟩

theorem wit_heartbeat : ∃ (x : Nat) (gen : BitVec 16) (s : State),
    cHome (ctxOf x s) = 16 ∧
    belled x s = true ∧
    rd (CTX_HB_STATUS.STATE (cHset (ctxOf x s))) s = 1 ∧
    rd (CTX_HB_STATUS.GEN (cHset (ctxOf x s))) s = gen.toNat ∧
    hbExpired (cHset (ctxOf x s)) s = false :=
  ⟨7, 9, atHost [(CTX_HB_CFG.TIMEOUT_MS 2, 5), (CTX_HB_STATUS.STATE 2, 1), (CTX_HB_STATUS.GEN 2, 9)] ctxHp, by decide +kernel⟩

theorem wit_heartbeatStale : ∃ (x : Nat) (gen : BitVec 16) (s : State),
    cHome (ctxOf x s) = 16 ∧
    belled x s = true ∧
    (rd (CTX_HB_STATUS.STATE (cHset (ctxOf x s))) s ≠ 1 ∨ rd (CTX_HB_STATUS.GEN (cHset (ctxOf x s))) s ≠ gen.toNat ∨ hbExpired (cHset (ctxOf x s)) s = true) :=
  ⟨7, 8, atHost [(CTX_HB_STATUS.STATE 2, 1), (CTX_HB_STATUS.GEN 2, 9)] ctxHp, by decide +kernel⟩

theorem wit_heartbeatTimeout : ∃ (h : Nat) (s : State),
    h < 64 ∧
    rd (CTX_HB_STATUS.STATE h) s = 1 ∧
    hbExpired h s = true ∧
    s.host.writes = [] :=
  ⟨63, { live [(CTX_HB_STATUS.STATE 63, 1), (CTX_HB_CFG.TIMEOUT_MS 63, 5)] with rounds := 100 }, by decide +kernel⟩

theorem wit_ctxHbCfgWrite : ∃ (h : Nat) (v : BitVec 32) (s : State),
    h < 64 ∧
    rd (CTX_HB_STATUS.STATE h) s < 2 :=
  ⟨63, 100, live [], by decide +kernel⟩

theorem wit_ackDrain : ∃ (h : Nat) (gen : BitVec 16) (s : State),
    h < 64 ∧
    rd (CTX_HB_STATUS.STATE h) s = 2 ∧
    rd (CTX_HB_STATUS.GEN h) s ≠ gen.toNat :=
  ⟨2, 9, atHost [(CTX_HB_STATUS.STATE 2, 2), (CTX_HB_STATUS.GEN 2, 8)] ctxHp, by decide +kernel⟩

theorem wit_ackDiscard : ∃ (h : Nat) (gen : BitVec 16) (s : State),
    h < 64 ∧
    rd (CTX_HB_STATUS.STATE h) s = 2 ∧
    rd (CTX_HB_STATUS.GEN h) s ≠ gen.toNat :=
  ⟨2, 9, atHost [(CTX_HB_STATUS.STATE 2, 2), (CTX_HB_STATUS.GEN 2, 8)] ctxHp, by decide +kernel⟩

theorem wit_drainComplete : ∃ (h : Nat) (w : AckWait) (s : State),
    mfind s.acks h = some w ∧
    rd (CTX_HB_STATUS.STATE h) s = 3 ∧
    (s.jobs.any fun x => jobInSet h x.2 s) = false ∧
    (w.discard = true ∨ busMaster s = true ∧ s.spill.filter (spillOf h) = []) ∧
    coreReady 2 s = true :=
  ⟨2, ⟨9, false⟩, { atHost [(CTX_HB_STATUS.STATE 2, 3)] ctxHp with acks := [(2, ⟨9, false⟩)] }, by decide +kernel⟩

theorem wit_ctxOpen : ∃ (s : State),
    on CTX_CMD.BUSY s = false ∧
    coreReady 2 s = true ∧
    rd CTX_SEL.CTX s ≠ 0 ∧
    (ctxOf (rd CTX_SEL.CTX s) s).state = .free ∧
    entryBadWord (staged s) = none :=
  ⟨live stage7, by decide +kernel⟩

theorem wit_ctxClose : ∃ (s : State),
    on CTX_CMD.BUSY s = false ∧
    coreReady 2 s = true ∧
    rd CTX_SEL.CTX s ≠ 0 ∧
    ((ctxOf (rd CTX_SEL.CTX s) s).state = .opened ∨ (ctxOf (rd CTX_SEL.CTX s) s).state = .halted) ∧
    ctxAway (rd CTX_SEL.CTX s) s = false :=
  ⟨ctx7 ctxCp, by decide +kernel⟩

theorem wit_closeComplete : ∃ (x : Nat) (s : State),
    (ctxOf x s).state = .closing ∧
    inflight x s = 0 ∧
    recordSpilled x s = false :=
  ⟨7, ctx7 { ctxCp with state := .closing }, by decide +kernel⟩

theorem wit_ctxResume : ∃ (s : State),
    on CTX_CMD.BUSY s = false ∧
    coreReady 2 s = true ∧
    rd CTX_SEL.CTX s ≠ 0 ∧
    (ctxOf (rd CTX_SEL.CTX s) s).state = .halted ∧
    inflight (rd CTX_SEL.CTX s) s = 0 :=
  ⟨ctx7 { ctxCp with state := .halted, head := 1, tail := 3, halt := some (0, 4) }, by decide +kernel⟩

theorem wit_ctxResumeDiscard : ∃ (s : State),
    on CTX_CMD.BUSY s = false ∧
    coreReady 2 s = true ∧
    rd CTX_SEL.CTX s ≠ 0 ∧
    (ctxOf (rd CTX_SEL.CTX s) s).state = .halted ∧
    inflight (rd CTX_SEL.CTX s) s = 0 :=
  ⟨ctx7 { ctxCp with state := .halted, head := 1, tail := 3, halt := some (0, 4) }, by decide +kernel⟩

theorem wit_resumeCommit : ∃ (x : Nat) (s : State),
    (ctxOf x s).waiting = true ∧
    (ctxOf x s).state = .halted ∧
    inflight x s = 0 :=
  ⟨7, ctx7 { ctxCp with state := .halted, waiting := true }, by decide +kernel⟩

theorem wit_ctxRead : ∃ (s : State),
    on CTX_CMD.BUSY s = false ∧
    coreReady 2 s = true ∧
    rd CTX_SEL.CTX s ≠ 0 ∧
    s.overruns.contains CTX_CMD.CMD.off = false :=
  ⟨ctx7 ctxCp, by decide +kernel⟩

theorem wit_ctxModify : ∃ (s : State),
    on CTX_CMD.BUSY s = false ∧
    coreReady 2 s = true ∧
    rd CTX_SEL.CTX s ≠ 0 ∧
    ((ctxOf (rd CTX_SEL.CTX s) s).state = .opened ∨ (ctxOf (rd CTX_SEL.CTX s) s).state = .halted) ∧
    entryBadWord (staged s) = none ∧
    (∀ i < 16, fixedWord i ((staged s).getD i 0) = fixedWord i (cWord (ctxOf (rd CTX_SEL.CTX s) s) i)) :=
  ⟨ctx7 ctxCp, by decide +kernel⟩

/-! ### Scrub and jobs -/

/-- A grant of all memory, and an outbound window that covers node 5 for every domain and use. -/
def grants : List (Fld × Nat) :=
  [(GLB_RGN_LIMIT.LIMIT 0, 0x3FFF), (GLB_RGN_ATTR.ALL 0, 1), (GLB_RGN_ATTR.RD 0, 1), (GLB_RGN_ATTR.WR 0, 1), (GLB_RGN_ATTR.VALID 0, 1),
    (WIN_CTL.VALID 0, 1), (WIN_CTL.RD 0, 1), (WIN_CTL.WR 0, 1), (WIN_CTL.RED 0, 1), (WIN_CTL.BCAST 0, 1), (WIN_CTL.ALL 0, 1),
    (WIN_NODE.NODE_BASE 0, 5), (WIN_OFF_LIMIT.LIMIT 0, 0x3FFF)]

/-- A machine with the grants in force. -/
def granted (s : State) : State := grants.foldl (fun t x => putForce x.1 x.2 t) s

/-- A machine that holds job 1 of context 7, of the given type and words 1 to 15. -/
def job1 (type : Nat) (ws : List Nat) : Job := Job.start 7 0 (type :: ws) ctxHp.words 16 5 1 0
def withJob (v : Job) : State :=
  { granted (atHost [(CHC_HIVE_CFG.ROWBITS 0, 14)] ctxHp) with
      finished := [1], jobs := [(1, v)], nextJob := 2, ports := [(17, { openP with reqHdr := 64, reqData := 64 })],
      peer := { fresh.peer with hdrCredit := 8, dataCredit := 32 } }

/-- A COPY of 64 bytes, a FILL of 64 bytes, a program of one word END on hive 0, and the peer jobs. -/
def copyWords : List Nat := [0, 0x4000, 0, 0x8000, 0, 64, 0]
def fillWords : List Nat := [0, 0, 0, 0x8000, 0, 64, 0, 0xAB, 0, 0, 0, 0, 0, 0, 0]
def cueWords : List Nat := [0, 0x4000, 0, 0x8000, 0, 1, 0, 0x5000, 0]
def reduceWords : List Nat := [0, 0x4000, 0, 0x8000, 2 ^ 31 + 5 * 2 ^ 10, 64, 0, 0, 3, 9]
def gatherWords : List Nat := [0, 0x4000, 0, 0x8000, 0, 64, 0, 1, 2, 9]
def castWords : List Nat := [0, 0x4000, 0, 0x8000, 0, 64, 0, 0]

theorem wit_descriptorFetch : ∃ (x : Nat) (s : State),
    (ctxOf x s).state = .opened ∧
    portsOpen s = true ∧
    ctxAway x s = false ∧
    (ctxOf x s).fetching = none ∧
    (ctxOf x s).fetched = [] ∧
    coreReady 2 s = true ∧
    cDescBase (ctxOf x s) % 64 = 0 ∧
    ringDist (cDescLog (ctxOf x s)) ((ctxOf x s).head % 2 ^ (cDescLog (ctxOf x s) + 1)) (ctxOf x s).tail ≠ 0 ∧
    cHome (ctxOf x s) = 16 ∧
    busMaster s = true :=
  ⟨7, atHost [] { ctxHp with tail := 1 }, by decide +kernel⟩

theorem wit_descriptorFetchDevice : ∃ (x : Nat) (s : State),
    (ctxOf x s).state = .opened ∧
    portsOpen s = true ∧
    ctxAway x s = false ∧
    (ctxOf x s).fetching = none ∧
    (ctxOf x s).fetched = [] ∧
    coreReady 2 s = true ∧
    cDescBase (ctxOf x s) % 64 = 0 ∧
    ringDist (cDescLog (ctxOf x s)) ((ctxOf x s).head % 2 ^ (cDescLog (ctxOf x s) + 1)) (ctxOf x s).tail ≠ 0 ∧
    cHome (ctxOf x s) ≠ 16 :=
  ⟨7, { granted (ctx7 { ctxCp with tail := 1 }) with ports := [(0, openP)] }, by decide +kernel⟩

theorem wit_jobStart : ∃ (x : Nat) (f : Fetched) (fs : List Fetched) (s : State),
    (ctxOf x s).fetched = f :: fs ∧
    (ctxOf x s).state = .opened ∧
    ctxAway x s = false ∧
    portsOpen s = true ∧
    coreReady 2 s = true ∧
    mayStart x (ctxOf x s) (Job.start x f.index f.words (ctxOf x s).words (cHome (ctxOf x s)) (cClass (ctxOf x s)) (cDomain (ctxOf x s)) s.fclk) s = true ∧
    jType (Job.start x f.index f.words (ctxOf x s).words (cHome (ctxOf x s)) (cClass (ctxOf x s)) (cDomain (ctxOf x s)) s.fclk) < 5 ∧
    badReason (cHostEn (ctxOf x s)) (usableTop s) (Job.start x f.index f.words (ctxOf x s).words (cHome (ctxOf x s)) (cClass (ctxOf x s)) (cDomain (ctxOf x s)) s.fclk) = 0 :=
  ⟨7, ⟨0, [0, 0, 0, 0, 0, 0, 0, 0]⟩, [], { ctx7 { ctxCp with tail := 1, fetched := [⟨0, [0, 0, 0, 0, 0, 0, 0, 0]⟩] } with nextJob := 1 }, by decide +kernel⟩

theorem wit_jobNop : ∃ (j : Nat) (v : Job) (s : State),
    ready j 0 s = some v :=
  ⟨1, job1 0 [], withJob (job1 0 []), by decide +kernel⟩

theorem wit_copyFromHost : ∃ (j : Nat) (v : Job) (s : State),
    ready j 1 s = some v ∧
    jLen v ≠ 0 ∧
    jSrcSpace v = 1 :=
  ⟨1, job1 1 (2 ^ 20 :: copyWords.tail), { withJob (job1 1 (2 ^ 20 :: copyWords.tail)) with host := fresh.host }, by decide +kernel⟩

theorem wit_copyInDevice : ∃ (j : Nat) (v : Job) (s : State),
    ready j 1 s = some v ∧
    jLen v ≠ 0 ∧
    jSrcSpace v ≠ 1 :=
  ⟨1, job1 1 copyWords, withJob (job1 1 copyWords), by decide +kernel⟩

theorem wit_copyArrives : ∃ (j : Nat) (v : Job) (d : List Byte) (s : State),
    mfind s.jobs j = some v ∧
    v.stopped = false ∧
    jType v = 1 ∧
    jAudit v = false ∧
    jDstSpace v ≠ 1 :=
  ⟨1, job1 1 copyWords, List.replicate 64 7, withJob (job1 1 copyWords), by decide +kernel⟩

theorem wit_fillRange : ∃ (j : Nat) (v : Job) (s : State),
    ready j 2 s = some v ∧
    jLen v ≠ 0 :=
  ⟨1, job1 2 fillWords, withJob (job1 2 fillWords), by decide +kernel⟩

theorem wit_runCue : ∃ (j : Nat) (v : Job) (s : State),
    ready j 3 s = some v :=
  ⟨1, job1 3 cueWords, withJob (job1 3 cueWords), by decide +kernel⟩

theorem wit_attnStream : ∃ (j : Nat) (v : Job) (s : State),
    ready j 4 s = some v :=
  ⟨1, job1 4 cueWords, withJob (job1 4 cueWords), by decide +kernel⟩

theorem wit_argsArrive : ∃ (j : Nat) (ab : List Byte) (v : Job) (s : State),
    mfind s.jobs j = some v ∧
    spanBad v (leAt ab 0 8 % 16) s = none :=
  ⟨1, List.replicate 64 0, job1 3 cueWords, withJob (job1 3 cueWords), by decide +kernel⟩

theorem wit_imageArrives : ∃ (j : Nat) (d : List Byte) (v : Job) (s : State),
    mfind s.jobs j = some v ∧
    8 * jProgLen v ≤ (v.bytes ++ d).length :=
  ⟨1, List.replicate 64 0, job1 3 cueWords, withJob (job1 3 cueWords), by decide +kernel⟩

theorem wit_placeProgram : ∃ (type : Nat) (j : Nat) (v : Job) (ab : List Byte) (ws : List Nat) (s : State),
    staticCheck (type == 4) (usedCh ((spanHives v (leAt ab 0 8 % 16) s).headD 0) s) ws (leAt ab 0 8) = none ∧
    (∀ n ∈ spanHives v (leAt ab 0 8 % 16) s, cOn n s = true) :=
  ⟨3, 1, job1 3 cueWords, List.replicate 64 0, [2 ^ 58], withJob (job1 3 cueWords), by decide +kernel⟩

theorem wit_peerReduceSend : ∃ (j : Nat) (v : Job) (s : State),
    ready j 5 s = some v ∧
    jGather v = false ∧
    jLen v ≠ 0 :=
  ⟨1, job1 5 reduceWords, withJob (job1 5 reduceWords), by decide +kernel⟩

theorem wit_peerReduceGather : ∃ (j : Nat) (v : Job) (t : State) (s : State),
    ready j 5 s = some v ∧
    jGather v = true ∧
    openSlot ⟨j, jWord v 10, jDst v, jLen v, bits (jWord v 8) 1 2, bits (jWord v 8) 3 2, bits (jWord v 9) 0 20⟩ s = some t :=
  ⟨1, job1 5 gatherWords, (openSlot ⟨1, 9, 0x8000, 64, 0, 0, 2⟩ (withJob (job1 5 gatherWords))).getD fresh, withJob (job1 5 gatherWords), by decide +kernel⟩

theorem wit_broadcast : ∃ (j : Nat) (v : Job) (s : State),
    ready j 6 s = some v ∧
    jLen v ≠ 0 ∧
    castKids v s ≠ [] :=
  ⟨1, job1 6 castWords, putForce (PEER_TREE_CFG.NCHILD 0) 1 (putForce (PEER_TREE_CHILD.NODE 0 0) 5 (withJob (job1 6 castWords))), by decide +kernel⟩

theorem wit_jobBeginOnHive : ∃ (n : Nat) (j : Nat) (rest : List Nat) (v : Job) (s : State) (u : State),
    (hive n s).cue = none ∧
    u = applyRetire n s ∧
    (hive n u).cue = none ∧
    (hive n u).placed = j :: rest ∧
    mfind u.jobs j = some v ∧
    v.stopped = false ∧
    cellsReady n u = true ∧
    (hive n u).tests = [] ∧
    (hive n u).faults = [] ∧
    keeperReady n u = true ∧
    rd (CEL_HIVE_FAILED.CELLS n) u = 0 :=
  ⟨0, 1, [], job1 3 cueWords, { withJob (job1 3 cueWords) with hives := [(0, { Hive.init with placed := [1] })] }, applyRetire 0 ({ withJob (job1 3 cueWords) with hives := [(0, { Hive.init with placed := [1] })] }), by decide +kernel⟩

theorem wit_jobDoneReport : ∃ (j : Nat) (v : Job) (s : State),
    mgetD s.lateJobs j 0 = 0 ∧
    mfind s.jobs j = some v ∧
    v.done = false ∧
    v.timedOut = false ∧
    v.waitRecord = true ∧
    jobQuiet j s = true :=
  ⟨1, { job1 0 [] with waitRecord := true }, withJob { job1 0 [] with waitRecord := true }, by decide +kernel⟩

theorem wit_jobDoneLate : ∃ (j : Nat) (s : State),
    0 < mgetD s.lateJobs j 0 :=
  ⟨1, { withJob (job1 0 []) with lateJobs := [(1, 1)] }, by decide +kernel⟩

theorem wit_jobTimeout : ∃ (j : Nat) (elapsed : Nat) (v : Job) (s : State),
    mfind s.jobs j = some v ∧
    v.started = true ∧
    v.done = false ∧
    v.timedOut = false ∧
    jTimeout v ≠ 0 ∧
    jTimeout v ≤ elapsed ∧
    elapsed ≤ jTimeout v + 10 :=
  ⟨1, 50, job1 0 [50], withJob (job1 0 [50]), by decide +kernel⟩

theorem wit_completionRecordWrite : ∃ (j : Nat) (v : Job) (s : State),
    mfind s.jobs j = some v ∧
    recordDue j v s = true ∧
    coreReady 2 s = true ∧
    ctxAway v.ctx s = false ∧
    cplRoom (ctxOf v.ctx s) = true ∧
    cHome (ctxOf v.ctx s) = 16 ∧
    busMaster s = true :=
  ⟨1, { job1 0 [] with waitRecord := true, done := true }, withJob { job1 0 [] with waitRecord := true, done := true }, by decide +kernel⟩

theorem wit_completionRecordDevice : ∃ (j : Nat) (v : Job) (s : State),
    mfind s.jobs j = some v ∧
    recordDue j v s = true ∧
    coreReady 2 s = true ∧
    ctxAway v.ctx s = false ∧
    cplRoom (ctxOf v.ctx s) = true ∧
    cHome (ctxOf v.ctx s) ≠ 16 :=
  ⟨1, { job1 0 [] with waitRecord := true, done := true }, { withJob { job1 0 [] with waitRecord := true, done := true } with ctxs := [(7, ctxCp)] }, by decide +kernel⟩

theorem wit_completionRecordAway : ∃ (j : Nat) (v : Job) (s : State),
    mfind s.jobs j = some v ∧
    recordDue j v s = true ∧
    coreReady 2 s = true ∧
    ctxAway v.ctx s = true :=
  ⟨1, { job1 0 [] with waitRecord := true, done := true }, put (CTX_HB_STATUS.STATE 2) 2 (withJob { job1 0 [] with waitRecord := true, done := true }), by decide +kernel⟩

theorem wit_auditBatchClose : ∃ (s : State),
    coreReady 0 s = true ∧
    s.audit.entries ≠ [] ∧
    batchMax s ≤ s.audit.entries.length :=
  ⟨{ live [(LCS_AUDIT_CFG.BATCH_MAX, 2)] with audit := { fresh.audit with entries := [(1, [1]), (2, [2]), (3, [3])] } }, by decide +kernel⟩

/-! ### Cue words -/

/-- Job 1 running on hive 0, its arguments all 3, its destination 64 bytes long. -/
def cueJob : Job := { job1 3 (cueWords ++ [0, 0, 64]) with hives := [0], running := [0], argv := List.replicate 8 3 }

/-- A cue sequencer at its first word, with MODE INT8 by INT8, and hive 0 about to run one word. -/
def cue0 : Cue := { cueStart 1 0 true with mode := some ⟨2, 2, 0, 0, 0⟩, lc := [2, 1, 0, 0], areg := 0 :: 64 :: List.replicate 14 5 }
def atWord (w : Nat) : State := { withJob cueJob with hives := [(0, { Hive.init with store := [(0, w)], cue := some cue0 })] }

/-- An opcode at its place in a word. -/
def op (o : Nat) : Nat := o * 2 ^ 58

/-- The state in which a word that waits for the streams before it issues. -/
def issued (o : Nat) (s : State) : State := ((issueAfter o 0 s).map fun x => x.1).getD fresh

/-- A stream of one row, whose cell 0 holds the row's value. -/
def taken0 : Taker := ⟨0, 0, 0, 0, [], [], 0, [⟨0, [], some ([[]], none, [])⟩], false⟩
def stream0 : Stream := { streamOf ⟨2, 2, 0, 0, 0⟩ (passArgs cue0 (op opPass + 2 ^ 37 + 2 ^ 22 * 64 + 2 ^ 17)) false none cue0 with takers := [(0, taken0)] }
def cueRow : Cue := { cue0 with streams := [stream0] }

theorem wit_cueNop : ∃ (n : Nat) (p : Parity) (c : Cue) (v : Job) (w : Nat) (s₀ : State) (s : State),
    meetAtIssue p n (issue opNop n s₀) s₀ = s ∧
    issue opNop n s = some (c, v, w) :=
  ⟨0, .clean, cue0, cueJob, 0, atWord 0, atWord 0, by decide +kernel⟩

theorem wit_cueEnd : ∃ (n : Nat) (p : Parity) (c : Cue) (v : Job) (w : Nat) (u : State) (s₀ : State) (s : State),
    meetAtIssue p n (issue opEnd n s₀) s₀ = s ∧
    issue opEnd n s = some (c, v, w) ∧
    drained n s = some u :=
  ⟨0, .clean, cue0, cueJob, op opEnd + 0, (drained 0 (atWord (op opEnd + 0))).getD fresh, atWord (op opEnd + 0), atWord (op opEnd + 0), by decide +kernel⟩

theorem wit_hiveEnds : ∃ (n : Nat) (j : Nat) (v : Job) (s : State),
    mfind s.jobs j = some v :=
  ⟨0, 1, cueJob, withJob cueJob, by decide +kernel⟩

theorem wit_cueWait : ∃ (n : Nat) (p : Parity) (c : Cue) (v : Job) (w : Nat) (u : State) (s₀ : State) (s : State),
    meetAtIssue p n (issue opWait n s₀) s₀ = s ∧
    issue opWait n s = some (c, v, w) ∧
    drained n s = some u ∧
    w.testBit 52 = false :=
  ⟨0, .clean, cue0, cueJob, op opWait + 0, (drained 0 (atWord (op opWait + 0))).getD fresh, atWord (op opWait + 0), atWord (op opWait + 0), by decide +kernel⟩

theorem wit_cueWaitSpan : ∃ (n : Nat) (p : Parity) (c : Cue) (v : Job) (w : Nat) (u : State) (s₀ : State) (s : State),
    meetAtIssue p n (issue opWait n s₀) s₀ = s ∧
    issue opWait n s = some (c, v, w) ∧
    drained n s = some u ∧
    w.testBit 52 = true :=
  ⟨0, .clean, cue0, cueJob, op opWait + 2 ^ 52, (drained 0 (atWord (op opWait + 2 ^ 52))).getD fresh, atWord (op opWait + 2 ^ 52), atWord (op opWait + 2 ^ 52), by decide +kernel⟩

theorem wit_cueLset : ∃ (n : Nat) (p : Parity) (c : Cue) (v : Job) (w : Nat) (s₀ : State) (s : State),
    meetAtIssue p n (issue opLset n s₀) s₀ = s ∧
    issue opLset n s = some (c, v, w) :=
  ⟨0, .clean, cue0, cueJob, (op opLset + 2 ^ 50 + 7), atWord (op opLset + 2 ^ 50 + 7), atWord (op opLset + 2 ^ 50 + 7), by decide +kernel⟩

theorem wit_cueLoop : ∃ (n : Nat) (p : Parity) (c : Cue) (v : Job) (w : Nat) (s₀ : State) (s : State),
    meetAtIssue p n (issue opLoop n s₀) s₀ = s ∧
    issue opLoop n s = some (c, v, w) ∧
    2 ≤ c.lc.getD (bits w 50 2) 0 :=
  ⟨0, .clean, cue0, cueJob, (op opLoop + 5), atWord (op opLoop + 5), atWord (op opLoop + 5), by decide +kernel⟩

theorem wit_cueLoopLast : ∃ (n : Nat) (p : Parity) (c : Cue) (v : Job) (w : Nat) (s₀ : State) (s : State),
    meetAtIssue p n (issue opLoop n s₀) s₀ = s ∧
    issue opLoop n s = some (c, v, w) ∧
    c.lc.getD (bits w 50 2) 0 = 1 :=
  ⟨0, .clean, cue0, cueJob, (op opLoop + 2 ^ 50), atWord (op opLoop + 2 ^ 50), atWord (op opLoop + 2 ^ 50), by decide +kernel⟩

theorem wit_cueAset : ∃ (n : Nat) (p : Parity) (c : Cue) (v : Job) (w : Nat) (s₀ : State) (s : State),
    meetAtIssue p n (issue opAset n s₀) s₀ = s ∧
    issue opAset n s = some (c, v, w) :=
  ⟨0, .clean, cue0, cueJob, (op opAset + 3 * 2 ^ 48 + 77), atWord (op opAset + 3 * 2 ^ 48 + 77), atWord (op opAset + 3 * 2 ^ 48 + 77), by decide +kernel⟩

theorem wit_cueAmov : ∃ (n : Nat) (p : Parity) (c : Cue) (v : Job) (w : Nat) (s₀ : State) (s : State),
    meetAtIssue p n (issue opAmov n s₀) s₀ = s ∧
    issue opAmov n s = some (c, v, w) :=
  ⟨0, .clean, cue0, cueJob, (op opAmov + 3 * 2 ^ 48 + 1), atWord (op opAmov + 3 * 2 ^ 48 + 1), atWord (op opAmov + 3 * 2 ^ 48 + 1), by decide +kernel⟩

theorem wit_cueAadd : ∃ (n : Nat) (p : Parity) (c : Cue) (v : Job) (w : Nat) (s₀ : State) (s : State),
    meetAtIssue p n (issue opAadd n s₀) s₀ = s ∧
    issue opAadd n s = some (c, v, w) :=
  ⟨0, .clean, cue0, cueJob, (op opAadd + 3 * 2 ^ 48 + 2 * 2 ^ 44 + 2 ^ 44 - 1), atWord (op opAadd + 3 * 2 ^ 48 + 2 * 2 ^ 44 + 2 ^ 44 - 1), atWord (op opAadd + 3 * 2 ^ 48 + 2 * 2 ^ 44 + 2 ^ 44 - 1), by decide +kernel⟩

theorem wit_cueAmad : ∃ (n : Nat) (p : Parity) (c : Cue) (v : Job) (w : Nat) (s₀ : State) (s : State),
    meetAtIssue p n (issue opAmad n s₀) s₀ = s ∧
    issue opAmad n s = some (c, v, w) :=
  ⟨0, .clean, cue0, cueJob, (op opAmad + 3 * 2 ^ 48 + 1 * 2 ^ 44 + 2 * 2 ^ 40 + 9), atWord (op opAmad + 3 * 2 ^ 48 + 1 * 2 ^ 44 + 2 * 2 ^ 40 + 9), atWord (op opAmad + 3 * 2 ^ 48 + 1 * 2 ^ 44 + 2 * 2 ^ 40 + 9), by decide +kernel⟩

theorem wit_cueMode : ∃ (n : Nat) (p : Parity) (c : Cue) (v : Job) (w : Nat) (s₀ : State) (s : State),
    meetAtIssue p n (issue opMode n s₀) s₀ = s ∧
    issue opMode n s = some (c, v, w) :=
  ⟨0, .clean, cue0, cueJob, (op opMode + 2 * 2 ^ 52 + 2 * 2 ^ 48), atWord (op opMode + 2 * 2 ^ 52 + 2 * 2 ^ 48), atWord (op opMode + 2 * 2 ^ 52 + 2 * 2 ^ 48), by decide +kernel⟩

theorem wit_cueScale : ∃ (n : Nat) (p : Parity) (c : Cue) (v : Job) (w : Nat) (s₀ : State) (s : State),
    meetAtIssue p n (issue opScale n s₀) s₀ = s ∧
    issue opScale n s = some (c, v, w) :=
  ⟨0, .clean, cue0, cueJob, (op opScale + 0x40000000), atWord (op opScale + 0x40000000), atWord (op opScale + 0x40000000), by decide +kernel⟩

theorem wit_cueLdact : ∃ (n : Nat) (p : Parity) (c : Cue) (v : Job) (w : Nat) (x : Load) (u : State) (s₀ : State) (s : State),
    meetAtIssue p n (issue opLdact n s₀) s₀ = s ∧
    issue opLdact n s = some (c, v, w) ∧
    c.loads = 0 ∧
    areg c (bits w 48 4) % 64 = 0 ∧
    x = loadOf n v w s ∧
    freeIf (colsInUse n x.scl x.col x.nc x.off x.beats s) n s = some u :=
  ⟨0, .clean, cue0, cueJob, (op opLdact + 2 ^ 48), loadOf 0 cueJob (op opLdact + 2 ^ 48) (atWord (op opLdact + 2 ^ 48)), atWord (op opLdact + 2 ^ 48), atWord (op opLdact + 2 ^ 48), atWord (op opLdact + 2 ^ 48), by decide +kernel⟩

theorem wit_ldactArrives : ∃ (n : Nat) (q : Nat) (d : List Byte) (c : Cue) (v : Job) (s : State),
    (hive n s).cue = some c ∧
    mfind s.jobs c.job = some v ∧
    c.loads = 1 :=
  ⟨0, 0, List.replicate 64 9, { cue0 with loads := 1 }, cueJob, { atWord (op opLdact + 2 ^ 48) with hives := [(0, { Hive.init with store := [(0, (op opLdact + 2 ^ 48))], cue := some { cue0 with loads := 1 } })] }, by decide +kernel⟩

theorem wit_cueClrc : ∃ (n : Nat) (p : Parity) (c : Cue) (v : Job) (w : Nat) (u : State) (s₀ : State) (s : State),
    meetAtIssue p n (issue opClrc n s₀) s₀ = s ∧
    issue opClrc n s = some (c, v, w) ∧
    freeIf (colsInUse n 0 (colFirst w) (colCount w) 0 256 s || colsInUse n 1 (colFirst w) (colCount w) 0 9 s) n s = some u :=
  ⟨0, .clean, cue0, cueJob, (op opClrc + 2 ^ 38), atWord (op opClrc + 2 ^ 38), atWord (op opClrc + 2 ^ 38), atWord (op opClrc + 2 ^ 38), by decide +kernel⟩

theorem wit_cuePass : ∃ (n : Nat) (p : Parity) (c : Cue) (v : Job) (m : Mode) (w : Nat) (s₀ : State) (s : State),
    meetAtIssue p n (issue opPass n s₀) s₀ = s ∧
    issue opPass n s = some (c, v, w) ∧
    c.mode = some m ∧
    streamReason n (usedCh n s) m (passArgs c w) c s = none :=
  ⟨0, .clean, cue0, cueJob, ⟨2, 2, 0, 0, 0⟩, (op opPass + 2 ^ 37 + 2 ^ 22 * 64 + 2 ^ 17), atWord (op opPass + 2 ^ 37 + 2 ^ 22 * 64 + 2 ^ 17), atWord (op opPass + 2 ^ 37 + 2 ^ 22 * 64 + 2 ^ 17), by decide +kernel⟩

theorem wit_rowPasses : ∃ (n : Nat) (cells : Nat) (l : Nat) (r : Nat) (k : Nat) (b : List Byte) (vals : List (List EVal)) (ws : Option Nat) (as : List Nat) (rest : List Slot) (y : Taker) (x : Stream) (xs : List Stream) (c : Cue) (s : State),
    (hive n s).cue = some c ∧
    c.streams = x :: xs ∧
    x.v = false ∧
    mfind x.takers l = some y ∧
    y.slots = ⟨r, b, some (vals, ws, as)⟩ :: rest ∧
    k = entKey x.rb (x.rbase + r * cells + l) :=
  ⟨0, 1, 0, 0, 0, [], [[]], none, [], [], taken0, stream0, [], cueRow, { withJob cueJob with hives := [(0, { Hive.init with cue := some cueRow })] }, by decide +kernel⟩

theorem wit_cueZrb : ∃ (n : Nat) (p : Parity) (c : Cue) (v : Job) (w : Nat) (u : State) (s₀ : State) (s : State),
    meetAtIssue p n (issue opZrb n s₀) s₀ = s ∧
    issueAfter opZrb n s = some (u, c, v, w) :=
  ⟨0, .clean, cue0, cueJob, (op opZrb + 2 ^ 10), issued opZrb (atWord (op opZrb + 2 ^ 10)), atWord (op opZrb + 2 ^ 10), atWord (op opZrb + 2 ^ 10), by decide +kernel⟩

theorem wit_cueRed : ∃ (n : Nat) (p : Parity) (c : Cue) (v : Job) (w : Nat) (u : State) (s₀ : State) (s : State),
    meetAtIssue p n (issue opRed n s₀) s₀ = s ∧
    issueAfter opRed n s = some (u, c, v, w) ∧
    ((redGroups w (usedCh n s)).filterMap fun ks => combineBad (ks.map fun k => mfind c.ents k)) = [] :=
  ⟨0, .clean, cue0, cueJob, (op opRed + 5 * 2 ^ 21 + 2 ^ 10), issued opRed (atWord (op opRed + 5 * 2 ^ 21 + 2 ^ 10)), atWord (op opRed + 5 * 2 ^ 21 + 2 ^ 10), atWord (op opRed + 5 * 2 ^ 21 + 2 ^ 10), by decide +kernel⟩

theorem wit_cueGather : ∃ (n : Nat) (p : Parity) (c : Cue) (v : Job) (w : Nat) (u : State) (s₀ : State) (s : State),
    meetAtIssue p n (issue opGather n s₀) s₀ = s ∧
    issueAfter opGather n s = some (u, c, v, w) :=
  ⟨0, .clean, cue0, cueJob, (op opGather + 2 ^ 10), issued opGather (atWord (op opGather + 2 ^ 10)), atWord (op opGather + 2 ^ 10), atWord (op opGather + 2 ^ 10), by decide +kernel⟩

theorem wit_cueEmit : ∃ (n : Nat) (p : Parity) (c : Cue) (v : Job) (w : Nat) (u : State) (s₀ : State) (s : State),
    meetAtIssue p n (issue opEmit n s₀) s₀ = s ∧
    issueAfter opEmit n s = some (u, c, v, w) ∧
    (w.testBit 57 = true → logicalHive n v = 0) ∧
    emitBad c w = none ∧
    emitBeyond v (emitPlan n c v w) = none :=
  ⟨0, .clean, cue0, cueJob, (op opEmit + 2 ^ 52 + 2 ^ 27 + 2 ^ 22), issued opEmit (atWord (op opEmit + 2 ^ 52 + 2 ^ 27 + 2 ^ 22)), atWord (op opEmit + 2 ^ 52 + 2 ^ 27 + 2 ^ 22), atWord (op opEmit + 2 ^ 52 + 2 ^ 27 + 2 ^ 22), by decide +kernel⟩

theorem wit_cueEmitOther : ∃ (n : Nat) (p : Parity) (c : Cue) (v : Job) (w : Nat) (u : State) (s₀ : State) (s : State),
    meetAtIssue p n (issue opEmit n s₀) s₀ = s ∧
    issueAfter opEmit n s = some (u, c, v, w) ∧
    w.testBit 57 = true ∧
    logicalHive n v ≠ 0 :=
  ⟨1, .clean, cue0, cueJob, ((op opEmit + 2 ^ 52 + 2 ^ 27 + 2 ^ 22) + 2 ^ 57), ((issueAfter opEmit 1 ({ withJob cueJob with hives := [(1, { Hive.init with store := [(0, (op opEmit + 2 ^ 52 + 2 ^ 27 + 2 ^ 22) + 2 ^ 57)], cue := some cue0 })] })).map fun x => x.1).getD fresh, { withJob cueJob with hives := [(1, { Hive.init with store := [(0, (op opEmit + 2 ^ 52 + 2 ^ 27 + 2 ^ 22) + 2 ^ 57)], cue := some cue0 })] }, { withJob cueJob with hives := [(1, { Hive.init with store := [(0, (op opEmit + 2 ^ 52 + 2 ^ 27 + 2 ^ 22) + 2 ^ 57)], cue := some cue0 })] }, by decide +kernel⟩

theorem wit_cueKstream : ∃ (n : Nat) (p : Parity) (c : Cue) (v : Job) (m : Mode) (w : Nat) (kv : Kv) (s₀ : State) (s : State),
    meetAtIssue p n (issue opKstream n s₀) s₀ = s ∧
    issue opKstream n s = some (c, v, w) ∧
    c.mode = some m ∧
    streamReason n (usedCh n s) m (kstreamArgs c w) c s = none ∧
    kv = kstreamKv (kstreamArgs c w) (usedCh n s) (jSpan v) (kvOf c) :=
  ⟨0, .clean, cue0, cueJob, ⟨2, 2, 0, 0, 0⟩, (op opKstream + 2 ^ 37 + 2 ^ 22 * 64 + 2 ^ 17), kstreamKv (kstreamArgs cue0 (op opKstream + 2 ^ 37 + 2 ^ 22 * 64 + 2 ^ 17)) 32 (jSpan cueJob) (kvOf cue0), atWord (op opKstream + 2 ^ 37 + 2 ^ 22 * 64 + 2 ^ 17), atWord (op opKstream + 2 ^ 37 + 2 ^ 22 * 64 + 2 ^ 17), by decide +kernel⟩

theorem wit_cueVstream : ∃ (n : Nat) (p : Parity) (c : Cue) (v : Job) (w : Nat) (m : Mode) (u : State) (s₀ : State) (s : State),
    meetAtIssue p n (issue opVstream n s₀) s₀ = s ∧
    issueAfter opVstream n s = some (u, c, v, w) ∧
    c.mode = some m ∧
    vReason n (usedCh n u) m (vArgs c w) c u = none ∧
    (vArgs c w).d ≠ 0 :=
  ⟨0, .clean, { cue0 with mode := some ⟨9, 9, 0, 0, 0⟩ }, cueJob, (op opVstream + 2 ^ 38 + 2 ^ 28 + 2 ^ 13 + 2 ^ 8), ⟨9, 9, 0, 0, 0⟩, issued opVstream ({ withJob cueJob with hives := [(0, { Hive.init with store := [(0, (op opVstream + 2 ^ 38 + 2 ^ 28 + 2 ^ 13 + 2 ^ 8))], cue := some { cue0 with mode := some ⟨9, 9, 0, 0, 0⟩ } })] }), { withJob cueJob with hives := [(0, { Hive.init with store := [(0, (op opVstream + 2 ^ 38 + 2 ^ 28 + 2 ^ 13 + 2 ^ 8))], cue := some { cue0 with mode := some ⟨9, 9, 0, 0, 0⟩ } })] }, { withJob cueJob with hives := [(0, { Hive.init with store := [(0, (op opVstream + 2 ^ 38 + 2 ^ 28 + 2 ^ 13 + 2 ^ 8))], cue := some { cue0 with mode := some ⟨9, 9, 0, 0, 0⟩ } })] }, by decide +kernel⟩

theorem wit_smaxStageMax : ∃ (n : Nat) (p : Parity) (c : Cue) (v : Job) (w : Nat) (u : State) (s₀ : State) (s : State),
    meetAtIssue p n (issueStage 0 n s₀) s₀ = s ∧
    issueSmax 0 n s = some (u, c, v, w) :=
  ⟨0, .clean, cue0, cueJob, (op opSmax + 2 ^ 10), issued opSmax (atWord (op opSmax + 2 ^ 10)), atWord (op opSmax + 2 ^ 10), atWord (op opSmax + 2 ^ 10), by decide +kernel⟩

theorem wit_smaxStageExp : ∃ (n : Nat) (p : Parity) (c : Cue) (v : Job) (w : Nat) (u : State) (s₀ : State) (s : State),
    meetAtIssue p n (issueStage 1 n s₀) s₀ = s ∧
    issueSmax 1 n s = some (u, c, v, w) :=
  ⟨0, .clean, cue0, cueJob, (op opSmax + 2 ^ 52 + 2 ^ 10), issued opSmax (atWord (op opSmax + 2 ^ 52 + 2 ^ 10)), atWord (op opSmax + 2 ^ 52 + 2 ^ 10), atWord (op opSmax + 2 ^ 52 + 2 ^ 10), by decide +kernel⟩

theorem wit_smaxStageClose : ∃ (n : Nat) (p : Parity) (c : Cue) (v : Job) (w : Nat) (u : State) (s₀ : State) (s : State),
    meetAtIssue p n (issueStage 2 n s₀) s₀ = s ∧
    issueSmax 2 n s = some (u, c, v, w) :=
  ⟨0, .clean, cue0, cueJob, (op opSmax + 2 * 2 ^ 52 + 2 ^ 10), issued opSmax (atWord (op opSmax + 2 * 2 ^ 52 + 2 ^ 10)), atWord (op opSmax + 2 * 2 ^ 52 + 2 ^ 10), atWord (op opSmax + 2 * 2 ^ 52 + 2 ^ 10), by decide +kernel⟩

theorem wit_spanSyncComplete : ∃ (j : Nat) (v : Job) (s : State),
    mfind s.jobs j = some v ∧
    v.stopped = false ∧
    v.hives ≠ [] ∧
    (v.hives.all fun n => (hive n s).cue.any fun c => c.job == j && c.atSync && c.pc == (cueOf (v.hives.headD 16) s).pc) = true ∧
    opOf (mgetD (hive (v.hives.headD 16) s).store ((cueOf (v.hives.headD 16) s).base + (cueOf (v.hives.headD 16) s).pc) 0) = 0x02 :=
  ⟨1, cueJob, { withJob cueJob with hives := [(0, { Hive.init with store := [(0, op opWait + 2 ^ 52)], cue := some { cue0 with atSync := true } })] }, by decide +kernel⟩

/-! ### Peer link -/

/-- Hive 0 in the middle of a stream whose cell c holds one byte of its first row. -/
def strm (c : Nat) : Stream := { stream0 with ncol := 20, takers := [(c, { taken0 with slots := [⟨0, [7], none⟩], buffer := [(0, 0, none)] })] }
def streamingWith (c : Nat) (h : Hive) : State := { withJob cueJob with hives := [(0, { h with cue := some { cue0 with streams := [strm c] } })] }

/-- The peer port open at node 4, with an inbound window of node 5 in domain 1. -/
def inWindow : List (Fld × Nat) :=
  [(WIN_CTL.VALID 1, 1), (WIN_CTL.DIR 1, 1), (WIN_CTL.RD 1, 1), (WIN_CTL.WR 1, 1), (WIN_CTL.RED 1, 1), (WIN_CTL.BCAST 1, 1), (WIN_CTL.DOMAIN 1, 1),
    (WIN_NODE.NODE_BASE 1, 5), (WIN_OFF_LIMIT.LIMIT 1, 0xFFF), (PEER_NODE_ID.NODE, 4), (PEER_NODE_ID.VALID, 1)]
def peerAt (l : List (Fld × Nat)) : State := inWindow.foldl (fun t x => putForce x.1 x.2 t) (put PEER_NODE_ID.NODE 4 (put PEER_NODE_ID.VALID 1 (putAll l (withJob cueJob))))

/-- The header of a request of one beat from node 5 to node 4, with an opcode, further bits and zero offset. -/
def hdr (o : Nat) (more : Nat) : BitVec 256 := BitVec.ofNat 256 (o + 7 * 2 ^ 8 + 5 * 2 ^ 40 + 4 * 2 ^ 64 + more)

/-- A request of this node that is outstanding under tag 7. -/
def outReq (d : PeerFor) : PeerReq := ⟨d, 0, 2, 0, 5, 0, 1, 0, 0, 0, false, 0, 0, [], [], 0⟩
def outstanding (r : PeerReq) (b : List BcastWait) : State :=
  { peerAt [] with peer := { (peerAt []).peer with reqs := [(7, r)], bcasts := b, rspInHdr := 2 } }

/-- A gather slot of one source whose contribution has come. -/
def slot0 : GatherSlot := ⟨1, 9, 0x8000, 64, 0, 0, 1⟩
def gathered (v : Job) : State :=
  let s := peerAt []
  { s with jobs := [(1, v)], peer := { s.peer with slots := [slot0], staged := [⟨9, 5, 0x8000, 0, 0, false, List.replicate 64 0, 0⟩] } }

theorem wit_residueFault : ∃ (n : Nat) (c : Nat) (group : Nat) (column : Nat) (x : Stream) (y : Taker) (s : State),
    n < 16 ∧
    cOn n s = true ∧
    takerOf n c s = some (x, y) ∧
    y.slots.all (fun z => z.bytes.isEmpty) = false ∧
    group < 36 ∧
    column < x.ncol ∧
    mfind (hive n s).faults c = none ∧
    c ≠ 32 ∧
    mgetD x.replays c 0 < 2 :=
  ⟨0, 31, 35, 19, strm 31, { taken0 with slots := [⟨0, [7], none⟩], buffer := [(0, 0, none)] }, streamingWith 31 Hive.init, by decide +kernel⟩

theorem wit_laneTestComplete : ∃ (n : Nat) (c : Nat) (group : Nat) (column : Nat) (s : State),
    n < 16 ∧
    c ≤ 32 ∧
    mfind (hive n s).faults c = some (group, column) ∧
    (hive n s).takeover.contains c = false ∧
    keeperReady n s = true ∧
    (retiredLanes n c s).length ≠ 4 :=
  ⟨0, 3, 35, 19, streamingWith 3 { Hive.init with faults := [(3, (35, 19))] }, by decide +kernel⟩

theorem wit_cellTakeover : ∃ (n : Nat) (c : Nat) (s : State),
    n < 16 ∧
    c < 32 ∧
    (hive n s).takeover.contains c = true ∧
    (takerOf n c s).isSome = true :=
  ⟨0, 3, streamingWith 3 { Hive.init with takeover := [3], cols := [(3 * 2 ^ 20 + 5, 7), (32 * 2 ^ 20 + 9, 1)] }, by decide +kernel⟩

theorem wit_cellParityError : ∃ (n : Nat) (c : Nat) (kind : Nat) (column : Nat) (x : Stream) (y : Taker) (q : Cue) (v : Job) (s : State),
    takerOf n c s = some (x, y) ∧
    column < 20 ∧
    (kind == 2 || (kind == 3 && !y.slots.isEmpty) || (kind == 4 && !y.buffer.isEmpty)) = true ∧
    (hive n s).cue = some q ∧
    mfind s.jobs q.job = some v ∧
    v.status = 0 ∧
    v.done = false ∧
    v.timedOut = false :=
  ⟨0, 3, 4, 19, strm 3, { taken0 with slots := [⟨0, [7], none⟩], buffer := [(0, 0, none)] }, { cue0 with streams := [strm 3] }, cueJob, streamingWith 3 Hive.init, by decide +kernel⟩

theorem wit_cellRetire : ∃ (n : Nat) (c : Nat) (s : State),
    hOn n s = true ∧
    (usedCells n s).contains c = true ∧
    (hive n s).cue.isSome = true :=
  ⟨0, 32, streamingWith 3 Hive.init, by decide +kernel⟩

theorem wit_cellRetireIdle : ∃ (n : Nat) (c : Nat) (s : State),
    hOn n s = true ∧
    (usedCells n s).contains c = true ∧
    (hive n s).cue = none :=
  ⟨0, 32, live [], by decide +kernel⟩

theorem wit_testStart : ∃ (n : Nat) (c : Nat) (s : State),
    n < 16 ∧
    hOn n s = true ∧
    (usedCells n s).contains c = true :=
  ⟨0, 32, live [], by decide +kernel⟩

theorem wit_cellSelfTest : ∃ (n : Nat) (c : Nat) (x : CellTest) (s : State),
    cOn n s = true ∧
    (usedCells n s).contains c = true ∧
    (hive n s).cue = none :=
  ⟨0, 5, ⟨[], true, true, true⟩, { live [] with hives := [(0, { Hive.init with tests := [5] })] }, by decide +kernel⟩

theorem wit_arbCommit : ∃ (s : State),
    on ARB_COMMIT.BUSY s = false ∧
    portsOpen s = true ∧
    admitted s = true :=
  ⟨live [], by decide +kernel⟩

theorem wit_qosTokenReset : ∃ (mask : BitVec 32) (c : Nat) (s : State),
    c < 32 ∧
    mask.toNat.testBit c = true :=
  ⟨0x80000000, 31, live [], by decide +kernel⟩

theorem wit_guarFactorRecompute : ∃ (n : Nat) (s : State),
    n < 16 ∧
    hivePresent n s = true :=
  ⟨15, live [], by decide +kernel⟩

theorem wit_qosMissWindow : ∃ (n : Nat) (s : State),
    n < 16 ∧
    hOn n s = true :=
  ⟨0, live [], by decide +kernel⟩

theorem wit_winCommit : ∃ (s : State),
    peerPresent s = true ∧
    on WIN_COMMIT.BUSY s = false ∧
    badWindow s = none ∧
    badTree s = none ∧
    nodeBusy s = false :=
  ⟨live [], by decide +kernel⟩

theorem wit_peerTimeoutWrite : ∃ (v : BitVec 32) (s : State),
    peerPresent s = true ∧
    50 ≤ v.toNat % 2 ^ 20 ∧
    retryBound s < v.toNat % 2 ^ 20 :=
  ⟨0x100003E8, live [], by decide +kernel⟩

theorem wit_ppReadyRise : ∃ (s : State),
    peerPresent s = true ∧
    portsOpen s = true ∧
    on PEER_NODE_ID.VALID s = true ∧
    (port 17 s).ready = false ∧
    (port 17 s).parityClosed = false ∧
    (s.live.any fun x => x.2.req.m == 17 && !x.2.answered) = false :=
  ⟨putForce PEER_NODE_ID.VALID 1 (put PEER_NODE_ID.VALID 1 (live [])), by decide +kernel⟩

theorem wit_peerOutboundRequest : ∃ (m : Nat) (r : Req) (q : PeerReq) (s : State),
    (s.peer.inbox.find? fun x => x.1.m == m) = some (r, .ok q) ∧
    ppReady s = true ∧
    unitReq r = false :=
  ⟨0, { req .rd with addr := 2 ^ 63 + 5 * 2 ^ 42, domain := 1 }, peerReq (.port 1) 0 1 0 5 0 1 false 0 0 0 [] (peerAt []), { peerAt [] with ports := [(0, openP), (17, { openP with reqHdr := 64, reqData := 64 })], ctxs := [(7, ctxCp)], peer := { (peerAt []).peer with inbox := [({ req .rd with addr := 2 ^ 63 + 5 * 2 ^ 42, domain := 1 }, .ok (peerReq (.port 1) 0 1 0 5 0 1 false 0 0 0 [] (peerAt [])))] } }, by decide +kernel⟩

theorem wit_peerOutboundRefused : ∃ (m : Nat) (r : Req) (window : Bool) (s : State),
    (s.peer.inbox.find? fun x => x.1.m == m) = some (r, .fault window) :=
  ⟨0, { req .rd with addr := 2 ^ 63 + 5 * 2 ^ 42, domain := 1 }, true, { peerAt [] with ports := [(0, openP), (17, { openP with reqHdr := 64, reqData := 64 })], ctxs := [(7, ctxCp)], peer := { (peerAt []).peer with inbox := [({ req .rd with addr := 2 ^ 63 + 5 * 2 ^ 42, domain := 1 }, .fault true)] } }, by decide +kernel⟩

theorem wit_ppInRd : ∃ (w : BitVec 256) (par : BitVec 32) (x : Nat) (s : State),
    ppAccepted 1 w x s ∧
    slotParity w = par :=
  ⟨hdr 1 0, slotParity (hdr 1 0), 1, peerAt [], by unfold ppAccepted; decide +kernel⟩

theorem wit_ppInWr : ∃ (w : BitVec 256) (par : BitVec 32) (d : List Byte) (dpar : List Bool) (x : Nat) (s : State),
    ppAccepted 2 w x s ∧
    slotParity w = par ∧
    dpar = bytesParity d :=
  ⟨hdr 2 ((2 ^ 64 - 1) * 2 ^ 192), slotParity (hdr 2 ((2 ^ 64 - 1) * 2 ^ 192)), List.replicate 64 7, bytesParity (List.replicate 64 7), 1, peerAt [], by unfold ppAccepted; decide +kernel⟩

theorem wit_ppInRed : ∃ (w : BitVec 256) (par : BitVec 32) (d : List Byte) (dpar : List Bool) (x : Nat) (c : Contribution) (s : State),
    ppAccepted 3 w x s ∧
    slotParity w = par ∧
    dpar = bytesParity d ∧
    permitted (rd (WIN_CTL.DOMAIN x) s) true (inAddr x (ppOff w) s) (ppBeats w) s = true ∧
    c = ⟨slotF w 192 32, ppSrc w, inAddr x (ppOff w) s, slotF w 224 2, slotF w 226 2, (slotRound (slotF w 192 32) s).isNone, padTo (64 * ppBeats w) d, s.rounds⟩ ∧
    stageRefusal c s = 0 :=
  ⟨hdr 3 (9 * 2 ^ 192), slotParity (hdr 3 (9 * 2 ^ 192)), List.replicate 64 7, bytesParity (List.replicate 64 7), 1, ⟨9, 5, inAddr 1 0 (peerAt []), 0, 0, true, List.replicate 64 7, 0⟩, peerAt [], by unfold ppAccepted; decide +kernel⟩

theorem wit_ppInBcast : ∃ (w : BitVec 256) (par : BitVec 32) (d : List Byte) (dpar : List Bool) (x : Nat) (s : State),
    ppAccepted 4 w x s ∧
    slotF w 26 4 = 1 ∧
    slotParity w = par ∧
    dpar = bytesParity d ∧
    permitted (rd (WIN_CTL.DOMAIN x) s) true (inAddr x (ppOff w) s) (ppBeats w) s = true :=
  ⟨hdr 4 (2 ^ 26), slotParity (hdr 4 (2 ^ 26)), List.replicate 64 7, bytesParity (List.replicate 64 7), 1, peerAt [], by unfold ppAccepted; decide +kernel⟩

theorem wit_ppInRelay : ∃ (w : BitVec 256) (par : BitVec 32) (d : List Byte) (dpar : List Bool) (s : State),
    slotF w 0 4 = 5 ∧
    (port 17 s).ready = true ∧
    slotParity w = par ∧
    dpar = bytesParity d ∧
    0 < (port 17 s).reqHdr ∧
    (ppBeats w + 3) / 4 ≤ (port 17 s).reqData ∧
    ppFormat w = 0 ∧
    slotF w 64 20 = myNode s ∧
    on PEER_CFG.RELAY_EN s = true ∧
    on FWM_UPD_CFG.SRC s = true ∧
    s.peer.relay.forwarding = false :=
  ⟨hdr 5 0, slotParity (hdr 5 0), List.replicate 64 7, bytesParity (List.replicate 64 7), peerAt [(PEER_CFG.RELAY_EN, 1), (FWM_UPD_CFG.SRC, 1)], by decide +kernel⟩

theorem wit_ppInNop : ∃ (w : BitVec 256) (par : BitVec 32) (s : State),
    slotParity w = par :=
  ⟨0, slotParity (0), peerAt [], by decide +kernel⟩

theorem wit_ppInNopParity : ∃ (w : BitVec 256) (par : BitVec 32) (s : State),
    (port 17 s).ready = true ∧
    slotF w 0 4 = 0 ∧
    slotParity w ≠ par :=
  ⟨0, 0, peerAt [], by decide +kernel⟩

theorem wit_ppRspIn : ∃ (w : BitVec 256) (par : BitVec 32) (d : List Byte) (dpar : List Bool) (r : PeerReq) (u : Nat) (s : State),
    ppAnswers s = true ∧
    slotParity w = par ∧
    dpar = bytesParity d ∧
    0 < s.peer.rspInHdr ∧
    (d.length + 255) / 256 ≤ s.peer.rspInData ∧
    slotF w 0 4 = rtWrAck ∧
    s.peer.quarantine.contains (slotF w 8 12) = false ∧
    mfind s.peer.reqs (slotF w 8 12) = some r ∧
    r.dest = .bcast u :=
  ⟨hdr 1 0, slotParity (hdr 1 0), [], [], outReq (.bcast 3), 3, outstanding (outReq (.bcast 3)) [⟨3, 0, 0, true, 1, none⟩], by decide +kernel⟩

theorem wit_peerRequestTimeout : ∃ (tag : Nat) (u : Nat) (r : PeerReq) (s : State),
    mfind s.peer.reqs tag = some r ∧
    r.dest = .bcast u :=
  ⟨7, 3, outReq (.bcast 3), outstanding (outReq (.bcast 3)) [⟨3, 0, 0, true, 1, none⟩], by decide +kernel⟩

theorem wit_gatherApply : ∃ (j : Nat) (g : GatherSlot) (v : Job) (s : State),
    (s.peer.slots.find? fun g => g.job == j) = some g ∧
    mfind s.jobs j = some v ∧
    v.stopped = false ∧
    v.waitRecord = false ∧
    v.outstanding = 1 ∧
    v.pos = 0 ∧
    v.bytes = [] ∧
    roundComplete g s = true ∧
    0 < jLen v :=
  ⟨1, slot0, { job1 5 gatherWords with outstanding := 1 }, gathered { job1 5 gatherWords with outstanding := 1 }, by decide +kernel⟩

theorem wit_gatherCombines : ∃ (j : Nat) (g : GatherSlot) (v : Job) (s : State),
    (s.peer.slots.find? fun g => g.job == j) = some g ∧
    mfind s.jobs j = some v ∧
    v.stopped = false ∧
    jLen v ≤ v.pos :=
  ⟨1, slot0, { job1 5 gatherWords with outstanding := 1, pos := 64, bytes := List.replicate 64 0 }, gathered { job1 5 gatherWords with outstanding := 1, pos := 64, bytes := List.replicate 64 0 }, by decide +kernel⟩

theorem wit_bcastAck : ∃ (u : Nat) (b : BcastWait) (s : State),
    (s.peer.bcasts.find? fun b => b.uid == u) = some b ∧
    b.wrote = true ∧
    b.left = 0 :=
  ⟨3, ⟨3, hdr 4 0, 0, true, 0, none⟩, outstanding (outReq .relay) [⟨3, hdr 4 0, 0, true, 0, none⟩], by decide +kernel⟩

theorem wit_relayForwardEnd : ∃ (s : State),
    s.peer.relay.forwarding = true ∧
    relayOpen s = false :=
  ⟨{ peerAt [] with peer := { (peerAt []).peer with relay := ⟨64, [], 64, true, []⟩ } }, by decide +kernel⟩

theorem wit_relayResend : ∃ (tag : Nat) (r : PeerReq) (s : State),
    mfind s.peer.reqs tag = some r ∧
    r.dest = .relay ∧
    r.got ≠ [] ∧
    s.peer.relay.forwarding = true ∧
    r.resent < 3 :=
  ⟨7, { outReq .relay with got := [1] }, { outstanding { outReq .relay with got := [1] } [] with peer := { (outstanding { outReq .relay with got := [1] } []).peer with relay := ⟨64, [], 64, true, []⟩ } }, by decide +kernel⟩

/-! ### Firmware, counters and registers -/

/-- The test machine with an update in a state. -/
def updating (n : Nat) : State := live [(FWM_UPD_STATUS.STATE, n)]

/-- A STATUS request. -/
def statusMsg : List Byte := [1, 0, 0, 0, 121, 184, 248, 153]

/-- An UPDATE_BEGIN request for a package of 5 bytes. -/
def beginMsg : List Byte := [2, 0, 9, 0, 5, 0, 0, 0, 0, 0, 0, 0, 0, 3, 136, 242, 94]

/-- An UPDATE_CHUNK request of two bytes at offset 1. -/
def chunkMsg : List Byte := [3, 0, 10, 0, 1, 0, 0, 0, 0, 0, 0, 0, 99, 100, 102, 66, 32, 172]

/-- An UPDATE_END request. -/
def endMsg : List Byte := [4, 0, 0, 0, 75, 72, 38, 174]

/-- A P-384 public key, the digest of no bytes, and OTP that holds the key's digest in slot 0. -/
def keyBytes : List Byte := [4, 122, 233, 225, 219, 17, 96, 121, 76, 112, 193, 239, 7, 27, 229, 25, 31, 108, 102, 36, 15, 70, 8, 251, 232, 164, 78, 205, 54, 195, 237, 93, 185, 117, 0, 242, 228, 216, 78, 63, 180, 88, 80, 253, 111, 67, 3, 48, 43, 216, 172, 33, 68, 76, 216, 13, 36, 21, 56, 216] ++
  [3, 75, 57, 154, 13, 238, 54, 54, 235, 92, 176, 11, 148, 153, 208, 97, 165, 113, 219, 15, 20, 187, 71, 237, 121, 69, 57, 72, 237, 99, 243, 166, 204, 187, 246, 231, 79]
def emptyDigest : List Byte := [56, 176, 96, 167, 81, 172, 150, 56, 76, 217, 50, 126, 177, 177, 227, 106, 33, 253, 183, 17, 20, 190, 7, 67, 76, 12, 199, 191, 99, 246, 225, 218, 39, 78, 222, 191, 231, 111, 101, 251, 213, 26, 210, 241, 72, 152, 185, 91]
def keyOtp : Otp := { Otp.init with digests := [38324350181116494222295728507688469996619752005905591202589218521772480057113840893575284244086979423165963480970691, 0, 0, 0, 38324350181116494222295728507688469996619752005905591202589218521772480057113840893575284244086979423165963480970691, 0] }

/-- A map that holds bytes from an address on. -/
def place (a : Nat) : List Byte → AMap Byte
  | [] => []
  | b :: bs => (a, b) :: place (a + 1) bs

/-- The signature of a delta package from an empty slot to an empty image, and the package stagedDelta. -/
def deltaSig : List Byte := [244, 63, 33, 153, 124, 42, 226, 157, 230, 137, 207, 225, 171, 58, 255, 217, 3, 197, 23, 33, 203, 176, 42, 85, 29, 3, 174, 155, 138, 144, 229, 3, 196, 69, 61, 241, 96, 116, 48, 194, 82, 140, 143, 84, 98, 238, 215, 103, 20, 217, 47, 239, 115, 223, 95, 38, 118, 53, 245, 238] ++
  [132, 174, 85, 160, 57, 240, 169, 59, 72, 164, 207, 99, 151, 210, 164, 253, 101, 161, 190, 8, 166, 16, 51, 247, 237, 242, 224, 220, 3, 162, 44, 140, 72, 71, 115, 111]
def deltaPkg : List Byte :=
  [0x4C, 0x4D, 0x44, 0x31, 0, 0, 0, 0, 0, 0, 0, 0, 0, 0, 0, 0] ++ emptyDigest ++ [1, 0, 0, 0, 0, 0, 0, 0, 0, 0, 0, 0, 0, 0, 0, 0] ++ emptyDigest ++
    keyBytes ++ deltaSig
def stagedDelta : State :=
  let s := updating 2
  { s with otp := keyOtp, fw := { s.fw with pkg := place 0 deltaPkg, pkgLen := 321 } }

/-- An image header and four section entries, enough for the prompt-book formats, in both slots. -/
def codeHead : List Byte :=
  [0x4C, 0x4D, 0x46, 0x31, 1, 0, 0, 0, 1, 0, 0, 0, 0, 0, 0, 0, 3, 0, 0, 0, 0, 2, 0, 0, 4, 0, 0, 0, 0, 0, 0, 0] ++ List.replicate 224 0 ++
    ([0, 1, 2, 3].flatMap fun k => [1, k, 0, 0, 0, 0, 0, 0, 0, 0, 0, 0, 1, 0, 1, 0] ++ List.replicate 48 0)
def loaded (n : Nat) : State := { updating n with flash := place (slotBase 0) codeHead ++ place (slotBase 1) codeHead }

/-- A DEBUG_CHALLENGE request for scope 5. -/
def challengeMsg : List Byte := [5, 0, 1, 0, 5, 213, 230, 106, 127]

/-- A DEBUG_RESPONSE to the challenge of `challenged`. -/
def responseMsg : List Byte := [6, 0, 209, 0, 52, 18, 0, 0, 0, 0, 0, 0, 5, 0, 0, 0, 0, 0, 0, 0, 4, 122, 233, 225, 219, 17, 96, 121, 76, 112, 193, 239, 7, 27, 229, 25, 31, 108, 102, 36, 15, 70, 8, 251, 232, 164, 78, 205, 54, 195, 237, 93, 185, 117, 0, 242, 228, 216, 78, 63] ++
  [180, 88, 80, 253, 111, 67, 3, 48, 43, 216, 172, 33, 68, 76, 216, 13, 36, 21, 56, 216, 3, 75, 57, 154, 13, 238, 54, 54, 235, 92, 176, 11, 148, 153, 208, 97, 165, 113, 219, 15, 20, 187, 71, 237, 121, 69, 57, 72, 237, 99, 243, 166, 204, 187, 246, 231, 79, 244, 63, 33] ++
  [153, 124, 42, 226, 157, 230, 137, 207, 225, 171, 58, 255, 217, 3, 197, 23, 33, 203, 176, 42, 85, 29, 3, 174, 155, 138, 144, 229, 3, 196, 69, 61, 241, 96, 116, 48, 194, 82, 140, 143, 84, 98, 238, 215, 103, 63, 180, 227, 44, 194, 18, 15, 49, 229, 159, 231, 152, 68, 56, 90] ++
  [55, 67, 218, 175, 235, 71, 59, 124, 81, 116, 28, 164, 200, 123, 125, 232, 56, 54, 200, 93, 12, 183, 72, 112, 98, 182, 247, 136, 14, 59, 136, 40, 143, 34, 114, 30, 142]

/-- A part in the field with a live challenge. -/
def challenged : State :=
  let s := live [(LCS_STATE.STATE, 2)]
  { s with otp := keyOtp, fw := { s.fw with nonce := some [0, 0, 0, 0, 0, 0, 0, 0, 52, 18, 0, 0, 0, 0, 0, 0, 5, 2, 0, 0, 0, 0, 0, 0, 0, 0, 0, 0] } }

/-- An AUDIT_FETCH request for the audit key. -/
def auditKeyMsg : List Byte := [7, 0, 9, 0, 0, 0, 0, 0, 0, 0, 0, 0, 1, 201, 78, 77, 126]

/-- An AUDIT_FETCH request for batches. -/
def auditMsg : List Byte := [7, 0, 9, 0, 0, 0, 0, 0, 0, 0, 0, 0, 0, 95, 126, 74, 9]

/-- The mailbox with one request waiting. -/
def mailed (r : List Nat) : State :=
  let s := live [(FWM_MBX_EVT_CFG.EN, 1), (FWM_UPD_STATUS.STATE, 6)]
  { s with host := { s.host with cfg := [(0x04, 6)] }, fw := { s.fw with mbxReq := [r] } }

/-- The test machine at a temperature at which OTP can be programmed, with a life-cycle state. -/
def warm (st : Nat) : State := live [(THM_STATE.HOTTEST, 100), (LCS_STATE.STATE, st)]

/-- A complete relay package that this node sends on. -/
def relayed : State :=
  { live [(FWM_RELAY_CFG.FWD, 1), (FWM_RELAY_CFG.LINK, 3)] with otp := keyOtp, peer := { (live []).peer with relay := ⟨321, place 0 deltaPkg, 0, false, []⟩ } }

theorem wit_relayForward : ∃ s : State, s.peer.relay.forwarding = false ∧ 0 < s.peer.relay.len ∧ s.peer.relay.len ≤ s.peer.relay.bytes.length ∧
    deltaForm (relayBytes s.peer.relay.bytes 0 s.peer.relay.len) = true ∧
    (signedBy (relayBytes s.peer.relay.bytes 0 s.peer.relay.len) (deltaKey (relayBytes s.peer.relay.bytes 0 s.peer.relay.len)) s.otp).isSome = true ∧
    forwards (relayApply (relayBytes s.peer.relay.bytes 0 s.peer.relay.len) s) = true :=
  ⟨relayed, by decide +kernel⟩

theorem wit_svcBusy : ∃ (msg : List Byte) (s : State),
    s.svcWait ≠ [] :=
  ⟨[], { live [] with svcWait := [[1]] }, by decide +kernel⟩

theorem wit_statusReq : ∃ (msg : List Byte) (s : State),
    svcArrives 1 msg s :=
  ⟨statusMsg, live [], by unfold svcArrives; decide +kernel⟩

theorem wit_updateBegin : ∃ (msg : List Byte) (s : State),
    svcArrives 2 msg s ∧
    on FWM_UPD_CFG.SRC s = false ∧
    9 ≤ (svcPayload msg).length ∧
    (updState s = 0 ∨ updState s = 6) ∧
    raising s = false :=
  ⟨beginMsg, live [], by unfold svcArrives; decide +kernel⟩

theorem wit_updateChunk : ∃ (msg : List Byte) (s : State),
    svcArrives 3 msg s ∧
    9 ≤ (svcPayload msg).length ∧
    updState s = 1 :=
  ⟨chunkMsg, updating 1, by unfold svcArrives; decide +kernel⟩

theorem wit_updateEnd : ∃ (msg : List Byte) (s : State),
    svcArrives 4 msg s ∧
    updState s = 1 :=
  ⟨endMsg, updating 1, by unfold svcArrives; decide +kernel⟩

theorem wit_updateCheckDone : ∃ (s : State),
    updState s = 2 ∧
    (checkPackage (relayOfSvc s)).1 = 0 :=
  ⟨stagedDelta, by decide +kernel⟩

theorem wit_updateApplyDone : ∃ (s : State),
    updState s = 3 ∧
    flashOk s = true :=
  ⟨{ stagedDelta with regs := (put FWM_UPD_STATUS.STATE 3 stagedDelta).regs }, by decide +kernel⟩

theorem wit_updateLoadDone : ∃ (s : State),
    updState s = 5 ∧
    bookOk (runImage s) (slotImage (targetSlot s) s) = true :=
  ⟨loaded 5, by decide +kernel⟩

theorem wit_handover : ∃ (ready : List Nat) (s : State),
    updState s = 8 ∧
    actHeld s = false ∧
    (∀ i < 21, 1 ≤ i → i ∈ ready) :=
  ⟨(List.range 21), updating 8, by decide +kernel⟩

theorem wit_bootRecordWrite : ∃ (s : State),
    updState s = 9 ∧
    flashOk s = true ∧
    coreReady 0 s = true :=
  ⟨updating 9, by decide +kernel⟩

theorem wit_deferralTimeout : ∃ (r : Nat) (s : State),
    updState s = 7 ∧
    s.fw.deferred = some r ∧
    r + 600000 ≤ s.rounds :=
  ⟨100, { updating 7 with rounds := 600100, fw := { (updating 7).fw with deferred := some 100 } }, by decide +kernel⟩

theorem wit_debugChallengeReq : ∃ (msg : List Byte) (s : State),
    svcArrives 5 msg s ∧
    svcPayload msg ≠ [] ∧
    on LCS_DBG_STATUS.LOCKOUT s = false :=
  ⟨challengeMsg, live [], by unfold svcArrives; decide +kernel⟩

theorem wit_debugResponse : ∃ (msg : List Byte) (s : State),
    svcArrives 6 msg s ∧
    (svcPayload msg).length = 209 ∧
    on LCS_DBG_STATUS.LOCKOUT s = false ∧
    responseResult (svcPayload msg) s = 0 :=
  ⟨responseMsg, challenged, by unfold svcArrives; decide +kernel⟩

theorem wit_auditFetch : ∃ (msg : List Byte) (s : State),
    svcArrives 7 msg s ∧
    9 ≤ (svcPayload msg).length ∧
    leAt (svcPayload msg) 8 1 = 1 :=
  ⟨auditKeyMsg, live [], by unfold svcArrives; decide +kernel⟩

theorem wit_auditFetchBatches : ∃ (msg : List Byte) (b : Nat × Nat × Nat × List Byte) (s : State),
    svcArrives 7 msg s ∧
    9 ≤ (svcPayload msg).length ∧
    leAt (svcPayload msg) 8 1 = 0 ∧
    s.audit.entries = [] ∧
    s.audit.released = 0 ∧
    leAt (svcPayload msg) 0 8 = 0 ∧
    s.audit.batches.head? = some b ∧
    b.2.2.2.length ≤ 4088 :=
  ⟨auditMsg, (0, 0, 0, [1, 2]), { live [] with audit := { (live []).audit with batches := [(0, 0, 0, [1, 2])] } }, by unfold svcArrives; decide +kernel⟩

theorem wit_mbxStatus : ∃ (r : List Nat) (s : State),
    mbxHead (mbxGo s) = some r ∧
    mbxType r = 1 :=
  ⟨[1], mailed [1], by decide +kernel⟩

theorem wit_settingsRead : ∃ (r : List Nat) (s : State),
    mbxHead (mbxGo s) = some r ∧
    mbxType r = 2 ∧
    (itemSize (mbxArg r % 2 ^ 16)).isSome = true :=
  ⟨[2, 1], mailed [2, 1], by decide +kernel⟩

theorem wit_settingsWrite : ∃ (r : List Nat) (s : State),
    mbxHead (mbxGo s) = some r ∧
    mbxType r = 3 ∧
    itemSize (leAt (wordBytes (r.drop 1)) 0 2) = some (leAt (wordBytes (r.drop 1)) 2 2) ∧
    flashOk (mbxGo s) = true :=
  ⟨[3, 1 + 16 * 2 ^ 16, 7], mailed [3, 1 + 16 * 2 ^ 16, 7], by decide +kernel⟩

theorem wit_coreRestart : ∃ (core : Nat) (reason : Nat) (s : State),
    1 ≤ reason ∧
    reason ≤ 3 ∧
    corePresent core s = true ∧
    released s = true ∧
    (coreOf core s).retired = false ∧
    (coreOf core s).waiting = false ∧
    (coreOf core s).last = none :=
  ⟨5, 2, live [], by decide +kernel⟩

theorem wit_coreRestartAsked : ∃ (r : List Nat) (core : Nat) (s : State),
    mbxHead (mbxGo s) = some r ∧
    mbxType r = 4 ∧
    corePresent (mbxArg r) (mbxGo s) = true ∧
    (coreOf (mbxArg r) (mbxGo s)).retired = false :=
  ⟨[4, 5], 5, mailed [4, 5], by decide +kernel⟩

theorem wit_coreWatchdogExpiry : ∃ (core : Nat) (s : State),
    corePresent core s = true ∧
    released s = true ∧
    (coreOf core s).retired = false ∧
    (coreOf core s).waiting = false ∧
    (coreOf core s).last = none :=
  ⟨5, live [], by decide +kernel⟩

theorem wit_coreRestartDelayExpiry : ∃ (core : Nat) (s : State),
    (coreOf core s).waiting = true ∧
    (coreOf core s).ends ≤ s.rounds :=
  ⟨5, setCore 5 { Core.init with waiting := true } (live []), by decide +kernel⟩

theorem wit_updActivate : ∃ (r : List Nat) (s : State),
    mbxHead (mbxGo s) = some r ∧
    mbxType r = 5 ∧
    (mbxArg r).testBit 0 = false ∧
    (updState (mbxGo s) = 6 ∨ updState (mbxGo s) = 7) :=
  ⟨[5, 0], mailed [5, 0], by decide +kernel⟩

theorem wit_updActivateCold : ∃ (r : List Nat) (s : State),
    mbxHead (mbxGo s) = some r ∧
    mbxType r = 5 ∧
    (mbxArg r).testBit 0 = true ∧
    (updState (mbxGo s) = 6 ∨ updState (mbxGo s) = 7) ∧
    flashOk (mbxGo s) = true :=
  ⟨[5, 1], mailed [5, 1], by decide +kernel⟩

theorem wit_updAbort : ∃ (r : List Nat) (s : State),
    mbxHead (mbxGo s) = some r ∧
    mbxType r = 6 ∧
    1 ≤ updState (mbxGo s) ∧
    updState (mbxGo s) < 8 :=
  ⟨[6], mailed [6], by decide +kernel⟩

theorem wit_eventRead : ∃ (r : List Nat) (e : Event) (s : State),
    mbxHead (mbxGo s) = some r ∧
    mbxType r = 7 ∧
    (mbxGo s).evLog[mbxArg r]? = some e :=
  ⟨[7, 0], ⟨1, 0, 0, 0, 1, []⟩, { mailed [7, 0] with evLog := [⟨1, 0, 0, 0, 1, []⟩] }, by decide +kernel⟩

theorem wit_mbxAnswer : ∃ (result : Nat) (payload : List Nat) (r : List Nat) (rs : List (List Nat)) (s : State),
    s.fw.mbxReq = r :: rs :=
  ⟨0, [], [1], [], mailed [1], by decide +kernel⟩

theorem wit_advance : ∃ (target : Nat) (s : State),
    coreReady 0 s = true ∧
    on LCS_CMD.BUSY s = false ∧
    lcsPending s = false ∧
    transitionOk target s = some true ∧
    otpWindow s = true :=
  ⟨4, warm 1, by decide +kernel⟩

theorem wit_lcsResume : ∃ (s : State),
    coreReady 0 s = true ∧
    on LCS_CMD.BUSY s = false ∧
    lcsPending s = true ∧
    otpWindow s = true :=
  ⟨{ warm 0 with otp := { Otp.init with lc := (1, 0, 0) } }, by decide +kernel⟩

theorem wit_raiseFloor : ∃ (s : State),
    coreReady 0 s = true ∧
    on LCS_CMD.BUSY s = false ∧
    lcsPending s = false ∧
    updState s = 0 ∧
    secFloor s.otp < min 64 (imgSec (runImage s)) ∧
    otpWindow s = true :=
  ⟨{ loaded 0 with regs := (warm 0).regs }, by decide +kernel⟩

theorem wit_dbgClose : ∃ (s : State),
    coreReady 0 s = true ∧
    on LCS_CMD.BUSY s = false ∧
    lcsPending s = false ∧
    on LCS_STATE.DBG_OPEN s = true :=
  ⟨put LCS_STATE.DBG_OPEN 1 (warm 2), by decide +kernel⟩

theorem wit_revoke : ∃ (slot : Nat) (s : State),
    coreReady 0 s = true ∧
    on LCS_CMD.BUSY s = false ∧
    lcsPending s = false ∧
    slot ≤ 5 ∧
    slotInUse slot s = false ∧
    otpWindow s = true :=
  ⟨1, warm 2, by decide +kernel⟩

theorem wit_bwWindowEnd : ∃ (s : State),
    on PMC_BW_CFG.WIN_US s = true :=
  ⟨live [(PMC_BW_CFG.WIN_US, 5)], by decide +kernel⟩

theorem wit_pmcSmpEnable : ∃ (n : Nat) (v : BitVec 32) (s : State),
    n < 16 ∧
    hivePresent n s = true ∧
    hOn n s = true ∧
    on (PMC_SMP_CFG.EN n) s = false ∧
    v.toNat.testBit 0 = true :=
  ⟨0, 0x29, live [], by decide +kernel⟩

theorem wit_sampleRecordWrite : ∃ (n : Nat) (x : Sample) (s : State),
    n < 16 ∧
    hOn n s = true ∧
    ((samplerOf n s).items.find? fun x => x.done) = some x ∧
    (on (PMC_SMP_CFG.WRAP n) s = true ∨ (samplerOf n s).written < 4096) :=
  ⟨0, ⟨1, [0, 0, 0, 0, 0, 0, 0], 0, true⟩, { live [] with samplers := [(0, { Sampler.init with items := [⟨1, [0, 0, 0, 0, 0, 0, 0], 0, true⟩] })] }, by decide +kernel⟩

theorem wit_registerWrite : ∃ (off : Nat) (v : BitVec 32) (s : State),
    barsOpen s = true ∧
    off % 4 = 0 ∧
    off < 2 ^ 24 :=
  ⟨0x40000, 3, live [], by decide +kernel⟩

theorem wit_ppCreditReturn : ∃ (rh : Nat) (rdt : Nat) (sh : Nat) (sd : Nat) (s : State),
    ppAnswers s = true :=
  ⟨1, 2, 3, 4, setPort 17 { port 17 (live []) with ready := true } (live []), by decide +kernel⟩

theorem wit_jtgBypass : ∃ (ir : BitVec 8) (tdi : BitVec 32) (s : State),
    ir ≠ 0x01 ∧
    ir ≠ 0x20 ∧
    ir ≠ 0x30 :=
  ⟨0xFF, 5, live [], by decide +kernel⟩

theorem wit_jtgClosed : ∃ (ir : BitVec 8) (tdi : BitVec 32) (s : State),
    (ir = 0x20 ∧ debugPermitted 0 s = false) ∨ (ir = 0x30 ∧ debugPermitted 1 s = false) :=
  ⟨0x20, 5, live [(LCS_STATE.STATE, 4)], by decide +kernel⟩

theorem wit_jtgDebug : ∃ (tdi : BitVec 32) (s : State),
    debugPermitted 0 s = true :=
  ⟨5, live [(LCS_STATE.STATE, 0)], by decide +kernel⟩

theorem wit_jtgStack : ∃ (tdi : BitVec 32) (s : State),
    debugPermitted 1 s = true :=
  ⟨5, live [(LCS_STATE.STATE, 0)], by decide +kernel⟩

/-! ### Further clauses -/

/-- A relay part that has been resent three times and has an answer. -/
def tired : PeerReq := { outReq .relay with got := [1], resent := 3 }
def relaying (r : PeerReq) : State :=
  { outstanding r [] with peer := { (outstanding r []).peer with relay := ⟨64, [], 64, true, []⟩ } }

theorem wit_restartKeeps : ∃ (core : Nat) (c : Instr) (s t : State),
    ((∃ reason, 1 ≤ reason ∧ reason ≤ 3 ∧ c = .coreRestart core reason) ∨ c = .coreWatchdogExpiry core ∨ c = .coreRestartDelayExpiry core) ∧
    exec c s = .next t :=
  ⟨5, .coreWatchdogExpiry 5, live [], _, .inr (.inl rfl), rfl⟩

theorem wit_bucketsCommitted : ∃ (s : State),
    on ARB_COMMIT.BUSY s = false ∧
    (portsOpen s = true ∨ guarShadow s = 0) ∧
    admitted s = true :=
  ⟨live [], by decide +kernel⟩

theorem wit_bucketsReset : ∃ (mask : BitVec 32) (c : Nat) (s : State),
    c < 32 ∧
    mask.toNat.testBit c = true :=
  ⟨1, 0, live [], by decide +kernel⟩

theorem wit_relayFaulted : ∃ (w : BitVec 256) (par : BitVec 32) (d : List Byte) (dpar : List Bool) (r : PeerReq) (s : State),
    ppAnswers s = true ∧
    slotParity w = par ∧
    dpar = bytesParity d ∧
    0 < s.peer.rspInHdr ∧
    (d.length + 255) / 256 ≤ s.peer.rspInData ∧
    4 ≤ slotF w 0 4 ∧
    slotF w 0 4 ≤ 9 ∧
    s.peer.quarantine.contains (slotF w 8 12) = false ∧
    mfind s.peer.reqs (slotF w 8 12) = some r ∧
    r.dest = .relay :=
  ⟨hdr 5 0, slotParity (hdr 5 0), [], [], outReq .relay, outstanding (outReq .relay) [], by decide +kernel⟩

theorem wit_relayTimedOut : ∃ (tag : Nat) (r : PeerReq) (s : State),
    mfind s.peer.reqs tag = some r ∧
    r.dest = .relay :=
  ⟨7, outReq .relay, outstanding (outReq .relay) [], by decide +kernel⟩

theorem wit_relayGivesUp : ∃ (tag : Nat) (r : PeerReq) (s : State),
    mfind s.peer.reqs tag = some r ∧
    r.dest = .relay ∧
    r.got ≠ [] ∧
    s.peer.relay.forwarding = true ∧
    3 ≤ r.resent :=
  ⟨7, tired, relaying tired, by decide +kernel⟩

theorem wit_ueReport : ∃ (n : Nat) (c : Nat) (off : Nat) (src : Nat) (marked : Bool) (s : State),
    n < 16 :=
  ⟨0, 1, 0x40, 2, false, live [], by decide +kernel⟩

theorem wit_lastReread : ∃ (n : Nat) (c : Nat) (p : Nat) (r : Retry) (errs : ErrPat) (t : State) (s : State),
    pcUsed n c p s = true ∧
    (pcOf n c p s).retries.find? (fun r => r.asked || !mayReread n (pcOf n c p s) r s) = some r ∧
    r.asked = true ∧
    t = setPc n c p { pcOf n c p s with retries := (pcOf n c p s).retries.filter fun x => x.ent.seq != r.ent.seq } s ∧
    decodeErr errs (erasedSymbols n c p t) = .uncorrectable ∧
    mayReread n (pcOf n c p s) r s = false ∧
    r.src = 1 :=
  ⟨0, 0, 0, again 3, fiveErrs, setPc 0 0 0 calm (atPc { calm with retries := [again 3] }), atPc { calm with retries := [again 3] }, by decide +kernel⟩

theorem wit_timeoutRefused : ∃ (v : BitVec 32) (s : State),
    peerPresent s = true ∧
    (v.toNat % 2 ^ 20 < 50 ∨ v.toNat % 2 ^ 20 ≤ retryBound s) :=
  ⟨0, live [], by decide +kernel⟩

theorem wit_timeoutTaken : ∃ (v : BitVec 32) (s : State),
    peerPresent s = true ∧
    50 ≤ v.toNat % 2 ^ 20 ∧
    retryBound s < v.toNat % 2 ^ 20 :=
  ⟨0xFFFFF, live [], by decide +kernel⟩

theorem wit_closeRefused : ∃ (s : State),
    on CTX_CMD.BUSY s = false ∧
    coreReady 2 s = true ∧
    rd CTX_SEL.CTX s ≠ 0 ∧
    s.overruns.contains CTX_CMD.CMD.off = false ∧
    cHome (ctxOf (rd CTX_SEL.CTX s) s) = 16 ∧
    (rd (CTX_HB_STATUS.STATE (cHset (ctxOf (rd CTX_SEL.CTX s) s))) s = 2 ∨ rd (CTX_HB_STATUS.STATE (cHset (ctxOf (rd CTX_SEL.CTX s) s))) s = 3) :=
  ⟨{ live ((CTX_HB_STATUS.STATE 2, 2) :: stage7) with ctxs := [(7, ctxHp)] }, by decide +kernel⟩

theorem wit_blockReadsBack : ∃ (n : Nat) (c : Nat) (off : Nat) (d : Beat) (s : State),
    Inv s :=
  ⟨0, 1, 0x80, 5, live [], by unfold Sys2Proof.Machine.Inv; decide +kernel⟩

theorem wit_markedBlock : ∃ (n : Nat) (c : Nat) (off : Nat) (s : State),
    Inv s :=
  ⟨0, 1, 0x80, live [], by unfold Sys2Proof.Machine.Inv; decide +kernel⟩

theorem wit_commitTakes : ∃ (f : Fld) (s : State),
    f.acc = .rws ∧
    f.key < 8 * 0x10000 ∧
    keysRise s.shadow = true :=
  ⟨GLB_RGN_BASE.BASE 0, putShadow (GLB_RGN_BASE.BASE 0) 5 (live []), by decide +kernel⟩

theorem wit_commitLeaves : ∃ (f : Fld) (s : State),
    (f.acc ≠ .rws ∨ 8 * 0x10000 ≤ f.key) :=
  ⟨GLB_STATUS.PHASE, live [], by decide +kernel⟩

theorem wit_mapWrites : ∃ (off : Nat) (v : BitVec 32) (s : State),
    barsOpen s = true ∧
    portsOpen s = true ∧
    (off = 0x14 ∨ off = 0x18 ∨ (∃ i < 8, off = 0x20 + 4 * i) ∨ ∃ j < 9, off = 0x80 + 4 * j) :=
  ⟨0x14, 5, live [], by decide +kernel⟩

theorem wit_unassigned : ∃ (off : Nat) (v : BitVec 32) (s : State),
    barsOpen s = true ∧
    off % 4 = 0 ∧
    0x90000 ≤ off ∧
    (off < 0x100000 ∨ 0x500000 ≤ off) ∧
    off < 2 ^ 24 :=
  ⟨0x90000, 5, live [], by decide +kernel⟩

theorem wit_faultRecorded : ∃ (ctx : Nat) (src : Nat) (addr : Nat) (write : Bool) (window : Bool) (s : State),
    on GLB_FAULT_INFO.VALID s = false :=
  ⟨1, 2, 3, true, false, live [], by decide +kernel⟩

theorem wit_faultOverflow : ∃ (ctx : Nat) (src : Nat) (addr : Nat) (write : Bool) (window : Bool) (s : State),
    on GLB_FAULT_INFO.VALID s = true :=
  ⟨1, 2, 3, true, false, live [(GLB_FAULT_INFO.VALID, 1)], by decide +kernel⟩

theorem wit_formatRefused : ∃ (k : Nat) (r : Req) (rest : List Req) (op : Op) (c : Instr) (s : State),
    (op, c) ∈ [(Op.rd, Instr.cpRd k), (Op.wr, Instr.cpWr k false), (Op.push, Instr.cpActPush k false)] ∧
    (port k s).rx = r :: rest ∧
    r.op = op ∧
    k < 16 ∧
    r.src = .cp k ∧
    formatAt k r s ≠ 0 ∧
    (port k s).ready = true :=
  ⟨0, { req .rd with addr := 1 }, [], .rd, .cpRd 0, atPort { openP with rx := [{ req .rd with addr := 1 }] }, by decide +kernel⟩

theorem wit_accessRefused : ∃ (k : Nat) (r : Req) (rest : List Req) (op : Op) (c : Instr) (s : State),
    (op, c) ∈ [(Op.rd, Instr.cpRd k), (Op.wr, Instr.cpWr k false), (Op.push, Instr.cpActPush k false)] ∧
    (port k s).rx = r :: rest ∧
    r.op = op ∧
    k < 16 ∧
    r.m = k ∧
    r.src = .cp k ∧
    formatAt k r s = 0 ∧
    openOn r.ctx k s = false ∧
    (port k s).ready = true :=
  ⟨0, req .rd, [], .rd, .cpRd 0, { atPort { openP with rx := [req .rd] } with ctxs := [] }, by decide +kernel⟩

theorem wit_doorbellBadState : ∃ (x : Nat) (v : BitVec 32) (s : State),
    belled x s = false :=
  ⟨7, 0, live [], by decide +kernel⟩

theorem wit_tailRefused : ∃ (x : Nat) (v : BitVec 32) (s : State),
    belled x s = true ∧
    (2 ^ cDescLog (ctxOf x s) < ringDist (cDescLog (ctxOf x s)) (ctxOf x s).head (v.toNat % 2 ^ (cDescLog (ctxOf x s) + 1)) ∨ ringDist (cDescLog (ctxOf x s)) (ctxOf x s).head (v.toNat % 2 ^ (cDescLog (ctxOf x s) + 1)) < ringDist (cDescLog (ctxOf x s)) (ctxOf x s).head (ctxOf x s).tail) :=
  ⟨7, 20, atHost [] ctxHp, by decide +kernel⟩

theorem wit_headRefused : ∃ (x : Nat) (v : BitVec 32) (s : State),
    belled x s = true ∧
    ringDist (cCplLog (ctxOf x s)) (ctxOf x s).cplHead (ctxOf x s).cplTail < ringDist (cCplLog (ctxOf x s)) (ctxOf x s).cplHead (v.toNat % 2 ^ (cCplLog (ctxOf x s) + 1)) :=
  ⟨7, 1, atHost [] ctxHp, by decide +kernel⟩

theorem wit_parityNone : ∃ (n : Nat) (p : Parity) (word : Option (Cue × Job × Nat)) (s : State),
    p = .clean ∨ word = none :=
  ⟨0, .sequencer, none, atWord 0, by decide +kernel⟩

theorem wit_parityFailsWord : ∃ (n : Nat) (u : Nat) (op : Nat) (p : Parity) (i : Instr) (c : Cue) (v : Job) (w : Nat) (s : State),
    parityUnit p = some u ∧
    issue op n s = some (c, v, w) ∧
    (op, i) ∈ [(opNop, Instr.cueNop n p), (opEnd, .cueEnd n p), (opWait, .cueWait n p), (opLset, .cueLset n p), (opLoop, .cueLoop n p), (opAset, .cueAset n p), (opAmov, .cueAmov n p), (opAadd, .cueAadd n p), (opAmad, .cueAmad n p), (opMode, .cueMode n p), (opScale, .cueScale n p), (opLdact, .cueLdact n p), (opClrc, .cueClrc n p), (opPass, .cuePass n p), (opZrb, .cueZrb n p), (opRed, .cueRed n p), (opGather, .cueGather n p), (opEmit, .cueEmit n p), (opKstream, .cueKstream n p), (opVstream, .cueVstream n p)] ∧
    v.status = 0 ∧
    v.done = false ∧
    v.timedOut = false :=
  ⟨0, 3, opRed, .results, .cueRed 0 .results, cue0, cueJob, op opRed + 5 * 2 ^ 21 + 2 ^ 10, atWord (op opRed + 5 * 2 ^ 21 + 2 ^ 10), by decide +kernel⟩

theorem wit_parityFailsStage : ∃ (n : Nat) (u : Nat) (stage : Nat) (p : Parity) (i : Instr) (c : Cue) (v : Job) (w : Nat) (s : State),
    parityUnit p = some u ∧
    issueStage stage n s = some (c, v, w) ∧
    (stage, i) ∈ [(0, Instr.smaxStageMax n p), (1, .smaxStageExp n p), (2, .smaxStageClose n p)] ∧
    v.status = 0 ∧
    v.done = false ∧
    v.timedOut = false :=
  ⟨0, 2, 1, .sequencer, .smaxStageExp 0 .sequencer, cue0, cueJob, op opSmax + 2 ^ 52 + 2 ^ 10, atWord (op opSmax + 2 ^ 52 + 2 ^ 10), by decide +kernel⟩

theorem wit_parityFailsJob : ∃ (j : Nat) (u : Nat) (type : Nat) (p : Parity) (i : Instr) (v : Job) (s : State),
    parityUnit p = some u ∧
    ready j type s = some v ∧
    (type, i) ∈ [(0, Instr.jobNop j p), (1, .copy j p), (2, .fillRange j p), (3, .runCue j p), (4, .attnStream j p), (5, .peerReduceSend j p), (5, .peerReduceGather j p), (6, .broadcast j p)] ∧
    v.status = 0 ∧
    v.done = false ∧
    v.timedOut = false :=
  ⟨1, 4, 2, .stage, .fillRange 1 .stage, job1 2 fillWords, withJob (job1 2 fillWords), by decide +kernel⟩

theorem wit_parityFailsExchange : ∃ (j : Nat) (u : Nat) (p : Parity) (i : Instr) (v : Job) (s : State),
    parityUnit p = some u ∧
    mfind s.jobs j = some v ∧
    i ∈ [Instr.spanSyncComplete j p, .gatherApply j p] ∧
    v.started = true ∧
    v.stopped = false ∧
    v.waitRecord = false ∧
    v.status = 0 ∧
    v.done = false ∧
    v.timedOut = false :=
  ⟨1, 3, .results, .spanSyncComplete 1 .results, cueJob, withJob cueJob, by decide +kernel⟩

theorem wit_writeLost : ∃ (k : Nat) (r : Req) (rest : List Req) (op : Op) (c : Instr) (s : State),
    (op, c) ∈ [(Op.wr, Instr.cpWr k true), (Op.push, Instr.cpActPush k true)] ∧
    (port k s).rx = r :: rest ∧
    r.op = op ∧
    k < 16 ∧
    r.src = .cp k ∧
    formatAt k r s = 0 ∧
    openOn r.ctx k s = true ∧
    r.curt = 0 ∧
    r.curtUid = 0 ∧
    (∀ x ∈ (port k s).ing ++ [r], x.parityBad = false) ∧
    (∀ x ∈ (port k s).ing, x.uid ≠ r.uid) ∧
    (port k s).ready = true :=
  ⟨0, req .wr, [], .wr, .cpWr 0 true, atPort { openP with rx := [req .wr] }, by decide +kernel⟩

theorem wit_peerWriteLost : ∃ (w : BitVec 256) (par : BitVec 32) (d : List Byte) (dpar : List Bool) (x : Nat) (s : State),
    ppAccepted 2 w x s ∧
    slotParity w = par ∧
    dpar = bytesParity d ∧
    (∀ y ∈ (port 17 s).ing, y.uid ≠ s.nextUid) :=
  ⟨hdr 2 ((2 ^ 64 - 1) * 2 ^ 192), slotParity (hdr 2 ((2 ^ 64 - 1) * 2 ^ 192)), List.replicate 64 7, bytesParity (List.replicate 64 7), 1, peerAt [], by unfold ppAccepted; decide +kernel⟩

theorem wit_hostWriteLost : ∃ (off : BitVec 64) (d : List Byte) (s : State),
    hasOpened s = true ∧
    s.power.shut = none ∧
    memEnabled s = true ∧
    inBar 4 off.toNat d.length s = true ∧
    bar4Addr off.toNat s % 64 = 0 ∧
    d.length = 64 ∧
    (∀ y ∈ (port 16 s).ing, y.uid < s.nextUid) :=
  ⟨0, List.replicate 64 0, atHost [] { ctxHp with state := .opened }, by decide +kernel⟩

theorem wit_issueReadLost : ∃ (n : Nat) (c : Nat) (p : Nat) (k : Nat) (o : POp) (e : QEnt) (errs : ErrPat) (s : State) (u : State),
    pcUsed n c p s = true ∧
    (pcOf n c p s).st = .active ∧
    u = beginCclk n c p s ∧
    (pcOf n c p u).hold ≤ (pcOf n c p u).cclk ∧
    rowPick n c p u = none ∧
    colPick n c p u = some (.col o) ∧
    o.kind = .read k ∧
    (pcOf n c p (chargeShare n c p u)).rdq.find? (fun x => x.seq == k) = some e :=
  ⟨0, 0, 0, 0, ⟨3, 0, 0, 0, 0, .read 0⟩, ent, [], atPc { opened with rdq := [ent] }, beginCclk 0 0 0 (atPc { opened with rdq := [ent] }), by decide +kernel⟩

theorem wit_stagingParity : ∃ (n : Nat) (k : Nat) (st : Stage) (s : State),
    k < 16 ∧
    mfind (gate n s).stage k = some st :=
  ⟨0, 0, ⟨9, [partW], false⟩, atGate { idleGate with stage := [(0, ⟨9, [partW], false⟩)] } 3, by decide +kernel⟩

theorem wit_loopRefused : ∃ (n : Nat) (w : Nat) (p : Parity) (c : Cue) (v : Job) (s₀ : State) (s : State),
    meetAtIssue p n (issue opLoop n s₀) s₀ = s ∧
    issue opLoop n s = some (c, v, w) ∧
    c.lc.getD (bits w 50 2) 0 = 0 ∧
    v.status = 0 ∧
    v.done = false ∧
    v.timedOut = false :=
  ⟨0, op opLoop + 2 ^ 51, .clean, cue0, cueJob, atWord (op opLoop + 2 ^ 51), atWord (op opLoop + 2 ^ 51), by decide +kernel⟩

theorem wit_streamRefused : ∃ (n : Nat) (w : Nat) (reason : Nat) (p : Parity) (c : Cue) (v : Job) (m : Mode) (s₀ : State) (s : State),
    meetAtIssue p n (issue opPass n s₀) s₀ = s ∧
    issue opPass n s = some (c, v, w) ∧
    c.mode = some m ∧
    streamReason n (usedCh n s) m (passArgs c w) c s = some reason ∧
    v.status = 0 ∧
    v.done = false ∧
    v.timedOut = false :=
  ⟨0, (op opPass + 2 ^ 37 + 2 ^ 22 * 64 + 2 ^ 17) + 2 ^ 49, 7, .clean, cue0, cueJob, ⟨2, 2, 0, 0, 0⟩, atWord ((op opPass + 2 ^ 37 + 2 ^ 22 * 64 + 2 ^ 17) + 2 ^ 49), atWord ((op opPass + 2 ^ 37 + 2 ^ 22 * 64 + 2 ^ 17) + 2 ^ 49), by decide +kernel⟩

/-! ### A signed image -/

/-- The signature of the image, and the digest it signs. -/
def sigBytes : List Byte := [244, 63, 33, 153, 124, 42, 226, 157, 230, 137, 207, 225, 171, 58, 255, 217, 3, 197, 23, 33, 203, 176, 42, 85, 29, 3, 174, 155, 138, 144, 229, 3, 196, 69, 61, 241, 96, 116, 48, 194, 82, 140, 143, 84, 98, 238, 215, 103, 225, 133, 173, 195, 42, 84, 159, 72, 226, 95, 41, 247] ++
  [117, 130, 39, 113, 127, 128, 149, 153, 156, 175, 130, 157, 192, 86, 235, 150, 200, 35, 89, 207, 209, 81, 88, 215, 70, 72, 33, 177, 192, 177, 131, 73, 6, 79, 234, 212]
def imageDigest : List Byte := [62, 82, 158, 190, 64, 140, 81, 99, 104, 130, 165, 50, 148, 142, 221, 45, 50, 144, 71, 74, 111, 87, 89, 213, 82, 58, 229, 193, 15, 53, 97, 31, 146, 81, 216, 111, 105, 137, 165, 191, 158, 255, 86, 4, 77, 14, 131, 138]

/-- A section entry for an empty code section. -/
def emptySection (k : Byte) : List Byte := [1, k, 255, 255, 0, 0, 0, 0, 0, 0, 0, 0, 1, 0, 1, 0] ++ emptyDigest

/-- The shortest image: 8,288 bytes, with four empty code sections. -/
@[irreducible] def image : List Byte :=
  [76, 77, 70, 49, 1, 0, 255, 255, 1, 0, 0, 0, 0, 0, 0, 0, 0, 0, 0, 0, 96, 32, 0, 0, 4, 0, 0, 0, 0, 0, 255, 255] ++ keyBytes ++ List.replicate 127 255 ++
    emptySection 0 ++ emptySection 1 ++ emptySection 2 ++ emptySection 3 ++ List.replicate 7680 255 ++ sigBytes

theorem image_length : image.length = 8288 := by decide +kernel

/-- The signed bytes, padded for SHA-384, and the state of the digest after every thirteen blocks. -/
def signedBytes : List Byte := shaPad (image.take (image.length - 96))
def shaAt1 : List W64 := [0xf8956e8aa048c9d1, 0x8e3db35b57707130, 0x5cbcc8448bd3c0ac, 0xac1d96aae7e2f4e3, 0xbc2cfea11b6123a8, 0xd8ec6ba3b15d4a78, 0xa5f15917156a174d, 0x83b576d97183a749]
def shaAt2 : List W64 := [0x713d5d062950e4c0, 0x68484f1e30f6c2fe, 0x8f088edb5f2f24a, 0x15e0ec7330e87a76, 0x879a160363fe647d, 0x707bef668632cd3d, 0xcea36f78d0994a73, 0x4b59dbec381d722e]
def shaAt3 : List W64 := [0x3dc8095117dadaa1, 0xb857b060720ec62a, 0x8dc4ee727e5c1e55, 0x337ca04895d751b4, 0x83944fccf22fb003, 0xda28af151687df1e, 0xade50e90812ca7b1, 0xcf0c26f345baf171]
def shaAt4 : List W64 := [0x3e8ae7c2d256c1bd, 0xba51c2e296d44db7, 0xcdecd3f7e018a2d8, 0x67bb6c468e2045a1, 0xcb32371d0591e4e5, 0x473c750afed483d, 0x5c32d6870963cc1d, 0xc67dfef971ac9765]
def shaAt5 : List W64 := [0x3e529ebe408c5163, 0x6882a532948edd2d, 0x3290474a6f5759d5, 0x523ae5c10f35611f, 0x9251d86f6989a5bf, 0x9eff56044d0e838a, 0x2ba2fac44c6ff34b, 0xdf9a740d8f9797e9]

theorem shaBlocks_add (a b : Nat) (h : List W64) (bs : List Byte) :
    shaBlocks (a + b) h bs = shaBlocks b (shaBlocks a h bs) (bs.drop (128 * a)) := by
  induction a generalizing h bs with
  | zero => simp [shaBlocks]
  | succ a ih =>
    rw [show a + 1 + b = (a + b) + 1 by omega]
    simp only [shaBlocks]
    rw [ih, List.drop_drop, show 128 + 128 * a = 128 * (a + 1) by omega]

theorem image_blocks1 : shaBlocks 13 sha384Init (signedBytes.drop 0) = shaAt1 := by decide +kernel
theorem image_blocks2 : shaBlocks 13 shaAt1 (signedBytes.drop 1664) = shaAt2 := by decide +kernel
theorem image_blocks3 : shaBlocks 13 shaAt2 (signedBytes.drop 3328) = shaAt3 := by decide +kernel
theorem image_blocks4 : shaBlocks 13 shaAt3 (signedBytes.drop 4992) = shaAt4 := by decide +kernel
theorem image_blocks5 : shaBlocks 13 shaAt4 (signedBytes.drop 6656) = shaAt5 := by decide +kernel

theorem image_digest : sha384 (image.take (image.length - 96)) = imageDigest := by
  have n : signedBytes.length / 128 = 13 + (13 + (13 + (13 + 13))) := by decide +kernel
  have e : shaBlocks (signedBytes.length / 128) sha384Init signedBytes = shaAt5 := by
    have h := image_blocks1
    rw [List.drop_zero] at h
    rw [n, shaBlocks_add, h, shaBlocks_add, image_blocks2, List.drop_drop, shaBlocks_add, image_blocks3, List.drop_drop, shaBlocks_add,
      image_blocks4, List.drop_drop, image_blocks5]
  show ((shaBlocks (signedBytes.length / 128) sha384Init signedBytes).flatMap fun w => beBytes 8 w.toNat).take 48 = imageDigest
  rw [e]
  decide +kernel


theorem image_signature : image.drop (image.length - 96) = sigBytes := by decide +kernel

theorem image_verifies : (imgVerify image keyOtp).isSome = true := by
  have h : (imgForm image && decide (secFloor keyOtp ≤ imgSec image) && (imgSections image).all (fun e => sectionOk image e) &&
      [0, 1, 2, 3].all (fun k => (codeSections image k).length == 1)) = true := by decide +kernel
  unfold imgVerify signedBy
  rw [if_pos h, image_digest, image_signature]
  decide +kernel

theorem mfind_place (l : List Byte) (a k : Nat) : mfind (place a l) (a + k) = l[k]? := by
  induction l generalizing a k with
  | nil => rfl
  | cons b l ih =>
    cases k with
    | zero => simp [place, mfind]
    | succ k =>
      have := ih (a + 1) k
      rw [show a + 1 + k = a + (k + 1) by omega] at this
      simp [place, mfind, this]

theorem mfind_place_below (l : List Byte) (a k : Nat) (h : k < a) : mfind (place a l) k = none := by
  induction l generalizing a with
  | nil => rfl
  | cons b l ih =>
    simp only [place, mfind]
    rw [if_neg (by omega)]
    exact ih (a + 1) (by omega)

theorem flashBytes_map (m : AMap Byte) (l : List Byte) (a : Nat) (h : ∀ k < l.length, mfind m (a + k) = l[k]?) : flashBytes m a l.length = l := by
  induction l generalizing a with
  | nil => rfl
  | cons b l ih =>
    have h0 := h 0 (by simp)
    simp only [List.length_cons, flashBytes]
    rw [ih (a + 1) fun k hk => by have := h (k + 1) (by simp; omega); rw [show a + (k + 1) = a + 1 + k by omega] at this; simpa using this]
    have h1 : mfind m a = some b := by simpa using h0
    simp [flashByte, mgetD, h1]

theorem flashBytes_below (m : AMap Byte) (a n : Nat) (h : ∀ k, k < a + n → mfind m k = none) : flashBytes m a n = List.replicate n 0xFF := by
  induction n generalizing a with
  | zero => rfl
  | succ n ih =>
    simp only [flashBytes, List.replicate_succ]
    rw [ih (a + 1) fun k hk => h k (by omega)]
    simp [flashByte, mgetD, h a (by omega)]

/-- An update whose image stands in slot 1. -/
def verifying : State :=
  let s := updating 4
  { s with otp := keyOtp, flash := place (slotBase 1) image, fw := { s.fw with full := true, pkg := place 0 image, pkgLen := image.length } }

theorem placed_reads (a : Nat) (l : List Byte) (s : State) (h : s.flash = place a l) : flRead a l.length s = l := by
  unfold flRead
  rw [h]
  exact flashBytes_map _ _ _ fun k _ => mfind_place l a k

theorem verifying_package : packageBytes verifying = image := by
  show (List.range image.length).map (fun i => mgetD (place 0 image) i 0) = image
  refine List.ext_getElem (by simp) fun i h1 h2 => ?_
  have := mfind_place image 0 i
  rw [Nat.zero_add] at this
  simp [mgetD, this, h2]

theorem wit_updateVerifyDone : ∃ s : State, updState s = 4 ∧
    sha384 (flRead (slotBase (targetSlot s)) (wantedLen s) s) = wantedDigest s ∧
    (imgVerify (flRead (slotBase (targetSlot s)) (wantedLen s) s) s.otp).isSome = true ∧ on FWM_STATUS.RECOVERY s = false := by
  have h1 : flRead (slotBase (targetSlot verifying)) (wantedLen verifying) verifying = image := by
    have a : slotBase (targetSlot verifying) = slotBase 1 := by decide +kernel
    have b : wantedLen verifying = image.length := by unfold wantedLen; exact if_pos rfl
    rw [a, b]
    exact placed_reads _ _ _ rfl
  refine ⟨verifying, by decide +kernel, ?_, ?_, by decide +kernel⟩
  · have h2 : wantedDigest verifying = sha384 (packageBytes verifying) := by unfold wantedDigest; exact if_pos rfl
    rw [h1, h2, verifying_package]
  · rw [h1]; exact image_verifies

/-- A block whose slot 0 holds the image, its first round of housekeeping done. -/
def flashed : State := { fresh with rounds := 1, otp := keyOtp, flash := place (slotBase 0) image }

theorem flashed_boot (a : Nat) (h : a + 32 ≤ slotBase 0) : flRead a 32 (lcsShow flashed) = List.replicate 32 0xFF := by
  unfold flRead
  exact flashBytes_below _ _ _ fun k hk => mfind_place_below _ _ _ (by omega)

theorem flashed_image : slotImage 0 (lcsShow flashed) = image := by
  have h : ∀ n ≤ image.length, flRead (slotBase 0) n (lcsShow flashed) = image.take n := by
    intro n hn
    have e : (image.take n).length = n := by simp [hn]
    have := flashBytes_map (place (slotBase 0) image) (image.take n) (slotBase 0) fun k hk => by
      rw [mfind_place]; simp [List.getElem?_take]; omega
    rw [e] at this
    exact this
  unfold slotImage
  dsimp only
  rw [h 32 (by rw [image_length]; decide)]
  have k : leAt (image.take 32) 20 4 = 8288 := by decide +kernel
  rw [k, if_pos (by decide), h _ (Nat.le_of_eq image_length.symm)]
  exact List.take_of_length_le (Nat.le_of_eq image_length)

theorem flashed_records : bootRecords (lcsShow flashed) = [] := by
  unfold bootRecords
  rw [List.filterMap_eq_nil_iff]
  intro x hx
  obtain ⟨i, hi, hx⟩ := List.mem_flatMap.mp hx
  obtain ⟨j, hj, e⟩ := List.mem_map.mp hx
  have hj' := List.mem_range.mp hj
  have hi' : i = 0 ∨ i = 1 := by simpa using hi
  have k : flRead (bootAddr i j) 32 (lcsShow flashed) = List.replicate 32 0xFF :=
    flashed_boot _ (by have : slotBase 0 = 0x20000 := rfl; unfold bootAddr bootSectors; omega)
  rw [← e, k]
  rfl

theorem flashed_good : slotGood (lcsShow flashed) (0, none) = true := by
  have o : (lcsShow flashed).otp = keyOtp := rfl
  unfold slotGood
  rw [flashed_image, o, image_verifies]
  rfl

theorem chooses_first (s : State) (h1 : bootRecords s = []) (h2 : slotGood s (0, none) = true) : chooseSlot s = some (0, false) := by
  have h : slotOrder s = [(0, none), (1, none)] := by
    unfold slotOrder bootInForce
    rw [h1]
    rfl
  unfold chooseSlot
  rw [h]
  dsimp only
  rw [if_pos h2]

theorem wit_romBoot : ∃ (s : State) (i : Nat) (other : Bool), s.rounds ≠ 0 ∧ s.fw.stage = 0 ∧ on FWM_STATUS.RECOVERY s = false ∧
    rd GLB_STATUS.PHASE s = 0 ∧ hottest s ≤ 360 ∧ rd LCS_STATE.STATE (lcsShow s) ≠ 4 ∧ chooseSlot (lcsShow s) = some (i, other) :=
  ⟨flashed, 0, false, by decide +kernel, by decide +kernel, by decide +kernel, by decide +kernel, by decide +kernel, by decide +kernel, chooses_first _ flashed_records flashed_good⟩


/-! ### Ill-formed commands -/

theorem test_wf_hive : ∀ c ∈ [Instr.hiveTraining 16 goodStack, .pdCIdlePowerDown 16, .pdCWake 16, .gateDraw 16 0, .curtainCommit 16,
    .guarFactorRecompute 16, .qosMissWindow 16, .chcCommit 16, .modeRegisterRead 16 true 0, .modeRegisterWrite 16 true, .ceLeak 16,
    .install 16 [], .repair 16 false [], .recalRound 16 [], .recalNow 16, .jobBeginOnHive 16, .pmcSmpEnable 16 0, .sampleRecordWrite 16],
    c.wf = false := by decide +kernel

theorem test_wf_cue : ∀ c ∈ [Instr.cueNop 16 .clean, .cueEnd 16 .clean, .cueWait 16 .clean, .cueLset 16 .clean, .cueLoop 16 .clean, .cueAset 16 .clean, .cueAmov 16 .clean, .cueAadd 16 .clean,
    .cueAmad 16 .clean, .cueMode 16 .clean, .cueScale 16 .clean, .cueLdact 16 .clean, .cueClrc 16 .clean, .cuePass 16 .clean, .cueZrb 16 .clean, .cueRed 16 .clean, .cueGather 16 .clean, .cueEmit 16 .clean,
    .cueKstream 16 .clean, .cueVstream 16 .clean, .smaxStageMax 16 .clean, .smaxStageExp 16 .clean, .smaxStageClose 16 .clean, .activationWriteRelease 16],
    c.wf = false := by decide +kernel

theorem test_wf_parity : ∀ c ∈ [Instr.cueNop 0 .results, .cueLdact 0 .results, .cueRed 0 .crossbar, .cueEmit 0 .stage, .copy 1 .store, .fillRange 1 .results,
    .spanSyncComplete 1 .crossbar, .gatherApply 1 .sequencer], c.wf = false := by decide +kernel

theorem test_wf_pseudo_channel : ∀ c ∈ [Instr.refreshInterval 16 0 0, .neighbourRefreshMandatory 0 32 0, .powerDownEntry 0 0 2, .selfRefreshEntry 0 32 0,
    .pseudoChannelWake 16 0 0, .reread 0 0 2 [], .readModifyWrite 0 32 0 [], .recalDeadline 0 0 2, .dlyRampStep 16 0 0, .rowCloseIdle 0 0 0 64,
    .checkCacheParityError 0 0 0 8, .laneErasure 0 0 0 36, .laneMove 0 0 0 36 laneObs, .remapInstall 0 0 0 4 0 0 [],
    .remapInstall 0 0 0 0 16 0 [], .remapInstall 0 0 0 0 0 (2 ^ 18) [], .remapMove 0 32 0 [], .remapMove 0 0 32 []],
    c.wf = false := by decide +kernel

theorem test_wf_port : ∀ c ∈ [Instr.cpLinkDown 16, .cpPortReopen 16, .cpRd 16, .cpWr 16 false, .cpActPush 16 false, .responseSend 16, .curtainWatchdogExpiry 16,
    .cpHeaderFlit 16 0 0, .cpDataFlit 16 0 0, .cpRspCreditReturn 16 0 0, .curtainComplete 0 16 false,
    .backoffExpiry 0 18, .peerOutboundRequest 19], c.wf = false := by decide +kernel

theorem test_wf_power : ∀ c ∈ [Instr.pwrAckRise 33, .pwrAckFall 33, .pwrAckTimeout 33, .domainLoss 33, .throttleLevelStep 17,
    .housekeepingRound ⟨[], [], []⟩], c.wf = false := by decide +kernel

theorem test_wf_host : ∀ c ∈ [Instr.hpMemRead 1 0 4 0, .hpMemRead 0 0 4097 0, .hpMemRead 0 0 4 1024, .hpMemWrite 1 0 [0] false false, .hpMemWrite 0 0 [] false false,
    .hpMemWrite 0 0 (List.replicate 513 0) false false, .hpConfigRead 4096 0 0, .hpConfigRead 0 16 0, .hpConfigRead 0 0 1024, .hpConfigWrite 4096 0 0 0 false, .hpConfigWrite 0 16 0 0 false,
    .hpConfigWrite 0 0 0 1024 false, .hpUnsupportedRequest .io 1024, .hpCompletionTimeout 1024, .tagQuarantineExpiry false 4096, .peerRequestTimeout 4096,
    .relayResend 4096, .msixPendingRelease 64], c.wf = false := by decide +kernel

theorem test_wf_context : ∀ c ∈ [Instr.descTail 65536 0, .cplHead 65536 0, .heartbeat 65536 0, .closeComplete 65536, .resumeCommit 65536,
    .jobStart 65536, .heartbeatTimeout 64, .ctxHbCfgWrite 64 0, .ackDrain 64 0, .ackDiscard 64 0, .drainComplete 64], c.wf = false := by decide +kernel

theorem test_wf_cell : ∀ c ∈ [Instr.residueFault 0 33 0 0, .residueFault 0 0 36 0, .residueFault 0 0 0 20, .cellRetire 16 0, .testStart 0 33,
    .cellParityError 0 0 1 0, .cellParityError 0 0 0 20], c.wf = false := by decide +kernel

theorem test_wf_peer : ∀ c ∈ [Instr.ppInWr 0 0 [0] [] false, .ppInRed 0 0 [0] [], .ppInBcast 0 0 [0] [] false, .ppInRelay 0 0 (List.replicate 4160 0) [], .ppRspIn 0 0 [0] []],
    c.wf = false := by decide +kernel

theorem test_wf_firmware : ∀ c ∈ [Instr.coreRestart 21 1, .coreRestart 0 0, .coreRestart 0 5, .coreWatchdogExpiry 21, .coreRestartDelayExpiry 21,
    .advance 8 .whole, .revoke 8 .whole, .registerWrite 2 0, .registerWrite (2 ^ 24) 0], c.wf = false := by decide +kernel

/-! ### Single steps -/

theorem test_reset_memory_wf : memWf State.reset.mem = true := by decide +kernel

/-- The check value of the CRC-32 for the nine digits "123456789". -/
theorem test_crc32 : crc32 [49, 50, 51, 52, 53, 54, 55, 56, 57] = 0xCBF43926 := by decide +kernel

/-- The digest of "abc" in FIPS 180-4 begins with CB00753F. -/
theorem test_sha384_abc : (sha384 [97, 98, 99]).take 4 = [0xCB, 0x00, 0x75, 0x3F] := by decide +kernel

/-- A field of a step's next state. -/
def after (o : Host.Outcome State Fault Refusal) (f : State → Nat) : Option Nat :=
  match o with
  | .next t => some (f t)
  | _ => none

theorem test_step_takes_front : after (step { live [] with pending := [.mbxReqTailWrite 5, .shutdown] }) (fun t => t.pending.length) = some 1 := by decide +kernel

theorem test_step_empty : after (step (live [])) (fun t => t.rounds) = some 0 := by decide +kernel

/-- R81: a request from PD_FAB on that has its answer. -/
theorem test_ack_rise : after (exec (.pwrAckRise 32) { fresh with power := { fresh.power with req := 2 ^ 32 } }) (fun t => t.power.ack) = some (2 ^ 32) := by
  decide +kernel

/-- R82: an answer that no request asked for. -/
theorem test_ack_rise_unasked : exec (.pwrAckRise 3) fresh = .fault .hubBrokeHandshake := rfl

/-- A read-only register keeps its value when it is written. -/
theorem test_write_read_only : after (exec (.registerWrite 0x4 0xFFFFFFFF) (live [])) (rd GLB_STATUS.PHASE) = some 5 := by decide +kernel

/-- R75: what JTG_IDCODE shows for MLS-1600 with manufacturer 0x123. -/
theorem test_idcode : after (exec (.jtgAccess 0x01 0) fresh) (fun t => t.out.jtg.getLast?.getD 0) = some (0x11600000 + 0x123 * 2 + 1) := by decide +kernel

end Sys2Proof.Tests
end

section
/-! Proofs for the scope of the block (00_scope.md): what an idle step does to the pseudo-channels, and what a commit puts in force. -/

namespace Sys2Proof.Machine

/-! ### An idle step (log entries 3 and 9) -/

/-- What `resumeHive n` does to the pseudo-channel at key k. -/
def resumedPc (n k : Nat) (q : Pc) : Pc := if k / 64 = n && q.st == .quiesced then { q with st := .active } else q

theorem resumeHive_pcs (n : Nat) (s : State) : (resumeHive n s).pcs = mmap (resumedPc n) s.pcs := by
  have commit (t : State) : (chcCommitApply n t).pcs = t.pcs := rfl
  unfold resumeHive
  dsimp only
  rw [apply_ite State.pcs, commit, ite_self, apply_ite State.pcs, putAll_pcs, ite_self]
  rfl

theorem foldl_resumeHive_pcs (ns : List Nat) (s : State) :
    (ns.foldl (fun t n => resumeHive n t) s).pcs = ns.foldl (fun m n => mmap (resumedPc n) m) s.pcs := by
  induction ns generalizing s with
  | nil => rfl
  | cons n ns ih => rw [List.foldl_cons, ih, resumeHive_pcs, List.foldl_cons]

theorem foldl_endBusy_pcs (xs : List (Fld × Fld)) (s : State) : (xs.foldl endBusy s).pcs = s.pcs :=
  (Frame.foldl fr_endBusy Frame.refl).f_pcs rfl

theorem idleTick_pcs (s : State) : (idleTick s).pcs = (List.range 16).foldl (fun m n => mmap (resumedPc n) m) s.pcs := by
  unfold idleTick
  rw [foldl_endBusy_pcs, foldl_resumeHive_pcs]

/-- The block after reset, but pseudo-channel 0 of channel 0 of hive 0 is quiesced, as step 1 of R288 leaves it. -/
def oneQuiesced : State := setPc 0 0 0 { Pc.init with st := .quiesced } State.reset

/-- Refutes O2: a quiesced pseudo-channel resumes in an idle step (log entries 3 and 9), so the step changes `pcs`, which is no
register. -/
theorem not_emptyQueueIdles : ¬ Obligations.EmptyQueueIdles := by
  unfold Obligations.EmptyQueueIdles
  intro h
  obtain ⟨t, hstep, hkeeps⟩ := h oneQuiesced rfl
  have ht : idleTick oneQuiesced = t := Host.Outcome.next.inj hstep
  have hpcs : (idleTick oneQuiesced).pcs = oneQuiesced.pcs := ht ▸ hkeeps .pcs (by decide)
  rw [idleTick_pcs] at hpcs
  exact absurd hpcs (by decide)

/-! ### A commit of a range of registers (R12) -/

/-- What `commitRange lo hi` does to the values in force for one shadow copy. -/
def takeCopy (lo hi : Nat) (m : AMap Nat) (x : Nat × Nat) : AMap Nat :=
  if 8 * lo ≤ x.1 && x.1 < 8 * hi then mset m x.1 x.2 else m

theorem commitRange_force (lo hi : Nat) (s : State) :
    (commitRange lo hi s).force = s.shadow.foldl (takeCopy lo hi) s.force := rfl

theorem mfind_takeCopy (lo hi k : Nat) (m : AMap Nat) (x : Nat × Nat) :
    mfind (takeCopy lo hi m x) k = if k = x.1 ∧ 8 * lo ≤ k ∧ k < 8 * hi then some x.2 else mfind m k := by
  unfold takeCopy
  simp only [Bool.and_eq_true, decide_eq_true_eq]
  by_cases hx : k = x.1
  · subst hx
    by_cases hr : 8 * lo ≤ x.1 ∧ x.1 < 8 * hi
    · rw [if_pos hr, if_pos ⟨rfl, hr⟩, mfind_mset_same]
    · rw [if_neg hr, if_neg fun h => hr h.2]
  · rw [if_neg (c := k = x.1 ∧ _) fun h => hx h.1, apply_ite (mfind · k), mfind_mset_ne m x.2 hx, ite_self]

theorem mfind_foldl_takeCopy_out {lo hi k : Nat} (l m : AMap Nat) (hk : ¬ (8 * lo ≤ k ∧ k < 8 * hi)) :
    mfind (l.foldl (takeCopy lo hi) m) k = mfind m k := by
  induction l generalizing m with
  | nil => rfl
  | cons x l ih => rw [List.foldl_cons, ih, mfind_takeCopy, if_neg fun h => hk h.2]

/-- The rising keys matter: `mfind` reads the first copy of a key, and the fold ends with the last. -/
theorem mfind_foldl_takeCopy_in {lo hi k : Nat} (l m : AMap Nat) (hk : 8 * lo ≤ k ∧ k < 8 * hi) (hl : keysRise l = true) :
    mfind (l.foldl (takeCopy lo hi) m) k = (mfind l k).or (mfind m k) := by
  induction l generalizing m with
  | nil => rfl
  | cons x l ih =>
    obtain ⟨hlt, hrise⟩ := (keysRise_cons x l).mp hl
    rw [List.foldl_cons, ih _ hrise, mfind_takeCopy]
    by_cases hx : k = x.1
    · subst hx
      have hnone : mfind l x.1 = none := mfind_none_of_lt hlt
      rw [if_pos ⟨rfl, hk⟩, hnone, Option.none_or, mfind, if_pos rfl, Option.some_or]
    · rw [if_neg fun h => hx h.1, mfind, if_neg (Ne.symm hx)]

theorem rd_rws {f : Fld} (s : State) (hf : f.acc = .rws) : rd f s = (mfind s.force f.key).getD f.rst := by
  unfold rd
  rw [hf]
  rfl

theorem rd_of_not_rws {f : Fld} (s : State) (hf : f.acc ≠ .rws) : rd f s = mgetD s.regs f.key f.rst := by
  unfold rd
  split
  · contradiction
  · rfl

/-- A field of the range takes its shadow copy; one without a copy keeps its value in force. -/
theorem rd_commitRange_in {lo hi : Nat} {f : Fld} (s : State) (hf : f.acc = .rws) (hk : 8 * lo ≤ f.key ∧ f.key < 8 * hi)
    (hs : keysRise s.shadow = true) : rd f (commitRange lo hi s) = (mfind s.shadow f.key).getD (rd f s) := by
  rw [rd_rws _ hf, rd_rws _ hf, commitRange_force, mfind_foldl_takeCopy_in _ _ hk hs]
  cases mfind s.shadow f.key <;> rfl

theorem rd_commitRange_out {lo hi : Nat} {f : Fld} (s : State) (h : f.acc ≠ .rws ∨ ¬ (8 * lo ≤ f.key ∧ f.key < 8 * hi)) :
    rd f (commitRange lo hi s) = rd f s := by
  by_cases hf : f.acc = .rws
  · have hk := h.resolve_left (not_not_intro hf)
    rw [rd_rws _ hf, rd_rws _ hf, commitRange_force, mfind_foldl_takeCopy_out _ _ hk]
  · rw [rd_of_not_rws _ hf, rd_of_not_rws _ hf]
    rfl

theorem exec_glbCommit (s : State) : exec .glbCommit s = .next (commitRange 0 0x10000 s) := rfl

/-- Settles O41: GLB_COMMIT is the commit of the keys below 8 * 0x10000 (R12). -/
theorem commitTakesShadow : Obligations.CommitTakesShadow := by
  unfold Obligations.CommitTakesShadow
  refine ⟨exec_glbCommit, fun f s hf hk hs => ?_, fun f s h => ?_⟩
  · exact ⟨_, exec_glbCommit s, rd_commitRange_in s hf ⟨Nat.zero_le _, hk⟩ hs⟩
  · exact ⟨_, exec_glbCommit s, rd_commitRange_out s (h.imp_right fun hk hr => absurd hr.2 (Nat.not_lt.mpr hk))⟩

end Sys2Proof.Machine
end

section
/-! Proofs for the block architecture (01_block_architecture.md): a core that restarts leaves what it has configured alone (R30). -/

namespace Sys2Proof.Machine

open Reg

/-! ### Fields of the FWM/INT area -/

/-- The register of the field lies in the FWM/INT area, BAR_0 offsets 0x70000 to 0x7FFFF. -/
def Fld.inFwm (f : Fld) : Bool := decide (8 * 0x70000 ≤ f.key) && decide (f.key < 8 * 0x80000)

theorem inFwm_eq_false_iff (f : Fld) : f.inFwm = false ↔ f.key < 8 * 0x70000 ∨ 8 * 0x80000 ≤ f.key := by
  simp only [Fld.inFwm, Bool.and_eq_false_iff, decide_eq_false_iff_not, Nat.not_le, Nat.not_lt]

theorem key_ne_of_inFwm {f g : Fld} (hf : f.inFwm = false) (hg : g.inFwm = true) : f.key ≠ g.key := by
  intro h
  have heq : f.inFwm = g.inFwm := by rw [Fld.inFwm, h, Fld.inFwm]
  exact Bool.false_ne_true (hf.symm.trans (heq.trans hg))

/-! ### What a core's failure and restart write: fields of the FWM/INT area only -/

theorem rd_setCore (f : Fld) (i : Nat) (c : Core) (s : State) : rd f (setCore i c s) = rd f s := rfl

theorem rd_coreLoad (f : Fld) (i : Nat) (s : State) : rd f (coreLoad i s) = rd f s := rfl

section
variable {f : Fld} (hf : f.inFwm = false)
include hf

theorem rd_put_inFwm (g : Fld) (v : Nat) (s : State) (hg : g.inFwm = true) : rd f (put g v s) = rd f s :=
  rd_put_ne g f v s (key_ne_of_inFwm hf hg)

theorem rd_putAll_inFwm (l : List (Fld × Nat)) (s : State) (hl : (l.all fun x => x.1.inFwm) = true) :
    rd f (putAll l s) = rd f s :=
  rd_putAll_ne f l s fun x hx => key_ne_of_inFwm hf (List.all_eq_true.mp hl x hx)

theorem rd_postEvent_outside (cls source kind : Nat) (d : List Nat) (s : State) :
    rd f (postEvent cls source kind d s) = rd f s :=
  rd_postEvent f cls source kind d s (key_ne_of_inFwm hf rfl) (key_ne_of_inFwm hf rfl) (key_ne_of_inFwm hf rfl)

theorem rd_updEnd_outside (state result : Nat) (s : State) : rd f (updEnd state result s) = rd f s := by
  unfold updEnd
  rw [rd_postEvent_outside hf]
  exact rd_putAll_inFwm hf _ s rfl

theorem rd_putReady_outside (i : Nat) (b : Bool) (s : State) : rd f (putReady i b s) = rd f s :=
  rd_put_inFwm hf FWM_CORE_READY.CORES _ s rfl

theorem rd_coreDown_outside (i : Nat) (s : State) : rd f (coreDown i s) = rd f s := by
  have hdrop (n : Nat) (t : State) : rd f (dropRecal n t) = rd f t := (fr_dropRecal n t).rd_eq f rfl rfl
  unfold coreDown
  dsimp only
  rw [apply_ite (rd f), rd_updEnd_outside hf, ite_self]
  cases coreHive i s with
  | none => exact rd_putReady_outside hf i false s
  | some n => exact (hdrop n _).trans (rd_putReady_outside hf i false s)

theorem rd_takeOver_outside (n : Nat) (s : State) : rd f (takeOver n s) = rd f s := by
  unfold takeOver
  split
  · exact rd_putAll_inFwm hf _ s rfl
  · exact rd_putAll_inFwm hf _ s rfl
  · exact rd_postEvent_outside hf ..

theorem rd_retireCore_outside (i : Nat) (s : State) : rd f (retireCore i s) = rd f s := by
  have hmarked (t : State) : rd f (if i = 19 then put FWM_KPR_MAP.ACTIVE_0 0 t else if i = 20 then put FWM_KPR_MAP.ACTIVE_1 0 t
      else put FWM_KPR_MAP.RETIRED (setBit (rd FWM_KPR_MAP.RETIRED t) (i - 3)) t) = rd f t := by
    split
    · exact rd_put_inFwm hf FWM_KPR_MAP.ACTIVE_0 _ t rfl
    split
    · exact rd_put_inFwm hf FWM_KPR_MAP.ACTIVE_1 _ t rfl
    · exact rd_put_inFwm hf FWM_KPR_MAP.RETIRED _ t rfl
  unfold retireCore
  dsimp only
  cases coreHive i s with
  | none => exact hmarked _
  | some n => exact (rd_takeOver_outside hf n _).trans (hmarked _)

theorem rd_coreFail_outside (i reason : Nat) (s : State) : rd f (coreFail i reason s) = rd f s := by
  have hrecord : rd f (bump FWM_CORE_ERR.COUNT 1
      (putAll [(FWM_CORE_ERR.CORE, i), (FWM_CORE_ERR.REASON, reason), (FWM_CORE_ERR.VALID, 1)] s)) = rd f s :=
    (rd_put_inFwm hf _ _ _ rfl).trans (rd_putAll_inFwm hf _ s rfl)
  unfold coreFail
  dsimp only
  split
  · rfl
  rw [apply_ite (rd f), apply_ite (rd f), rd_retireCore_outside hf, rd_setCore, rd_coreLoad, rd_setCore, ite_self, ite_self,
    rd_coreDown_outside hf, rd_postEvent_outside hf, hrecord]

end

/-! ### The commands that restart a core -/

/-- What a restart by failure, watchdog or end of delay does: the core fails, or it is reloaded where its delay is over. -/
theorem exec_restart_cases {core : Nat} {c : Instr} {s t : State}
    (hc : (∃ reason, 1 ≤ reason ∧ reason ≤ 3 ∧ c = .coreRestart core reason) ∨ c = .coreWatchdogExpiry core ∨
      c = .coreRestartDelayExpiry core) (h : exec c s = .next t) :
    (∃ reason, t = coreFail core reason s) ∨ t = coreDelayEnd core s := by
  obtain ⟨reason, hlo, hhi, rfl⟩ | rfl | rfl := hc
  · have ht : coreRestart core reason s = t := Host.Outcome.next.inj h
    have hfail : coreRestart core reason s = coreFail core reason s := by
      unfold coreRestart
      rw [if_neg (by omega), if_pos (by simp [hlo, hhi])]
    exact .inl ⟨reason, ht.symm.trans hfail⟩
  · exact .inl ⟨1, (Host.Outcome.next.inj h).symm⟩
  · exact .inr (Host.Outcome.next.inj h).symm

/-- Settles O55: the failure of a core and its reload write fields of the FWM/INT area only, and their frame holds none of the
hardware that a core configures (R30). -/
theorem coreRestartKeepsHardware : Obligations.CoreRestartKeepsHardware := by
  unfold Obligations.CoreRestartKeepsHardware
  intro core c s t hc h
  have hframe : Frame 0x101281E800180004 s t := by
    obtain ⟨reason, rfl⟩ | rfl := exec_restart_cases hc h
    · exact fr_coreFail core reason s
    · exact (fr_coreDelayEnd core s).mono rfl
  have hregs (f : Fld) (hf : f.inFwm = false) : rd f t = rd f s := by
    obtain ⟨reason, rfl⟩ | rfl := exec_restart_cases hc h
    · exact rd_coreFail_outside hf core reason s
    · exact (fr_coreDelayEnd core s).rd_eq f rfl rfl
  exact ⟨fun f hf => hregs f ((inFwm_eq_false_iff f).mpr hf), hframe.f_shadow rfl, hframe.f_force rfl, hframe.f_ports rfl,
    hframe.f_hives rfl, hframe.f_mem rfl, hframe.f_lanes rfl, hframe.f_power rfl⟩

end Sys2Proof.Machine
end

section
/-! Proofs for the ports (02_ports.md): the one command that can stop the machine, and the test access port. -/

namespace Sys2Proof.Machine

open Reg

/-! ### Which commands stop (R82, R15) -/

theorem exec_pwrAckRise (d : Nat) (s : State) : exec (.pwrAckRise d) s = ackRise d s := rfl

/-- Every meaning but that of PWR_ACK_RISE is a next state by its definition. -/
theorem exec_eq_next {c : Instr} (s : State) (hc : ∀ d, c ≠ .pwrAckRise d) : ∃ t, exec c s = .next t := by
  cases c
  case pwrAckRise d => exact absurd rfl (hc d)
  all_goals exact ⟨_, rfl⟩

/-- The hub raises PWR_ACK_d though the block does not request domain d. -/
def hubBreaks (d : Nat) (s : State) : Prop := d ≤ 32 ∧ s.power.ack.testBit d = false ∧ s.power.req.testBit d = false

theorem ackRise_of_hubBreaks {d : Nat} {s : State} (h : hubBreaks d s) : ackRise d s = .fault .hubBrokeHandshake := by
  obtain ⟨hd, hack, hreq⟩ := h
  simp [ackRise, Nat.not_lt.mpr hd, hack, hreq]

theorem ackRise_eq_next {d : Nat} {s : State} (h : ¬ hubBreaks d s) : ∃ t, ackRise d s = .next t := by
  unfold ackRise
  dsimp only
  split
  · exact ⟨_, rfl⟩
  next hlow =>
    split
    next hreq =>
      rw [Bool.or_eq_true, decide_eq_true_eq, not_or, Nat.not_lt, Bool.not_eq_true] at hlow
      exact absurd ⟨hlow.1, hlow.2, by simpa using hreq⟩ h
    · split
      · exact ⟨_, rfl⟩
      · exact ⟨_, rfl⟩

theorem exec_fault_or_next (c : Instr) (s : State) :
    ((∃ d, c = .pwrAckRise d ∧ hubBreaks d s) ∧ exec c s = .fault .hubBrokeHandshake) ∨
      ((¬ ∃ d, c = .pwrAckRise d ∧ hubBreaks d s) ∧ ∃ t, exec c s = .next t) := by
  by_cases hc : ∃ d, c = .pwrAckRise d
  · obtain ⟨d, rfl⟩ := hc
    by_cases hd : hubBreaks d s
    · exact .inl ⟨⟨d, rfl, hd⟩, (exec_pwrAckRise d s).trans (ackRise_of_hubBreaks hd)⟩
    · refine .inr ⟨?_, ackRise_eq_next hd⟩
      rintro ⟨e, he, hb⟩
      cases he
      exact hd hb
  · exact .inr ⟨fun ⟨d, hd, _⟩ => hc ⟨d, hd⟩, exec_eq_next s fun d hd => hc ⟨d, hd⟩⟩

/-- Settles O8: PWR_ACK_RISE faults exactly where the hub breaks the handshake of R82, and every other command has a next state. -/
theorem onlyBrokenHandshakeStops : Obligations.OnlyBrokenHandshakeStops := by
  unfold Obligations.OnlyBrokenHandshakeStops
  intro c s
  obtain ⟨hbreak, hexec⟩ | ⟨hok, t, hexec⟩ := exec_fault_or_next c s
  · rw [hexec]
    refine ⟨fun f => ⟨fun h => ⟨(Host.Outcome.fault.inj h).symm, hbreak⟩, fun h => h.1 ▸ rfl⟩, nofun⟩
  · rw [hexec]
    exact ⟨fun f => ⟨nofun, fun h => absurd h.2 hok⟩, nofun⟩

/-! ### Register fields -/

/-- No write of a list names the field: a check on closed keys, whatever the values are. -/
theorem rd_putAll_of_all (g : Fld) (l : List (Fld × Nat)) (s : State) (h : (l.all fun x => g.key != x.1.key) = true) :
    rd g (putAll l s) = rd g s :=
  rd_putAll_ne g l s fun x hx => bne_iff_ne.mp (List.all_eq_true.mp h x hx)

/-- The last write of a field in a list decides. -/
theorem rd_putAll_mem (g : Fld) (v : Nat) (l k : List (Fld × Nat)) (s : State) (hg : g.acc ≠ .rws)
    (h : (k.all fun x => g.key != x.1.key) = true) : rd g (putAll (l ++ (g, v) :: k) s) = v % 2 ^ g.w := by
  have hsplit : putAll (l ++ (g, v) :: k) s = putAll k (put g v (putAll l s)) := by
    unfold putAll
    rw [List.foldl_append, List.foldl_cons]
  rw [hsplit, rd_putAll_of_all g k _ h, rd_put_same g v _ hg]

/-! ### The test access port (R74, R75) -/

theorem exec_jtgAccess (ir : BitVec 8) (tdi : BitVec 32) (s : State) : exec (.jtgAccess ir tdi) s = .next (jtgScan ir tdi s) := rfl

theorem jtgScan_idcode (tdi : BitVec 32) (s : State) : jtgScan 0x01 tdi s = tdo (idcode s) { s with jtgIr := 0x01 } := rfl

theorem jtgScan_bypass {ir : BitVec 8} (tdi : BitVec 32) (s : State) (h1 : ir ≠ 0x01) (h20 : ir ≠ 0x20) (h30 : ir ≠ 0x30) :
    jtgScan ir tdi s = tdo (2 * tdi.toNat) { s with jtgIr := ir.toNat } := by
  unfold jtgScan
  rw [if_neg h20, if_neg h30, if_neg h1]

theorem jtgScan_debug (tdi : BitVec 32) (s : State) :
    jtgScan 0x20 tdi s =
      if debugPermitted 0 s then debugAccess tdi { s with jtgIr := 0x20 } else closedScan { s with jtgIr := 0x20 } := rfl

theorem jtgScan_stack (tdi : BitVec 32) (s : State) :
    jtgScan 0x30 tdi s =
      if debugPermitted 1 s then stackRelay tdi { s with jtgIr := 0x30 } else closedScan { s with jtgIr := 0x30 } := rfl

/-- Settles O59: each clause is the branch of the scan that its instruction and the life cycle select. -/
theorem testAccessCommands : Obligations.TestAccessCommands := by
  unfold Obligations.TestAccessCommands
  refine ⟨fun tdi s => ?_, fun ir tdi s h1 h20 h30 => ?_, fun ir tdi s h => ?_, fun tdi s h => ?_, fun tdi s h => ?_⟩
  · rw [exec_jtgAccess, jtgScan_idcode]
  · rw [exec_jtgAccess, jtgScan_bypass tdi s h1 h20 h30]
  · obtain ⟨rfl, hclosed⟩ | ⟨rfl, hclosed⟩ := h
    · rw [exec_jtgAccess, jtgScan_debug, hclosed]
      rfl
    · rw [exec_jtgAccess, jtgScan_stack, hclosed]
      rfl
  · rw [exec_jtgAccess, jtgScan_debug, h, if_pos rfl]
  · rw [exec_jtgAccess, jtgScan_stack, h, if_pos rfl]

/-! ### The identity code after a reset (R75) -/

/-- GLB_ID.PART of a variant (R3). -/
def partNumber : Variant → Nat
  | .mls1600 => 0x1600
  | .mls1600s => 0x1601
  | .mls0800 => 0x0800

theorem rd_variantRegs_part (s : State) : rd GLB_ID.PART (variantRegs s) = partNumber s.env.variant := by
  unfold variantRegs
  cases s.env.variant
  all_goals exact rd_putAll_mem GLB_ID.PART _ [] _ s nofun rfl

theorem rd_variantRegs_ne (f : Fld) (s : State)
    (h : ([GLB_ID.PART, GLB_CAP.HIVE_PRESENT, GLB_CAP.PEER_PRESENT, GLB_CAP.ENC_PRESENT, GLB_CAP.VARIANT].all
      fun g => f.key != g.key) = true) : rd f (variantRegs s) = rd f s := by
  unfold variantRegs
  cases s.env.variant
  all_goals exact rd_putAll_of_all f _ s h

/-- What `lcsShow` writes lies in the LCS area, BAR_0 offsets 0x60000 to 0x6FFFF. -/
theorem rd_lcsShow_below (f : Fld) (s : State) (h : f.key < 8 * 0x60000) : rd f (lcsShow s) = rd f s := by
  have hne {g : Fld} (hg : 8 * 0x60000 ≤ g.key) : f.key ≠ g.key := Nat.ne_of_lt (Nat.lt_of_lt_of_le h hg)
  have hall (l : List (Fld × Nat)) (t : State) (hl : (l.all fun x => decide (8 * 0x60000 ≤ x.1.key)) = true) :
      rd f (putAll l t) = rd f t :=
    rd_putAll_ne f l t fun x hx => hne (of_decide_eq_true (List.all_eq_true.mp hl x hx))
  unfold lcsShow showSlots showFloor
  rw [hall _ _ rfl, rd_put_ne _ _ _ _ (hne (by decide)), hall _ _ rfl]

theorem mfind_mkeep_none {α : Type} {m : AMap α} {p : Nat → Bool} {k : Nat} (h : p k = false) : mfind (mkeep m p) k = none := by
  unfold mkeep
  induction m with
  | nil => rfl
  | cons x m ih =>
    rw [List.filter_cons]
    split
    next hx =>
      have hne : x.1 ≠ k := fun e => by simp [← e, hx] at h
      rw [mfind, if_neg hne, ih]
    · exact ih

/-- The trims stand in THM registers, at BAR_0 offsets from 0x20400 on. -/
theorem trimFields_key_le (f : Fld) (hf : f ∈ trimFields) : 8 * 0x20400 ≤ f.key := by
  simp only [trimFields, List.mem_append, List.mem_flatMap, List.mem_cons, List.not_mem_nil, or_false] at hf
  obtain ⟨k, -, rfl | rfl | rfl | rfl⟩ | ⟨n, -, k, -, rfl | rfl | rfl | rfl⟩ := hf
  all_goals
    simp only [Fld.key, THM_SHRTRIM_P.N0, THM_SHRTRIM_P.SLOPE, THM_SHRTRIM_S.N0, THM_SHRTRIM_S.SLOPE,
      THM_TRIM_P.N0, THM_TRIM_P.SLOPE, THM_TRIM_S.N0, THM_TRIM_S.SLOPE]
    omega

/-- The state that RESET builds before it shows the variant, the cause of the reset and the life cycle. -/
def resetBase (s : State) : State :=
  { State.blank s.env with
    pending := s.pending, free := s.free + 1,
    regs := mset (keepFields trimFields s.regs) PEER_TIMEOUT.US.key (resetTimeout s.env), force := keepFields seedFields s.regs,
    otp := s.otp, flash := tornFlash s, evLog := s.evLog, remapLog := s.remapLog, remapWant := s.remapLog, out := s.out,
    thermal := { (State.blank s.env).thermal with recSeq := s.thermal.recSeq } }

theorem resetOp_eq (porst : Bool) (s : State) :
    resetOp porst s =
      lcsShow (putAll [(GLB_RESET_CAUSE.PORST, b2n porst), (GLB_RESET_CAUSE.HUB_RST, b2n (!porst))] (variantRegs (resetBase s))) := rfl

/-- Past `resetBase` a reset changes registers only. -/
theorem fr_resetOp_base (porst : Bool) (s : State) : Frame 0x4 (resetBase s) (resetOp porst s) :=
  ((fr_variantRegs _).seq (fr_putAll _ _) rfl).seq (fr_lcsShow _) rfl

/-- A register below the trims that no part of a reset writes has the value that its field resets to. -/
theorem rd_resetOp_low (f : Fld) (porst : Bool) (s : State) (hacc : f.acc ≠ .rws) (hlow : f.key < 8 * 0x20400)
    (hcause : ([GLB_RESET_CAUSE.PORST, GLB_RESET_CAUSE.HUB_RST].all fun g => f.key != g.key) = true)
    (hvar : ([GLB_ID.PART, GLB_CAP.HIVE_PRESENT, GLB_CAP.PEER_PRESENT, GLB_CAP.ENC_PRESENT, GLB_CAP.VARIANT].all
      fun g => f.key != g.key) = true) : rd f (resetOp porst s) = f.rst := by
  have htimeout : f.key ≠ PEER_TIMEOUT.US.key := Nat.ne_of_lt (Nat.lt_trans hlow (by decide))
  have htrim : (trimFields.any fun g => g.key == f.key) = false := by
    rw [List.any_eq_false]
    intro g hg he
    exact absurd (trimFields_key_le g hg) (by rw [beq_iff_eq.mp he]; exact Nat.not_le.mpr hlow)
  have hbase : (resetBase s).regs = mset (keepFields trimFields s.regs) PEER_TIMEOUT.US.key (resetTimeout s.env) := rfl
  rw [resetOp_eq, rd_lcsShow_below f _ (Nat.lt_trans hlow (by decide)), rd_putAll_of_all f _ _ hcause, rd_variantRegs_ne f _ hvar,
    rd_of_not_rws _ hacc, hbase, mgetD_mset_ne _ _ _ htimeout, mgetD, keepFields, mfind_mkeep_none htrim, Option.getD_none]

theorem rd_resetOp_part (porst : Bool) (s : State) : rd GLB_ID.PART (resetOp porst s) = partNumber s.env.variant := by
  rw [resetOp_eq, rd_lcsShow_below _ _ (by decide), rd_putAll_of_all _ _ _ rfl, rd_variantRegs_part]
  rfl

theorem rd_resetOp_rev (porst : Bool) (s : State) : rd GLB_ID.REV (resetOp porst s) = 1 :=
  rd_resetOp_low GLB_ID.REV porst s nofun (by decide) rfl rfl

theorem exec_reset (porst : Bool) (s : State) : exec (.reset porst) s = .next (resetOp porst s) := rfl

theorem resetOp_env (porst : Bool) (s : State) : (resetOp porst s).env = s.env := (fr_resetOp porst s).f_env rfl

theorem idcode_resetOp (porst : Bool) (s : State) :
    idcode (resetOp porst s) = 1 + s.env.idcodeMfr % 2 ^ 11 * 2 + partNumber s.env.variant * 2 ^ 12 + 1 * 2 ^ 28 := by
  unfold idcode
  rw [resetOp_env, rd_resetOp_part, rd_resetOp_rev]

theorem partNumber_lt (v : Variant) : partNumber v < 2 ^ 16 := by cases v <;> decide

/-- Settles O58: the scan shifts out IDCODE, whose fields do not overlap. -/
theorem identityCode : Obligations.IdentityCode := by
  unfold Obligations.IdentityCode
  intro porst tdi s
  refine ⟨_, idcode (resetOp porst s) % 2 ^ 32, exec_reset porst s, rfl, ?_⟩
  change _ ∧ _ / 2 ^ 12 % 2 ^ 16 = partNumber s.env.variant ∧ _ ∧ _
  have hpart : partNumber s.env.variant < 2 ^ 16 := partNumber_lt _
  rw [idcode_resetOp]
  omega

end Sys2Proof.Machine
end

section
/-! Proofs for the ports (02_ports.md): the domain handshakes, and the power-down and wake of PD_C (R80 to R82, R164, R165, R422). -/

namespace Sys2Proof.Machine

open Reg

/-! ### Bits of the handshakes -/

theorem testBit_setBit (v i j : Nat) : (setBit v i).testBit j = (v.testBit j || decide (i = j)) := by
  rw [setBit, Nat.testBit_or, Nat.testBit_two_pow]

@[simp] theorem testBit_setBit_self (v i : Nat) : (setBit v i).testBit i = true := by simp [testBit_setBit]

/-- With v = 2 ^ i * (2 * c + 1) + b, clearing bit i leaves 2 ^ i * (2 * c) + b. -/
theorem testBit_clrBit_ne (v : Nat) {i j : Nat} (h : j ≠ i) : (clrBit v i).testBit j = v.testBit j := by
  unfold clrBit
  split
  next hi =>
    have hb : v % 2 ^ i < 2 ^ i := Nat.mod_lt _ (Nat.two_pow_pos i)
    have hodd : v / 2 ^ i % 2 = 1 := by simpa [Nat.testBit_eq_decide_div_mod_eq] using hi
    have hv : v = 2 ^ i * (2 * (v / 2 ^ i / 2) + 1) + v % 2 ^ i := by
      have ha : 2 * (v / 2 ^ i / 2) + 1 = v / 2 ^ i := by omega
      rw [ha, Nat.div_add_mod]
    generalize v / 2 ^ i / 2 = c at hv
    generalize v % 2 ^ i = b at hb hv
    have hsub : v - 2 ^ i = 2 ^ i * (2 * c) + b := by rw [hv, Nat.mul_add, Nat.mul_one]; omega
    rw [hsub, hv, Nat.testBit_two_pow_mul_add _ hb, Nat.testBit_two_pow_mul_add _ hb]
    split
    · rfl
    next hle =>
      obtain ⟨k, hk⟩ : ∃ k, j - i = k + 1 := ⟨j - i - 1, by omega⟩
      have hhalf : 2 * c / 2 = (2 * c + 1) / 2 := by omega
      rw [hk, Nat.testBit_succ, Nat.testBit_succ, hhalf]
  · rfl

/-! ### What each request does to the handshakes -/

theorem isolate_power (d : Nat) (s : State) : (isolate d s).power = s.power := (fr_isolate d s).f_power rfl

theorem failOnHive_power (n status : Nat) (info : State → Job → Nat) (s : State) : (failOnHive n status info s).power = s.power :=
  (fr_failOnHive n status info s).f_power rfl

theorem domainErr_power (d kind : Nat) (s : State) : (domainErr d kind s).power = s.power := (fr_domainErr d kind s).f_power rfl

theorem requestOff_power (d : Nat) (s : State) :
    (requestOff d s).power =
      if s.power.req.testBit d && s.power.ack.testBit d then { s.power with req := clrBit s.power.req d } else s.power := by
  have hpower : (if domainOn d s then isolate d s else s).power = s.power := by
    rw [apply_ite State.power, isolate_power, ite_self]
  unfold requestOff
  dsimp only
  rw [apply_ite State.power, setPower_power, hpower]

theorem requestOn_power (d : Nat) (s : State) :
    (requestOn d s).power =
      if s.power.gone.testBit d || stopped s then s.power
      else if s.power.req.testBit d then { s.power with lost := clrBit s.power.lost d }
      else if !requiredOn d s then s.power
      else if s.power.ack.testBit d then { s.power with again := setBit s.power.again d }
      else { s.power with
        req := setBit s.power.req d, timed := clrBit s.power.timed d, lost := clrBit s.power.lost d,
        again := clrBit s.power.again d } := by
  have hrefused : (thmEvent THM_EVENT.DOMAIN (domainErr d 0 s)).power = s.power :=
    ((fr_thmEvent _ _).f_power rfl).trans (domainErr_power d 0 s)
  unfold requestOn
  simp only [apply_ite State.power, setPower_power, hrefused]

theorem requestOff_ack (d : Nat) (s : State) : (requestOff d s).power.ack = s.power.ack := by
  rw [requestOff_power]
  split <;> rfl

theorem requestOff_timed (d : Nat) (s : State) : (requestOff d s).power.timed = s.power.timed := by
  rw [requestOff_power]
  split <;> rfl

theorem requestOff_todo (d : Nat) (s : State) : (requestOff d s).power.todo = s.power.todo := by
  rw [requestOff_power]
  split <;> rfl

theorem requestOff_lost (d : Nat) (s : State) : (requestOff d s).power.lost = s.power.lost := by
  rw [requestOff_power]
  split <;> rfl

theorem requestOff_gone (d : Nat) (s : State) : (requestOff d s).power.gone = s.power.gone := by
  rw [requestOff_power]
  split <;> rfl

theorem requestOn_ack (d : Nat) (s : State) : (requestOn d s).power.ack = s.power.ack := by
  rw [requestOn_power]
  repeat' split
  all_goals rfl

theorem requestOn_timed_ne {d e : Nat} (s : State) (h : e ≠ d) :
    (requestOn d s).power.timed.testBit e = s.power.timed.testBit e := by
  rw [requestOn_power]
  split
  · rfl
  split
  · rfl
  split
  · rfl
  split
  · rfl
  · exact testBit_clrBit_ne _ h

/-- A domain that may be on and is not going off is requested. -/
theorem requestOn_req {d : Nat} {s : State} (hgone : s.power.gone.testBit d = false) (hrun : stopped s = false)
    (hneeds : requiredOn d s = true) (hack : s.power.ack.testBit d = false) : (requestOn d s).power.req.testBit d = true := by
  rw [requestOn_power, hgone, hrun, hneeds, hack, if_neg (by decide)]
  split
  · assumption
  · rw [if_neg (by decide), if_neg (by decide)]
    exact testBit_setBit_self _ _

theorem runDomains_ack (l : List Nat) (s : State) : (runDomains l s).power.ack = s.power.ack := by
  induction l generalizing s with
  | nil => rfl
  | cons d ds ih =>
    unfold runDomains
    dsimp only
    split
    · exact requestOn_ack d s
    · rw [ih, requestOn_ack]

theorem runDomains_timed {l : List Nat} {e : Nat} (s : State) (h : e ∉ l) :
    (runDomains l s).power.timed.testBit e = s.power.timed.testBit e := by
  induction l generalizing s with
  | nil => rfl
  | cons d ds ih =>
    obtain ⟨hd, hds⟩ := List.ne_and_not_mem_of_not_mem_cons h
    unfold runDomains
    dsimp only
    split
    · exact requestOn_timed_ne s hd
    · rw [ih _ hds, requestOn_timed_ne s hd]

theorem nextDomain_ack (s : State) : (nextDomain s).power.ack = s.power.ack := runDomains_ack _ s

theorem releaseDomain_power (d : Nat) (s : State) : (releaseDomain d s).power = s.power := (fr_releaseDomain d s).f_power rfl

theorem acked_ack (d : Nat) (s : State) : (acked d s).power.ack = s.power.ack := by
  unfold acked
  dsimp only
  split
  · rfl
  · split
    · rw [requestOff_ack]
      rfl
    · rw [releaseDomain_power]

/-! ### A rise, a fall and a missing acknowledge (R80, R81) -/

theorem ackRise_requested {d : Nat} {s : State} (hd : d ≤ 32) (hreq : s.power.req.testBit d = true)
    (hack : s.power.ack.testBit d = false) : ∃ t, ackRise d s = .next t ∧ t.power.ack = setBit s.power.ack d := by
  have hrisen : (acked d (setPower { s.power with ack := setBit s.power.ack d } s)).power.ack = setBit s.power.ack d := acked_ack d _
  unfold ackRise
  simp only [Nat.not_lt.mpr hd, hack, hreq, decide_false, Bool.or_self, Bool.not_true, Bool.false_eq_true, if_false]
  split
  · exact ⟨_, rfl, hrisen⟩
  · exact ⟨_, rfl, (nextDomain_ack _).trans hrisen⟩

theorem ackFall_ack {d : Nat} {s : State} (hd : d ≤ 32) (hack : s.power.ack.testBit d = true) (hreq : s.power.req.testBit d = false) :
    (ackFall d s).power.ack = clrBit s.power.ack d := by
  unfold ackFall
  simp only [Nat.not_lt.mpr hd, hack, hreq, decide_false, Bool.or_self, Bool.not_true, Bool.false_eq_true, if_false]
  split
  · rw [requestOff_ack]
    rfl
  · split
    · rw [requestOn_ack]
      rfl
    · rfl

/-- The domain stays marked: only a new request of it clears the mark, and it is not among those still to be requested. -/
theorem ackTimeout_timed {d : Nat} {s : State} (hd : d ≤ 32) (hdiff : s.power.req.testBit d ≠ s.power.ack.testBit d)
    (htimed : s.power.timed.testBit d = false) (hlost : s.power.lost.testBit d = false) (htodo : d ∉ s.power.todo) :
    (ackTimeout d s).power.timed.testBit d = true := by
  have hnext (t : State) (h1 : t.power.timed.testBit d = true) (h2 : d ∉ t.power.todo) : (nextDomain t).power.timed.testBit d = true := by
    unfold nextDomain
    rw [runDomains_timed t h2, h1]
  have hisolated (t : State) : (if domainOn d t then isolate d t else t).power = t.power := by
    rw [apply_ite State.power, isolate_power, ite_self]
  have hmarked : (domainErr d 1 (setPower { s.power with timed := setBit s.power.timed d } s)).power =
      { s.power with timed := setBit s.power.timed d } := domainErr_power d 1 _
  have hpoison (l : List Part) (t : State) : (l.foldl (fun u a => poisonPart false [] a u) t).power = t.power :=
    (Frame.foldl (fun u a => fr_poisonPart false [] a u) Frame.refl).f_power rfl
  have hoff (n : Nat) (t : State) : (if t.power.gone.testBit n then requestOff n t else t).power.timed = t.power.timed ∧
      (if t.power.gone.testBit n then requestOff n t else t).power.todo = t.power.todo := by
    split
    · exact ⟨requestOff_timed n t, requestOff_todo n t⟩
    · exact ⟨rfl, rfl⟩
  unfold ackTimeout
  simp only [Nat.not_lt.mpr hd, beq_eq_false_iff_ne.mpr hdiff, htimed, hlost, decide_false, Bool.or_self, Bool.false_eq_true, if_false]
  split
  · rw [hisolated, hmarked]
    exact testBit_setBit_self _ _
  · split
    · refine hnext _ ?_ ?_
      · rw [failOnHive_power, hpoison, setHive_power, (hoff _ _).1, hisolated, hmarked]
        exact testBit_setBit_self _ _
      · rw [failOnHive_power, hpoison, setHive_power, (hoff _ _).2, hisolated, hmarked]
        exact htodo
    · refine hnext _ ?_ ?_
      · rw [hisolated, hmarked]
        exact testBit_setBit_self _ _
      · rw [hisolated, hmarked]
        exact htodo

/-! ### The loss of a domain (R82, R422) -/

theorem startShutdown_power (thermal fab : Bool) (s : State) :
    ∃ sh todo, (startShutdown thermal fab s).power = { s.power with shut := sh, todo := todo } := by
  have hstop (l : List (Nat × Job)) (t : State) : (l.foldl (fun u x => stopUnits x.1 u) t).power = t.power :=
    (Frame.foldl (fun u (x : Nat × Job) => fr_stopUnits x.1 u) Frame.refl).f_power rfl
  have hpost (cls source kind : Nat) (detail : List Nat) (t : State) : (postEvent cls source kind detail t).power = t.power :=
    (fr_postEvent ..).f_power rfl
  unfold startShutdown
  split
  · exact ⟨_, _, rfl⟩
  · simp only [apply_ite State.power, hpost, hstop, setPower_power, ite_self, putAll_power]
    exact ⟨_, _, rfl⟩

theorem lostInStart_power (n : Nat) (s : State) : (lostInStart n s).power = s.power := (fr_lostInStart n s).f_power rfl

theorem lossEffect_ack (d : Nat) (s : State) : (lossEffect d s).power.ack = s.power.ack := by
  unfold lossEffect
  split
  · rw [lostInStart_power, requestOff_ack, failOnHive_power]
    rfl
  · split
    · rw [failOnHive_power, isolate_power]
    · obtain ⟨sh, todo, h⟩ := startShutdown_power false true (isolate d s)
      rw [h, isolate_power]

theorem lossEffect_lost (d : Nat) (s : State) : (lossEffect d s).power.lost = s.power.lost := by
  unfold lossEffect
  split
  · rw [lostInStart_power, requestOff_lost, failOnHive_power]
    rfl
  · split
    · rw [failOnHive_power, isolate_power]
    · obtain ⟨sh, todo, h⟩ := startShutdown_power false true (isolate d s)
      rw [h, isolate_power]

theorem lossEffect_gone {d : Nat} (s : State) (hd : d < 16) : (lossEffect d s).power.gone.testBit d = true := by
  unfold lossEffect
  rw [if_pos hd, lostInStart_power, requestOff_gone, failOnHive_power, setPower_power]
  simp [testBit_setBit]

theorem domainLost_power {d : Nat} {s : State} (hd : d ≤ 32) (hreq : s.power.req.testBit d = true)
    (hack : s.power.ack.testBit d = true) :
    (domainLost d s).power.ack = clrBit s.power.ack d ∧ (domainLost d s).power.lost.testBit d = true ∧
      (d < 16 → (domainLost d s).power.gone.testBit d = true) := by
  have hreport (t : State) : (postEvent 6 d 2 [] (thmEvent THM_EVENT.DOMAIN (domainErr d 2 t))).power = t.power :=
    (((fr_domainErr d 2 t).mono rfl).seq (fr_thmEvent _ _) rfl |>.seq (fr_postEvent ..) rfl : Frame 0x100001E800080004 t _).f_power rfl
  unfold domainLost
  simp only [Nat.not_lt.mpr hd, hack, hreq, decide_false, Bool.or_self, Bool.not_true, Bool.false_eq_true, if_false]
  refine ⟨?_, ?_, fun h => lossEffect_gone _ h⟩
  · rw [lossEffect_ack, hreport, setPower_power]
  · rw [lossEffect_lost, hreport, setPower_power]
    exact testBit_setBit_self _ _

/-! ### PD_C in service (R164, R165) -/

theorem idlePowerDown_req {n : Nat} {s : State} (hon : cOn n s = true) (hgate : on (CEL_HIVE_CFG.GATE_EN n) s = true)
    (hidle : on (CEL_HIVE_CFG.IDLE_US n) s = true) (hplaced : (hive n s).placed = []) (hcue : (hive n s).cue = none)
    (hheld : (hive n s).held = []) (hreq : s.power.req.testBit (16 + n) = true) (hack : s.power.ack.testBit (16 + n) = true) :
    (idlePowerDown n s).power.req = clrBit s.power.req (16 + n) := by
  have hgoes : idlePowerDown n s = requestOff (16 + n) s := by
    simp [idlePowerDown, hon, hgate, hidle, hplaced, hcue, hheld]
  rw [hgoes, requestOff_power, hreq, hack]
  rfl

theorem cellsWake_asks {n : Nat} {s : State} (hoff : cOn n s = false) (hwaits : (hive n s).placed ≠ [] ∨ pushWaits n s = true) :
    cellsWake n s = requestOn (16 + n) s := by
  have hnotReady : cellsReady n s = false := by simp [cellsReady, hoff]
  have hneeds : ((hive n s).placed.isEmpty && !pushWaits n s) = false := by
    obtain h | h := hwaits
    · simp [h]
    · simp [h]
  simp [cellsWake, needCells, hnotReady, hoff, hneeds]

theorem exec_pwrAckFall (d : Nat) (s : State) : exec (.pwrAckFall d) s = .next (settled (ackFall d s)) := rfl
theorem exec_pwrAckTimeout (d : Nat) (s : State) : exec (.pwrAckTimeout d) s = .next (settled (ackTimeout d s)) := rfl
theorem exec_domainLoss (d : Nat) (s : State) : exec (.domainLoss d) s = .next (settled (domainLost d s)) := rfl
theorem exec_pdCIdlePowerDown (n : Nat) (s : State) : exec (.pdCIdlePowerDown n) s = .next (idlePowerDown n s) := rfl
theorem exec_pdCWake (n : Nat) (s : State) : exec (.pdCWake n) s = .next (cellsWake n s) := rfl

/-- Settles O12: each clause is what the command's operation does to the handshakes, before the units settle. -/
theorem powerDomainCommands : Obligations.PowerDomainCommands := by
  unfold Obligations.PowerDomainCommands
  refine ⟨fun d s hd hreq hack => ?_, fun d s hd hack hreq => ?_, fun d s hd hdiff htimed hlost htodo => ?_,
    fun d s hd hreq hack => ?_, fun n s hon hgate hidle hplaced hcue hheld hreq hack _ => ?_,
    fun n s _ hoff hwaits hneeds hrun hgone hack => ?_⟩
  · rw [exec_pwrAckRise]
    exact ackRise_requested hd hreq hack
  · exact ⟨_, exec_pwrAckFall d s, ackFall_ack hd hack hreq⟩
  · exact ⟨_, exec_pwrAckTimeout d s, ackTimeout_timed hd hdiff htimed hlost htodo⟩
  · exact ⟨_, exec_domainLoss d s, domainLost_power hd hreq hack⟩
  · exact ⟨_, exec_pdCIdlePowerDown n s, idlePowerDown_req hon hgate hidle hplaced hcue hheld hreq hack⟩
  · exact ⟨_, exec_pdCWake n s, cellsWake_asks hoff hwaits ▸ requestOn_req hgone hrun hneeds hack⟩

end Sys2Proof.Machine
end

section
/-! Proofs for the ports (02_ports.md): links, flits, headers, credits and responses of a compute port, and the requests that it refuses
(R43 to R60, R99, R237). -/

namespace Sys2Proof.Machine

open Reg

/-! ### The map of the ports -/

@[simp] theorem port_setPort_same (k : Nat) (p : Port) (s : State) : port k (setPort k p s) = p := mgetD_mset_same _ _ _ _

theorem port_setPort_ne {j k : Nat} (p : Port) (s : State) (h : j ≠ k) : port j (setPort k p s) = port j s := mgetD_mset_ne _ _ _ h

theorem port_congr (k : Nat) {s t : State} (h : t.ports = s.ports) : port k t = port k s := by rw [port, h, port]

theorem emit_ports (event count : Nat) (hive src cls ch : Option Nat) (s : State) : (emit event count hive src cls ch s).ports = s.ports :=
  (fr_emit event count hive src cls ch s).f_ports rfl

theorem emit_out (event count : Nat) (hive src cls ch : Option Nat) (s : State) : (emit event count hive src cls ch s).out = s.out :=
  (fr_emit event count hive src cls ch s).f_out rfl

/-! ### Links (R59, R518) -/

theorem portReopen_opens {k : Nat} {s : State} (hk : k < 16) (hopen : portsOpen s = true) (hdrained : undrained k s = false)
    (hready : (port k s).ready = false) (hparity : (port k s).parityClosed = false) : portReopen k s = openPort k s := by
  simp [portReopen, hopen, hdrained, hready, hparity, Nat.not_le.mpr hk]

/-! ### Header flits (R52, R55) -/

theorem takeSlot_zero (k : Nat) (s : State) : takeSlot k s 0 = s := rfl

theorem foldl_takeSlot_zero (k n : Nat) (s : State) : (List.replicate n 0).foldl (takeSlot k) s = s := by
  induction n with
  | zero => rfl
  | succ n ih => rw [List.replicate_succ, List.foldl_cons, takeSlot_zero, ih]

theorem headerFlit_one {k : Nat} {flit : BitVec 2048} {w : BitVec 256} {s : State} (hslots : flitSlots flit = w :: List.replicate 7 0)
    (hready : (port k s).ready = true) : headerFlit k flit (flitParity flit) s = takeSlot k s w := by
  unfold headerFlit
  rw [hready, if_neg (by decide), if_neg (not_not_intro rfl), hslots, List.foldl_cons, foldl_takeSlot_zero]

theorem reqOfSlot_op_ne_bad (uid k since : Nat) {w : BitVec 256} (hlo : 1 ≤ slotF w 0 4) (hhi : slotF w 0 4 ≤ 3) :
    (reqOfSlot uid k since w).op ≠ .bad := by
  have hcases : slotF w 0 4 = 1 ∨ slotF w 0 4 = 2 ∨ slotF w 0 4 = 3 := by omega
  obtain h | h | h := hcases
  all_goals simp [reqOfSlot, h]

/-- A header that comes with credit and a free tag waits for its decode. -/
theorem port_takeSlot {k : Nat} {w : BitVec 256} {s : State} (hcredit : 0 < (port k s).reqHdr) (hlo : 1 ≤ slotF w 0 4)
    (hhi : slotF w 0 4 ≤ 3) (htag : (port k s).tags.contains (slotF w 8 12) = false) :
    (port k (takeSlot k s w)).reqHdr = (port k s).reqHdr - 1 ∧ (port k (takeSlot k s w)).tags = slotF w 8 12 :: (port k s).tags ∧
      (port k (takeSlot k s w)).rx = (port k s).rx ++ [reqOfSlot s.nextUid k s.fclk w] := by
  have hop : ((reqOfSlot s.nextUid k s.fclk w).op == Op.bad) = false := beq_eq_false_iff_ne.mpr (reqOfSlot_op_ne_bad _ _ _ hlo hhi)
  have hfree : (port k s).tags.contains (reqOfSlot s.nextUid k s.fclk w).tag = false := htag
  unfold takeSlot
  dsimp only
  rw [if_neg (Nat.ne_of_gt hlo), if_neg (Nat.ne_of_gt hcredit), hfree, hop]
  simp only [Bool.false_eq_true, if_false, port_setPort_same, true_and]
  exact ⟨rfl, trivial⟩

/-! ### Data flits (R52, R60) -/

theorem answerDataParity_clean {k : Nat} {s : State} (h : ∀ x ∈ (port k s).ing, x.parityBad = false) : answerDataParity k s = s := by
  have hnone : (port k s).ing.find? (fun r => r.parityBad && r.need == 0) = none := by
    rw [List.find?_eq_none]
    intro x hx
    simp [h x hx]
  unfold answerDataParity
  rw [hnone]

/-- Data without a parity error mark no request. -/
theorem feed_parityBad (u : Nat) (beats : List Beat) (r : Req) : (feed u beats true r).parityBad = r.parityBad := by
  unfold feed
  split
  · simp
  · rfl

/-- What is left of the flits that a port awaits once it has taken one. -/
def owedAfter (o : Owed) (os : List Owed) : List Owed := if o.beats ≤ 4 then os else { o with beats := o.beats - 4 } :: os

theorem takeData_feeds {k u : Nat} {beats : List Beat} {o : Owed} {os : List Owed} {s : State} (hcredit : 0 < (port k s).reqData)
    (howed : (port k s).owed = o :: os) (howner : o.owner = some u) (hclean : ∀ x ∈ (port k s).ing, x.parityBad = false) :
    takeData k beats true s = setPort k { port k s with
      owed := owedAfter o os, reqData := (port k s).reqData - 1,
      rx := (port k s).rx.map (feed u beats true), ing := (port k s).ing.map (feed u beats true) } s := by
  obtain ⟨owner, n, early⟩ := o
  obtain rfl : owner = some u := howner
  unfold takeData
  dsimp only
  rw [howed]
  dsimp only
  rw [if_neg (Nat.ne_of_gt hcredit)]
  refine answerDataParity_clean fun x hx => ?_
  rw [port_setPort_same] at hx
  obtain ⟨r, hr, rfl⟩ := List.mem_map.mp hx
  rw [feed_parityBad, hclean r hr]

theorem dataFlit_ready {k : Nat} {flit : BitVec 2048} {s : State} (hready : (port k s).ready = true) :
    dataFlit k flit (flitParity flit) s = takeData k (flitBeats flit) true s := by
  simp [dataFlit, hready]

/-! ### The decode of a header (R43 to R48) -/

/-- The port without the header at the head of its queue. -/
def headTaken (k : Nat) (rest : List Req) (s : State) : State := setPort k { port k s with rx := rest } s

section
variable {k : Nat} {r : Req} {rest : List Req} {s : State} (hrx : (port k s).rx = r :: rest) (hk : k < 16)
include hrx hk

theorem decodeHead_passes (hformat : formatAt k r s = 0) (hopen : openOn r.ctx k s = true) (hcurt : r.curt = 0)
    (hclean : ∀ x ∈ (port k s).ing ++ [r], x.parityBad = false) :
    decodeHead r.op k s = waitIngress k r (headTaken k rest s) := by
  unfold decodeHead
  rw [hrx]
  simp only [bne_self_eq_false, Bool.false_or, decide_eq_true_eq, Nat.not_le.mpr hk, if_false, hformat, ne_eq, not_true_eq_false,
    hopen, Bool.not_true, Bool.false_eq_true, hcurt, if_true]
  refine answerDataParity_clean fun x hx => hclean x ?_
  simpa [waitIngress] using hx

theorem decodeHead_malformed (hformat : formatAt k r s ≠ 0) :
    decodeHead r.op k s = finishAtPort r rtFormat (formatAt k r s) (disown k r.uid (headTaken k rest s)) := by
  unfold decodeHead
  rw [hrx]
  simp only [bne_self_eq_false, Bool.false_or, decide_eq_true_eq, Nat.not_le.mpr hk, if_false, hformat, ne_eq, not_false_eq_true, if_true]
  rfl

theorem decodeHead_closed (hformat : formatAt k r s = 0) (hopen : openOn r.ctx k s = false) :
    decodeHead r.op k s = faultPort r false (disown k r.uid (headTaken k rest s)) := by
  unfold decodeHead
  rw [hrx]
  simp only [bne_self_eq_false, Bool.false_or, decide_eq_true_eq, Nat.not_le.mpr hk, if_false, hformat, ne_eq, not_true_eq_false,
    hopen, Bool.not_false, if_true]
  rfl

end

theorem port_waitIngress (k : Nat) (r : Req) (s : State) : port k (waitIngress k r s) = { port k s with ing := (port k s).ing ++ [r] } :=
  port_setPort_same ..

theorem port_headTaken (k : Nat) (rest : List Req) (s : State) : port k (headTaken k rest s) = { port k s with rx := rest } :=
  port_setPort_same ..

theorem exec_cpRd (k : Nat) (s : State) : exec (.cpRd k) s = .next (decodeHead .rd k s) := rfl
theorem exec_cpWr (k : Nat) (s : State) : exec (.cpWr k false) s = .next (decodeHead .wr k s) := rfl
theorem exec_cpActPush (k : Nat) (s : State) : exec (.cpActPush k false) s = .next (decodeHead .push k s) := rfl

/-- The commands that decode a header, by its operation, where no parity error strikes. -/
theorem exec_decode {k : Nat} {op : Op} {c : Instr} (s : State)
    (h : (op, c) ∈ [(Op.rd, Instr.cpRd k), (Op.wr, Instr.cpWr k false), (Op.push, Instr.cpActPush k false)]) :
    exec c s = .next (decodeHead op k s) := by
  simp only [List.mem_cons, Prod.mk.injEq, List.not_mem_nil, or_false] at h
  obtain ⟨rfl, rfl⟩ | ⟨rfl, rfl⟩ | ⟨rfl, rfl⟩ := h
  · exact exec_cpRd k s
  · exact exec_cpWr k s
  · exact exec_cpActPush k s

/-- A well-formed request of an open context, outside a curtain, joins those at ingress. -/
theorem exec_decode_passes {k : Nat} {op : Op} {c : Instr} {r : Req} {rest : List Req} {s : State}
    (hc : (op, c) ∈ [(Op.rd, Instr.cpRd k), (Op.wr, Instr.cpWr k false), (Op.push, Instr.cpActPush k false)])
    (hrx : (port k s).rx = r :: rest) (hop : r.op = op) (hk : k < 16) (hformat : formatAt k r s = 0) (hopen : openOn r.ctx k s = true)
    (hcurt : r.curt = 0) (hclean : ∀ x ∈ (port k s).ing ++ [r], x.parityBad = false) :
    ∃ t, exec c s = .next t ∧ (port k t).rx = rest ∧ (port k t).ing = (port k s).ing ++ [r] := by
  refine ⟨_, exec_decode s hc, ?_⟩
  rw [← hop, decodeHead_passes hrx hk hformat hopen hcurt hclean, port_waitIngress, port_headTaken]
  exact ⟨rfl, rfl⟩

/-! ### Responses (R47, R53) -/

/-- The torn mark that goes out with an item: only a header carries it. -/
def sentTorn (k : Nat) (s : State) : Egr → Bool
  | .hdr .. => (port k s).tornNext
  | .data .. => false

theorem responseSend_sends {k : Nat} {e : Egr} {rest : List Egr} {s : State}
    (h : takeSendable (port k s).rspHdr (port k s).rspData [] (port k s).egress = some (e, rest)) :
    (port k (responseSend k s)).egress = rest ∧
      (responseSend k s).out.cp = s.out.cp ++ [cpOutOf k (sentTorn k s e) e] := by
  unfold responseSend
  dsimp only
  rw [h]
  cases e with
  | hdr rt tag len hive info fin =>
    have hemit (c : Prop) [Decidable c] (event : Nat) (t : State) :
        (if c then emit event 1 none (some k) none none t else t).ports = t.ports ∧
          (if c then emit event 1 none (some k) none none t else t).out = t.out := by
      split
      · exact ⟨emit_ports .., emit_out ..⟩
      · exact ⟨rfl, rfl⟩
    dsimp only
    rw [port_congr k (hemit _ _ _).1, port_congr k (hemit _ _ _).1, (hemit _ _ _).2, (hemit _ _ _).2]
    exact ⟨congrArg Port.egress (port_setPort_same k _ s), rfl⟩
  | data tag beat bs =>
    dsimp only
    rw [port_congr k (emit_ports ..), emit_out]
    exact ⟨congrArg Port.egress (port_setPort_same k _ s), rfl⟩

theorem exec_cpLinkDown (k : Nat) (s : State) : exec (.cpLinkDown k) s = .next (settled (linkDown k s)) := rfl
theorem exec_cpPortReopen (k : Nat) (s : State) : exec (.cpPortReopen k) s = .next (portReopen k s) := rfl
theorem exec_cpHeaderFlit (k : Nat) (flit : BitVec 2048) (par : BitVec 256) (s : State) :
    exec (.cpHeaderFlit k flit par) s = .next (headerFlit k flit par s) := rfl
theorem exec_cpDataFlit (k : Nat) (flit : BitVec 2048) (par : BitVec 256) (s : State) :
    exec (.cpDataFlit k flit par) s = .next (dataFlit k flit par s) := rfl
theorem exec_cpRspCreditReturn (k hdr data : Nat) (s : State) :
    exec (.cpRspCreditReturn k hdr data) s = .next (rspCredits k hdr data s) := rfl
theorem exec_responseSend (k : Nat) (s : State) : exec (.responseSend k) s = .next (responseSend k s) := rfl

/-- Settles O13: each clause reads the port that the command's operation leaves. -/
theorem portCommands : Obligations.PortCommands := by
  unfold Obligations.PortCommands
  refine ⟨fun k s => ?_, fun k s hk hopen hdrained hready hparity => ?_, fun k flit w s hslots hready hcredit hlo hhi htag => ?_,
    fun k flit o os u s hready hcredit howed howner hclean => ?_, fun k r rest s hrx hop hk hf ho hc hp => ?_,
    fun k r rest s hrx hop hk hf ho hc hp => ?_, fun k r rest s hrx hop hk hf ho hc hp => ?_, fun k hdr data s hready => ?_,
    fun k e rest s h => ?_⟩
  · refine ⟨_, exec_cpLinkDown k s, ?_⟩
    rw [linkDown, port_setPort_same]
    exact ⟨rfl, rfl, rfl, rfl, rfl⟩
  · refine ⟨_, exec_cpPortReopen k s, ?_⟩
    rw [portReopen_opens hk hopen hdrained hready hparity, openPort, port_setPort_same]
    exact ⟨rfl, rfl, rfl, rfl, rfl, fun j hj => port_setPort_ne _ s hj⟩
  · exact ⟨_, exec_cpHeaderFlit k flit _ s, headerFlit_one hslots hready ▸ port_takeSlot hcredit hlo hhi htag⟩
  · refine ⟨_, exec_cpDataFlit k flit _ s, ?_⟩
    rw [dataFlit_ready hready, takeData_feeds hcredit howed howner hclean, port_setPort_same]
    exact ⟨rfl, rfl, rfl, rfl⟩
  · exact exec_decode_passes (by simp) hrx hop hk hf ho hc hp
  · exact exec_decode_passes (by simp) hrx hop hk hf ho hc hp
  · exact exec_decode_passes (by simp) hrx hop hk hf ho hc hp
  · rw [exec_cpRspCreditReturn, rspCredits, if_pos (by rw [hready, Bool.true_or])]
  · refine ⟨_, exec_responseSend k s, ?_⟩
    obtain ⟨hegress, hout⟩ := responseSend_sends h
    exact ⟨hegress, hout⟩

/-! ### Refused requests (R44, R48, R99) -/

theorem port_disown (k uid : Nat) (s : State) : ∃ owed, port k (disown k uid s) = { port k s with owed := owed } :=
  ⟨_, port_setPort_same ..⟩

/-- The answer to a request of a ready port joins its egress buffer, and the request's credits become due. -/
theorem port_finishAtPort {k : Nat} {r : Req} {s : State} (rtype info : Nat) (hsrc : r.src = .cp k) (hready : (port k s).ready = true) :
    ∃ hdue ddue, port k (finishAtPort r rtype info s) =
      { port k s with egress := (port k s).egress ++ [.hdr rtype r.tag 0 0 info true], hdue := hdue, ddue := ddue } := by
  have hanswers : answers (port k s) = true := by rw [answers, hready, Bool.true_or]
  unfold finishAtPort answerPort returnCredits
  rw [hsrc]
  dsimp only
  unfold egressPut oweCredits
  dsimp only
  rw [hanswers, if_pos rfl, port_setPort_same, port_setPort_same]
  exact ⟨_, _, rfl⟩

/-- A header that is answered at once leaves the queue and does not enter ingress. -/
theorem port_answerHead {k : Nat} {r : Req} {rest : List Req} {s : State} (rtype info : Nat) (hsrc : r.src = .cp k)
    (hready : (port k s).ready = true) :
    (port k (finishAtPort r rtype info (disown k r.uid (headTaken k rest s)))).rx = rest ∧
      (port k (finishAtPort r rtype info (disown k r.uid (headTaken k rest s)))).ing = (port k s).ing ∧
      (port k (finishAtPort r rtype info (disown k r.uid (headTaken k rest s)))).egress =
        (port k s).egress ++ [.hdr rtype r.tag 0 0 info true] := by
  obtain ⟨owed, howed⟩ := port_disown k r.uid (headTaken k rest s)
  rw [port_headTaken] at howed
  have hready' : (port k (disown k r.uid (headTaken k rest s))).ready = true := by rw [howed, hready]
  obtain ⟨hdue, ddue, hport⟩ := port_finishAtPort rtype info hsrc hready'
  rw [hport, howed]
  exact ⟨rfl, rfl, rfl⟩

theorem recordFault_ports (ctx src : Nat) (write window : Bool) (addr : Nat) (s : State) :
    (recordFault ctx src write window addr s).ports = s.ports := (fr_recordFault ..).f_ports rfl

theorem faultPort_own {k : Nat} {r : Req} (s : State) (hk : k < 16) (hm : r.m = k) :
    faultPort r false s = recordFault r.ctx k (r.op != .rd) false (firstByte r) (finishAtPort r rtAccess r.addr s) := by
  rw [faultPort, hm, if_pos hk]
  rfl

theorem recordFault_recorded {s : State} (ctx src : Nat) (write window : Bool) (addr : Nat) (h : on GLB_FAULT_INFO.VALID s = true) :
    recordFault ctx src write window addr s = put GLB_FAULT_INFO.OVERFLOW 1 s := by rw [recordFault, if_pos h]

theorem recordFault_first {s : State} (ctx src : Nat) (write window : Bool) (addr : Nat) (h : on GLB_FAULT_INFO.VALID s = false) :
    recordFault ctx src write window addr s = putAll [(GLB_FAULT_INFO.CTX, ctx), (GLB_FAULT_INFO.SRC, src),
      (GLB_FAULT_INFO.WRITE, b2n write), (GLB_FAULT_INFO.WINDOW, b2n window), (GLB_FAULT_INFO.VALID, 1), (GLB_FAULT_ADDR.ADDR, addr)] s := by
  rw [recordFault, h]
  rfl

/-- A flag written with a Bool reads as that Bool. -/
theorem on_of_rd_b2n {f : Fld} {s : State} {b : Bool} (h : rd f s = b2n b % 2) : on f s = b := by
  rw [on, h]
  cases b <;> rfl

/-- Settles O14: the header is answered from the head of the queue, and a fault is recorded where none is. -/
theorem refusedRequests : Obligations.RefusedRequests := by
  unfold Obligations.RefusedRequests
  refine ⟨fun k r rest op c s hc hrx hop hk hsrc hformat hready => ?_,
    fun k r rest op c s hc hrx hop hk hm hsrc hformat hopen hready => ?_, fun ctx src addr write window s h => ?_,
    fun ctx src addr write window s h => recordFault_recorded ctx src write window addr h⟩
  · refine ⟨_, exec_decode s hc, ?_⟩
    rw [← hop, decodeHead_malformed hrx hk hformat]
    exact port_answerHead rtFormat _ hsrc hready
  · obtain ⟨hrest, hing, hegress⟩ := port_answerHead (rest := rest) rtAccess r.addr hsrc hready
    refine ⟨_, finishAtPort r rtAccess r.addr (disown k r.uid (headTaken k rest s)), exec_decode s hc, ?_⟩
    rw [← hop, decodeHead_closed hrx hk hformat hopen, faultPort_own _ hk hm, port_congr k (recordFault_ports ..)]
    exact ⟨hrest, hing, hegress, rfl⟩
  · rw [recordFault_first ctx src write window addr h]
    refine ⟨on_of_rd_b2n (b := true) ?_, ?_, ?_, on_of_rd_b2n ?_, on_of_rd_b2n ?_, ?_⟩
    · exact rd_putAll_mem GLB_FAULT_INFO.VALID 1 [_, _, _, _] [_] s nofun rfl
    · exact rd_putAll_mem GLB_FAULT_INFO.CTX ctx [] [_, _, _, _, _] s nofun rfl
    · exact rd_putAll_mem GLB_FAULT_INFO.SRC src [_] [_, _, _, _] s nofun rfl
    · exact rd_putAll_mem GLB_FAULT_INFO.WRITE (b2n write) [_, _] [_, _, _] s nofun rfl
    · exact rd_putAll_mem GLB_FAULT_INFO.WINDOW (b2n window) [_, _, _] [_, _] s nofun rfl
    · exact rd_putAll_mem GLB_FAULT_ADDR.ADDR addr [_, _, _, _, _] [] s nofun rfl

end Sys2Proof.Machine
end

section
/-! Proofs for the ports (02_ports.md): the block's own reads through HP, their tags, function resets and messages (R62, R375, R376,
R449, R507, R508). -/

namespace Sys2Proof.Machine

open Reg

/-! ### What leaves the host endpoint ready (R507)

`HostPort.ready` is set by the ROM code and cleared by a function reset; the operations that lose a host context set keep it. -/

theorem hostReady_of_frame {m : Nat} {s t : State} (h : Frame m s t) (hm : m.testBit 35 = false) : t.host.ready = s.host.ready :=
  congrArg HostPort.ready (h.f_host hm)

theorem hostReady_foldl {α : Type} {f : State → α → State} (hf : ∀ u x, (f u x).host.ready = u.host.ready) (l : List α) (s : State) :
    (l.foldl f s).host.ready = s.host.ready := by
  induction l generalizing s with
  | nil => rfl
  | cons x l ih => rw [List.foldl_cons, ih, hf]

theorem hostReady_sendMsg (v : Nat) (s : State) : (sendMsg v s).host.ready = s.host.ready := by
  unfold sendMsg
  split
  · rfl
  · rfl

theorem hostReady_raiseInt (b : Nat) (s : State) : (raiseInt b s).host.ready = s.host.ready := by
  unfold raiseInt
  split
  · rfl
  dsimp only
  split
  · rfl
  · exact hostReady_sendMsg 0 _

theorem hostReady_drainEvents (l : List Event) (s : State) : (drainEvents l s).host.ready = s.host.ready := by
  induction l generalizing s with
  | nil => rfl
  | cons e l ih =>
    unfold drainEvents
    split
    · rw [ih, hostReady_raiseInt, hostReady_of_frame (fr_evQueueWrite ..) rfl]
      rfl
    · rfl

theorem hostReady_flushEvents (s : State) : (flushEvents s).host.ready = s.host.ready := by
  unfold flushEvents
  split
  · rw [hostReady_drainEvents]
  · rfl

theorem hostReady_queueEvent (e : Event) (s : State) : (queueEvent e s).host.ready = s.host.ready := by
  unfold queueEvent
  dsimp only
  split
  · rw [hostReady_flushEvents]
    split
    · rfl
    · rfl
  · split
    · rfl
    · rfl

theorem hostReady_postEvent (cls source kind : Nat) (detail : List Nat) (s : State) :
    (postEvent cls source kind detail s).host.ready = s.host.ready := by
  unfold postEvent
  dsimp only
  rw [hostReady_queueEvent]
  split
  · rfl
  · rfl

theorem hostReady_failCell (n c : Nat) (s : State) : (failCell n c s).host.ready = s.host.ready := by
  unfold failCell cellEvent
  rw [hostReady_postEvent, hostReady_of_frame (fr_showCells ..) rfl]
  rfl

theorem hostReady_standIn (n c : Nat) (s : State) : (standIn n c s).host.ready = s.host.ready := by
  unfold standIn cellEvent
  rw [hostReady_postEvent, hostReady_of_frame (fr_showCells ..) rfl, hostReady_of_frame (fr_putAll ..) rfl]

theorem hostReady_dropUnderstudy (n : Nat) (s : State) : (dropUnderstudy n s).host.ready = s.host.ready := by
  unfold dropUnderstudy
  dsimp only
  split
  · rw [hostReady_failCell]
    rfl
  · rw [hostReady_of_frame (fr_showCells ..) rfl]
    rfl

theorem hostReady_replaceCell (n c : Nat) (s : State) : (replaceCell n c s).host.ready = s.host.ready := by
  unfold replaceCell
  split
  · exact hostReady_dropUnderstudy n s
  split
  · rfl
  split
  · exact hostReady_standIn n c s
  · exact hostReady_failCell n c s

theorem hostReady_retireCell (n c : Nat) (s : State) : (retireCell n c s).host.ready = s.host.ready := by
  unfold retireCell
  split
  · rfl
  split
  · split
    · exact hostReady_dropUnderstudy n s
    · rfl
  split
  · rw [cellEvent, hostReady_postEvent, hostReady_standIn]
    rfl
  · exact hostReady_replaceCell n c s

theorem hostReady_boundary (n : Nat) (s : State) : (boundary n s).host.ready = s.host.ready := by
  have hretire (t : State) : (applyRetire n t).host.ready = t.host.ready := hostReady_foldl (fun u c => hostReady_retireCell n c u) _ t
  unfold boundary endTakeovers
  rw [hostReady_of_frame (fr_releaseHeld ..) rfl, hostReady_of_frame (fr_startTests ..) rfl, hretire,
    hostReady_foldl fun u c => hostReady_replaceCell n c u]
  rfl

theorem hostReady_unplace (j n : Nat) (s : State) : (unplace j n s).host.ready = s.host.ready := by
  have hshown (c : Bool) (t : State) : (if c then put (CUE_STATUS.PRELOADED n) 0 t else t).host = t.host := by
    split
    · rfl
    · rfl
  unfold unplace
  dsimp only
  rw [hostReady_of_frame (fr_showCue ..) rfl]
  split
  · rw [hostReady_boundary, hostReady_of_frame (fr_sampleJob ..) rfl, hostReady_of_frame (fr_clearStreams ..) rfl, hshown]
    rfl
  · rw [hshown]
    rfl

theorem hostReady_stopUnits (j : Nat) (s : State) : (stopUnits j s).host.ready = s.host.ready := by
  unfold stopUnits
  dsimp only
  split
  · rfl
  · rw [hostReady_of_frame (fr_setJob ..) rfl, hostReady_foldl fun u n => hostReady_unplace j n u]

theorem hostReady_failJob (j status info : Nat) (s : State) : (failJob j status info s).host.ready = s.host.ready := by
  unfold failJob
  split
  · rfl
  split
  · rfl
  dsimp only
  split
  · rw [hostReady_of_frame (fr_haltCtx ..) rfl, hostReady_stopUnits]
    rfl
  · rw [hostReady_stopUnits]
    rfl

theorem hostReady_spillWrite (h j a : Nat) (d : List Byte) (s : State) : (spillWrite h j a d s).host.ready = s.host.ready := by
  unfold spillWrite
  split
  · rw [hostReady_of_frame (fr_setSpill ..) rfl, hostReady_of_frame (fr_fwWrite ..) rfl]
  · rw [hostReady_of_frame (fr_dropSpilled ..) rfl, hostReady_failJob]

theorem hostReady_loseSet (h : Nat) (s : State) : (loseSet h s).host.ready = s.host.ready := by
  unfold loseSet
  split
  · rfl
  dsimp only
  rw [hostReady_postEvent, hostReady_foldl, hostReady_foldl]
  · rfl
  · intro u x
    split
    · exact hostReady_spillWrite ..
    · rfl
  · exact fun u x => rfl

theorem hostReady_dropSet (s : State) (h : Nat) : (dropSet s h).host.ready = s.host.ready := by
  unfold dropSet
  split
  · rfl
  · exact hostReady_loseSet h s

/-- With no read outstanding a function reset leaves the endpoint as not ready. -/
theorem functionResetOp_ready {s : State} (h : s.host.reads = []) : (functionResetOp s).host.ready = false := by
  unfold functionResetOp
  dsimp only
  rw [hostReady_foldl hostReady_dropSet, h]
  rfl

/-! ### Tags (R376, R505) -/

theorem pumpReads_quarantine (n : Nat) (s : State) : (pumpReads n s).host.quarantine = s.host.quarantine := by
  induction n generalizing s with
  | zero => rfl
  | succ n ih =>
    unfold pumpReads
    split
    · rfl
    split
    · rw [ih]
      rfl
    · rfl

theorem nextOut_quarantine {r : PeerReq} {p : Peer} {s : State} (h : nextOut s = some (r, p)) : p.quarantine = s.peer.quarantine := by
  unfold nextOut at h
  dsimp only at h
  split at h
  · cases h
    rfl
  · split at h
    · cases h
      rfl
    · cases h

theorem pumpPeer_quarantine (n : Nat) (s : State) : (pumpPeer n s).peer.quarantine = s.peer.quarantine := by
  induction n generalizing s with
  | zero => rfl
  | succ n ih =>
    have hemit (event count : Nat) (t : State) : (emit event count none none none none t).peer = t.peer := (fr_emit ..).f_peer rfl
    unfold pumpPeer
    split
    · rfl
    split
    next r p t hout _ =>
      dsimp only
      rw [ih, hemit, hemit]
      exact (nextOut_quarantine hout : p.quarantine = s.peer.quarantine)
    · rfl

theorem pumpRsp_quarantine (n : Nat) (s : State) : (pumpRsp n s).peer.quarantine = s.peer.quarantine := by
  induction n generalizing s with
  | zero => rfl
  | succ n ih =>
    unfold pumpRsp
    split
    · rfl
    dsimp only
    split
    · rfl
    · rw [ih]
      rfl

/-! ### Reads that end (R62, R375) -/

theorem cfgD_cfgPut_same (off v : Nat) (s : State) : cfgD off (cfgPut off v s) = v := mgetD_mset_same _ _ _ _

theorem cfgD_aerSet (b : Nat) (s : State) : (cfgD 0x104 (aerSet b s)).testBit b = true := by
  unfold aerSet
  dsimp only
  rw [cfgD_cfgPut_same]
  exact testBit_setBit_self _ b

section
variable {tag : Nat} {r : HpRead} {s : State} (hq : s.host.quarantine.contains tag = false) (hr : mfind s.host.reads tag = some r)
include hq hr

theorem hpCompletion_more (data : List Byte) :
    hpCompletion tag true false false data s =
      { s with host := { s.host with reads := mset s.host.reads tag { r with got := r.got ++ data } } } := by
  unfold hpCompletion
  rw [hq, hr]
  rfl

theorem hpCompletion_last (data : List Byte) :
    hpCompletion tag true false true data s =
      issueReads (readArrives { r with got := padTo r.len (r.got ++ data) }
        { s with host := { s.host with reads := mdel s.host.reads tag } }) := by
  unfold hpCompletion
  rw [hq, hr]
  rfl

end

/-- A mailbox fetch brings one request for each 64 bytes. -/
theorem readArrives_mailbox {r : HpRead} {i : Nat} (s : State) (h : r.dest = .mailbox i) :
    (readArrives r s).fw.mbxReq.length = s.fw.mbxReq.length + r.len / 64 := by
  unfold readArrives
  rw [h]
  simp

theorem intMaskWrite_mask (v : Nat) (s : State) : rd INT_MASK.MASK (intMaskWrite v s) = v % 2 ^ INT_MASK.MASK.w := by
  unfold intMaskWrite
  dsimp only
  split
  · rw [(fr_sendMsg ..).rd_eq _ rfl rfl, rd_put_same INT_MASK.MASK v s nofun]
  · rw [rd_put_same INT_MASK.MASK v s nofun]

theorem msixRelease_sends {v : Nat} {s : State} (hpending : s.host.pba.testBit v = true) (hfree : msgBlocked v s = false) :
    msixRelease v s = sendMsgNow v { s with host := { s.host with pba := clrBit s.host.pba v } } := by
  rw [msixRelease, hpending, hfree]
  rfl

theorem exec_hpCompletion (tag : Nat) (ok poisoned last : Bool) (data : List Byte) (s : State) :
    exec (.hpCompletion tag ok poisoned last data) s = .next (hpCompletion tag ok poisoned last data s) := rfl
theorem exec_hpCompletionTimeout (tag : Nat) (s : State) : exec (.hpCompletionTimeout tag) s = .next (hpTimeout tag s) := rfl
theorem exec_tagQuarantineExpiry (pp : Bool) (tag : Nat) (s : State) :
    exec (.tagQuarantineExpiry pp tag) s = .next (quarantineExpiry pp tag s) := rfl
theorem exec_functionReset (cause : FlrCause) (s : State) : exec (.functionReset cause) s = .next (functionResetOp s) := rfl
theorem exec_msixPendingRelease (v : Nat) (s : State) : exec (.msixPendingRelease v) s = .next (msixRelease v s) := rfl
theorem exec_intMaskWrite (v : BitVec 32) (s : State) : exec (.intMaskWrite v) s = .next (intMaskWrite v.toNat s) := rfl

/-- Settles O24: each clause reads the endpoint that the command's operation leaves. -/
theorem hostReadCommands : Obligations.HostReadCommands := by
  unfold Obligations.HostReadCommands
  refine ⟨fun tag data r s hq hr => ?_, fun tag i data r s hq hr hdest => ?_, fun tag r s hr => ?_, fun tag s => ?_, fun tag s => ?_,
    fun cause s h => ?_, fun v s hpending hfree => ?_, fun v s => ?_⟩
  · refine ⟨_, exec_hpCompletion tag true false false data s, ?_⟩
    rw [hpCompletion_more hq hr]
  · refine ⟨_, exec_hpCompletion tag true false true data s, ?_⟩
    rw [hpCompletion_last hq hr, (fr_issueReads _).f_fw rfl]
    exact readArrives_mailbox _ hdest
  · refine ⟨_, exec_hpCompletionTimeout tag s, ?_⟩
    rw [hpTimeout, hr, Option.isSome_some, if_pos rfl]
    exact cfgD_aerSet aerTimeout _
  · exact ⟨_, exec_tagQuarantineExpiry false tag s, pumpReads_quarantine 256 _⟩
  · exact ⟨_, exec_tagQuarantineExpiry true tag s, (pumpRsp_quarantine 4096 _).trans (pumpPeer_quarantine 4096 _)⟩
  · exact ⟨_, exec_functionReset cause s, functionResetOp_ready h⟩
  · rw [exec_msixPendingRelease, msixRelease_sends hpending hfree]
  · exact ⟨_, exec_intMaskWrite v s, intMaskWrite_mask v.toNat s⟩

end Sys2Proof.Machine
end

section
/-! Proofs for the ports (02_ports.md): messages on SVC and the debug and audit exchanges that they carry (R69, R70, R472, R479). -/

namespace Sys2Proof.Machine

open Reg

/-! ### A message and its answer (R68 to R70) -/

theorem svcIn_serves {ty : Nat} {msg : List Byte} {s : State} (rom : Bool) (serve : List Byte → State → State)
    (h : svcArrives ty msg s) (hlo : 1 ≤ ty) (hhi : ty ≤ 7) :
    svcIn ty msg rom serve s = svcHold s.out.svc.length (serve (svcPayload msg) s) := by
  obtain ⟨hwait, hmin, hmax, hlen, hcrc, hty, hcore, hstate⟩ := h
  have hform : ¬ (msg.length ≠ leAt msg 2 2 + 8 ∨ leAt msg (4 + leAt msg 2 2) 4 ≠ crc32 (msg.take (4 + leAt msg 2 2))) :=
    fun h => h.elim (absurd hlen) (absurd hcrc)
  have hsize : ¬ (msg.length < 8 ∨ 4096 < leAt msg 2 2) := by omega
  have htype : ¬ (ty = 0 ∨ 7 < ty) := by omega
  unfold svcIn
  simp only [hwait, List.isEmpty_nil, Bool.not_true, Bool.false_eq_true, if_false, Bool.or_eq_true, decide_eq_true_eq, hsize, hform, hty,
    htype, ne_eq, not_true_eq_false, hcore, Bool.false_and, Bool.false_or, Bool.and_eq_true, beq_iff_eq, hstate, false_and]
  rfl

theorem svcIn_busy {ty : Nat} {msg : List Byte} {s : State} (rom : Bool) (serve : List Byte → State → State) (h : s.svcWait ≠ []) :
    svcIn ty msg rom serve s = svcError 6 s := by
  have hwait : (!s.svcWait.isEmpty) = true := by simp [h]
  unfold svcIn
  dsimp only
  rw [if_pos hwait]

/-- The answers leave at once or wait: together they are what the message was answered. -/
theorem svcHold_answers (k : Nat) (s : State) : (svcHold k s).out.svc ++ (svcHold k s).svcWait = s.out.svc := by
  unfold svcHold
  dsimp only
  split
  · exact List.take_append_drop k s.out.svc
  · exact List.append_nil _

theorem svcHold_free (k : Nat) (s : State) : (svcHold k s).free = s.free + 1 := rfl

/-- Holding and sending an answer leave the registers and the firmware complex alone. -/
theorem fr_svcHold_svcSend (k ty : Nat) (payload : List Byte) (s : State) :
    Frame 0x1200000000000080 s (svcHold k (svcSend ty payload s)) :=
  ((fr_svcSend ty payload s).mono rfl).seq (fr_svcHold k _) rfl

/-- One answer to a message leaves or waits. -/
theorem svcHold_svcSend_length (k ty : Nat) (payload : List Byte) (s : State) :
    ((svcHold k (svcSend ty payload s)).out.svc ++ (svcHold k (svcSend ty payload s)).svcWait).length = s.out.svc.length + 1 := by
  rw [svcHold_answers, svcSend, List.length_append, List.length_singleton]

theorem on_of_rd_eq_one {f : Fld} {s : State} (h : rd f s = 1) : on f s = true := by rw [on, h]; rfl

/-! ### The debug exchange (R472) -/

/-- The state in which a challenge is answered: a fresh NONCE is live. -/
def challenged (c : List Byte) (s : State) : State :=
  put LCS_DBG_STATUS.NONCE_LIVE 1 (bump LCS_DBG_STATUS.CHALLENGES 1 (freshDraw { s with fw := { s.fw with nonce := some c } }))

theorem debugChallengeReq_draws {msg : List Byte} {s : State} (h : svcArrives 5 msg s) (hpayload : svcPayload msg ≠ [])
    (hopen : on LCS_DBG_STATUS.LOCKOUT s = false) :
    ∃ c, c = challengeBytes ((Config.trng s.free).toNat % 2 ^ 64) ((svcPayload msg).headD 0) s ∧
      debugChallengeReq msg s = svcHold s.out.svc.length (svcSend 0x85 (c ++ leBytes 4 (crc32 c)) (challenged c s)) := by
  have hsome : (svcPayload msg).isEmpty = false := by simpa using hpayload
  refine ⟨_, rfl, ?_⟩
  unfold debugChallengeReq
  rw [svcIn_serves true _ h (by decide) (by decide), hsome, hopen]
  rfl

/-- The state in which a good response is answered: the NONCE is void and the session open. -/
def sessionOpened (scope : Nat) (s : State) : State :=
  let v := putAll [(LCS_STATE.DBG_OPEN, 1), (LCS_STATE.DBG_SCOPE, scope)]
    (put LCS_DBG_STATUS.NONCE_LIVE 0 { s with fw := { s.fw with nonce := none } })
  postEvent 9 0 5 [] { v with fw := { v.fw with debugOpened := true } }

theorem sessionOpened_fw (scope : Nat) (s : State) : (sessionOpened scope s).fw = { s.fw with nonce := none, debugOpened := true } := by
  unfold sessionOpened
  dsimp only
  rw [(fr_postEvent ..).f_fw rfl]
  rfl

theorem rd_sessionOpened (f : Fld) (scope : Nat) (s : State) (h1 : f.key ≠ FWM_MBX_STATUS.EVT_TAIL.key)
    (h2 : f.key ≠ INT_STATUS.EVENT.key) (h3 : f.key ≠ FWM_MBX_LOST.COUNT.key) :
    rd f (sessionOpened scope s) = rd f (putAll [(LCS_STATE.DBG_OPEN, 1), (LCS_STATE.DBG_SCOPE, scope)]
      (put LCS_DBG_STATUS.NONCE_LIVE 0 { s with fw := { s.fw with nonce := none } })) := by
  unfold sessionOpened
  dsimp only
  rw [rd_postEvent f _ _ _ _ _ h1 h2 h3]
  rfl

theorem debugResponse_opens {msg : List Byte} {s : State} (h : svcArrives 6 msg s) (hlen : (svcPayload msg).length = 209)
    (hopen : on LCS_DBG_STATUS.LOCKOUT s = false) (hgood : responseResult (svcPayload msg) s = 0) :
    debugResponse msg s = svcHold s.out.svc.length (debugResult 0 (sessionOpened (leAt (svcPayload msg) 8 1) s)) := by
  unfold debugResponse
  rw [svcIn_serves true _ h (by decide) (by decide)]
  dsimp only
  rw [if_neg (not_not_intro hlen), hopen, hgood]
  rfl

/-! ### The audit ledger (R479) -/

theorem auditFetch_identity {msg : List Byte} {s : State} (h : svcArrives 7 msg s) (hlen : 9 ≤ (svcPayload msg).length)
    (hask : leAt (svcPayload msg) 8 1 = 1) :
    auditFetch msg s = svcHold s.out.svc.length (batchPart 0 0 true (leBytes 8 s.otp.serial ++ leBytes 1 (rd LCS_STATE.STATE s) ++
      leBytes 97 (Config.auditKey (BitVec.ofNat 256 s.otp.idSeed)).toNat) s) := by
  unfold auditFetch
  rw [svcIn_serves false _ h (by decide) (by decide)]
  dsimp only
  rw [if_neg (Nat.not_lt.mpr hlen), hask]
  rfl

/-- Releasing nothing keeps every batch. -/
theorem releaseEntries_zero_batches {s : State} (h : s.audit.released = 0) : (releaseEntries 0 s).audit.batches = s.audit.batches := by
  unfold releaseEntries
  dsimp only
  rw [apply_ite State.audit, put_audit, ite_self, (fr_showAudit _).f_audit rfl, h, Nat.zero_min, Nat.max_self]
  simp

theorem releaseEntries_out (seq : Nat) (s : State) : (releaseEntries seq s).out = s.out := (fr_releaseEntries seq s).f_out rfl

/-- With nothing to sign and nothing released, the oldest batch goes out, in one part if it fits. -/
theorem auditFetch_batch {msg : List Byte} {b : Nat × Nat × Nat × List Byte} {s : State} (h : svcArrives 7 msg s)
    (hlen : 9 ≤ (svcPayload msg).length) (hask : leAt (svcPayload msg) 8 1 = 0) (hentries : s.audit.entries = [])
    (hreleased : s.audit.released = 0) (hfrom : leAt (svcPayload msg) 0 8 = 0) (hbatch : s.audit.batches.head? = some b)
    (hfits : b.2.2.2.length ≤ 4088) :
    auditFetch msg s = svcHold s.out.svc.length (batchPart b.1 0 true b.2.2.2 (releaseEntries 0 s)) := by
  obtain ⟨bs, hbs⟩ : ∃ bs, s.audit.batches = b :: bs := List.head?_eq_some_iff.mp hbatch
  have hfind : ((releaseEntries 0 s).audit.batches.find? fun b => decide (0 ≤ b.2.2.1)) = some b := by
    rw [releaseEntries_zero_batches hreleased, hbs]
    rfl
  unfold auditFetch
  rw [svcIn_serves false _ h (by decide) (by decide)]
  dsimp only
  rw [if_neg (Nat.not_lt.mpr hlen), hask, if_pos rfl, hentries, hfrom, List.length_nil, closeAll, hfind]
  dsimp only
  rw [sendBatch, if_pos hfits]

theorem exec_statusReq (msg : List Byte) (s : State) : exec (.statusReq msg) s = .next (statusReq msg s) := rfl
theorem exec_debugChallengeReq (msg : List Byte) (s : State) : exec (.debugChallengeReq msg) s = .next (debugChallengeReq msg s) := rfl
theorem exec_debugResponse (msg : List Byte) (s : State) : exec (.debugResponse msg) s = .next (debugResponse msg s) := rfl
theorem exec_auditFetch (msg : List Byte) (s : State) : exec (.auditFetch msg) s = .next (auditFetch msg s) := rfl

/-- Settles O52: each message is served by its operation, and its answer is held or sent. -/
theorem debugCommands : Obligations.DebugCommands := by
  unfold Obligations.DebugCommands
  refine ⟨fun msg s h => ?_, fun k s => ⟨svcHold_answers k s, svcHold_free k s⟩, fun msg s h => ?_, fun msg s h hpayload hopen => ?_,
    fun msg s h hlen hopen hgood => ?_, fun msg s h hlen hask => ?_,
    fun msg b s h hlen hask hentries hreleased hfrom hbatch hfits => ?_⟩
  · rw [exec_statusReq, statusReq, svcIn_serves true _ h (by decide) (by decide)]
  · rw [exec_statusReq, statusReq, svcIn_busy true _ h]
  · obtain ⟨c, rfl, hdraw⟩ := debugChallengeReq_draws h hpayload hopen
    refine ⟨_, exec_debugChallengeReq msg s, ?_⟩
    rw [hdraw, (fr_svcHold_svcSend ..).f_fw rfl]
    refine ⟨rfl, on_of_rd_eq_one ?_⟩
    rw [(fr_svcHold_svcSend ..).rd_eq _ rfl rfl]
    exact rd_put_same LCS_DBG_STATUS.NONCE_LIVE 1 _ nofun
  · refine ⟨_, exec_debugResponse msg s, ?_⟩
    rw [debugResponse_opens h hlen hopen hgood, debugResult, (fr_svcHold_svcSend ..).f_fw rfl, sessionOpened_fw]
    refine ⟨on_of_rd_eq_one ?_, ?_, rfl, rfl⟩
    · rw [(fr_svcHold_svcSend ..).rd_eq _ rfl rfl, rd_sessionOpened _ _ _ (by decide) (by decide) (by decide)]
      exact rd_putAll_mem LCS_STATE.DBG_OPEN 1 [] [_] _ nofun rfl
    · rw [(fr_svcHold_svcSend ..).rd_eq _ rfl rfl, rd_sessionOpened _ _ _ (by decide) (by decide) (by decide)]
      exact rd_putAll_mem LCS_STATE.DBG_SCOPE _ [_] [] _ nofun rfl
  · rw [exec_auditFetch, auditFetch_identity h hlen hask]
  · refine ⟨_, exec_auditFetch msg s, ?_⟩
    rw [auditFetch_batch h hlen hask hentries hreleased hfrom hbatch hfits, batchPart]
    refine ⟨?_, ?_⟩
    · rw [(fr_svcHold_svcSend ..).f_audit rfl, releaseEntries_zero_batches hreleased]
    · have hsent := svcHold_svcSend_length s.out.svc.length 0x87
        (leBytes 4 b.1 ++ leBytes 2 0 ++ leBytes 1 (b2n true) ++ [0] ++ b.2.2.2) (releaseEntries 0 s)
      rwa [releaseEntries_out] at hsent

end Sys2Proof.Machine
end

section
/-! Proofs for the ports (02_ports.md): reset, the ROM code, the release of the cores, the domain sequence, the opening of the ports and
the events held until then (R78, R421, R440, R516, R517). -/

namespace Sys2Proof.Machine

open Reg

/-! ### Reset (R78) -/

theorem resetOp_flash {s : State} (porst : Bool) (h : updState s ≠ 3) : (resetOp porst s).flash = s.flash := by
  have htorn : tornFlash s = s.flash := if_pos h
  exact ((fr_resetOp_base porst s).f_flash rfl).trans htorn

theorem rd_resetOp_cause (porst : Bool) (s : State) :
    rd GLB_RESET_CAUSE.PORST (resetOp porst s) = b2n porst ∧ rd GLB_RESET_CAUSE.HUB_RST (resetOp porst s) = b2n (!porst) := by
  have hbit (b : Bool) : b2n b % 2 ^ 1 = b2n b := by cases b <;> rfl
  rw [resetOp_eq, rd_lcsShow_below _ _ (by decide), rd_lcsShow_below _ _ (by decide)]
  exact ⟨(rd_putAll_mem GLB_RESET_CAUSE.PORST _ [] [_] _ nofun rfl).trans (hbit _),
    (rd_putAll_mem GLB_RESET_CAUSE.HUB_RST _ [_] [] _ nofun rfl).trans (hbit _)⟩

/-! ### The ROM code (R440, R441) -/

/-- The slot that the ROM code chooses depends on the flash and OTP, not on what the firmware complex holds. -/
theorem chooseSlot_lcsShow_fw (w : Fw) (s : State) : chooseSlot (lcsShow { s with fw := w }) = chooseSlot (lcsShow s) := rfl

theorem rd_lcsShow_fw (f : Fld) (w : Fw) (s : State) : rd f (lcsShow { s with fw := w }) = rd f (lcsShow s) := rfl

theorem romBoot_starts {s : State} {i : Nat} {other : Bool} (flashFails : Bool) (hrounds : s.rounds ≠ 0) (hstage : s.fw.stage = 0)
    (hrec : on FWM_STATUS.RECOVERY s = false) (hphase : rd GLB_STATUS.PHASE s = 0) (hcool : hottest s ≤ 360)
    (hlife : rd LCS_STATE.STATE (lcsShow s) ≠ 4) (hslot : chooseSlot (lcsShow s) = some (i, other)) :
    ∃ u, romBoot flashFails s = romStop 1 u := by
  unfold romBoot
  simp only [hrounds, hstage, hrec, hphase, decide_false, ne_eq, not_true_eq_false, Bool.or_self, Bool.false_eq_true, if_false,
    Int.not_lt.mpr hcool, rd_lcsShow_fw, hlife, chooseSlot_lcsShow_fw, hslot]
  exact ⟨_, rfl⟩

/-! ### The release of the cores (R440) -/

/-- A core that comes up with no context command waiting shows READY, and nothing else happens. -/
theorem coreUp_eq {s : State} (i : Nat) (hheld : s.ctxHeld = none) :
    coreUp s i = putReady i true (setCore i { coreOf i s with restarting := false } s) := by
  have hrun (t : State) (ht : t.ctxHeld = none) : runHeldCtx t = t := by rw [runHeldCtx, ht]
  unfold coreUp
  dsimp only
  split
  · exact hrun _ hheld
  · rfl

theorem coreUp_ctxHeld {s : State} (i : Nat) (hheld : s.ctxHeld = none) : (coreUp s i).ctxHeld = none := by
  rw [coreUp_eq i hheld]
  exact hheld

theorem rd_coreUp_ne {s : State} (f : Fld) (i : Nat) (hheld : s.ctxHeld = none) (hf : f.key ≠ FWM_CORE_READY.CORES.key) :
    rd f (coreUp s i) = rd f s := by
  rw [coreUp_eq i hheld, putReady, rd_put_ne _ _ _ _ hf, rd_setCore]

/-- READY of core j after core i has come up. -/
theorem coreReady_coreUp {s : State} {j : Nat} (i : Nat) (hheld : s.ctxHeld = none) (hj : j < 21) :
    coreReady j (coreUp s i) = (coreReady j s || decide (i = j)) := by
  have hwidth : FWM_CORE_READY.CORES.w = 21 := rfl
  rw [coreUp_eq i hheld, putReady, if_pos rfl, coreReady, rd_put_same FWM_CORE_READY.CORES _ _ nofun, hwidth, Nat.testBit_mod_two_pow,
    testBit_setBit, rd_setCore]
  simp [hj, coreReady]

theorem foldl_coreUp {s : State} (l : List Nat) (hheld : s.ctxHeld = none) :
    (∀ j < 21, coreReady j (l.foldl coreUp s) = (coreReady j s || l.contains j)) ∧
      ∀ f : Fld, f.key ≠ FWM_CORE_READY.CORES.key → rd f (l.foldl coreUp s) = rd f s := by
  induction l generalizing s with
  | nil => exact ⟨fun j _ => by simp, fun f _ => rfl⟩
  | cons i l ih =>
    obtain ⟨hready, hrest⟩ := ih (coreUp_ctxHeld i hheld)
    refine ⟨fun j hj => ?_, fun f hf => ?_⟩
    · rw [List.foldl_cons, hready j hj, coreReady_coreUp i hheld hj, List.contains_cons, Bool.or_assoc, Bool.beq_eq_decide_eq]
      simp only [eq_comm]
    · rw [List.foldl_cons, hrest f hf, rd_coreUp_ne f i hheld hf]

theorem corePresent_congr {s t : State} (i : Nat) (h : rd GLB_CAP.HIVE_PRESENT t = rd GLB_CAP.HIVE_PRESENT s) :
    corePresent i t = corePresent i s := by
  unfold corePresent hivePresent
  rw [h]

theorem foldl_coreUp_present {s : State} (hheld : s.ctxHeld = none) :
    ∀ i < 21, corePresent i (((List.range 21).filter fun i => corePresent i s).foldl coreUp s) = true →
      coreReady i (((List.range 21).filter fun i => corePresent i s).foldl coreUp s) = true := by
  intro i hi hpresent
  obtain ⟨hready, hrest⟩ := foldl_coreUp ((List.range 21).filter fun i => corePresent i s) hheld
  rw [corePresent_congr i (hrest GLB_CAP.HIVE_PRESENT (by decide))] at hpresent
  rw [hready i hi]
  simp [hi, hpresent]

/-- The state in which the cores of the variant come up: the settings and the keys are in place. -/
def loadedState (s : State) : State :=
  let t := put GLB_STATUS.PHASE 1 { s with fw := { s.fw with stage := 2 }, cores := [] }
  let t := programKeys (deriveKeys (loadItems t))
  let t := freshDraw { t with fw := { t.fw with startNonce := (Config.trng t.free).toNat % 2 ^ 128 } }
  let other := slotImage (1 - runSlot t) t
  putAll [(FWM_IMG_VER.VER, imgVer (runImage t)), (FWM_ALT_VER.VER, if (imgVerify other t.otp).isSome then imgVer other else 0)] t

theorem coreRelease_eq {s : State} (hstage : s.fw.stage = 1) (hphase : rd GLB_STATUS.PHASE s = 0) :
    coreRelease s = ((List.range 21).filter fun i => corePresent i (loadedState s)).foldl coreUp (loadedState s) :=
  if_neg (by simp [hstage, hphase])

theorem loadedState_ctxHeld (s : State) : (loadedState s).ctxHeld = s.ctxHeld := by
  have hkeys (t : State) : (programKeys (deriveKeys (loadItems t))).ctxHeld = t.ctxHeld := by
    rw [(fr_programKeys _).f_ctxHeld rfl, (fr_deriveKeys _).f_ctxHeld rfl, (fr_loadItems _).f_ctxHeld rfl]
  unfold loadedState
  dsimp only
  rw [putAll_ctxHeld, freshDraw_ctxHeld, hkeys, put_ctxHeld]

/-! ### The domain sequence (R421) -/

theorem runDomains_stops {d : Nat} {ds : List Nat} {s : State} (hreq : (requestOn d s).power.req.testBit d = true)
    (hack : (requestOn d s).power.ack.testBit d = false) :
    runDomains (d :: ds) s = setPower { (requestOn d s).power with todo := ds } (requestOn d s) := by
  rw [runDomains]
  simp [hreq, hack]

theorem domainSequence_power {s : State} (hstarted : s.power.started = false) (hphase : rd GLB_STATUS.PHASE s = 1)
    (hrun : stopped s = false) (hreq : s.power.req = 0) (hack : s.power.ack = 0) (hgone : s.power.gone = 0) :
    (domainSequence s).power.started = true ∧ (domainSequence s).power.req = 2 ^ 32 ∧
      (domainSequence s).power.todo =
        ((List.range 16).filter fun n => hivePresent n s) ++ ((List.range 16).filter fun n => hivePresent n s).map (16 + ·) := by
  have hasked : (requestOn 32 (setPower { s.power with started := true } s)).power =
      { s.power with
        started := true, req := setBit 0 32, timed := clrBit s.power.timed 32, lost := clrBit s.power.lost 32,
        again := clrBit s.power.again 32 } := by
    have hstill : stopped (setPower { s.power with started := true } s) = false := hrun
    rw [requestOn_power, hstill]
    simp [hreq, hack, hgone, requiredOn]
  have hlow : (requestOn 32 (setPower { s.power with started := true } s)).power.ack.testBit 32 = false := by
    rw [requestOn_ack]
    change s.power.ack.testBit 32 = false
    rw [hack, Nat.zero_testBit]
  unfold domainSequence
  simp only [hstarted, hphase, ne_eq, not_true_eq_false, decide_false, Bool.and_false, Bool.or_self, Bool.false_eq_true, if_false]
  rw [List.cons_append, runDomains_stops (by rw [hasked]; exact testBit_setBit_self 0 32) hlow, setPower_power, hasked]
  exact ⟨rfl, rfl, rfl⟩

/-! ### The opening of the ports (R517) -/

theorem openPort_ready (k : Nat) (s : State) : (port k (openPort k s)).ready = true := by rw [openPort, port_setPort_same]

theorem openPort_keeps_ready {j k : Nat} {s : State} (h : (port j s).ready = true) : (port j (openPort k s)).ready = true := by
  by_cases hjk : j = k
  · exact hjk ▸ openPort_ready j s
  · rw [openPort, port_setPort_ne _ _ hjk, h]

theorem foldl_openPort_ready {k : Nat} (l : List Nat) (s : State) (h : k ∈ l ∨ (port k s).ready = true) :
    (port k (l.foldl (fun u k => openPort k u) s)).ready = true := by
  induction l generalizing s with
  | nil => exact h.resolve_left List.not_mem_nil
  | cons j l ih =>
    refine ih _ ?_
    obtain hk | hk := h
    · obtain rfl | hk := List.mem_cons.mp hk
      · exact .inr (openPort_ready k s)
      · exact .inl hk
    · exact .inr (openPort_keeps_ready hk)

theorem mem_onesBelow {n v i : Nat} : i ∈ onesBelow n v ↔ i < n ∧ v.testBit i = true := by simp [onesBelow]

theorem rd_takeMap {f : Fld} (s : State) (hf : f.acc ≠ .rws) : rd f (takeMap s) = rd f s := by
  rw [rd_of_not_rws _ hf, rd_of_not_rws _ hf, (fr_takeMap s).f_regs rfl]

theorem openAll_noPeer (cpLinks : BitVec 16) (s : State) :
    openAll cpLinks false s = (onesBelow 16 cpLinks.toNat).foldl (fun u k => openPort k u)
      (s.held.foldl ringWrite (takeMap (putAll [(GLB_STATUS.PORTS_OPEN, 1), (GLB_STATUS.PHASE, 5)] s))) := rfl

theorem rd_openAll {f : Fld} (cpLinks : BitVec 16) (s : State) (hf : f.acc ≠ .rws) :
    rd f (openAll cpLinks false s) = rd f (putAll [(GLB_STATUS.PORTS_OPEN, 1), (GLB_STATUS.PHASE, 5)] s) := by
  have hports (l : List Nat) (t : State) : rd f (l.foldl (fun u k => openPort k u) t) = rd f t :=
    (Frame.foldl (fun u k => fr_openPort k u) Frame.refl).rd_eq f rfl rfl
  have hring (l : List Event) (t : State) : rd f (l.foldl ringWrite t) = rd f t :=
    (Frame.foldl fr_ringWrite Frame.refl).rd_eq f rfl rfl
  rw [openAll_noPeer, hports, hring, rd_takeMap _ hf]

theorem openAll_opens (cpLinks : BitVec 16) (s : State) :
    rd GLB_STATUS.PHASE (openAll cpLinks false s) = 5 ∧ on GLB_STATUS.PORTS_OPEN (openAll cpLinks false s) = true ∧
      ∀ k < 16, cpLinks.toNat.testBit k → (port k (openAll cpLinks false s)).ready = true := by
  refine ⟨?_, on_of_rd_eq_one ?_, fun k hk hlink => ?_⟩
  · rw [rd_openAll (f := GLB_STATUS.PHASE) cpLinks s nofun]
    exact rd_putAll_mem GLB_STATUS.PHASE 5 [_] [] s nofun rfl
  · rw [rd_openAll (f := GLB_STATUS.PORTS_OPEN) cpLinks s nofun]
    exact rd_putAll_mem GLB_STATUS.PORTS_OPEN 1 [] [_] s nofun rfl
  · rw [openAll_noPeer]
    exact foldl_openPort_ready _ _ (.inl (mem_onesBelow.mpr ⟨hk, hlink⟩))

theorem portOpening_opens {s : State} (cpLinks : BitVec 16) (hphase : rd GLB_STATUS.PHASE s = 4) (hnew : s.fw.opening = false)
    (hcore : coreReady 0 s = true)
    (hroom : fwReserve (layMap { s with fw := { s.fw with opening := true } }) <
      rd GLB_MEM_TOP.TOP (layMap { s with fw := { s.fw with opening := true } })) :
    ∃ u, portOpening cpLinks false s = openAll cpLinks false u := by
  unfold portOpening
  dsimp only
  rw [hphase, hnew, hcore, if_neg (by decide), if_neg (Nat.not_le.mpr hroom)]
  exact ⟨_, rfl⟩

/-! ### Events held before the ports open (R446, R516) -/

theorem drainEvents_held (l : List Event) (s : State) : (drainEvents l s).held = s.held := (fr_drainEvents l s).f_held rfl

/-- What the event queue does not take waits in the ring, in its order. -/
theorem drainEvents_ring (l : List Event) (s : State) : (drainEvents l s).ring <:+ l := by
  induction l generalizing s with
  | nil => exact List.suffix_refl _
  | cons e l ih =>
    unfold drainEvents
    split
    · exact (ih _).trans (List.suffix_cons e l)
    · exact List.suffix_refl _

theorem flushEvents_drains {s : State} (h : evQueueReady s = true) :
    flushEvents s = drainEvents (s.held ++ s.ring) { s with held := [] } := if_pos h

theorem exec_romBoot (flashFails : Bool) (s : State) : exec (.romBoot flashFails) s = .next (romBoot flashFails s) := rfl
theorem exec_coreRelease (s : State) : exec .coreRelease s = .next (coreRelease s) := rfl
theorem exec_domainSequence (s : State) : exec .domainSequence s = .next (domainSequence s) := rfl
theorem exec_portOpening (cpLinks : BitVec 16) (ppLink : Bool) (s : State) :
    exec (.portOpening cpLinks ppLink) s = .next (portOpening cpLinks ppLink s) := rfl
theorem exec_heldEventFlush (s : State) : exec .heldEventFlush s = .next (flushEvents s) := rfl

/-- Settles O9: each clause reads what its step of the start leaves. -/
theorem startCommands : Obligations.StartCommands := by
  unfold Obligations.StartCommands
  refine ⟨fun porst s => ?_, fun noLog s i other hrounds hstage hrec hphase hcool hlife hslot => ?_,
    fun s hstage hphase hheld => ?_, fun s hstarted hphase hrun hreq hack hgone => ?_,
    fun cpLinks s hphase hnew hcore hroom => ?_, fun s h => ?_⟩
  · have hframe : Frame 0x4 (resetBase s) (resetOp porst s) := fr_resetOp_base porst s
    exact ⟨_, exec_reset porst s, hframe.f_mem rfl, hframe.f_jobs rfl, hframe.f_ctxs rfl, hframe.f_ports rfl, hframe.f_hives rfl,
      resetOp_flash porst, hframe.f_otp rfl, rd_resetOp_low GLB_STATUS.PHASE porst s nofun (by decide) rfl rfl,
      (rd_resetOp_cause porst s).1, (rd_resetOp_cause porst s).2⟩
  · obtain ⟨u, hu⟩ := romBoot_starts noLog hrounds hstage hrec hphase hcool hlife hslot
    exact ⟨_, exec_romBoot noLog s, hu ▸ ⟨rfl, rfl⟩⟩
  · exact ⟨_, exec_coreRelease s,
      coreRelease_eq hstage hphase ▸ foldl_coreUp_present ((loadedState_ctxHeld s).trans hheld)⟩
  · exact ⟨_, exec_domainSequence s, domainSequence_power hstarted hphase hrun hreq hack hgone⟩
  · obtain ⟨u, hu⟩ := portOpening_opens cpLinks hphase hnew hcore hroom
    exact ⟨_, exec_portOpening cpLinks false s, hu ▸ openAll_opens cpLinks u⟩
  · refine ⟨_, exec_heldEventFlush s, ?_⟩
    rw [flushEvents_drains h]
    exact ⟨drainEvents_held _ _, drainEvents_ring _ _⟩

end Sys2Proof.Machine
end

section
/-! Proofs for the address map (03_address_map.md): what a write leaves in a field by its access type, the lock of the memory map while
ports are open, and the offsets that no chapter assigns (R9, R90, R101). -/

namespace Sys2Proof.Machine

open Reg

/-! ### A write of one field (R9) -/

theorem bits_eq_div_mod (v lo n : Nat) : bits v lo n = v / 2 ^ lo % 2 ^ n := by rw [bits, Nat.shiftRight_eq_div_pow]

/-- Subtracting a &&& b from a borrows nothing, as a has each of its bits. -/
theorem testBit_sub_and (a b i : Nat) : (a - (a &&& b)).testBit i = (a.testBit i && !b.testBit i) := by
  induction i generalizing a b with
  | zero =>
    have hle : a &&& b ≤ a := Nat.and_le_left
    have hbit : (a &&& b) % 2 = 1 ↔ a % 2 = 1 ∧ b % 2 = 1 := Nat.and_mod_two_eq_one
    simp only [Nat.testBit_zero, ← decide_not, ← Bool.decide_and, decide_eq_decide]
    omega
  | succ i ih =>
    have hle : a &&& b ≤ a := Nat.and_le_left
    have hbit : (a &&& b) % 2 = 1 ↔ a % 2 = 1 ∧ b % 2 = 1 := Nat.and_mod_two_eq_one
    have hhalf : (a - (a &&& b)) / 2 = a / 2 - (a / 2 &&& b / 2) := by
      rw [← Nat.and_div_two]
      omega
    rw [Nat.testBit_succ, Nat.testBit_succ, Nat.testBit_succ, hhalf, ih]

theorem rdShadow_putShadow_same {f : Fld} (v : Nat) (s : State) (hf : f.acc = .rws) : rdShadow f (putShadow f v s) = v % 2 ^ f.w := by
  unfold rdShadow
  rw [hf]
  exact mgetD_mset_same _ _ _ _

theorem rd_putShadow (f g : Fld) (v : Nat) (s : State) : rd g (putShadow f v s) = rd g s := rd_congr g rfl rfl

theorem fieldWrite_ro {f : Fld} (v : Nat) (s : State) (hf : f.acc = .ro) : fieldWrite v s f = s := by simp [fieldWrite, hf]

theorem fieldWrite_rw {f : Fld} (v : Nat) (s : State) (hf : f.acc = .rw ∨ f.acc = .rwl) :
    fieldWrite v s f = put f (bits v f.lo f.w) s := by
  obtain hf | hf := hf <;> simp [fieldWrite, hf]

theorem fieldWrite_w1c {f : Fld} (v : Nat) (s : State) (hf : f.acc = .w1c) :
    fieldWrite v s f = put f (rd f s - (rd f s &&& bits v f.lo f.w)) s := by simp [fieldWrite, hf]

theorem fieldWrite_rws {f : Fld} (v : Nat) (s : State) (hf : f.acc = .rws) :
    fieldWrite v s f = putShadow f (bits v f.lo f.w) s := by simp [fieldWrite, hf]

theorem rd_fieldWrite_rw {f : Fld} (v : Nat) (s : State) (hf : f.acc = .rw ∨ f.acc = .rwl) :
    rd f (fieldWrite v s f) = v / 2 ^ f.lo % 2 ^ f.w := by
  have hacc : f.acc ≠ .rws := by rintro h; simp [h] at hf
  rw [fieldWrite_rw v s hf, rd_put_same f _ s hacc, bits_eq_div_mod, Nat.mod_mod]

theorem testBit_rd_fieldWrite_w1c {f : Fld} (v : Nat) (s : State) (i : Nat) (hf : f.acc = .w1c) (hw : rd f s < 2 ^ f.w) :
    (rd f (fieldWrite v s f)).testBit i = ((rd f s).testBit i && !(v / 2 ^ f.lo % 2 ^ f.w).testBit i) := by
  have hacc : f.acc ≠ .rws := by simp [hf]
  rw [fieldWrite_w1c v s hf, rd_put_same f _ s hacc, Nat.mod_eq_of_lt (Nat.lt_of_le_of_lt (Nat.sub_le _ _) hw), testBit_sub_and,
    bits_eq_div_mod]

theorem rd_fieldWrite_rws {f : Fld} (v : Nat) (s : State) (hf : f.acc = .rws) :
    rd f (fieldWrite v s f) = rd f s ∧ rdShadow f (fieldWrite v s f) = v / 2 ^ f.lo % 2 ^ f.w := by
  rw [fieldWrite_rws v s hf, rdShadow_putShadow_same _ s hf, bits_eq_div_mod, Nat.mod_mod]
  exact ⟨rd_putShadow f f _ s, rfl⟩

/-- Whatever its access type, a write of one field leaves the fields of other keys. -/
theorem rd_fieldWrite_ne {f g : Fld} (v : Nat) (s : State) (h : g.key ≠ f.key) : rd g (fieldWrite v s f) = rd g s := by
  unfold fieldWrite
  dsimp only
  split
  case h_1 | h_2 | h_4 => exact rd_put_ne f g _ s h
  case h_3 => exact rd_putShadow f g _ s
  case h_5 | h_6 => rfl

/-! ### What ends before an access (log entry 9) leaves the ports as they are -/

theorem rd_endBusy {f : Fld} {x : Fld × Fld} (s : State) (hbusy : f.key ≠ x.1.key) (hvalid : f.key ≠ x.2.key) :
    rd f (endBusy s x) = rd f s := by
  unfold endBusy
  split
  · exact rd_putAll_ne f _ s (by simp [hbusy, hvalid])
  · rfl

/-- The fields that the resumption of hive n writes lie in its hive window. -/
theorem rd_resumeHive_below {f : Fld} (n : Nat) (s : State) (hacc : f.acc ≠ .rws) (hlow : f.key < 8 * 0x100000) :
    rd f (resumeHive n s) = rd f s := by
  have hbusy : f.key ≠ (CHC_MR_CMD.BUSY n).key := by simp only [Fld.key, CHC_MR_CMD.BUSY] at hlow ⊢; omega
  have hvalid : f.key ≠ (CHC_MR_DATA.VALID n).key := by simp only [Fld.key, CHC_MR_DATA.VALID] at hlow ⊢; omega
  have hpend : f.key ≠ (CHC_HIVE_STATUS.COMMIT_PENDING n).key := by
    simp only [Fld.key, CHC_HIVE_STATUS.COMMIT_PENDING] at hlow ⊢; omega
  have commit (t : State) : rd f (chcCommitApply n t) = rd f t := by
    rw [chcCommitApply, rd_put_ne _ _ _ _ hpend, rd_commitRange_out _ (.inl hacc)]
  have command (t : State) : rd f (putAll [(CHC_MR_CMD.BUSY n, 0), (CHC_MR_DATA.VALID n, 1)] t) = rd f t :=
    rd_putAll_ne f _ t (by simp [hbusy, hvalid])
  unfold resumeHive
  dsimp only
  rw [apply_ite (rd f), commit, ite_self, apply_ite (rd f), command, ite_self]
  exact rd_congr f rfl rfl

theorem rd_resumeBut_below {f : Fld} (off len : Nat) (s : State) (hacc : f.acc ≠ .rws) (hlow : f.key < 8 * 0x100000) :
    rd f (resumeBut off len s) = rd f s := by
  unfold resumeBut
  refine List.foldlRecOn (motive := fun t => rd f t = rd f s) _ _ rfl fun t ht n _ => ?_
  dsimp only
  split
  · exact ht
  · rw [rd_resumeHive_below n t hacc hlow, ht]

theorem portsOpen_settleBut (off len : Nat) (s : State) : portsOpen (settleBut off len s) = portsOpen s := by
  have hkeys : ∀ x ∈ busyPairs, GLB_STATUS.PORTS_OPEN.key ≠ x.1.key ∧ GLB_STATUS.PORTS_OPEN.key ≠ x.2.key := by decide
  have hrd : rd GLB_STATUS.PORTS_OPEN (settleBut off len s) = rd GLB_STATUS.PORTS_OPEN s := by
    unfold settleBut
    refine List.foldlRecOn (motive := fun t => rd GLB_STATUS.PORTS_OPEN t = rd GLB_STATUS.PORTS_OPEN s) _ _
      (rd_resumeBut_below off len s nofun (by decide)) fun t ht x hx => ?_
    obtain ⟨hbusy, hvalid⟩ := hkeys x (List.mem_filter.mp hx).1
    rw [rd_endBusy t hbusy hvalid, ht]
  rw [portsOpen, portsOpen, on, on, hrd]

/-! ### The lock of the memory map (R90) -/

theorem windowHive_outside {off : Nat} (h : off < 0x100000 ∨ 0x500000 ≤ off) : windowHive off = none := by
  unfold windowHive
  rw [if_neg (by simp only [Bool.and_eq_true, decide_eq_true_eq]; omega)]

/-- GLB_FW_RESERVE, GLB_BAR4_BASE, GLB_ISET and GLB_HASH: the words of the memory map outside the hive windows. -/
def mapWord (off : Nat) : Prop := off = 0x14 ∨ off = 0x18 ∨ (∃ i < 8, off = 0x20 + 4 * i) ∨ ∃ j < 9, off = 0x80 + 4 * j

theorem mapWord_lt {off : Nat} (h : mapWord off) : off < 0xA4 := by
  obtain h | h | ⟨i, hi, h⟩ | ⟨j, hj, h⟩ := h <;> omega

theorem mapWord_aligned {off : Nat} (h : mapWord off) : off % 4 = 0 := by
  obtain h | h | ⟨i, hi, h⟩ | ⟨j, hj, h⟩ := h <;> omega

theorem visible_mapWord {off : Nat} (s : State) (h : mapWord off) : visible off s = true := by
  have hlt := mapWord_lt h
  have hne (c : Nat) (hc : 0xA4 ≤ c) : off ≠ c := by omega
  have hbelow (c : Nat) (hc : 0xA4 ≤ c) : ¬ c ≤ off := by omega
  simp [visible, windowHive_outside (.inl (show off < 0x100000 by omega)), hne, hbelow]

theorem blockWrite_mapWord {off : Nat} (v : Nat) (s : State) (h : mapWord off) : blockWrite off v s = mapWrite off v s := by
  unfold blockWrite
  rw [if_pos]
  simp only [Bool.or_eq_true, Bool.and_eq_true, decide_eq_true_eq]
  obtain h | h | ⟨i, hi, h⟩ | ⟨j, hj, h⟩ := h <;> omega

theorem mapWrite_locked {s : State} (off v : Nat) (h : portsOpen s = true) : mapWrite off v s = put GLB_STATUS.MAP_WR_IGNORED 1 s := by
  rw [mapWrite, if_pos h]

theorem regWrite_outside {off : Nat} (v : Nat) (s : State) (h : off < 0x100000 ∨ 0x500000 ≤ off) :
    regWrite off v s = if visible off s then blockWrite off (v % 2 ^ 32) s else s := by
  unfold regWrite
  rw [windowHive_outside h]
  cases visible off s <;> rfl

theorem regWrite_mapWord_locked {off : Nat} {s : State} (v : Nat) (h : mapWord off) (hopen : portsOpen s = true) :
    regWrite off v s = put GLB_STATUS.MAP_WR_IGNORED 1 s := by
  have hlt := mapWord_lt h
  rw [regWrite_outside v s (.inl (by omega)), if_pos (visible_mapWord s h), blockWrite_mapWord _ s h, mapWrite_locked off _ hopen]

/-! ### Offsets that no chapter assigns (R101) -/

/-- The least number above the distances of the words of an array of registers, of which each element may be a pair (R7). -/
def rowSpan : List (Nat × Nat) → Nat
  | [] => 5
  | (n, st) :: ds => (n - 1) * st + rowSpan ds

theorem lt_rowSpan {dims : List (Nat × Nat)} {d left : Nat} {ix : List Nat} (h : rowIndex dims d = some (ix, left)) (hleft : left ≤ 4) :
    d < rowSpan dims := by
  induction dims generalizing d ix with
  | nil =>
    cases h
    exact Nat.lt_succ_of_le hleft
  | cons x ds ih =>
    obtain ⟨n, st⟩ := x
    unfold rowIndex at h
    split at h
    next hlt =>
      obtain ⟨y, hy, hpair⟩ := Option.map_eq_some_iff.mp h
      cases hpair
      have hrest : d % st < rowSpan ds := ih hy
      have hmul : d / st * st ≤ (n - 1) * st := Nat.mul_le_mul_right st (by omega)
      have hd : d / st * st + d % st = d := Nat.div_add_mod' d st
      rw [rowSpan]
      omega
    next => cases h

/-- The words of a row begin at its base and end with its span. -/
theorem rowWord_none {off : Nat} {r : Row} (h : off < r.base ∨ r.base + rowSpan r.dims ≤ off) : rowWord off r = none := by
  unfold rowWord
  split
  · rfl
  next hbase =>
    have hfar (ix : List Nat) (left : Nat) (hleft : left ≤ 4) : rowIndex r.dims (off - r.base) ≠ some (ix, left) := fun hix => by
      have hnear : off - r.base < rowSpan r.dims := lt_rowSpan hix hleft
      omega
    split
    next => rfl
    next ix hix => exact absurd hix (hfar ix 0 (by decide))
    next ix hix => exact absurd hix (hfar ix 4 (by decide))
    next => rfl

/-- The rows of the register map lie below 0x90000 or in the hive windows. -/
def Row.inAreas (r : Row) : Bool :=
  decide (r.base + rowSpan r.dims ≤ 0x90000) || decide (0x100000 ≤ r.base) && decide (r.base + rowSpan r.dims ≤ 0x500000)

theorem rows_inAreas : (rows.all Row.inAreas) = true := by decide

/-- The reserved range below the hive windows and the offsets above them. -/
def unassigned (off : Nat) : Prop := 0x90000 ≤ off ∧ (off < 0x100000 ∨ 0x500000 ≤ off)

theorem findWord_unassigned {off : Nat} (h : unassigned off) : findWord off = none := by
  obtain ⟨hlow, hwin⟩ := h
  refine List.findSome?_eq_none_iff.mpr fun r hr => rowWord_none ?_
  have harea := List.all_eq_true.mp rows_inAreas r hr
  simp only [Row.inAreas, Bool.or_eq_true, Bool.and_eq_true, decide_eq_true_eq] at harea
  omega

theorem regWord_unassigned {off : Nat} (s : State) (h : unassigned off) : regWord off s = 0 := by
  have hmsix : ¬ (0x78000 ≤ off ∧ off < 0x7A000) := fun hin => by have hlow : 0x90000 ≤ off := h.1; omega
  simp [regWord, findWord_unassigned h, windowWord, windowHive_outside h.2, hmsix]

theorem blockWrite_above {off : Nat} (v : Nat) (s : State) (h : 0x90000 ≤ off) : blockWrite off v s = plainWrite off v s := by
  have hne (c : Nat) (hc : c < 0x90000) : off ≠ c := by omega
  have hlt (c : Nat) (hc : c < 0x90000) : ¬ off < c := by omega
  simp [blockWrite, hne, hlt]

theorem regWrite_unassigned {off : Nat} (v : Nat) (s : State) (h : unassigned off) : regWrite off v s = s := by
  rw [regWrite_outside v s h.2, blockWrite_above _ s h.1, plainWrite, findWord_unassigned h, ite_self]

/-! ### The command -/

theorem exec_registerWrite {off : Nat} {s : State} (v : BitVec 32) (hbars : barsOpen s = true) (halign : off % 4 = 0)
    (hoff : off < 2 ^ 24) : exec (.registerWrite off v) s = .next (regWrite off v.toNat (settleBut off 4 s)) := by
  have h : registerWriteOp off v.toNat s = regWrite off v.toNat (settleBut off 4 s) := by
    rw [registerWriteOp, if_pos (by rw [hbars, decide_eq_true halign, decide_eq_true hoff]; rfl)]
  exact congrArg _ h

/-- Settles O44: the effect of a field's access type, the lock of the memory map and the offsets without a register, each after the
commands that show BUSY have ended. -/
theorem registerAccess : Obligations.RegisterAccess := by
  unfold Obligations.RegisterAccess
  refine ⟨fun off v s hbars halign hoff => exec_registerWrite v hbars halign hoff, fun f v s => ?_,
    fun off v s hbars hopen hmap => ?_, fun off v s hbars halign hlow hwin hoff => ?_⟩
  · exact ⟨rd_fieldWrite_rw v s, fieldWrite_ro v s, fun hacc hw i => testBit_rd_fieldWrite_w1c v s i hacc hw, rd_fieldWrite_rws v s,
      fun g => rd_fieldWrite_ne v s⟩
  · have hlt : off < 0xA4 := mapWord_lt hmap
    rw [exec_registerWrite v hbars (mapWord_aligned hmap) (by omega),
      regWrite_mapWord_locked _ hmap ((portsOpen_settleBut off 4 s).trans hopen)]
  · have hfree : unassigned off := ⟨hlow, hwin⟩
    rw [exec_registerWrite v hbars halign hoff, regWrite_unassigned _ _ hfree]
    exact ⟨regWord_unassigned s hfree, rfl⟩

end Sys2Proof.Machine
end

section
/-! Proofs for the cells (05_cells.md): a takeover whose job fails before the command ends. -/

namespace Sys2Proof.Machine

open Reg

/-! ### A takeover that ends at a job boundary (R156 to R158, R161) -/

/-- A cell that has asked for the one block of the one row of a stream and has its row slot open. -/
def openTaker (bytes : List Byte) (buffer : List (Nat × Nat × Option Beat)) : Taker :=
  ⟨0, 0, 1, 0, buffer, [], 0, [⟨0, bytes, none⟩], false⟩

/-- A stream of one row of INT8 weights by INT8 activations. Cell 0 holds a byte of its row; the block that cell 1 is about to take is
uncorrectable. -/
def poisonedStream : Stream :=
  { v := false, mode := ⟨2, 2, 0, 0, 0⟩, mul := 0, acc := false, rb := 0, rbase := 0, addr := 0, rows := 1, k := 1, ncol := 1,
    split := false, bank := 0, keep := false, seq := none, hide := [], more := 0, ovfCols := [], sums := [], scales := [],
    takers := [(0, openTaker [7] []), (1, openTaker [] [(0, 0, none)])], replays := [] }

/-- Hive 0 has sixteen cells and runs that stream for job 1. Cell 0 has faulted and awaits its takeover, and software has since asked
CELL[0.U] to retire (R168), which takes effect at a job boundary. -/
def takeoverThenRetire : State :=
  { putAll [(CHC_HIVE_CFG.GEN 0, 1), (CEL_CTRL.RETIRE 0 32, 1)] State.reset with
    hives := [(0, { Hive.init with
      cue := some { cueStart 1 0 false with streams := [poisonedStream] }, faults := [(0, (0, 0))], takeover := [0] })],
    jobs := [(1, { Job.start 1 0 [] [] 0 0 0 0 with running := [0] })] }

theorem takeoverThenRetire_awaits : (hive 0 takeoverThenRetire).takeover.contains 0 = true ∧ (takerOf 0 0 takeoverThenRetire).isSome = true := by
  decide +kernel

/-- CELL[0.U] takes over cell 0, then the streams go on: cell 1 takes its block, which fails the job (R156), the hive is at a job
boundary, and there the retirement of CELL[0.U] takes effect. -/
theorem cellTakeover_ends_standIn : on (CEL_US_STATUS.ACTIVE 0) (cellTakeover 0 0 none takeoverThenRetire) = false := by
  decide +kernel

theorem exec_cellTakeover (n c : Nat) (copyParity : Option Nat) (s : State) :
    exec (.cellTakeover n c copyParity) s = .next (cellTakeover n c copyParity s) := rfl

/-- Refutes O40: the clause on CELL_TAKEOVER promises that CELL[n.U] stands in afterwards, but the same command can bring the hive to
a job boundary, where a retirement asked for earlier ends the stand-in. -/
theorem not_cellCommands : ¬ Obligations.CellCommands := by
  unfold Obligations.CellCommands
  rintro ⟨_, _, htakeover, _⟩
  obtain ⟨hawaits, hruns⟩ := takeoverThenRetire_awaits
  obtain ⟨t, hexec, hactive, _⟩ := htakeover 0 0 takeoverThenRetire (by decide) (by decide) hawaits hruns
  rw [exec_cellTakeover] at hexec
  have ht : cellTakeover 0 0 none takeoverThenRetire = t := Host.Outcome.next.inj hexec
  have hended : on (CEL_US_STATUS.ACTIVE 0) t = false := ht ▸ cellTakeover_ends_standIn
  exact Bool.false_ne_true (hended.symm.trans hactive)

end Sys2Proof.Machine
end

section
/-! Proofs for contexts and jobs (06_contexts_and_jobs.md): doorbells, heartbeats and the drain of a lost set, the context commands, and
what a fall of a link leaves of a context (R174 to R181, R201 to R203, R59). -/

namespace Sys2Proof.Machine

open Reg

/-! ### The table of contexts -/

@[simp] theorem ctxOf_setCtx_same (x : Nat) (c : Ctx) (s : State) : ctxOf x (setCtx x c s) = c := mgetD_mset_same _ _ _ _

theorem ctxOf_congr (x : Nat) {s t : State} (h : t.ctxs = s.ctxs) : ctxOf x t = ctxOf x s := by rw [ctxOf, h, ctxOf]

/-- An operation that leaves the table of contexts alone leaves each context alone. -/
theorem Frame.ctxOf_eq {m : Nat} {s t : State} (h : Frame m s t) (x : Nat) (hm : m.testBit 25 = false) : ctxOf x t = ctxOf x s :=
  ctxOf_congr x (h.f_ctxs hm)

/-! ### Doorbells (R180, R181) -/

section
variable {x : Nat} {s : State}

theorem descTail_belled (v : Nat) (h : belled x s = true) :
    descTail x v s =
      if ringDist (cDescLog (ctxOf x s)) (ctxOf x s).head (ctxOf x s).tail ≤
            ringDist (cDescLog (ctxOf x s)) (ctxOf x s).head (v % 2 ^ (cDescLog (ctxOf x s) + 1)) ∧
          ringDist (cDescLog (ctxOf x s)) (ctxOf x s).head (v % 2 ^ (cDescLog (ctxOf x s) + 1)) ≤ 2 ^ cDescLog (ctxOf x s) then
        bellEvent x (setCtx x { ctxOf x s with tail := v % 2 ^ (cDescLog (ctxOf x s) + 1) } s)
      else bump CTX_DB_ERR.BAD_INDEX 1 s := by
  simp [descTail, h, badIndex]

theorem cplHead_belled (v : Nat) (h : belled x s = true) :
    cplHead x v s =
      if ringDist (cCplLog (ctxOf x s)) (ctxOf x s).cplHead (v % 2 ^ (cCplLog (ctxOf x s) + 1)) ≤
          ringDist (cCplLog (ctxOf x s)) (ctxOf x s).cplHead (ctxOf x s).cplTail then
        bellEvent x (setCtx x { ctxOf x s with cplHead := v % 2 ^ (cCplLog (ctxOf x s) + 1) } s)
      else bump CTX_DB_ERR.BAD_INDEX 1 s := by
  simp [cplHead, h, badIndex]

theorem descTail_closed (v : Nat) (h : belled x s = false) : descTail x v s = bump CTX_DB_ERR.BAD_STATE 1 s := by
  simp [descTail, h, badState]

theorem cplHead_closed (v : Nat) (h : belled x s = false) : cplHead x v s = bump CTX_DB_ERR.BAD_STATE 1 s := by
  simp [cplHead, h, badState]

end

theorem ctxOf_bellEvent_setCtx (x : Nat) (c : Ctx) (s : State) : ctxOf x (bellEvent x (setCtx x c s)) = c := by
  rw [(fr_bellEvent ..).ctxOf_eq x rfl, ctxOf_setCtx_same]

theorem exec_descTail (x : Nat) (v : BitVec 32) (s : State) : exec (.descTail x v) s = .next (descTail x v.toNat s) := rfl
theorem exec_cplHead (x : Nat) (v : BitVec 32) (s : State) : exec (.cplHead x v) s = .next (cplHead x v.toNat s) := rfl

/-- Settles O25: each clause is the branch of the doorbell that its index and the state of its context select. -/
theorem doorbellCommands : Obligations.DoorbellCommands := by
  unfold Obligations.DoorbellCommands
  refine ⟨fun x v s hbelled hlo hhi => ?_, fun x v s hbelled hle => ?_, fun x v s hbelled hbad => ?_, fun x v s hbelled hbad => ?_,
    fun x v s hclosed => ?_⟩
  · refine ⟨_, exec_descTail x v s, ?_⟩
    rw [descTail_belled _ hbelled, if_pos ⟨hlo, hhi⟩, ctxOf_bellEvent_setCtx]
  · refine ⟨_, exec_cplHead x v s, ?_⟩
    rw [cplHead_belled _ hbelled, if_pos hle, ctxOf_bellEvent_setCtx]
  · rw [exec_descTail, descTail_belled _ hbelled, if_neg]
    exact fun ⟨hlo, hhi⟩ => hbad.elim (Nat.not_lt.mpr hhi) (Nat.not_lt.mpr hlo)
  · rw [exec_cplHead, cplHead_belled _ hbelled, if_neg (Nat.not_le.mpr hbad)]
  · rw [exec_descTail, exec_cplHead, descTail_closed _ hclosed, cplHead_closed _ hclosed]
    exact ⟨rfl, rfl⟩

/-! ### Heartbeats (R201, R202) -/

theorem inFwm_hbState (h : Nat) : (CTX_HB_STATUS.STATE h).inFwm = false :=
  (inFwm_eq_false_iff _).mpr (.inr (by simp only [CTX_HB_STATUS.STATE, Fld.key]; omega))

theorem rd_hbState_put (h v : Nat) (s : State) : rd (CTX_HB_STATUS.STATE h) (put (CTX_HB_STATUS.STATE h) v s) = v % 4 :=
  rd_put_same _ v s nofun

theorem setAway_eq_false {h : Nat} {s : State} (hs : rd (CTX_HB_STATUS.STATE h) s < 2) : setAway h s = false :=
  decide_eq_false (Nat.not_le.mpr hs)

section
variable {x gen : Nat} {s : State} (hhome : cHome (ctxOf x s) = 16) (hbelled : belled x s = true)
include hhome hbelled

theorem heartbeat_live (hlive : rd (CTX_HB_STATUS.STATE (cHset (ctxOf x s))) s = 1)
    (hgen : rd (CTX_HB_STATUS.GEN (cHset (ctxOf x s))) s = gen) (htime : hbExpired (cHset (ctxOf x s)) s = false) :
    heartbeat x gen s = startHb (cHset (ctxOf x s)) s := by
  simp [heartbeat, hhome, hbelled, hlive, hgen, htime]

theorem heartbeat_stale (hstale : rd (CTX_HB_STATUS.STATE (cHset (ctxOf x s))) s ≠ 1 ∨
      rd (CTX_HB_STATUS.GEN (cHset (ctxOf x s))) s ≠ gen ∨ hbExpired (cHset (ctxOf x s)) s = true) :
    heartbeat x gen s = bump (CTX_HB_STATUS.STALE (cHset (ctxOf x s))) 1 s := by
  unfold heartbeat
  dsimp only
  rw [if_neg (by simp [hhome, hbelled]), if_neg]
  rcases hstale with hstate | hgen | htime
  · simp [hstate]
  · simp [hgen]
  · simp [htime]

end

theorem postEvent_eventSeq (cls source kind : Nat) (detail : List Nat) (s : State) :
    (postEvent cls source kind detail s).eventSeq = s.eventSeq + 1 := by
  unfold postEvent
  dsimp only
  rw [(fr_queueEvent ..).f_eventSeq rfl]
  split <;> rfl

/-- A set that enters LOST while no host-bound write waits spills nothing: its contexts forget their fetches, and an event is posted. -/
theorem loseSet_quiet {h : Nat} {s : State} (hhere : setAway h s = false) (hwrites : s.host.writes = []) :
    ∃ u, Frame 0x802000000 (put (CTX_HB_STATUS.STATE h) 2 s) u ∧ loseSet h s = postEvent 8 h 1 [] u := by
  unfold loseSet
  dsimp only
  rw [hhere, put_host, hwrites]
  exact ⟨_, Frame.foldl (fun _ _ => Frame.mono (fr_setCtx ..) rfl) (Frame.set_host rfl Frame.refl), rfl⟩

theorem heartbeatTimeout_loses {h : Nat} {s : State} (hh : h < 64) (hlive : rd (CTX_HB_STATUS.STATE h) s = 1)
    (htime : hbExpired h s = true) (hwrites : s.host.writes = []) :
    rd (CTX_HB_STATUS.STATE h) (heartbeatTimeout h s) = 2 ∧ (heartbeatTimeout h s).eventSeq = s.eventSeq + 1 := by
  obtain ⟨u, hframe, hlose⟩ := loseSet_quiet (setAway_eq_false (h := h) (by omega)) hwrites
  have htaken : heartbeatTimeout h s = postEvent 8 h 1 [] u := by
    rw [← hlose]
    exact if_pos (by simp [hh, hlive, htime])
  rw [htaken, rd_postEvent_outside (inFwm_hbState h), hframe.rd_eq _ rfl rfl, rd_hbState_put, postEvent_eventSeq, hframe.f_eventSeq rfl]
  exact ⟨rfl, rfl⟩

theorem hbCfgWrite_present {h : Nat} {s : State} (v : Nat) (hh : h < 64) (hhere : rd (CTX_HB_STATUS.STATE h) s < 2) :
    hbCfgWrite h v s =
      startHb h (put (CTX_HB_STATUS.STATE h) (b2n (v % 2 ^ 16 != 0)) (put (CTX_HB_CFG.TIMEOUT_MS h) v s)) := by
  rw [hbCfgWrite, if_neg (Nat.not_le.mpr hh), setAway_eq_false hhere]
  rfl

/-! ### The drain of a lost set (R203) -/

theorem ackWait_accepted {h gen : Nat} {s : State} (discard : Bool) (hh : h < 64) (hlost : rd (CTX_HB_STATUS.STATE h) s = 2)
    (hgen : rd (CTX_HB_STATUS.GEN h) s ≠ gen) :
    rd (CTX_HB_STATUS.STATE h) (ackWait discard h gen s) = 3 ∧ mfind (ackWait discard h gen s).acks h = some ⟨gen, discard⟩ := by
  have htaken : ackWait discard h gen s =
      { put (CTX_HB_STATUS.STATE h) 3 s with acks := mset s.acks h ⟨gen, discard⟩ } := by
    rw [ackWait, if_neg (Nat.not_le.mpr hh), if_pos (by simp [hlost, hgen])]
  rw [htaken]
  exact ⟨rd_hbState_put h 3 s, mfind_mset_same ..⟩

theorem flushEvents_acks (s : State) : (flushEvents s).acks = s.acks := (fr_flushEvents s).f_acks rfl

theorem setSpill_acks (l : List Spill) (s : State) : (setSpill l s).acks = s.acks := (fr_setSpill l s).f_acks rfl

theorem endDrain_acks (h gen : Nat) (s : State) : (endDrain h gen s).acks = mdel s.acks h := rfl

/-- A drain that has nothing left to wait for ends the wait of its set. -/
theorem drainComplete_acks {h : Nat} {w : AckWait} {s : State} (hack : mfind s.acks h = some w)
    (hdraining : rd (CTX_HB_STATUS.STATE h) s = 3) (hjobs : (s.jobs.any fun x => jobInSet h x.2 s) = false)
    (hspill : w.discard = true ∨ busMaster s = true ∧ s.spill.filter (spillOf h) = []) (hcore : coreReady 2 s = true) :
    (drainComplete h s).acks = mdel s.acks h := by
  have hgoes : (!w.discard && !busMaster s) = false := by
    rcases hspill with hdiscard | ⟨hmaster, -⟩
    · rw [hdiscard, Bool.not_true, Bool.false_and]
    · rw [hmaster, Bool.not_true, Bool.and_false]
  unfold drainComplete
  rw [hack]
  dsimp only
  rw [if_neg (by rw [hjobs, hgoes, hcore]; simp [hdraining])]
  cases hdiscard : w.discard with
  | true =>
    rw [if_pos rfl, flushEvents_acks, endDrain_acks, (Frame.foldl fr_dropCtx Frame.refl).f_acks rfl, setSpill_acks]
  | false =>
    have hempty : s.spill.filter (spillOf h) = [] := (hspill.resolve_left (by simp [hdiscard])).2
    rw [if_neg nofun, hempty]
    simp only [List.filter_nil, List.append_nil, deliverAll, List.isEmpty_nil, if_true]
    rw [flushEvents_acks, (Frame.foldl (fun _ _ => fr_freeClosing ..) Frame.refl).f_acks rfl, endDrain_acks, setSpill_acks]

theorem exec_heartbeat (x : Nat) (gen : BitVec 16) (s : State) : exec (.heartbeat x gen) s = .next (heartbeat x gen.toNat s) := rfl
theorem exec_heartbeatTimeout (h : Nat) (s : State) : exec (.heartbeatTimeout h) s = .next (heartbeatTimeout h s) := rfl
theorem exec_ctxHbCfgWrite (h : Nat) (v : BitVec 32) (s : State) :
    exec (.ctxHbCfgWrite h v) s = .next (hbCfgWrite h (v.toNat % 2 ^ 16) s) := rfl
theorem exec_ackDrain (h : Nat) (gen : BitVec 16) (s : State) : exec (.ackDrain h gen) s = .next (ackWait false h gen.toNat s) := rfl
theorem exec_ackDiscard (h : Nat) (gen : BitVec 16) (s : State) : exec (.ackDiscard h gen) s = .next (ackWait true h gen.toNat s) := rfl
theorem exec_drainComplete (h : Nat) (s : State) : exec (.drainComplete h) s = .next (drainComplete h s) := rfl

/-- Settles O26: each clause is what the set's operation does in the state that its premises name. -/
theorem heartbeatCommands : Obligations.HeartbeatCommands := by
  unfold Obligations.HeartbeatCommands
  refine ⟨fun x gen s hhome hbelled hlive hgen htime => ?_, fun x gen s hhome hbelled hstale => ?_,
    fun h s hh hlive htime hwrites => ?_, fun h v s hh hhere => ?_, fun h gen s hh hlost hgen => ?_, fun h gen s hh hlost hgen => ?_,
    fun h w s hack hdraining hjobs hspill hcore => ?_⟩
  · rw [exec_heartbeat, heartbeat_live hhome hbelled hlive hgen htime]
  · rw [exec_heartbeat, heartbeat_stale hhome hbelled hstale]
  · exact ⟨_, exec_heartbeatTimeout h s, heartbeatTimeout_loses hh hlive htime hwrites⟩
  · rw [exec_ctxHbCfgWrite, hbCfgWrite_present _ hh hhere, Nat.mod_mod]
  · exact ⟨_, exec_ackDrain h gen s, ackWait_accepted false hh hlost hgen⟩
  · exact ⟨_, exec_ackDiscard h gen s, ackWait_accepted true hh hlost hgen⟩
  · exact ⟨_, exec_drainComplete h s, drainComplete_acks hack hdraining hjobs hspill hcore⟩

/-! ### The context commands (R174, R522) -/

/-- The state in which an accepted context command runs: CTX_CMD shows BUSY and no result is valid. -/
def acceptedCtx (s : State) : State := putAll [(CTX_CMD.BUSY, 1), (CTX_CMD_STATUS.VALID, 0)] s

theorem ctxOf_acceptedCtx (x : Nat) (s : State) : ctxOf x (acceptedCtx s) = ctxOf x s := rfl

theorem staged_acceptedCtx (s : State) : staged (acceptedCtx s) = staged s :=
  List.map_congr_left fun i _ => rd_putAll_ne _ _ _ (by simp [CTX_ENTRY.WORD, CTX_CMD.BUSY, CTX_CMD_STATUS.VALID, Fld.key]; omega)

theorem ctxAway_acceptedCtx (x : Nat) (s : State) : ctxAway x (acceptedCtx s) = ctxAway x s := by
  have hstate (h : Nat) : rd (CTX_HB_STATUS.STATE h) (acceptedCtx s) = rd (CTX_HB_STATUS.STATE h) s :=
    rd_putAll_ne _ _ _ (by simp [CTX_HB_STATUS.STATE, CTX_CMD.BUSY, CTX_CMD_STATUS.VALID, Fld.key]; omega)
  rw [ctxAway, setAway, hstate, ctxOf_acceptedCtx, ctxAway, setAway]

theorem ctxOf_ctxDone (x result word : Nat) (s : State) : ctxOf x (ctxDone result word s) = ctxOf x s :=
  (fr_ctxDone ..).ctxOf_eq x rfl

theorem ctxOf_tableWrite (x y : Nat) (s : State) : ctxOf x (tableWrite y s) = ctxOf x s := rfl

/-- A command that no second write has met ends with its own result. -/
theorem rd_ctxDone {s : State} (result word : Nat) (honce : s.overruns.contains CTX_CMD.CMD.off = false) :
    rd CTX_CMD_STATUS.RESULT (ctxDone result word s) = result % 8 ∧ on CTX_CMD.BUSY (ctxDone result word s) = false ∧
      on CTX_CMD_STATUS.VALID (ctxDone result word s) = true := by
  unfold ctxDone
  dsimp only
  rw [honce]
  exact ⟨rd_putAll_mem CTX_CMD_STATUS.RESULT result [_] [_, _] _ nofun rfl,
    on_of_rd_b2n (b := false) (rd_putAll_mem CTX_CMD.BUSY 0 [] [_, _, _] _ nofun rfl),
    on_of_rd_eq_one (rd_putAll_mem CTX_CMD_STATUS.VALID 1 [_, _, _] [] _ nofun rfl)⟩

theorem rd_ctxDone_ne {f : Fld} (result word : Nat) (s : State) (hbusy : f.key ≠ CTX_CMD.BUSY.key) (hresult : f.key ≠ CTX_CMD_STATUS.RESULT.key)
    (hword : f.key ≠ CTX_CMD_STATUS.WORD.key) (hvalid : f.key ≠ CTX_CMD_STATUS.VALID.key) : rd f (ctxDone result word s) = rd f s := by
  unfold ctxDone
  dsimp only
  rw [rd_putAll_ne _ _ _ (by simp [hbusy, hresult, hword, hvalid])]
  rfl

theorem ctxCommand_accepted {s : State} (cmd : Nat) (hidle : on CTX_CMD.BUSY s = false) (hcore : coreReady 2 s = true) :
    ctxCommand cmd s = ctxRun cmd (rd CTX_SEL.CTX s) (ctxOf (rd CTX_SEL.CTX s) s).tail (acceptedCtx s) := by
  unfold ctxCommand
  rw [hidle, hcore]
  rfl

section
variable {x : Nat} {s : State}

theorem openCmd_opens (hfree : (ctxOf x s).state = .free) (hgood : entryBadWord (staged s) = none) :
    ctxOf x (openCmd x s) = { Ctx.init with state := .opened, words := staged s } := by
  unfold openCmd
  rw [hfree, hgood, if_neg (by decide)]
  dsimp only
  rw [ctxOf_ctxDone, ctxOf_tableWrite, ctxOf_setCtx_same]

theorem closeCmd_closes (hopen : (ctxOf x s).state = .opened ∨ (ctxOf x s).state = .halted) (hhere : ctxAway x s = false) :
    (ctxOf x (closeCmd x s)).state = .closing := by
  unfold closeCmd
  rw [hhere, if_neg (by rcases hopen with h | h <;> simp [h]), ctxOf_ctxDone, ctxOf_setCtx_same]

theorem closeCmd_away (haway : ctxAway x s = true) : closeCmd x s = ctxDone 1 0 s :=
  if_pos (by rw [haway, Bool.or_true])

theorem freeClosing_frees (hclosing : (ctxOf x s).state = .closing) (hquiet : inflight x s = 0) (hspill : recordSpilled x s = false) :
    freeClosing x s = tableWrite x (setCtx x Ctx.init s) :=
  if_pos (by simp [hclosing, hquiet, hspill])

theorem commitResume_opens (hwaits : (ctxOf x s).waiting = true) (hhalted : (ctxOf x s).state = .halted) (hquiet : inflight x s = 0) :
    ctxOf x (commitResume x s) = { ctxOf x s with state := .opened, waiting := false, halt := none, fetched := [] } := by
  unfold commitResume
  dsimp only
  rw [if_pos (by simp [hwaits, hhalted, hquiet]), ctxOf_ctxDone, ctxOf_setCtx_same]

theorem resumeCmd_opens (discard : Option Nat) (hhalted : (ctxOf x s).state = .halted) (hquiet : inflight x s = 0) :
    ctxOf x (resumeCmd discard x s) =
      { ctxOf x s with
        state := .opened, head := discard.getD (ctxOf x s).head, waiting := false, halt := none, fetched := [], fetching := none } := by
  unfold resumeCmd
  dsimp only
  rw [if_neg (by simp [hhalted])]
  rw [commitResume_opens (s := setCtx _ _ s) (by rw [ctxOf_setCtx_same]) (by rw [ctxOf_setCtx_same, hhalted]) hquiet,
    ctxOf_setCtx_same]

theorem stateCode_lt (c : CtxState) : stateCode c < 4 := by cases c <;> decide

/-- READ shows the state of the context before it ends. -/
theorem readCmd_eq (x : Nat) (s : State) :
    ∃ u, readCmd x s = ctxDone 0 0 u ∧ u.overruns = s.overruns ∧ rd CTX_STATUS_0.STATE u = stateCode (ctxOf x s).state := by
  refine ⟨_, rfl, ?_, ?_⟩
  · rw [putAll_overruns]
    exact (Frame.foldl (fun _ _ => fr_put ..) Frame.refl).f_overruns rfl
  · exact (rd_putAll_mem CTX_STATUS_0.STATE _ [] [_, _, _, _, _] _ nofun rfl).trans (Nat.mod_eq_of_lt (stateCode_lt _))

theorem readCmd_shows (honce : s.overruns.contains CTX_CMD.CMD.off = false) :
    rd CTX_CMD_STATUS.RESULT (readCmd x s) = 0 ∧ on CTX_CMD.BUSY (readCmd x s) = false ∧ on CTX_CMD_STATUS.VALID (readCmd x s) = true ∧
      rd CTX_STATUS_0.STATE (readCmd x s) = stateCode (ctxOf x s).state := by
  obtain ⟨u, hread, hover, hstate⟩ := readCmd_eq x s
  obtain ⟨hresult, hbusy, hvalid⟩ := rd_ctxDone (s := u) 0 0 (by rw [hover, honce])
  rw [hread]
  exact ⟨hresult, hbusy, hvalid, (rd_ctxDone_ne 0 0 u (by decide) (by decide) (by decide) (by decide)).trans hstate⟩

theorem modifyCmd_modifies (hopen : (ctxOf x s).state = .opened ∨ (ctxOf x s).state = .halted)
    (hgood : entryBadWord (staged s) = none)
    (hfixed : ∀ i < 16, fixedWord i ((staged s).getD i 0) = fixedWord i (cWord (ctxOf x s) i)) :
    ctxOf x (modifyCmd x s) = { ctxOf x s with words := staged s } := by
  have hsame : ((List.range 16).find? fun i => fixedWord i ((staged s).getD i 0) != fixedWord i (cWord (ctxOf x s) i)) = none :=
    List.find?_eq_none.mpr fun i hi => by rw [hfixed i (List.mem_range.mp hi), bne_self_eq_false]; nofun
  unfold modifyCmd
  dsimp only
  rw [hgood, hsame, if_neg (by rcases hopen with h | h <;> simp [h])]
  dsimp only
  rw [ctxOf_ctxDone, ctxOf_tableWrite, ctxOf_setCtx_same]

end

section
variable {s : State} (hidle : on CTX_CMD.BUSY s = false) (hcore : coreReady 2 s = true) (hx : rd CTX_SEL.CTX s ≠ 0)
include hidle hcore hx

theorem exec_ctxOpen : exec .ctxOpen s = .next (openCmd (rd CTX_SEL.CTX s) (acceptedCtx s)) :=
  congrArg Host.Outcome.next ((ctxCommand_accepted 1 hidle hcore).trans (if_neg hx))
theorem exec_ctxClose : exec .ctxClose s = .next (closeCmd (rd CTX_SEL.CTX s) (acceptedCtx s)) :=
  congrArg Host.Outcome.next ((ctxCommand_accepted 2 hidle hcore).trans (if_neg hx))
theorem exec_ctxResume : exec .ctxResume s = .next (resumeCmd none (rd CTX_SEL.CTX s) (acceptedCtx s)) :=
  congrArg Host.Outcome.next ((ctxCommand_accepted 3 hidle hcore).trans (if_neg hx))
theorem exec_ctxResumeDiscard :
    exec .ctxResumeDiscard s = .next (resumeCmd (some (ctxOf (rd CTX_SEL.CTX s) s).tail) (rd CTX_SEL.CTX s) (acceptedCtx s)) :=
  congrArg Host.Outcome.next ((ctxCommand_accepted 4 hidle hcore).trans (if_neg hx))
theorem exec_ctxRead : exec .ctxRead s = .next (readCmd (rd CTX_SEL.CTX s) (acceptedCtx s)) :=
  congrArg Host.Outcome.next ((ctxCommand_accepted 5 hidle hcore).trans (if_neg hx))
theorem exec_ctxModify : exec .ctxModify s = .next (modifyCmd (rd CTX_SEL.CTX s) (acceptedCtx s)) :=
  congrArg Host.Outcome.next ((ctxCommand_accepted 6 hidle hcore).trans (if_neg hx))

end

theorem exec_closeComplete (x : Nat) (s : State) : exec (.closeComplete x) s = .next (freeClosing x s) := rfl
theorem exec_resumeCommit (x : Nat) (s : State) : exec (.resumeCommit x) s = .next (commitResume x s) := rfl

/-- Settles O27: each command is accepted, and its operation succeeds in the state that its premises name. -/
theorem contextCommands : Obligations.ContextCommands := by
  unfold Obligations.ContextCommands
  refine ⟨fun s hidle hcore hx hfree hgood => ?_, fun s hidle hcore hx hopen hhere => ?_, fun x s hclosing hquiet hspill => ?_,
    fun s hidle hcore hx honce => ?_, fun s hidle hcore hx hopen hgood hfixed => ?_, fun s hidle hcore hx hhalted hquiet => ?_,
    fun s hidle hcore hx hhalted hquiet => ?_, fun x s hwaits hhalted hquiet => ?_⟩
  · rw [← staged_acceptedCtx] at hgood ⊢
    exact ⟨_, exec_ctxOpen hidle hcore hx, openCmd_opens hfree hgood⟩
  · exact ⟨_, exec_ctxClose hidle hcore hx, closeCmd_closes hopen ((ctxAway_acceptedCtx _ s).trans hhere)⟩
  · rw [exec_closeComplete, freeClosing_frees hclosing hquiet hspill]
  · exact ⟨_, exec_ctxRead hidle hcore hx, readCmd_shows honce⟩
  · rw [← staged_acceptedCtx] at hgood hfixed ⊢
    exact ⟨_, exec_ctxModify hidle hcore hx, modifyCmd_modifies hopen hgood hfixed⟩
  · refine ⟨_, exec_ctxResume hidle hcore hx, ?_⟩
    rw [resumeCmd_opens (s := acceptedCtx s) none hhalted hquiet]
    exact ⟨rfl, rfl, rfl⟩
  · refine ⟨_, exec_ctxResumeDiscard hidle hcore hx, ?_⟩
    rw [resumeCmd_opens (s := acceptedCtx s) (some _) hhalted hquiet]
    exact ⟨rfl, rfl, rfl⟩
  · exact ⟨_, exec_resumeCommit x s, commitResume_opens hwaits hhalted hquiet⟩

/-! ### A fall of a link (R176, R59) -/

theorem ctxAway_of_hbState {x : Nat} {s : State} (hhome : cHome (ctxOf x s) = 16)
    (hstate : rd (CTX_HB_STATUS.STATE (cHset (ctxOf x s))) s = 2 ∨ rd (CTX_HB_STATUS.STATE (cHset (ctxOf x s))) s = 3) :
    ctxAway x s = true := by
  rw [ctxAway, hhome, setAway]
  rcases hstate with h | h <;> rw [h] <;> rfl

/-- Settles O28: the links of a port are no part of a context, and CLOSE looks at the context's host set before it closes. -/
theorem linkFallKeepsContexts : Obligations.LinkFallKeepsContexts := by
  unfold Obligations.LinkFallKeepsContexts
  refine ⟨fun k x s => ⟨linkDown k s, exec_cpLinkDown k s, by rw [(fr_linkDown k s).ctxOf_eq x rfl]⟩,
    fun s hidle hcore hx honce hhome hstate => ⟨_, exec_ctxClose hidle hcore hx, ?_⟩⟩
  have haway := (ctxAway_acceptedCtx _ s).trans (ctxAway_of_hbState hhome hstate)
  rw [closeCmd_away haway, ctxOf_ctxDone]
  exact ⟨(rd_ctxDone (s := acceptedCtx s) 1 0 honce).1, rfl⟩

end Sys2Proof.Machine
end

section
/-! Proofs for contexts and jobs (06_contexts_and_jobs.md): descriptor fetch and the start of a job, the pieces of the jobs that move
data, and how a job reports and leaves (R182 to R200, R400, R404, R478). -/

namespace Sys2Proof.Machine

open Reg

/-! ### Descriptor fetch (R182, R184) -/

/-- The ring index of the next descriptor to fetch of a context. -/
def fetchIndex (c : Ctx) : Nat := (c.head + c.fetched.length) % 2 ^ (cDescLog c + 1)

/-- The address of that descriptor. -/
def fetchAddr (c : Ctx) : Nat := cDescBase c + 64 * (fetchIndex c % 2 ^ cDescLog c)

/-- How many descriptors a fetch asks for: at most 8, within a page, up to the tail and without wrapping. -/
def fetchCount (c : Ctx) : Nat :=
  min (min 8 ((4096 - fetchAddr c % 4096) / 64))
    (min (ringDist (cDescLog c) (fetchIndex c) c.tail) (2 ^ cDescLog c - fetchIndex c % 2 ^ cDescLog c))

/-- The context waits for the fetch that it has asked for. -/
def fetchAsked (x : Nat) (s : State) : State :=
  { setCtx x { ctxOf x s with fetching := some s.nextUid } s with nextUid := s.nextUid + 1 }

/-- A ring with a descriptor before its tail, on a base of whole descriptors, gives a fetch something to ask for. -/
theorem fetchCount_ne_zero {c : Ctx} (halign : cDescBase c % 64 = 0) (hring : ringDist (cDescLog c) (fetchIndex c) c.tail ≠ 0) :
    fetchCount c ≠ 0 := by
  have hpage : 64 ≤ 4096 - fetchAddr c % 4096 := by
    have haddr : fetchAddr c % 64 = 0 := by unfold fetchAddr; omega
    omega
  have hwrap : fetchIndex c % 2 ^ cDescLog c < 2 ^ cDescLog c := Nat.mod_lt _ (Nat.two_pow_pos _)
  unfold fetchCount
  omega

/-- The conditions of R182 and R184 for a fetch of a context with nothing fetched or being fetched. -/
structure MayFetch (x : Nat) (s : State) : Prop where
  opened : (ctxOf x s).state = .opened
  ports : portsOpen s = true
  present : ctxAway x s = false
  idle : (ctxOf x s).fetching = none
  empty : (ctxOf x s).fetched = []
  core : coreReady 2 s = true
  aligned : cDescBase (ctxOf x s) % 64 = 0
  waits : ringDist (cDescLog (ctxOf x s)) ((ctxOf x s).head % 2 ^ (cDescLog (ctxOf x s) + 1)) (ctxOf x s).tail ≠ 0

section
variable {x : Nat} {s : State} (h : MayFetch x s)
include h

theorem MayFetch.index : fetchIndex (ctxOf x s) = (ctxOf x s).head % 2 ^ (cDescLog (ctxOf x s) + 1) := by
  rw [fetchIndex, h.empty, List.length_nil, Nat.add_zero]

theorem descriptorFetch_eq :
    descriptorFetch x s =
      if cHome (ctxOf x s) = 16 && !busMaster s then s
      else if cHome (ctxOf x s) = 16 then
        askHost ⟨fetchAddr (ctxOf x s), 64 * fetchCount (ctxOf x s),
          .descriptor x (fetchIndex (ctxOf x s)) (fetchCount (ctxOf x s)) s.nextUid, []⟩ (fetchAsked x s)
      else
        askUnit (cHome (ctxOf x s)) (cClass (ctxOf x s)) (cDomain (ctxOf x s)) x
          ⟨x, .fetch (fetchIndex (ctxOf x s)) (fetchCount (ctxOf x s)) s.nextUid, 0, 0, 0⟩ .rd (fetchAddr (ctxOf x s))
          (fetchCount (ctxOf x s)) (2 ^ 64 - 1) [] (fetchAsked x s) := by
  have hcount : fetchCount (ctxOf x s) ≠ 0 := fetchCount_ne_zero h.aligned (h.index ▸ h.waits)
  have hgoes : ((ctxOf x s).state != .opened || !portsOpen s || ctxAway x s || (ctxOf x s).fetching.isSome ||
      decide (fetchCount (ctxOf x s) = 0) || decide (8 ≤ (ctxOf x s).fetched.length) || !coreReady 2 s) = false := by
    simp [h.opened, h.ports, h.present, h.idle, h.empty, h.core, hcount]
  exact if_neg (Bool.eq_false_iff.mp hgoes)

theorem descriptorFetch_host (hhome : cHome (ctxOf x s) = 16) (hmaster : busMaster s = true) :
    (ctxOf x (descriptorFetch x s)).fetching = some s.nextUid ∧ (descriptorFetch x s).nextUid = s.nextUid + 1 := by
  rw [descriptorFetch_eq h, if_neg (by simp [hmaster]), if_pos hhome, (fr_askHost ..).ctxOf_eq x rfl, (fr_askHost ..).f_nextUid rfl]
  exact ⟨congrArg Ctx.fetching (ctxOf_setCtx_same ..), rfl⟩

theorem descriptorFetch_device (hhome : cHome (ctxOf x s) ≠ 16) :
    (ctxOf x (descriptorFetch x s)).fetching = some s.nextUid ∧
      ∃ r, (port (cHome (ctxOf x s)) (descriptorFetch x s)).ing = (port (cHome (ctxOf x s)) s).ing ++ [r] ∧ r.op = .rd ∧
        r.addr = fetchAddr (ctxOf x s) := by
  rw [descriptorFetch_eq h, if_neg (by simp [hhome]), if_neg hhome, (fr_askUnit ..).ctxOf_eq x rfl, askUnit, port_setPort_same]
  exact ⟨congrArg Ctx.fetching (ctxOf_setCtx_same ..), _, rfl, rfl, rfl⟩

end

/-! ### The start of a job (R182, R187) -/

/-- The job that a fetched descriptor of a context starts. -/
def jobOf (x : Nat) (f : Fetched) (s : State) : Job :=
  Job.start x f.index f.words (ctxOf x s).words (cHome (ctxOf x s)) (cClass (ctxOf x s)) (cDomain (ctxOf x s)) s.fclk

/-- A descriptor that R187 does not refuse starts its job and leaves its context's queue. -/
theorem jobStart_starts {x : Nat} {f : Fetched} {fs : List Fetched} {s : State} (hfetched : (ctxOf x s).fetched = f :: fs)
    (hopened : (ctxOf x s).state = .opened) (hpresent : ctxAway x s = false) (hports : portsOpen s = true)
    (hcore : coreReady 2 s = true) (hmay : mayStart x (ctxOf x s) (jobOf x f s) s = true) (htype : jType (jobOf x f s) < 5)
    (hgood : badReason (cHostEn (ctxOf x s)) (usableTop s) (jobOf x f s) = 0) :
    jobStart x s =
      emit 0x701 1 none (some (jobOf x f s).home) (some (jobOf x f s).cls) none
        { setJob s.nextJob (jobOf x f s)
            (setCtx x { ctxOf x s with head := ((ctxOf x s).head + 1) % 2 ^ (cDescLog (ctxOf x s) + 1), fetched := fs } s) with
          nextJob := s.nextJob + 1 } := by
  unfold jobOf at hmay htype hgood ⊢
  unfold jobStart
  dsimp only
  rw [hfetched]
  dsimp only
  rw [if_neg (by simp [hopened, hpresent, hports, hcore]), if_neg (by rw [hmay]; nofun), if_neg (by omega),
    if_neg (by simp; omega), if_neg (by simp [hgood])]

theorem exec_descriptorFetch (x : Nat) (s : State) : exec (.descriptorFetch x) s = .next (descriptorFetch x s) := rfl
theorem exec_jobStart (x : Nat) (s : State) : exec (.jobStart x) s = .next (jobStart x s) := rfl

/-- Settles O29: each clause is the branch of the fetch or the start that its premises select. -/
theorem jobStartCommands : Obligations.JobStartCommands := by
  unfold Obligations.JobStartCommands
  refine ⟨fun x s hopened hports hpresent hidle hempty hcore halign hwaits hhome hmaster => ?_,
    fun x s hopened hports hpresent hidle hempty hcore halign hwaits hhome => ?_,
    fun x f fs s hfetched hopened hpresent hports hcore hmay htype hgood => ?_⟩
  · exact ⟨_, exec_descriptorFetch x s,
      descriptorFetch_host ⟨hopened, hports, hpresent, hidle, hempty, hcore, halign, hwaits⟩ hhome hmaster⟩
  · have hmayFetch : MayFetch x s := ⟨hopened, hports, hpresent, hidle, hempty, hcore, halign, hwaits⟩
    rw [← hmayFetch.index]
    exact ⟨_, exec_descriptorFetch x s, descriptorFetch_device hmayFetch hhome⟩
  · refine ⟨_, exec_jobStart x s, ?_⟩
    rw [jobStart_starts hfetched hopened hpresent hports hcore hmay htype hgood, (fr_emit ..).f_nextJob rfl, (fr_emit ..).f_jobs rfl,
      (fr_emit ..).ctxOf_eq x rfl]
    exact ⟨rfl, setJob_same .., ctxOf_setCtx_same ..⟩

/-! ### The pieces of a job (R186, R400, R404) -/

/-- A job is ready for the work of its type when it has started and has neither stopped, reported nor moved a byte. -/
theorem ready_eq_some {j type : Nat} {v : Job} {s : State} (h : ready j type s = some v) :
    mfind s.jobs j = some v ∧ v.stopped = false ∧ v.pos = 0 ∧ v.outstanding = 0 ∧ jType v = type := by
  unfold ready at h
  split at h
  next w hw =>
    split at h
    next hcond =>
      cases h
      simp only [Bool.and_eq_true, Bool.not_eq_true', beq_iff_eq] at hcond
      obtain ⟨⟨⟨⟨⟨_, hstopped⟩, _⟩, hpos⟩, hout⟩, htype⟩ := hcond
      exact ⟨hw, hstopped, hpos, hout, htype⟩
    · cases h
  · cases h

theorem finishWork_eq {j : Nat} {v : Job} {s : State} (h : mfind s.jobs j = some v) :
    finishWork j s = setJob j { v with waitRecord := true } s := by
  rw [finishWork, h]

theorem beginMove_ready {type j : Nat} {v : Job} {s : State} (h : ready j type s = some v)
    (hmoves : (decide (type = 5) && jGather v) = false) : beginMove type j s = jobNext j s := by
  unfold beginMove
  rw [h]
  exact if_neg (Bool.eq_false_iff.mp hmoves)

/-- The next piece of a job that has bytes left, by its type. -/
def nextPiece (j : Nat) (v : Job) (s : State) : State :=
  match jType v with
  | 1 => readSource j v (.copyRead v.pos) (pieceAt v [jSrc v, jDst v]) s
  | 2 => writePiece j v .jobWrite 0 0 (List.replicate (pieceAt v [jDst v] / 64) (patternBeat v)).flatten s
  | 5 => askJob j v (.sendRead v.pos) 0 0 0 .rd (jSrc v + v.pos) (pieceAt v [jSrc v, jDst v] / 64) (2 ^ 64 - 1) [] s
  | _ => readSource j v (.castRead v.pos) (pieceAt v [jSrc v, jDst v]) s

section
variable {v : Job} (j : Nat) (s : State)

theorem nextPiece_copy (h : jType v = 1) : nextPiece j v s = readSource j v (.copyRead v.pos) (pieceAt v [jSrc v, jDst v]) s := by
  simp only [nextPiece, h]

theorem nextPiece_fill (h : jType v = 2) :
    nextPiece j v s = writePiece j v .jobWrite 0 0 (List.replicate (pieceAt v [jDst v] / 64) (patternBeat v)).flatten s := by
  simp only [nextPiece, h]

theorem nextPiece_send (h : jType v = 5) :
    nextPiece j v s =
      askJob j v (.sendRead v.pos) 0 0 0 .rd (jSrc v + v.pos) (pieceAt v [jSrc v, jDst v] / 64) (2 ^ 64 - 1) [] s := by
  simp only [nextPiece, h]

theorem nextPiece_cast (h : jType v = 6) : nextPiece j v s = readSource j v (.castRead v.pos) (pieceAt v [jSrc v, jDst v]) s := by
  simp only [nextPiece, h]

end

theorem jobNext_piece {j : Nat} {v : Job} {s : State} (h : mfind s.jobs j = some v) (hruns : v.stopped = false)
    (hleft : v.pos < jLen v) (hkids : jType v = 6 → castKids v s ≠ []) : jobNext j s = nextPiece j v s := by
  have hmore : (decide (jLen v ≤ v.pos) || jType v == 6 && (castKids v s).isEmpty) = false := by
    simpa [hleft] using hkids
  unfold jobNext
  rw [h]
  dsimp only
  rw [hruns, if_neg nofun, if_neg (Bool.eq_false_iff.mp hmore)]
  rfl

/-- A job that begins to move data asks for its first piece. -/
theorem beginMove_piece {type j : Nat} {v : Job} {s : State} (h : ready j type s = some v) (hlen : jLen v ≠ 0)
    (hmoves : (decide (type = 5) && jGather v) = false) (hkids : type = 6 → castKids v s ≠ []) :
    beginMove type j s = nextPiece j v s := by
  obtain ⟨hjob, hruns, hpos, -, htype⟩ := ready_eq_some h
  rw [beginMove_ready h hmoves, jobNext_piece hjob hruns (by omega) (htype ▸ hkids)]

theorem readSource_host {j n : Nat} {v : Job} {dest : AccFor} {s : State} (hspace : jSrcSpace v = 1) :
    readSource j v dest n s =
      askHost ⟨jSrc v + v.pos, min n (maxRead s), .copy j v.pos, []⟩ (setJob j { v with outstanding := v.outstanding + 1 } s) :=
  if_pos hspace

theorem readSource_device {j n : Nat} {v : Job} {dest : AccFor} {s : State} (hspace : jSrcSpace v ≠ 1) :
    readSource j v dest n s = askJob j v dest 1 0 0 .rd (jSrc v + v.pos) (n / 64) (2 ^ 64 - 1) [] s :=
  if_neg hspace

theorem digestAt_unaudited {j pos : Nat} {d : List Byte} {v : Job} {s : State} (h : mfind s.jobs j = some v)
    (haudit : jAudit v = false) : digestAt j pos d s = s := by
  unfold digestAt
  rw [h]
  exact if_neg (Bool.eq_false_iff.mp haudit)

theorem sourceArrives_copy {j : Nat} {v : Job} {s : State} (d : List Byte) (h : mfind s.jobs j = some v) (hruns : v.stopped = false)
    (htype : jType v = 1) (haudit : jAudit v = false) (hspace : jDstSpace v ≠ 1) :
    sourceArrives j d s = writePiece j v .jobWrite 2 0 d s := by
  unfold sourceArrives
  rw [h]
  dsimp only
  rw [hruns, if_neg nofun, htype, digestAt_unaudited h haudit, h]
  exact if_neg hspace

theorem exec_jobNop (j : Nat) (s : State) : exec (.jobNop j .clean) s = .next (jobNop j s) :=
  congrArg (fun u => Host.Outcome.next (jobNop j u)) (parityOf_clean j 0 s)
theorem exec_copy (j : Nat) (s : State) : exec (.copy j .clean) s = .next (beginMove 1 j s) :=
  congrArg (fun u => Host.Outcome.next (beginMove 1 j u)) (parityOf_clean j 1 s)
theorem exec_fillRange (j : Nat) (s : State) : exec (.fillRange j .clean) s = .next (beginMove 2 j s) :=
  congrArg (fun u => Host.Outcome.next (beginMove 2 j u)) (parityOf_clean j 2 s)
theorem exec_peerReduceSend (j : Nat) (s : State) : exec (.peerReduceSend j .clean) s = .next (beginMove 5 j s) :=
  congrArg (fun u => Host.Outcome.next (beginMove 5 j u)) (parityOf_clean j 5 s)
theorem exec_peerReduceGather (j : Nat) (s : State) : exec (.peerReduceGather j .clean) s = .next (reduceGather j s) :=
  congrArg (fun u => Host.Outcome.next (reduceGather j u)) (parityOf_clean j 5 s)
theorem exec_broadcast (j : Nat) (s : State) : exec (.broadcast j .clean) s = .next (beginMove 6 j s) :=
  congrArg (fun u => Host.Outcome.next (beginMove 6 j u)) (parityOf_clean j 6 s)

theorem jobNop_ready {j : Nat} {v : Job} {s : State} (h : ready j 0 s = some v) :
    jobNop j s = setJob j { v with waitRecord := true } s := by
  rw [jobNop, h]
  exact finishWork_eq (ready_eq_some h).1

theorem reduceGather_opens {j : Nat} {v : Job} {s t : State} (h : ready j 5 s = some v) (hgather : jGather v = true)
    (hslot : openSlot ⟨j, jWord v 10, jDst v, jLen v, bits (jWord v 8) 1 2, bits (jWord v 8) 3 2, bits (jWord v 9) 0 20⟩ s = some t) :
    reduceGather j s = setJob j { v with outstanding := 1 } t := by
  unfold reduceGather
  rw [h]
  dsimp only
  rw [hgather, hslot]
  rfl

/-- Settles O30: a job that begins asks for its first piece, and what a COPY has read leaves for its destination. -/
theorem dataJobCommands : Obligations.DataJobCommands := by
  unfold Obligations.DataJobCommands
  refine ⟨fun j v s h => ?_, fun j v s h hlen hspace => ?_, fun j v s h hlen hspace => ?_,
    fun j v d s h hruns htype haudit hspace => ?_, fun j v s h hlen => ?_, fun j v s h hgather hlen => ?_,
    fun j v t s h hgather hslot => ?_, fun j v s h hlen hkids => ?_⟩
  · rw [exec_jobNop, jobNop_ready h]
  · obtain ⟨-, -, hpos, hout, htype⟩ := ready_eq_some h
    rw [exec_copy, beginMove_piece h hlen rfl nofun, nextPiece_copy j s htype, readSource_host hspace, hpos, hout, Nat.add_zero, Nat.zero_add]
  · obtain ⟨-, -, hpos, -, htype⟩ := ready_eq_some h
    rw [exec_copy, beginMove_piece h hlen rfl nofun, nextPiece_copy j s htype, readSource_device hspace, hpos, Nat.add_zero]
  · exact sourceArrives_copy d h hruns htype haudit hspace
  · obtain ⟨-, -, -, -, htype⟩ := ready_eq_some h
    rw [exec_fillRange, beginMove_piece h hlen rfl nofun, nextPiece_fill j s htype]
  · obtain ⟨-, -, hpos, -, htype⟩ := ready_eq_some h
    rw [exec_peerReduceSend, beginMove_piece h hlen (by rw [hgather, Bool.and_false]) nofun, nextPiece_send j s htype, hpos, Nat.add_zero]
  · rw [exec_peerReduceGather, reduceGather_opens h hgather hslot]
  · obtain ⟨-, -, hpos, -, htype⟩ := ready_eq_some h
    rw [exec_broadcast, beginMove_piece h hlen rfl (fun _ => hkids), nextPiece_cast j s htype, hpos]

/-! ### The end of a job (R196 to R198) -/

theorem jobDone_late {j : Nat} {s : State} (h : 0 < mgetD s.lateJobs j 0) :
    jobDone j s = bump CTX_LATE_CNT.COUNT 1 { s with lateJobs := mset s.lateJobs j (mgetD s.lateJobs j 0 - 1) } :=
  if_pos h

/-- A job whose units have all reported, and that has nothing in flight, has finished. -/
theorem jobDone_finishes {j : Nat} {v : Job} {s : State} (hlate : mgetD s.lateJobs j 0 = 0) (h : mfind s.jobs j = some v)
    (hdone : v.done = false) (htimed : v.timedOut = false) (hreported : v.waitRecord = true) (hquiet : jobQuiet j s = true) :
    jobDone j s = discardRound j (jobFinished j (setJob j { v with done := true } s)) := by
  unfold jobDone
  rw [if_neg (by omega), h]
  dsimp only
  rw [if_neg (by simp [hdone, htimed, hreported, hquiet])]

/-- A job that fails is still there. -/
theorem mfind_failJob {j : Nat} {v : Job} {s : State} (status info : Nat) (h : mfind s.jobs j = some v) (hdone : v.done = false)
    (htimed : v.timedOut = false) : ∃ w, mfind (failJob j status info s).jobs j = some w := by
  by_cases hstatus : v.status = 0
  · exact ⟨_, failJob_fails j status info v s h hstatus hdone htimed⟩
  · have hfirst : failJob j status info s = s := by
      unfold failJob
      rw [h]
      exact if_pos (by simp [hstatus])
    exact ⟨v, by rw [hfirst, h]⟩

/-- A timer that fires leaves its job with TIMEOUT and counts the reports that its units still owe. -/
theorem jobTimeout_fires {j elapsed : Nat} {v : Job} {s : State} (h : mfind s.jobs j = some v) (hstarted : v.started = true)
    (hdone : v.done = false) (htimed : v.timedOut = false) (hset : jTimeout v ≠ 0) (hlo : jTimeout v ≤ elapsed)
    (hhi : elapsed ≤ jTimeout v + 10) :
    (jobTimeout j elapsed s).lateJobs = mset s.lateJobs j (max 1 v.running.length) ∧
      ∃ w, mfind (jobTimeout j elapsed s).jobs j = some w ∧ w.timedOut = true ∧ w.status = stTimeout ∧ w.info = elapsed := by
  obtain ⟨w, hw⟩ := mfind_failJob stTimeout elapsed h hdone htimed
  unfold jobTimeout
  rw [h]
  dsimp only
  rw [if_neg hset, if_neg (by simp [hstarted, hdone, htimed, hlo, hhi]), hw]
  dsimp only
  rw [(fr_discardRound ..).f_lateJobs rfl, (fr_discardRound ..).f_jobs rfl]
  refine ⟨?_, _, setJob_same .., rfl, rfl, rfl⟩
  exact congrArg (fun m => mset m j (max 1 v.running.length)) ((fr_failJob ..).f_lateJobs rfl)

/-! ### Completion records (R189 to R193, R202) -/

theorem dropJob_jobs (j : Nat) (s : State) : (dropJob j s).jobs = mdel s.jobs j := (fr_closeSlot ..).f_jobs rfl

/-- The ledger and the counted event of a record (R476), before the record leaves. -/
def recordLogged (v : Job) (s : State) : State :=
  let t := if audited v then appendLedger (ledgerEntry v (recordWords v s) s) s else s
  if 2 ≤ v.status then emit 0x703 1 none (some v.home) none none t else t

theorem fr_recordLogged (v : Job) (s : State) : Frame 0x20040100080004 s (recordLogged v s) := by
  unfold recordLogged
  dsimp only
  split <;> split
  · exact (Frame.mono (fr_appendLedger ..) rfl).seq (fr_emit ..) rfl
  · exact Frame.mono (fr_emit ..) rfl
  · exact Frame.mono (fr_appendLedger ..) rfl
  · exact Frame.refl

section
variable {j : Nat} {v : Job} {s : State} (h : mfind s.jobs j = some v) (hdue : recordDue j v s = true) (hcore : coreReady 2 s = true)
include h hdue hcore

theorem recordWrite_host (hhere : ctxAway v.ctx s = false) (hroom : cplRoom (ctxOf v.ctx s) = true)
    (hhome : cHome (ctxOf v.ctx s) = 16) (hmaster : busMaster s = true) :
    recordWrite j s = writeHostRecord v.ctx (recordWords v s) (recordVector v) (dropJob j (recordLogged v s)) := by
  unfold recordWrite
  rw [h]
  dsimp only
  rw [hdue, hcore, hhere, hroom, hhome, hmaster]
  rfl

theorem recordWrite_device (hhere : ctxAway v.ctx s = false) (hroom : cplRoom (ctxOf v.ctx s) = true)
    (hhome : cHome (ctxOf v.ctx s) ≠ 16) :
    recordWrite j s =
      writeDevRecord j v.ctx (recordWords v s) (recordVector v) (setJob j { v with recording := true } (recordLogged v s)) := by
  unfold recordWrite
  rw [h]
  dsimp only
  rw [if_neg (by simp [hdue, hcore, hhere, hroom, hhome]), hhere, if_neg nofun, if_neg hhome]
  rfl

theorem recordWrite_away (haway : ctxAway v.ctx s = true) :
    recordWrite j s =
      setSpill ((dropJob j (recordLogged v s)).spill ++ [.record (cHset (ctxOf v.ctx s)) v.ctx (recordWords v s) (recordVector v)])
        (fwWrite .spill (spillUsed (dropJob j (recordLogged v s))) (wordBytes (recordWords v s)) (dropJob j (recordLogged v s))) := by
  unfold recordWrite
  rw [h]
  dsimp only
  rw [hdue, hcore, haway]
  rfl

end

theorem recordLogged_jobs (v : Job) (s : State) : (recordLogged v s).jobs = s.jobs := (fr_recordLogged v s).f_jobs rfl

theorem setSpill_spill (l : List Spill) (s : State) : (setSpill l s).spill = l := rfl

theorem dropJob_recordLogged_spill (j : Nat) (v : Job) (s : State) : (dropJob j (recordLogged v s)).spill = s.spill :=
  ((fr_dropJob ..).f_spill rfl).trans ((fr_recordLogged ..).f_spill rfl)

/-! ### A batch of the ledger (R478) -/

/-- A full batch of waiting entries is closed: it leaves the queue, is kept, and is signed with a fresh draw. -/
theorem auditBatchClose_full {s : State} (hcore : coreReady 0 s = true) (hne : s.audit.entries ≠ [])
    (hfull : batchMax s ≤ s.audit.entries.length) :
    (auditBatchClose s).audit.entries = s.audit.entries.drop (batchMax s) ∧
      (auditBatchClose s).audit.batches.length = s.audit.batches.length + 1 ∧ (auditBatchClose s).free = s.free + 1 := by
  have hmax : 0 < batchMax s := by unfold batchMax; omega
  obtain ⟨e, es, htake⟩ : ∃ e es, s.audit.entries.take (batchMax s) = e :: es :=
    List.exists_cons_of_ne_nil fun hnil => (List.take_eq_nil_iff.mp hnil).elim (by omega) hne
  unfold auditBatchClose
  dsimp only
  rw [if_pos (by simp [hcore, hne, hfull])]
  unfold closeBatch
  dsimp only
  rw [htake]
  dsimp only
  exact ⟨rfl, List.length_append, rfl⟩

theorem exec_jobDoneReport (j : Nat) (s : State) : exec (.jobDoneReport j) s = .next (jobDone j s) := rfl
theorem exec_jobTimeout (j elapsed : Nat) (s : State) : exec (.jobTimeout j elapsed) s = .next (jobTimeout j elapsed s) := rfl
theorem exec_completionRecordWrite (j : Nat) (s : State) : exec (.completionRecordWrite j) s = .next (recordWrite j s) := rfl
theorem exec_auditBatchClose (s : State) : exec .auditBatchClose s = .next (auditBatchClose s) := rfl

/-- Settles O32: each clause reads what the report, the timer, the record or the batch leaves. -/
theorem jobRecordCommands : Obligations.JobRecordCommands := by
  unfold Obligations.JobRecordCommands
  refine ⟨fun j v s hlate h hdone htimed hreported hquiet => ?_, fun j s hlate => ?_,
    fun j elapsed v s h hstarted hdone htimed hset hlo hhi => ?_, fun j v s h hdue hcore hhere hroom hhome hmaster => ?_,
    fun j v s h hdue hcore hhere hroom hhome => ?_, fun j v s h hdue hcore haway => ?_, fun s hcore hne hfull => ?_⟩
  · rw [exec_jobDoneReport, jobDone_finishes hlate h hdone htimed hreported hquiet]
  · rw [exec_jobDoneReport, jobDone_late hlate]
  · exact ⟨_, exec_jobTimeout j elapsed s, jobTimeout_fires h hstarted hdone htimed hset hlo hhi⟩
  · refine ⟨_, exec_completionRecordWrite j s, ?_⟩
    rw [recordWrite_host h hdue hcore hhere hroom hhome hmaster, (fr_writeHostRecord ..).f_jobs rfl, dropJob_jobs, recordLogged_jobs]
  · refine ⟨_, exec_completionRecordWrite j s, ?_⟩
    rw [recordWrite_device h hdue hcore hhere hroom hhome, (fr_writeDevRecord ..).f_jobs rfl, setJob_jobs, recordLogged_jobs]
  · refine ⟨_, exec_completionRecordWrite j s, ?_⟩
    rw [recordWrite_away h hdue hcore haway, setSpill_spill, dropJob_recordLogged_spill, (fr_setSpill ..).f_jobs rfl,
      (fr_fwWrite ..).f_jobs rfl, dropJob_jobs, recordLogged_jobs]
    exact ⟨rfl, rfl⟩
  · exact ⟨_, exec_auditBatchClose s, auditBatchClose_full hcore hne hfull⟩

end Sys2Proof.Machine
end

section
/-! Proofs for cue programs (07_cue_programs.md): what a sequencer leaves when a word issues, and the instructions for control,
addresses, mode and scale. -/

namespace Sys2Proof.Machine

open Reg

/-! ### A hive and its sequencer -/

@[simp] theorem hive_setHive_same (n : Nat) (h : Hive) (s : State) : hive n (setHive n h s) = h := mgetD_mset_same _ _ _ _

/-- A hive stays as it is under an operation that changes no hive. -/
theorem Frame.hive_eq {m : Nat} {s t : State} (h : Frame m s t) (n : Nat) (hm : m.testBit 24 = false) : hive n t = hive n s := by
  rw [hive, h.f_hives hm, hive]

@[simp] theorem hive_goOn (n pc : Nat) (c : Cue) (s : State) :
    hive n (goOn n pc c s) = { hive n s with cue := some { c with pc := pc } } := by
  rw [goOn, (fr_emit ..).hive_eq n rfl, (fr_put ..).hive_eq n rfl, hive_setHive_same]

theorem cue_onCue {n : Nat} {c : Cue} {s : State} (f : Cue → Cue) (h : (hive n s).cue = some c) :
    (hive n (onCue n f s)).cue = some (f c) := by
  unfold onCue
  dsimp only
  rw [h]
  dsimp only
  rw [hive_setHive_same]

/-! ### The issue of a word (R215, R218) -/

/-- A word issues for a job that is there. -/
theorem job_of_issue {op n w : Nat} {c : Cue} {v : Job} {s : State} (h : issue op n s = some (c, v, w)) :
    mfind s.jobs c.job = some v := by
  unfold issue at h
  split at h
  · cases h
  · split at h
    · cases h
    next x hx =>
      dsimp only at h
      split at h
      · cases h
      · cases h
        exact hx

/-- What issues depends on the hives and the jobs alone. -/
theorem issue_congr (op n : Nat) {s t : State} (hhives : t.hives = s.hives) (hjobs : t.jobs = s.jobs) : issue op n t = issue op n s := by
  unfold issue hive
  rw [hhives, hjobs]

/-- A command that meets the parity error of its word and then performs f comes to f of the state that the error has left. -/
theorem exec_met {p : Parity} {n : Nat} {word : Option (Cue × Job × Nat)} {i : Instr} {f : State → State} {s₀ s : State}
    (hs : meetAtIssue p n word s₀ = s) (hi : exec i s₀ = .next (f (meetAtIssue p n word s₀))) : exec i s₀ = .next (f s) := hs ▸ hi

theorem meetAtIssue_store (n : Nat) (word : Option (Cue × Job × Nat)) (s : State) :
    meetAtIssue .store n word s = refetch true n word s := by
  cases word <;> rfl

theorem meetAtIssue_none (p : Parity) (n : Nat) (s : State) : meetAtIssue p n none s = s := rfl

/-- A word that is read again counts in CUE_PERR and as event 0x403. -/
theorem refetch_some (n : Nat) (x : Cue × Job × Nat) (s : State) :
    refetch true n (some x) s = emit 0x403 1 (some n) none none none (bump (CUE_PERR.COUNT n) 1 s) := rfl

theorem rd_refetch_same (n : Nat) (x : Cue × Job × Nat) (s : State) :
    rd (CUE_PERR.COUNT n) (refetch true n (some x) s) = min (rd (CUE_PERR.COUNT n) s + 1) (2 ^ 16 - 1) := by
  have hfits : min (rd (CUE_PERR.COUNT n) s + 1) (2 ^ 16 - 1) < 2 ^ 16 := by omega
  rw [refetch_some, (fr_emit ..).rd_eq _ rfl rfl, bump, rd_put_same _ _ _ (show Acc.ro ≠ Acc.rws from nofun)]
  exact Nat.mod_eq_of_lt hfits

theorem rd_refetch_ne {n : Nat} {f : Fld} (x : Cue × Job × Nat) (s : State) (h : f.key ≠ (CUE_PERR.COUNT n).key) :
    rd f (refetch true n (some x) s) = rd f s := by
  rw [refetch_some, (fr_emit ..).rd_eq _ rfl rfl, bump, rd_put_ne _ _ _ _ h]

theorem issue_refetch (op n : Nat) (b : Bool) (word : Option (Cue × Job × Nat)) (s : State) :
    issue op n (refetch b n word s) = issue op n s :=
  issue_congr op n ((fr_refetch ..).f_hives rfl) ((fr_refetch ..).f_jobs rfl)

/-- Settles O34: a parity error of the store reaches only the counter and the counted events, on which no issue depends. -/
theorem programStoreParity : Obligations.ProgramStoreParity := by
  unfold Obligations.ProgramStoreParity
  refine ⟨fun n x s => ?_, fun n op stage word s => ?_, fun n p word s h => ?_⟩
  · rw [meetAtIssue_store]
    exact ⟨rd_refetch_same n x s, fun f hf => rd_refetch_ne x s hf, rfl⟩
  · rw [meetAtIssue_store, issueStage, issueStage, issue_refetch, issue_refetch]
    exact ⟨rfl, rfl⟩
  · obtain rfl | rfl := h
    · exact meetAtIssue_clean n word s
    · exact meetAtIssue_none p n s

/-! ### Control, addresses, mode and scale (R214, R222 to R226): each instruction once its word has issued -/

section
variable {n w : Nat} {c : Cue} {v : Job} {s : State}

theorem nopOp_issued (h : issue opNop n s = some (c, v, w)) : nopOp n s = goOn n (c.pc + 1) c s := by
  rw [nopOp, h]

theorem endOp_issued {t : State} (h : issue opEnd n s = some (c, v, w)) (hd : drained n s = some t) :
    endOp n s = hiveEnds n c.job (leaveHive n c.job (emit 0x400 1 (some n) none none none t)) := by
  rw [endOp, h, hd]

theorem waitOp_passes {t : State} (h : issue opWait n s = some (c, v, w)) (hd : drained n s = some t) (hspan : w.testBit 52 = false) :
    waitOp n s = goOn n ((cueOf n t).pc + 1) (cueOf n t) t := by
  rw [waitOp, h, hd]
  exact if_neg (Bool.eq_false_iff.mp hspan)

theorem waitOp_waits {t : State} (h : issue opWait n s = some (c, v, w)) (hd : drained n s = some t) (hspan : w.testBit 52 = true) :
    waitOp n s = setHive n { hive n t with cue := some { cueOf n t with atSync := true } } t := by
  rw [waitOp, h, hd]
  exact if_pos hspan

theorem lsetOp_issued (h : issue opLset n s = some (c, v, w)) :
    lsetOp n s = goOn n (c.pc + 1) { c with lc := c.lc.set (bits w 50 2) (bits w 0 20) } s := by
  rw [lsetOp, h]

theorem loopOp_counts (h : issue opLoop n s = some (c, v, w)) (hk : c.lc.getD (bits w 50 2) 0 ≠ 0) :
    loopOp n s = goOn n (if c.lc.getD (bits w 50 2) 0 = 1 then c.pc + 1 else bits w 0 10)
      { c with lc := c.lc.set (bits w 50 2) (c.lc.getD (bits w 50 2) 0 - 1) } s := by
  rw [loopOp, h]
  exact if_neg hk

theorem loopOp_refused (h : issue opLoop n s = some (c, v, w)) (hk : c.lc.getD (bits w 50 2) 0 = 0) :
    loopOp n s = refuseWord n c 9 s := by
  rw [loopOp, h]
  exact if_pos hk

theorem asetOp_issued (h : issue opAset n s = some (c, v, w)) :
    asetOp n s = goOn n (c.pc + 1) (setAreg (bits w 48 4) (bits w 0 48) c) s := by
  rw [asetOp, h]

theorem amovOp_issued (h : issue opAmov n s = some (c, v, w)) :
    amovOp n s = goOn n (c.pc + 1) (setAreg (bits w 48 4) (v.argv.getD (bits w 0 3) 0) c) s := by
  rw [amovOp, h]

theorem aaddOp_issued (h : issue opAadd n s = some (c, v, w)) :
    aaddOp n s =
      goOn n (c.pc + 1) (setAreg (bits w 48 4) (areg c (bits w 44 4) + ofSigned 64 (toSigned 44 (bits w 0 44))) c) s := by
  rw [aaddOp, h]

theorem amadOp_issued (h : issue opAmad n s = some (c, v, w)) :
    amadOp n s =
      goOn n (c.pc + 1) (setAreg (bits w 48 4) (areg c (bits w 44 4) + areg c (bits w 40 4) * bits w 0 32) c) s := by
  rw [amadOp, h]

theorem modeOp_issued (h : issue opMode n s = some (c, v, w)) :
    modeOp n s = goOn n (c.pc + 1) { c with mode := some (modeOf w) } s := by
  rw [modeOp, h]

theorem scaleOp_issued (h : issue opScale n s = some (c, v, w)) : scaleOp n s = goOn n (c.pc + 1) { c with mul := bits w 0 32 } s := by
  rw [scaleOp, h]

end

/-- An immediate of at most 64 bits enters an address register unchanged. -/
theorem setAreg_bits (i v lo : Nat) {k : Nat} (c : Cue) (h : k ≤ 64) :
    setAreg i (bits v lo k) c = { c with areg := c.areg.set i (bits v lo k) } := by
  have hlt : bits v lo k < 2 ^ 64 := Nat.lt_of_lt_of_le (Nat.mod_lt _ (Nat.two_pow_pos k)) (Nat.pow_le_pow_right (by omega) h)
  rw [setAreg, Nat.mod_eq_of_lt hlt]

/-- A hive that has completed END no longer runs the job, which is finished when it was the last. -/
theorem hiveEnds_leaves {n j : Nat} {v : Job} {s : State} (h : mfind s.jobs j = some v) :
    ∃ w, mfind (hiveEnds n j s).jobs j = some w ∧ w.running = v.running.erase n ∧ (v.running.erase n = [] → w.waitRecord = true) := by
  unfold hiveEnds
  rw [h]
  dsimp only
  by_cases hlast : v.running.erase n = []
  · rw [if_pos (List.isEmpty_iff.mpr hlast), finishWork_eq (setJob_same ..)]
    exact ⟨_, setJob_same .., rfl, fun _ => rfl⟩
  · rw [if_neg (mt List.isEmpty_iff.mp hlast)]
    exact ⟨_, setJob_same .., rfl, fun hnil => absurd hnil hlast⟩

/-- At a WAIT that every hive of the span has reached, the hives go on. -/
theorem spanSync_wait {j : Nat} {v : Job} {s : State} (h : mfind s.jobs j = some v) (hruns : v.stopped = false) (hspan : v.hives ≠ [])
    (hhere : (v.hives.all fun n => (hive n s).cue.any fun c => c.job == j && c.atSync && c.pc == (cueOf (v.hives.headD 16) s).pc) = true)
    (hop : opOf (mgetD (hive (v.hives.headD 16) s).store ((cueOf (v.hives.headD 16) s).base + (cueOf (v.hives.headD 16) s).pc) 0) = 0x02) :
    spanSync j s = goOnAll v.hives s := by
  unfold spanSync
  rw [h]
  dsimp only
  rw [hhere, hop, hruns, if_neg (by simp [hspan])]
  rfl

theorem exec_spanSyncComplete (j : Nat) (s : State) : exec (.spanSyncComplete j .clean) s = .next (spanSync j s) :=
  congrArg (fun u => Host.Outcome.next (spanSync j u)) (parityAtWork_clean j s)

/-- Settles O33: the sequencer that each instruction leaves once its word has issued. -/
theorem cueControlCommands : Obligations.CueControlCommands := by
  unfold Obligations.CueControlCommands
  refine ⟨fun n p c v w s₀ s hs h => ?nop, fun n p c v w u s₀ s hs h hd => ?endOfJob, fun n j v s h => hiveEnds_leaves h,
    fun n p c v w u s₀ s hs h hd hspan => ?waitAlone, fun n p c v w u s₀ s hs h hd hspan => ?waitSpan, fun n p c v w s₀ s hs h => ?lset,
    fun n p c v w s₀ s hs h hk => ?loopAgain, fun n p c v w s₀ s hs h hk => ?loopLast, fun n p c v w s₀ s hs h => ?mode,
    fun n p c v w s₀ s hs h => ?scale, fun j v s h hruns hspan hhere hop => ?sync, fun n p c v w s₀ s hs h => ?aset,
    fun n p c v w s₀ s hs h => ?amov, fun n p c v w s₀ s hs h => ?aadd, fun n p c v w s₀ s hs h => ?amad⟩
  case nop => exact ⟨_, exec_met (f := nopOp n) hs rfl, by rw [nopOp_issued h, hive_goOn]⟩
  case endOfJob => rw [exec_met (f := endOp n) hs rfl, endOp_issued h hd]
  case waitAlone => exact ⟨_, exec_met (f := waitOp n) hs rfl, by rw [waitOp_passes h hd hspan, hive_goOn]⟩
  case waitSpan => exact ⟨_, exec_met (f := waitOp n) hs rfl, by rw [waitOp_waits h hd hspan, hive_setHive_same]⟩
  case lset => exact ⟨_, exec_met (f := lsetOp n) hs rfl, by rw [lsetOp_issued h, hive_goOn]⟩
  case loopAgain => exact ⟨_, exec_met (f := loopOp n) hs rfl, by rw [loopOp_counts h (by omega), if_neg (by omega), hive_goOn]⟩
  case loopLast => exact ⟨_, exec_met (f := loopOp n) hs rfl, by rw [loopOp_counts h (by omega), if_pos hk, hk, hive_goOn]⟩
  case mode => exact ⟨_, exec_met (f := modeOp n) hs rfl, by rw [modeOp_issued h, hive_goOn]⟩
  case scale => exact ⟨_, exec_met (f := scaleOp n) hs rfl, by rw [scaleOp_issued h, hive_goOn]⟩
  case sync => rw [exec_spanSyncComplete, spanSync_wait h hruns hspan hhere hop]
  case aset => exact ⟨_, exec_met (f := asetOp n) hs rfl, by rw [asetOp_issued h, setAreg_bits _ _ _ c (by omega), hive_goOn]⟩
  case amov => exact ⟨_, exec_met (f := amovOp n) hs rfl, by rw [amovOp_issued h, setAreg, hive_goOn]⟩
  case aadd => exact ⟨_, exec_met (f := aaddOp n) hs rfl, by rw [aaddOp_issued h, setAreg, hive_goOn]⟩
  case amad => exact ⟨_, exec_met (f := amadOp n) hs rfl, by rw [amadOp_issued h, setAreg, hive_goOn]⟩

/-! ### Refusals at issue (R219, R220) -/

/-- A refused word fails its job with PROGRAM_REFUSED, the word and the reason, unless the job has failed or reported before. -/
theorem refuseWord_fails {n : Nat} {c : Cue} {v : Job} {s : State} (reason : Nat) (h : mfind s.jobs c.job = some v) (hok : v.status = 0)
    (hdone : v.done = false) (htimed : v.timedOut = false) :
    ∃ j, mfind (refuseWord n c reason s).jobs c.job = some j ∧ j.status = stProg ∧ j.info = c.pc % 2 ^ 11 + reason * 2 ^ 16 ∧
      j.stopped = true := by
  have hthere : mfind (recordRefuse n c.pc reason s).jobs c.job = some v := by rw [(fr_recordRefuse ..).f_jobs rfl, h]
  exact ⟨_, failJob_fails _ _ _ v _ hthere hok hdone htimed, rfl, rfl, rfl⟩

section
variable {n w : Nat} {c : Cue} {v : Job} {m : Mode} {s : State}

theorem passOp_refused {reason : Nat} (h : issue opPass n s = some (c, v, w)) (hm : c.mode = some m)
    (hbad : streamReason n (usedCh n s) m (passArgs c w) c s = some reason) : passOp n s = refuseWord n c reason s := by
  rw [passOp, h]
  dsimp only
  rw [hm]
  dsimp only
  rw [hbad]

theorem passOp_streams (h : issue opPass n s = some (c, v, w)) (hm : c.mode = some m)
    (hgood : streamReason n (usedCh n s) m (passArgs c w) c s = none) :
    passOp n s = runStream n (streamOf m (passArgs c w) false none c) { c with passes := c.passes + 1 }
      (digestBanks n v c (passArgs c w) s) := by
  rw [passOp, h]
  dsimp only
  rw [hm]
  dsimp only
  rw [hgood]

end

/-- Settles O39: the two words are refused, and a refused word fails its job. -/
theorem cueRefusals : Obligations.CueRefusals := by
  unfold Obligations.CueRefusals
  refine ⟨fun n w p c v s₀ s hs h hk hok hdone htimed => ?_, fun n w reason p c v m s₀ s hs h hm hbad hok hdone htimed => ?_⟩
  · obtain ⟨j, hfails⟩ := refuseWord_fails (n := n) 9 (job_of_issue h) hok hdone htimed
    exact ⟨_, j, exec_met (f := loopOp n) hs rfl, by rwa [loopOp_refused h hk]⟩
  · obtain ⟨j, hfails⟩ := refuseWord_fails (n := n) reason (job_of_issue h) hok hdone htimed
    exact ⟨_, j, exec_met (f := passOp n) hs rfl, by rwa [passOp_refused h hm hbad]⟩

end Sys2Proof.Machine
end

section
/-! Proofs for cue programs: the columns, the streams and the result entries (R227 to R233, R247, R252 to R257). -/

namespace Sys2Proof.Machine

open Reg

/-! ### Columns (R227) -/

theorem cue_writeColBeat (n c scl col beat : Nat) (d : List Byte) (s : State) :
    (hive n (writeColBeat n c scl col beat d s)).cue = (hive n s).cue := by
  unfold writeColBeat
  dsimp only
  rw [hive_setHive_same]

theorem cue_loadBeat (n : Nat) (x : Load) (q : Nat) (d : List Byte) (s : State) :
    (hive n (loadBeat n x q d s)).cue = (hive n s).cue := by
  unfold loadBeat
  exact List.foldlRecOn (motive := fun t => (hive n t).cue = (hive n s).cue) _ _ rfl
    fun _ ht _ _ => (cue_writeColBeat ..).trans ht

theorem cue_foldl_loadBeat (n : Nat) (x : Load) (q : Nat) (d : List Byte) (l : List Nat) (s : State) :
    (hive n (l.foldl (fun t i => loadBeat n x (q + i) (slice d (64 * i) 64) t) s)).cue = (hive n s).cue :=
  List.foldlRecOn (motive := fun t => (hive n t).cue = (hive n s).cue) _ _ rfl fun _ ht _ _ => (cue_loadBeat ..).trans ht

section
variable {n w : Nat} {c : Cue} {v : Job} {s t : State}

theorem ldactOp_asks {x : Load} (h : issue opLdact n s = some (c, v, w)) (hidle : c.loads = 0) (halign : areg c (bits w 48 4) % 64 = 0)
    (hx : x = loadOf n v w s) (hfree : freeIf (colsInUse n x.scl x.col x.nc x.off x.beats s) n s = some t) :
    ldactOp n s =
      (loadPieces ((areg c (bits w 48 4) + x.unit0 * (x.nc * x.beats) * 64) % 2 ^ 64) (x.units * x.nc * x.beats) 0
        (x.units * x.nc * x.beats)).foldl (fun u q => askCue n (.ldact n c.pc q.1) true 0 .rd
          (((areg c (bits w 48 4) + x.unit0 * (x.nc * x.beats) * 64) % 2 ^ 64 + 64 * q.1) % 2 ^ 64) q.2 (2 ^ 64 - 1) [] u) t := by
  subst hx
  unfold ldactOp
  rw [h]
  dsimp only
  rw [if_neg (by omega), if_neg (by simp [halign]), hfree]

/-- The last answer of an LDACT takes the sequencer to the next word. -/
theorem cue_ldactArrives_last {q : Nat} {d : List Byte} (hc : (hive n s).cue = some c) (hjob : mfind s.jobs c.job = some v)
    (hlast : c.loads = 1) : (hive n (ldactArrives c.job n c.pc q d s)).cue = some { c with loads := c.loads - 1, pc := c.pc + 1 } := by
  unfold ldactArrives
  rw [hc, hjob]
  dsimp only
  rw [if_neg (by simp [hlast]), if_pos hlast, hive_goOn, cueOf,
    cue_onCue _ ((cue_foldl_loadBeat ..).trans hc)]
  rfl

theorem clrcOp_clears (h : issue opClrc n s = some (c, v, w))
    (hfree : freeIf (colsInUse n 0 (colFirst w) (colCount w) 0 256 s || colsInUse n 1 (colFirst w) (colCount w) 0 9 s) n s = some t) :
    (∃ x, (hive n (clrcOp n s)).cue = some x ∧ x.pc = c.pc + 1) ∧
      (hive n (clrcOp n s)).cols = (hive n t).cols.filter fun x =>
        !(((List.range (usedCh n t)).map fun i => physCell n i t).contains (x.1 / 2 ^ 20) &&
          decide (colFirst w ≤ x.1 / 2 ^ 14 % 32) && decide (x.1 / 2 ^ 14 % 32 < colFirst w + colCount w)) := by
  unfold clrcOp
  rw [h]
  dsimp only
  rw [hfree]
  dsimp only
  rw [hive_goOn, hive_setHive_same]
  exact ⟨⟨_, rfl, rfl⟩, rfl⟩

/-! ### Streams (R229, R231, R247, R257) -/

theorem kstreamOp_streams {m : Mode} (h : issue opKstream n s = some (c, v, w)) (hm : c.mode = some m)
    (hgood : streamReason n (usedCh n s) m (kstreamArgs c w) c s = none) :
    kstreamOp n s =
      runStream n (streamOf m (kstreamArgs c w) (kstreamArgs c w).acc
        (if (kstreamArgs c w).acc then none
          else some (bits (jWord v 14) 0 25, (kstreamKv (kstreamArgs c w) (usedCh n s) (jSpan v) (kvOf c)).kbase +
            logicalHive n v * usedCh n s * (kstreamArgs c w).rows)) c)
        { c with kv := some (kstreamKv (kstreamArgs c w) (usedCh n s) (jSpan v) (kvOf c)) } s := by
  rw [kstreamOp, h]
  dsimp only
  rw [hm]
  dsimp only
  rw [hgood]

theorem vstreamOp_streams {m : Mode} (h : issueAfter opVstream n s = some (t, c, v, w)) (hm : c.mode = some m)
    (hgood : vReason n (usedCh n t) m (vArgs c w) c t = none) (hrows : (vArgs c w).d ≠ 0) :
    vstreamOp n s =
      runStream n (vStream (usedCh n t) m (vArgs c w) c) c
        ((List.range (usedCh n t)).foldl (fun u i => placeProbs n i (usedCh n t) m (vArgs c w) c u) t) := by
  rw [vstreamOp, h]
  dsimp only
  rw [hm]
  dsimp only
  rw [hgood]
  exact if_neg hrows

/-- A row result of PASS or KSTREAM makes or adds into its entry, and its slot is free. -/
theorem cue_passRow {cells l r : Nat} {b : List Byte} {vals : List (List EVal)} {ws : Option Nat} {as : List Nat} {rest : List Slot}
    {y : Taker} {x : Stream} {xs : List Stream} (hc : (hive n s).cue = some c) (hstreams : c.streams = x :: xs) (hx : x.v = false)
    (hy : mfind x.takers l = some y) (hslots : y.slots = ⟨r, b, some (vals, ws, as)⟩ :: rest) :
    (hive n (passRow n cells l s)).cue = some { c with
      streams := { x with takers := mset x.takers l { y with row := r + 1, slots := rest } } :: xs,
      ents := mset c.ents (entKey x.rb (x.rbase + r * cells + l)) (newEntry x.acc x.keep
        (mfind c.ents (entKey x.rb (x.rbase + r * cells + l))) x.mode x.k ws as (rowMasked x l r) vals) } := by
  rw [passRow, cue_onCue _ hc, hstreams]
  dsimp only
  rw [hy]
  dsimp only
  rw [hslots]
  dsimp only
  rw [hx, if_neg nofun]

end

/-- Settles O37: the operation of each instruction once its word has issued, and what an answer or a row leaves. -/
theorem cueStreamCommands : Obligations.CueStreamCommands := by
  unfold Obligations.CueStreamCommands
  refine ⟨fun n p c v w x u s₀ s hs h hidle halign hx hfree => ?ldact, fun n q d c v s hc hjob hlast => ?arrives,
    fun n p c v w u s₀ s hs h hfree => ?clrc, fun n p c v m w s₀ s hs h hm hgood => ?pass, fun n x c s => rfl,
    fun n cells l r k b vals ws as rest y x xs c s hc hstreams hx hy hslots hk => ?row,
    fun n p c v m w kv s₀ s hs h hm hgood hkv => ?kstream, fun n p c v w m u s₀ s hs h hm hgood hrows => ?vstream⟩
  case ldact => rw [exec_met (f := ldactOp n) hs rfl, ldactOp_asks h hidle halign hx hfree]
  case arrives => exact ⟨_, cue_ldactArrives_last hc hjob hlast, rfl⟩
  case clrc => exact ⟨_, exec_met (f := clrcOp n) hs rfl, clrcOp_clears h hfree⟩
  case pass => rw [exec_met (f := passOp n) hs rfl, passOp_streams h hm hgood]
  case row => rw [hk, cue_passRow hc hstreams hx hy hslots]
  case kstream => rw [exec_met (f := kstreamOp n) hs rfl, kstreamOp_streams h hm hgood, hkv]
  case vstream => rw [exec_met (f := vstreamOp n) hs rfl, vstreamOp_streams h hm hgood hrows]

/-! ### The reduce unit (R232) and EMIT (R233) -/

section
variable {n w : Nat} {c : Cue} {v : Job} {s t : State}

theorem zrbOp_issued (h : issueAfter opZrb n s = some (t, c, v, w)) :
    zrbOp n s = goOn n (c.pc + 1) { c with
      ents := mkeep c.ents fun k =>
        decide (k < entKey (bits w 55 1) (bits w 0 10)) || decide (entKey (bits w 55 1) (bits w 0 10) + bits w 10 11 ≤ k) } t := by
  rw [zrbOp, h]

theorem redOp_combines (h : issueAfter opRed n s = some (t, c, v, w))
    (hgood : ((redGroups w (usedCh n s)).filterMap fun ks => combineBad (ks.map fun k => mfind c.ents k)) = []) :
    redOp n s = goOn n (c.pc + 1) { c with ents := (redGroups w (usedCh n s)).foldl redGroup c.ents } t := by
  rw [redOp, h]
  dsimp only
  rw [hgood]
  rfl

theorem gatherOp_issued (h : issueAfter opGather n s = some (t, c, v, w)) :
    gatherOp n s = setHive n { hive n t with cue := some { c with atSync := true } } t := by
  rw [gatherOp, h]

theorem emitOp_writes (h : issueAfter opEmit n s = some (t, c, v, w)) (hhere : w.testBit 57 = true → logicalHive n v = 0)
    (hgood : emitBad c w = none) (hfits : emitBeyond v (emitPlan n c v w) = none) : emitOp n s = emitWrite n c v w t := by
  rw [emitOp, h]
  dsimp only
  rw [if_neg (by simpa using hhere), hgood]
  dsimp only
  rw [hfits]

theorem emitOp_elsewhere (h : issueAfter opEmit n s = some (t, c, v, w)) (hone : w.testBit 57 = true) (hother : logicalHive n v ≠ 0) :
    emitOp n s = goOn n (c.pc + 1) c t := by
  rw [emitOp, h]
  exact if_pos (by simp [hone, hother])

/-! ### The three stages of SMAX (R252 to R254) -/

theorem smaxMaxOp_issued (h : issueSmax 0 n s = some (t, c, v, w)) :
    smaxMaxOp n s =
      setHive n { hive n t with cue := some { c with ents := (smaxKeys w).foldl (takeValue c.mul) c.ents, atSync := true } } t := by
  rw [smaxMaxOp, h]

/-- Stage 1 goes on with other entries and other L and RL. -/
theorem smaxExpOp_issued (h : issueSmax 1 n s = some (t, c, v, w)) :
    ∃ es kv, smaxExpOp n s = goOn n (c.pc + 1) { c with ents := es, kv := some kv } t := by
  rw [smaxExpOp, h]
  exact ⟨_, _, rfl⟩

theorem smaxCloseOp_issued (h : issueSmax 2 n s = some (t, c, v, w)) :
    smaxCloseOp n s = setHive n { hive n t with cue := some { c with kv := some (closeKv (kvOf c)), atSync := true } } t := by
  rw [smaxCloseOp, h]

end

/-- Settles O38: the operation of each instruction once its word has issued behind the streams. -/
theorem cueResultCommands : Obligations.CueResultCommands := by
  unfold Obligations.CueResultCommands
  refine ⟨fun n p c v w u s₀ s hs h => ?zrb, fun n p c v w u s₀ s hs h hgood => ?red, fun n p c v w u s₀ s hs h => ?gather,
    fun n p c v w u s₀ s hs h hhere hgood hfits => ?emit, fun n p c v w u s₀ s hs h hone hother => ?emitElsewhere,
    fun n p c v w u s₀ s hs h => ?smaxMax, fun n p c v w u s₀ s hs h => ?smaxExp, fun n p c v w u s₀ s hs h => ?smaxClose⟩
  case zrb => exact ⟨_, exec_met (f := zrbOp n) hs rfl, by rw [zrbOp_issued h, hive_goOn]⟩
  case red => exact ⟨_, exec_met (f := redOp n) hs rfl, by rw [redOp_combines h hgood, hive_goOn]⟩
  case gather => rw [exec_met (f := gatherOp n) hs rfl, gatherOp_issued h]
  case emit => rw [exec_met (f := emitOp n) hs rfl, emitOp_writes h hhere hgood hfits]
  case emitElsewhere => rw [exec_met (f := emitOp n) hs rfl, emitOp_elsewhere h hone hother]
  case smaxMax => rw [exec_met (f := smaxMaxOp n) hs rfl, smaxMaxOp_issued h]
  case smaxExp =>
    obtain ⟨es, kv, hgoes⟩ := smaxExpOp_issued h
    refine ⟨_, exec_met (f := smaxExpOp n) hs rfl, { c with pc := c.pc + 1, ents := es, kv := some kv }, ?_, rfl, rfl, rfl⟩
    rw [hgoes, hive_goOn]
  case smaxClose => rw [exec_met (f := smaxCloseOp n) hs rfl, smaxCloseOp_issued h]

end Sys2Proof.Machine
end

section
/-! Proofs for cue programs: how a program comes to its hives and begins there (R209, R210, R240). -/

namespace Sys2Proof.Machine

open Reg

/-! ### Arguments and image (R210) -/

theorem placeCue_asks {type j : Nat} {v : Job} {s : State} (h : ready j type s = some v) :
    placeCue type j s = askJob j v .cueArgs 0 0 0 .rd (jWide v 8) 1 (2 ^ 64 - 1) [] s := by
  rw [placeCue, h]

theorem exec_runCue (j : Nat) (s : State) : exec (.runCue j .clean) s = .next (placeCue 3 j s) :=
  congrArg (fun u => Host.Outcome.next (placeCue 3 j u)) (parityOf_clean j 3 s)

theorem exec_attnStream (j : Nat) (s : State) : exec (.attnStream j .clean) s = .next (placeCue 4 j s) :=
  congrArg (fun u => Host.Outcome.next (placeCue 4 j u)) (parityOf_clean j 4 s)

theorem argsArrive_reads {j : Nat} {ab : List Byte} {v : Job} {s : State} (h : mfind s.jobs j = some v)
    (hspan : spanBad v (leAt ab 0 8 % 16) s = none) : argsArrive j ab s = readImage j { v with args := ab } s := by
  unfold argsArrive
  rw [h]
  dsimp only
  rw [hspan]

theorem imageArrives_places {j : Nat} {d : List Byte} {v : Job} {s : State} (h : mfind s.jobs j = some v)
    (hall : 8 * jProgLen v ≤ (v.bytes ++ d).length) :
    imageArrives j d s = placeProgram (jType v) j { v with bytes := [] } v.args (imageWords (jProgLen v) (v.bytes ++ d)) s := by
  unfold imageArrives
  rw [h]
  exact if_neg (Nat.not_lt.mpr hall)

/-! ### The placement on a hive (R209) -/

/-! Showing a sequencer's state and loading a program ahead write registers of the hive's window only. -/

theorem rd_showCue_below {f : Fld} (n : Nat) (s : State) (hlow : f.key < 8 * 0x100000) : rd f (showCue n s) = rd f s :=
  rd_put_ne _ _ _ _ (by simp only [Fld.key, CUE_STATUS.STATE] at hlow ⊢; omega)

theorem rd_preloadNext_below {f : Fld} (n : Nat) (s : State) (hlow : f.key < 8 * 0x100000) : rd f (preloadNext n s) = rd f s := by
  have hkey : f.key ≠ (CUE_STATUS.PRELOADED n).key := by simp only [Fld.key, CUE_STATUS.PRELOADED] at hlow ⊢; omega
  unfold preloadNext
  dsimp only
  split
  · split
    · split
      · rw [rd_put_ne _ _ _ _ hkey, (fr_setHive ..).rd_eq f rfl rfl]
      · rfl
    · rfl
  · rfl

theorem needCells_on {n : Nat} {s : State} (h : cOn n s = true) : needCells n s = (s, true) := if_pos h

/-- On a hive whose cells are on, a placement asks for no power and cannot be refused. -/
theorem placeOn_on {j n : Nat} {x : State × Bool} (h : cOn n x.1 = true) :
    rd PWR_DOM_0.C_ON (placeOn j x n).1 = rd PWR_DOM_0.C_ON x.1 ∧ (placeOn j x n).2 = x.2 := by
  have hrd : rd PWR_DOM_0.C_ON (wakeHive n (setHive n { hive n x.1 with placed := (hive n x.1).placed ++ [j] } x.1)) =
      rd PWR_DOM_0.C_ON x.1 := by rw [(fr_wakeHive ..).rd_eq _ rfl rfl, (fr_setHive ..).rd_eq _ rfl rfl]
  have hon : cOn n (wakeHive n (setHive n { hive n x.1 with placed := (hive n x.1).placed ++ [j] } x.1)) = true := by
    rw [cOn, hrd]
    exact h
  unfold placeOn
  dsimp only
  rw [needCells_on hon]
  dsimp only
  rw [rd_preloadNext_below _ _ (by decide), rd_showCue_below _ _ (by decide), hrd, Bool.and_true]
  exact ⟨rfl, rfl⟩

theorem foldl_placeOn_on {j : Nat} {hs : List Nat} {x : State × Bool} (h : ∀ n ∈ hs, cOn n x.1 = true) :
    (hs.foldl (placeOn j) x).2 = x.2 := by
  induction hs generalizing x with
  | nil => rfl
  | cons n hs ih =>
    obtain ⟨hrd, hplaced⟩ := placeOn_on (j := j) (h n List.mem_cons_self)
    have hstill : ∀ m ∈ hs, cOn m (placeOn j x n).1 = true := fun m hm => by
      rw [cOn, hrd]
      exact h m (List.mem_cons_of_mem n hm)
    rw [List.foldl_cons, ih hstill, hplaced]

theorem foldl_placeOn_jobs (j : Nat) (hs : List Nat) (x : State × Bool) : (hs.foldl (placeOn j) x).1.jobs = x.1.jobs :=
  (Frame.foldl_fst (fun y n => fr_placeOn j y n) Frame.refl).f_jobs rfl

/-- A program that passes its checks is placed on the span when the cells of every hive are on. -/
theorem placeProgram_places {type j : Nat} {v : Job} {ab : List Byte} {ws : List Nat} {s : State}
    (hgood : staticCheck (type == 4) (usedCh ((spanHives v (leAt ab 0 8 % 16) s).headD 0) s) ws (leAt ab 0 8) = none)
    (hon : ∀ n ∈ spanHives v (leAt ab 0 8 % 16) s, cOn n s = true) :
    ∃ w, mfind (placeProgram type j v ab ws s).jobs j = some w ∧ w.image = ws ∧ w.running = spanHives v (leAt ab 0 8 % 16) s := by
  have harg : ((List.range 8).map fun i => leAt ab (8 * i) 8).headD 0 = leAt ab 0 8 := rfl
  unfold placeProgram
  dsimp only
  rw [harg, hgood]
  dsimp only
  rw [foldl_placeOn_on (x := (setJob j _ s, true)) hon, if_pos rfl, foldl_placeOn_jobs]
  exact ⟨_, setJob_same .., rfl, rfl⟩

/-! ### The beginning on a hive (R209, R213) -/

/-- Loading the next program ahead leaves the running sequencer and the placed jobs alone. -/
theorem hive_preloadNext (n : Nat) (s : State) :
    (hive n (preloadNext n s)).cue = (hive n s).cue ∧ (hive n (preloadNext n s)).placed = (hive n s).placed := by
  unfold preloadNext
  dsimp only
  split
  · split
    · split
      · rw [(fr_put ..).hive_eq n rfl, hive_setHive_same]
        exact ⟨rfl, rfl⟩
      · exact ⟨rfl, rfl⟩
    · exact ⟨rfl, rfl⟩
  · exact ⟨rfl, rfl⟩

section
variable {n j : Nat} {rest : List Nat} {v : Job} {s : State}

theorem beginHead_begins (hidle : (hive n s).cue = none) (hplaced : (hive n s).placed = j :: rest) (hjob : mfind s.jobs j = some v)
    (hruns : v.stopped = false) (hcells : cellsReady n s = true) (htests : (hive n s).tests = []) (hfaults : (hive n s).faults = [])
    (hkeeper : keeperReady n s = true) (hsound : rd (CEL_HIVE_FAILED.CELLS n) s = 0) :
    (hive n (beginHead n s)).cue = some (cueStart j (nextBase n j v.image.length s) (jType v == 4)) ∧
      (hive n (beginHead n s)).placed = rest := by
  unfold beginHead
  dsimp only
  rw [hidle, hplaced]
  dsimp only
  rw [hjob]
  dsimp only
  rw [if_neg (by simp [hruns, hcells, htests, hfaults, hkeeper]), if_neg (not_not_intro hsound), (hive_preloadNext ..).1, (hive_preloadNext ..).2,
    (fr_sampleItem ..).hive_eq n rfl, (fr_emit ..).hive_eq n rfl, (fr_putAll ..).hive_eq n rfl, hive_setHive_same]
  exact ⟨rfl, rfl⟩

theorem hive_jobBegin (hidle : (hive n s).cue = none) : hive n (jobBegin n s) = hive n (beginHead n (applyRetire n s)) := by
  have hboundary : atBoundary n s = true := by rw [atBoundary, hidle, Option.isNone_none]
  rw [jobBegin, if_pos hboundary, (fr_showCells ..).hive_eq n rfl]

end

theorem exec_jobBeginOnHive (n : Nat) (s : State) : exec (.jobBeginOnHive n) s = .next (jobBegin n s) := rfl

/-- Settles O31: what a program asks for, its placement on hives whose cells are on, and its beginning on a hive. -/
theorem programJobCommands : Obligations.ProgramJobCommands := by
  unfold Obligations.ProgramJobCommands
  refine ⟨fun j v s h => ?_, fun j v s h => ?_, fun j ab v s h hspan => argsArrive_reads h hspan,
    fun j d v s h hall => imageArrives_places h hall, fun type j v ab ws s hgood hon => placeProgram_places hgood hon,
    fun n j rest v s u hidle hu hidleU hplaced hjob hruns hcells htests hfaults hkeeper hsound => ?_⟩
  · rw [exec_runCue, placeCue_asks h]
  · rw [exec_attnStream, placeCue_asks h]
  · subst hu
    refine ⟨_, exec_jobBeginOnHive n s, ?_⟩
    rw [hive_jobBegin hidle]
    exact beginHead_begins hidleU hplaced hjob hruns hcells htests hfaults hkeeper hsound

end Sys2Proof.Machine
end

section
/-! Proofs for the channel controllers (09_channel_controller.md): the column commands of a CCLK, the timers and the power states of a
pseudo-channel, and the commands that quiesce a hive. -/

namespace Sys2Proof.Machine

open Reg

/-! ### A pseudo-channel and the fields of State that a read of a block depends on -/

@[simp] theorem pcOf_setPc_same (n c p : Nat) (q : Pc) (s : State) : pcOf n c p (setPc n c p q s) = q := mgetD_mset_same _ _ _ _

/-- A pseudo-channel stays as it is under an operation that changes no pseudo-channel. -/
theorem Frame.pcOf_eq {m : Nat} {s t : State} (h : Frame m s t) (n c p : Nat) (hm : m.testBit 20 = false) :
    pcOf n c p t = pcOf n c p s := by
  rw [pcOf, h.f_pcs hm, pcOf]

theorem isMarked_congr (n c off : Nat) {s t : State} (h : t.marked = s.marked) : isMarked n c off t = isMarked n c off s := by
  rw [isMarked, h, isMarked]

theorem readBlock_congr (n c off : Nat) {s t : State} (h : t.mem = s.mem) : readBlock n c off t = readBlock n c off s := by
  rw [readBlock, h, readBlock]

theorem inlineCheck_congr (n : Nat) {s t : State} (h : t.regs = s.regs) (k : t.force = s.force) : inlineCheck n t = inlineCheck n s := by
  unfold inlineCheck
  rw [rd_congr _ h k]

theorem erasedLanes_congr (n c p : Nat) {s t : State} (h : t.regs = s.regs) (k : t.force = s.force) :
    erasedLanes n c p t = erasedLanes n c p s := by
  simp only [erasedLanes, rd_congr _ h k, on_congr _ h k]

theorem erasedSymbols_congr (n c p : Nat) {s t : State} (h : t.regs = s.regs) (k : t.force = s.force) :
    erasedSymbols n c p t = erasedSymbols n c p s := by
  unfold erasedSymbols
  rw [erasedLanes_congr n c p h k, inlineCheck_congr n h k]

/-! ### One CCLK of an active pseudo-channel (R272) -/

theorem exec_chcCommandIssue (n c p : Nat) (errs : ErrPat) (parityError : Bool) (s : State) :
    exec (.chcCommandIssue n c p errs parityError) s = .next (settled (commandIssue n c p errs parityError s)) := rfl

theorem issueRow_none (n c p : Nat) (s : State) : issueRow n c p none s = s := rfl
theorem issueRow_act (n c p : Nat) (o : POp) (s : State) : issueRow n c p (some (.act o)) s = doAct n c p o s := rfl
theorem issueCol_none (n c p : Nat) (errs : ErrPat) (parityError : Bool) (s : State) :
    issueCol n c p none errs parityError s = doProbe n c p s := rfl
theorem issueCol_col (n c p : Nat) (o : POp) (errs : ErrPat) (parityError : Bool) (s : State) :
    issueCol n c p (some (.col o)) errs parityError s = doCol n c p o errs parityError s := rfl

/-- Up to its commands a CCLK changes pseudo-channels and counts events, nothing else. -/
theorem fr_charged (n c p : Nat) (s : State) : Frame 0x40000100000 s (chargeShare n c p (beginCclk n c p s)) :=
  (fr_beginCclk ..).seq (fr_chargeShare ..) rfl

section
variable {n c p : Nat} {errs : ErrPat} {parityError : Bool} {o : POp} {s : State}

theorem commandIssue_active (hused : pcUsed n c p s = true) (hactive : (pcOf n c p s).st = .active)
    (hhold : (pcOf n c p (beginCclk n c p s)).hold ≤ (pcOf n c p (beginCclk n c p s)).cclk) :
    commandIssue n c p errs parityError s =
      sleepAgain n c p (issueCol n c p (colPick n c p (beginCclk n c p s)) errs parityError
        (issueRow n c p (rowPick n c p (beginCclk n c p s)) (chargeShare n c p (beginCclk n c p s)))) := by
  unfold commandIssue
  dsimp only
  rw [hused, hactive, Bool.not_true, if_neg Bool.false_ne_true]
  dsimp only
  rw [issueActive, if_neg (Nat.not_lt.mpr hhold)]

/-- The CCLK in which a column command issues and no row command does. -/
theorem commandIssue_col (hused : pcUsed n c p s = true) (hactive : (pcOf n c p s).st = .active)
    (hhold : (pcOf n c p (beginCclk n c p s)).hold ≤ (pcOf n c p (beginCclk n c p s)).cclk)
    (hrow : rowPick n c p (beginCclk n c p s) = none) (hcol : colPick n c p (beginCclk n c p s) = some (.col o)) :
    commandIssue n c p errs parityError s =
      sleepAgain n c p (doCol n c p o errs parityError (chargeShare n c p (beginCclk n c p s))) := by
  rw [commandIssue_active hused hactive hhold, hrow, hcol, issueRow_none, issueCol_col]

/-- The CCLK in which an activate issues and no column command does: no share is charged, and a probe burst may issue. -/
theorem commandIssue_act (hused : pcUsed n c p s = true) (hactive : (pcOf n c p s).st = .active)
    (hhold : (pcOf n c p (beginCclk n c p s)).hold ≤ (pcOf n c p (beginCclk n c p s)).cclk)
    (hrow : rowPick n c p (beginCclk n c p s) = some (.act o)) (hcol : colPick n c p (beginCclk n c p s) = none) :
    commandIssue n c p errs parityError s = sleepAgain n c p (doProbe n c p (doAct n c p o (beginCclk n c p s))) := by
  have hshare : chargeShare n c p (beginCclk n c p s) = beginCclk n c p s := by
    unfold chargeShare
    dsimp only
    rw [hcol]
  rw [commandIssue_active hused hactive hhold, hrow, hcol, hshare, issueRow_act, issueCol_none]

end

/-! ### The column command of a queue entry (R272, R290) -/

/-- A column command has issued and returned nothing yet: the pseudo-channel q starts the command's times, and its events are
counted. -/
def colStarted (n c p : Nat) (o : POp) (event : Option Nat) (q : Pc) (s : State) : State :=
  colEvents n c o (mgetD (pcOf n c p s).banks (bankKey o.sid o.bank) Bank.init) event (setPc n c p (colTiming n o q s) s)

theorem fr_colStarted (n c p : Nat) (o : POp) (event : Option Nat) (q : Pc) (s : State) :
    Frame 0x40000100000 s (colStarted n c p o event q s) :=
  ((fr_setPc ..).mono rfl).seq (fr_colEvents ..) rfl

theorem pcOf_colStarted (n c p : Nat) (o : POp) (event : Option Nat) (q : Pc) (s : State) :
    pcOf n c p (colStarted n c p o event q s) = colTiming n o q s := by
  rw [colStarted, (fr_colEvents ..).pcOf_eq n c p rfl, pcOf_setPc_same]

theorem colTiming_rdq (n : Nat) (o : POp) (q : Pc) (s : State) : (colTiming n o q s).rdq = q.rdq := by
  unfold colTiming
  dsimp only
  split <;> rfl

theorem colTiming_strq (n : Nat) (o : POp) (q : Pc) (s : State) : (colTiming n o q s).strq = q.strq := by
  unfold colTiming
  dsimp only
  split <;> rfl

/-! ### What a read returns (R352) -/

theorem readSrc_cases (uid : Nat) (s : State) : readSrc uid s = 7 ∨ readSrc uid s = 1 := by
  unfold readSrc
  split
  · split
    · exact .inl rfl
    · exact .inr rfl
  · exact .inr rfl

/-- A read of a block that is not marked and decodes clean is answered with the block's data, or with those that its entry holds. -/
theorem finishRead_clean {n c p src : Nat} {e : QEnt} {errs left : ErrPat} {s : State} (hsrc : src ≠ 4)
    (hclear : isMarked n c e.off s = false) (hclean : decodeErr errs (erasedSymbols n c p s) = .clean left) :
    finishRead n c p src e errs s = answerRead n c p src e (some (applyErr left (e.data.getD (readBlock n c e.off s)))) s := by
  unfold finishRead
  dsimp only
  rw [if_neg hsrc, hclear, Bool.false_and, if_neg Bool.false_ne_true, hclean]

theorem answerRead_request {src : Nat} (n c p : Nat) (e : QEnt) (d : Option Beat) (s : State) (hsrc : src = 7 ∨ src = 1) :
    answerRead n c p src e d s = deliver n e.uid e.beat d s := by
  obtain rfl | rfl := hsrc <;> rfl

theorem answerRead_stream (n c p : Nat) (e : QEnt) (d : Option Beat) (s : State) : answerRead n c p 2 e d s = feedStream n e d s := rfl

section
variable {n c p k : Nat} {o : POp} {e : QEnt} {errs left : ErrPat} {s t : State}

/-- The blocks, their marks and the erasures are the same before and after operations that change pseudo-channels and count events. -/
theorem finishRead_clean_of_frame {src : Nat} (hframe : Frame 0x40000100000 s t) (hsrc : src ≠ 4) (hclear : isMarked n c e.off s = false)
    (hclean : decodeErr errs (erasedSymbols n c p s) = .clean left) :
    finishRead n c p src e errs t = answerRead n c p src e (some (applyErr left (e.data.getD (readBlock n c e.off s)))) t := by
  rw [← readBlock_congr n c e.off (hframe.f_mem rfl)]
  exact finishRead_clean hsrc ((isMarked_congr n c e.off (hframe.f_marked rfl)).trans hclear)
    (erasedSymbols_congr n c p (hframe.f_regs rfl) (hframe.f_force rfl) ▸ hclean)

theorem doCol_read (hframe : Frame 0x40000100000 s t) (hkind : o.kind = .read k)
    (hfind : (pcOf n c p t).rdq.find? (fun x => x.seq == k) = some e) (hclear : isMarked n c e.off s = false)
    (hclean : decodeErr errs (erasedSymbols n c p s) = .clean left) :
    ∃ v, doCol n c p o errs false t = deliver n e.uid e.beat (some (applyErr left (e.data.getD (readBlock n c e.off s)))) v ∧
      (pcOf n c p v).rdq = (pcOf n c p t).rdq.filter fun x => x.seq != k := by
  have hsrc := readSrc_cases e.uid t
  unfold doCol
  dsimp only
  rw [hkind]
  dsimp only
  rw [hfind]
  dsimp only
  rw [if_neg Bool.false_ne_true, ← colStarted, finishRead_clean_of_frame (hframe.seq (fr_colStarted ..) rfl) (by omega) hclear hclean,
    answerRead_request _ _ _ _ _ _ hsrc]
  exact ⟨_, rfl, by rw [pcOf_colStarted, colTiming_rdq]⟩

theorem doCol_stream (hframe : Frame 0x40000100000 s t) (hkind : o.kind = .stream k)
    (hfind : (pcOf n c p t).strq.find? (fun x => x.seq == k) = some e) (hclear : isMarked n c e.off s = false)
    (hclean : decodeErr errs (erasedSymbols n c p s) = .clean left) :
    ∃ v, doCol n c p o errs false t = feedStream n e (some (applyErr left (e.data.getD (readBlock n c e.off s)))) v ∧
      (pcOf n c p v).strq = (pcOf n c p t).strq.filter fun x => x.seq != k := by
  unfold doCol
  dsimp only
  rw [hkind]
  dsimp only
  rw [hfind]
  dsimp only
  rw [← colStarted, finishRead_clean_of_frame (hframe.seq (fr_colStarted ..) rfl) (by decide) hclear hclean, answerRead_stream]
  exact ⟨_, rfl, by rw [pcOf_colStarted, colTiming_strq]⟩

end

/-! ### What a write stores (R354, R362) -/

theorem writeBlock_congr (n c off : Nat) (d : Beat) {s t : State} (hmem : t.mem = s.mem) (hmarked : t.marked = s.marked) :
    (writeBlock n c off d t).mem = (writeBlock n c off d s).mem ∧ (writeBlock n c off d t).marked = (writeBlock n c off d s).marked := by
  rw [writeBlock, hmem, hmarked]
  exact ⟨rfl, rfl⟩

theorem markBlock_congr (n c off : Nat) {s t : State} (hmem : t.mem = s.mem) (hmarked : t.marked = s.marked) :
    (markBlock n c off t).mem = (markBlock n c off s).mem ∧ (markBlock n c off t).marked = (markBlock n c off s).marked := by
  rw [markBlock, hmem, hmarked]
  exact ⟨rfl, rfl⟩

section
variable {n c p : Nat} {e : QEnt} {s t : State}

theorem finishWrite_writes {d : Beat} (hframe : Frame 0x40000100000 s t) (hfresh : e.applied = false) (hdata : e.data = some d) :
    (finishWrite n c p e false t).mem = (writeBlock n c e.off d s).mem ∧
      (finishWrite n c p e false t).marked = (writeBlock n c e.off d s).marked := by
  unfold finishWrite
  dsimp only
  rw [(fr_retireGrant ..).f_mem rfl, (fr_retireGrant ..).f_marked rfl, if_neg Bool.false_ne_true, hfresh, hdata]
  exact writeBlock_congr n c e.off d (hframe.f_mem rfl) (hframe.f_marked rfl)

theorem finishWrite_marks (e : QEnt) (hframe : Frame 0x40000100000 s t) :
    (finishWrite n c p e true t).mem = (markBlock n c e.off s).mem ∧
      (finishWrite n c p e true t).marked = (markBlock n c e.off s).marked := by
  unfold finishWrite
  dsimp only
  rw [(fr_retireGrant ..).f_mem rfl, (fr_retireGrant ..).f_marked rfl, if_pos rfl, (fr_uncorrectable ..).f_mem rfl,
    (fr_uncorrectable ..).f_marked rfl]
  exact markBlock_congr n c e.off (hframe.f_mem rfl) (hframe.f_marked rfl)

end

theorem doCol_write {n c p k : Nat} {o : POp} {e : QEnt} {s : State} (errs : ErrPat) (parityError : Bool) (hkind : o.kind = .write k)
    (hfind : (pcOf n c p s).wrq.find? (fun x => x.seq == k) = some e) :
    doCol n c p o errs parityError s = finishWrite n c p e parityError (colStarted n c p o (some 0x202) (pcOf n c p s) s) := by
  unfold doCol
  dsimp only
  rw [hkind]
  dsimp only
  rw [hfind]
  rfl

/-! ### Activates (R272, R281) -/

/-- A step of the channel's LFSR may queue a neighbour refresh in the pseudo-channel, and does nothing else to it. -/
theorem pcOf_stepChannelLfsr (n c p sid bank row : Nat) (s : State) :
    ∃ maint, pcOf n c p (stepChannelLfsr n c p sid bank row s) = { pcOf n c p s with maint := maint } := by
  unfold stepChannelLfsr
  dsimp only
  split
  · exact ⟨_, rfl⟩
  split
  · exact ⟨_, (fr_bump ..).pcOf_eq n c p rfl⟩
  · exact ⟨_, pcOf_setPc_same ..⟩

/-- A probe burst is counted off the sweep in the pseudo-channel, and nothing else of it changes. -/
theorem pcOf_doProbe (n c p : Nat) (s : State) : ∃ maint, pcOf n c p (doProbe n c p s) = { pcOf n c p s with maint := maint } := by
  unfold doProbe
  dsimp only
  split
  · exact ⟨_, rfl⟩
  split
  · exact ⟨_, ((fr_emit ..).pcOf_eq n c p rfl).trans (pcOf_setPc_same ..)⟩
  · exact ⟨_, rfl⟩

theorem sleepAgain_banks (n c p : Nat) (s : State) : (pcOf n c p (sleepAgain n c p s)).banks = (pcOf n c p s).banks := by
  unfold sleepAgain
  dsimp only
  split
  · rw [pcOf_setPc_same]
  · rfl

theorem openRow_activated (n sid bank : Nat) (row : Option Nat) (q : Pc) (s : State) :
    (mgetD (activated n sid bank row q s).banks (bankKey sid bank) Bank.init).openRow = row := by
  unfold activated setBank
  dsimp only
  rw [mgetD_mset_same]

theorem doAct_opens {n c p k : Nat} {o : POp} (s : State) (hkind : o.kind = .read k) :
    (mgetD (pcOf n c p (doAct n c p o s)).banks (bankKey o.sid o.bank) Bank.init).openRow = some o.row := by
  unfold doAct
  dsimp only
  rw [hkind]
  dsimp only
  obtain ⟨maint, hstep⟩ := pcOf_stepChannelLfsr n c p o.sid o.bank o.row
    (emit 0x200 1 (some n) none none (some c) (setPc n c p (activated n o.sid o.bank (some o.row) (pcOf n c p s) s) s))
  rw [hstep, (fr_emit ..).pcOf_eq n c p rfl, pcOf_setPc_same]
  exact openRow_activated ..

/-- Settles O16: in each clause the CCLK comes to the one command that issues, of an entry that its queue holds. -/
theorem columnCommands : Obligations.ColumnCommands := by
  unfold Obligations.ColumnCommands
  refine ⟨?read, ?stream, ?write, ?mark, ?act⟩
  case read =>
    intro n c p k o e errs left s u hused hactive hu hhold hrow hcol hkind hfind hclear hclean
    subst hu
    obtain ⟨t, hread, hqueue⟩ := doCol_read (fr_charged n c p s) hkind hfind hclear hclean
    refine ⟨t, ?_, hqueue⟩
    rw [exec_chcCommandIssue, commandIssue_col hused hactive hhold hrow hcol, hread]
  case stream =>
    intro n c p k o e errs left s u hused hactive hu hhold hrow hcol hkind hfind hclear hclean
    subst hu
    obtain ⟨t, hstream, hqueue⟩ := doCol_stream (fr_charged n c p s) hkind hfind hclear hclean
    refine ⟨t, ?_, hqueue⟩
    rw [exec_chcCommandIssue, commandIssue_col hused hactive hhold hrow hcol, hstream]
  case write =>
    intro n c p k o e d errs s u hused hactive hu hhold hrow hcol hkind hfind hfresh hdata
    subst hu
    refine ⟨_, exec_chcCommandIssue .., ?_⟩
    rw [commandIssue_col hused hactive hhold hrow hcol, doCol_write errs false hkind hfind, (fr_sleepAgain ..).f_mem rfl,
      (fr_sleepAgain ..).f_marked rfl]
    exact finishWrite_writes ((fr_charged n c p s).seq (fr_colStarted ..) rfl) hfresh hdata
  case mark =>
    intro n c p k o e errs s u hused hactive hu hhold hrow hcol hkind hfind
    subst hu
    refine ⟨_, exec_chcCommandIssue .., ?_⟩
    rw [commandIssue_col hused hactive hhold hrow hcol, doCol_write errs true hkind hfind, (fr_sleepAgain ..).f_mem rfl,
      (fr_sleepAgain ..).f_marked rfl]
    exact finishWrite_marks e ((fr_charged n c p s).seq (fr_colStarted ..) rfl)
  case act =>
    intro n c p k o s u hused hactive hu hhold hrow hcol hkind
    subst hu
    refine ⟨_, exec_chcCommandIssue .., ?_⟩
    obtain ⟨maint, hprobe⟩ := pcOf_doProbe n c p (doAct n c p o (beginCclk n c p s))
    rw [commandIssue_act hused hactive hhold hrow hcol, sleepAgain_banks, hprobe]
    exact doAct_opens _ hkind

/-! ### Refresh, idle rows and power states (R274, R277, R282 to R285) -/

theorem exec_refreshInterval (n c p : Nat) (s : State) : exec (.refreshInterval n c p) s = .next (refreshInterval n c p s) := rfl
theorem exec_neighbourRefreshMandatory (n c p : Nat) (s : State) :
    exec (.neighbourRefreshMandatory n c p) s = .next (neighbourMandatory n c p s) := rfl
theorem exec_rowCloseIdle (n c p bank : Nat) (s : State) : exec (.rowCloseIdle n c p bank) s = .next (rowCloseIdle n c p bank s) := rfl
theorem exec_powerDownEntry (n c p : Nat) (s : State) : exec (.powerDownEntry n c p) s = .next (powerDownEntry n c p s) := rfl
theorem exec_selfRefreshEntry (n c p : Nat) (s : State) : exec (.selfRefreshEntry n c p) s = .next (selfRefreshEntry n c p s) := rfl
theorem exec_pseudoChannelWake (n c p : Nat) (s : State) : exec (.pseudoChannelWake n c p) s = .next (pseudoChannelWake n c p s) := rfl
theorem exec_checkCacheParityError (n c p i : Nat) (s : State) :
    exec (.checkCacheParityError n c p i) s = .next (cacheParity n c p i s) := rfl

section
variable {n c p : Nat} {s : State}

theorem refreshInterval_owes (hused : pcUsed n c p s = true) (hon : (pcOf n c p s).st ≠ .off)
    (hawake : (pcOf n c p s).st ≠ .selfRefresh) (hnone : (pcOf n c p s).st = .powerDown → (pcOf n c p s).owed + 1 < postpone n s) :
    refreshInterval n c p s = setPc n c p { pcOf n c p s with owed := min 8 ((pcOf n c p s).owed + 1) } s := by
  have hnowake : ¬ ((pcOf n c p s).st = .powerDown ∧ postpone n s ≤ (pcOf n c p s).owed + 1) :=
    fun h => absurd h.2 (Int.not_le.mpr (hnone h.1))
  unfold refreshInterval
  dsimp only
  rw [if_neg (by simp [hused, hon, hawake]), if_neg (by simpa using hnowake)]

theorem neighbourMandatory_oldest {a b r st : Nat} {ms : List Maint} (h : (pcOf n c p s).maint = .neighbour a b r st false :: ms) :
    neighbourMandatory n c p s = setPc n c p { pcOf n c p s with maint := .neighbour a b r st true :: ms } s := by
  unfold neighbourMandatory
  dsimp only
  rw [h]
  rfl

theorem openRow_shut (n at_ : Nat) (b : Bank) (s : State) : (shut n at_ b s).openRow = none := rfl

theorem rowCloseIdle_closes {bank r : Nat} (hopen : (mgetD (pcOf n c p s).banks bank Bank.init).openRow = some r)
    (hused : pcUsed n c p s = true) (hmiss : hitQueued n c bank r (pcOf n c p s) s = false)
    (hidle : (mgetD (pcOf n c p s).banks bank Bank.init).lastHit + rd (CHC_ARB.CLOSE_IDLE n) s ≤ (pcOf n c p s).cclk)
    (hpre : (mgetD (pcOf n c p s).banks bank Bank.init).preAt ≤ (pcOf n c p s).cclk) :
    (mgetD (pcOf n c p (rowCloseIdle n c p bank s)).banks bank Bank.init).openRow = none := by
  unfold rowCloseIdle
  dsimp only
  rw [hopen]
  dsimp only
  rw [if_neg (by simp [hused, hmiss, hidle, hpre]), pcOf_setPc_same, setBank]
  dsimp only
  rw [mgetD_mset_same, openRow_shut]

theorem powerDownEntry_enters (hused : pcUsed n c p s = true) (hactive : (pcOf n c p s).st = .active)
    (hidle : pcIdle n (pcOf n c p s) s = true) (htimer : rd (CHC_PD_TIMER.CCLK n) s ≠ 0) :
    powerDownEntry n c p s = setPc n c p { pcOf n c p s with st := .powerDown } s := by
  unfold powerDownEntry
  dsimp only
  rw [if_pos (by simp [hused, hactive, hidle, htimer])]

/-- Self-refresh closes every bank, and the check cache has been written back before. -/
theorem selfRefreshEntry_enters (hused : pcUsed n c p s = true) (hdown : (pcOf n c p s).st = .powerDown)
    (htimer : rd (CHC_SR_TIMER.US n) s ≠ 0) :
    ∃ u, pcOf n c p (selfRefreshEntry n c p s) = { writeBackAll u with st := .selfRefresh, banks := [] } := by
  unfold selfRefreshEntry
  dsimp only
  rw [if_pos (by simp [hused, hdown, htimer]), pcOf_setPc_same]
  exact ⟨_, rfl⟩

theorem writeBackAll_clean (q : Pc) : ∀ e ∈ (writeBackAll q).cache, e.dirty = false := by
  intro e he
  obtain ⟨x, _, rfl⟩ := List.mem_map.mp he
  rfl

/-- What a wake does to the pseudo-channel; the lanes and the recalibration that it asks for lie elsewhere. -/
theorem pcOf_wake (hrun : stacksDown s = false) : pcOf n c p (wake n c p s) = wakePc n (pcOf n c p s) s := by
  unfold wake
  dsimp only
  rw [hrun, if_neg Bool.false_ne_true]
  split
  · exact pcOf_setPc_same ..
  · exact pcOf_setPc_same ..

end

/-! ### The check cache (R267, R268) -/

/-- The activate of a row outside the queues leaves the check cache alone. -/
theorem rowActs_cache (n c p : Nat) (l : List (Nat × Nat × Nat)) (s : State) :
    (pcOf n c p (rowActs n c p l s)).cache = (pcOf n c p s).cache := by
  induction l generalizing s with
  | nil => rfl
  | cons x l ih =>
    obtain ⟨maint, hstep⟩ := pcOf_stepChannelLfsr n c p x.1 x.2.1 x.2.2
      (emit 0x200 1 (some n) none none (some c) (setPc n c p (activated n x.1 x.2.1 none (pcOf n c p s) s) s))
    rw [rowActs, List.foldl_cons]
    refine (ih _).trans ?_
    rw [hstep, (fr_emit ..).pcOf_eq n c p rfl, pcOf_setPc_same]
    rfl

theorem cacheParity_rebuilds {n c p i : Nat} {e : CheckRow} {s : State} (hused : pcUsed n c p s = true)
    (hentry : (pcOf n c p s).cache[i]? = some e) (hdirty : e.dirty = true) :
    (pcOf n c p (cacheParity n c p i s)).cache = (pcOf n c p s).cache.set i { e with dirty := false, wb := 0 } := by
  unfold cacheParity
  dsimp only
  rw [hentry]
  dsimp only
  rw [if_neg (by simp [hused]), if_neg (by simp [hdirty]), (fr_postEvent ..).pcOf_eq n c p rfl, (fr_bump ..).pcOf_eq n c p rfl,
    pcOf_setPc_same]
  dsimp only
  rw [rowActs_cache]

/-! ### The commit and the mode registers (R287, R288, R290) -/

theorem exec_chcCommit (n : Nat) (s : State) : exec (.chcCommit n) s = .next (chcCommit n s) := rfl
theorem exec_modeRegisterRead (n : Nat) (known : Bool) (value : Byte) (s : State) :
    exec (.modeRegisterRead n known value) s = .next (modeRegisterRead n known value s) := rfl
theorem exec_modeRegisterWrite (n : Nat) (known : Bool) (s : State) :
    exec (.modeRegisterWrite n known) s = .next (modeRegisterWrite n known s) := rfl

theorem on_eq_false_of_rd {f : Fld} {s : State} (h : rd f s = 0) : on f s = false := by rw [on, h]; rfl

section
variable {n : Nat} {s : State}

theorem chcCommit_pends (hon : hOn n s = true) (hn : n < 16) : on (CHC_HIVE_STATUS.COMMIT_PENDING n) (chcCommit n s) = true := by
  unfold chcCommit
  rw [if_neg (by simp [hon, hn])]
  apply on_of_rd_eq_one
  rw [(fr_quiesce ..).rd_eq _ rfl rfl, rd_put_same _ _ _ (nofun : Acc.ro ≠ Acc.rws)]
  rfl

theorem mrBusy_key_ne (n : Nat) : (CHC_MR_CMD.BUSY n).key ≠ (CHC_MR_DATA.VALID n).key ∧
    (CHC_MR_CMD.BUSY n).key ≠ (CHC_HIVE_STATUS.COMMIT_PENDING n).key := by
  simp only [Fld.key, CHC_MR_CMD.BUSY, CHC_MR_DATA.VALID, CHC_HIVE_STATUS.COMMIT_PENDING]
  omega

/-- A commit writes COMMIT_PENDING alone of the fields that are no RWS fields. -/
theorem rd_chcCommitApply {f : Fld} (s : State) (hacc : f.acc ≠ .rws) (hne : f.key ≠ (CHC_HIVE_STATUS.COMMIT_PENDING n).key) :
    rd f (chcCommitApply n s) = rd f s := by
  rw [chcCommitApply, rd_put_ne _ _ _ _ hne, rd_commitRange_out _ (.inl hacc)]

theorem rd_pending_chcCommitApply (n : Nat) (s : State) : rd (CHC_HIVE_STATUS.COMMIT_PENDING n) (chcCommitApply n s) = 0 := by
  rw [chcCommitApply, rd_put_same _ _ _ (nofun : Acc.ro ≠ Acc.rws)]
  rfl

/-- The running mode-register command of a hive ends. -/
def mrEnded (n : Nat) (s : State) : State :=
  if on (CHC_MR_CMD.BUSY n) s then putAll [(CHC_MR_CMD.BUSY n, 0), (CHC_MR_DATA.VALID n, 1)] s else s

theorem on_busy_mrEnded (n : Nat) (s : State) : on (CHC_MR_CMD.BUSY n) (mrEnded n s) = false := by
  unfold mrEnded
  split
  · apply on_eq_false_of_rd
    rw [putAll_cons, putAll_cons, putAll_nil, rd_put_ne _ _ _ _ (mrBusy_key_ne n).1, rd_put_same _ _ _ (nofun : Acc.ro ≠ Acc.rws)]
    rfl
  next h => exact Bool.eq_false_iff.mpr h

theorem resumeHive_eq (n : Nat) (s : State) : resumeHive n s =
    if on (CHC_HIVE_STATUS.COMMIT_PENDING n) (mrEnded n { s with pcs := mmap (resumedPc n) s.pcs }) then
      chcCommitApply n (mrEnded n { s with pcs := mmap (resumedPc n) s.pcs })
    else mrEnded n { s with pcs := mmap (resumedPc n) s.pcs } := rfl

/-- When the pseudo-channels of a hive resume, its commit is no longer pending and no mode-register command runs. -/
theorem resumeHive_ends (n : Nat) (s : State) :
    on (CHC_HIVE_STATUS.COMMIT_PENDING n) (resumeHive n s) = false ∧ on (CHC_MR_CMD.BUSY n) (resumeHive n s) = false := by
  rw [resumeHive_eq]
  split
  · refine ⟨on_eq_false_of_rd (rd_pending_chcCommitApply ..), ?_⟩
    rw [on, rd_chcCommitApply _ (nofun : Acc.ro ≠ Acc.rws) (mrBusy_key_ne n).2]
    exact on_busy_mrEnded ..
  next h => exact ⟨Bool.eq_false_iff.mpr h, on_busy_mrEnded ..⟩

theorem commandIssue_resumes {c p : Nat} (errs : ErrPat) (parityError : Bool) (hused : pcUsed n c p s = true)
    (hquiet : (pcOf n c p s).st = .quiesced) (hover : (pcOf n c p s).hold ≤ (pcOf n c p s).cclk + 1) :
    commandIssue n c p errs parityError s = resumeHive n (setPc n c p { pcOf n c p s with cclk := (pcOf n c p s).cclk + 1 } s) := by
  unfold commandIssue
  dsimp only
  rw [hused, hquiet, Bool.not_true, if_neg Bool.false_ne_true]
  dsimp only
  rw [if_pos hover]

theorem mrDone_eq (n result : Nat) (s : State) :
    mrDone n result s = put (CHC_MR_CMD.BUSY n) 1 (put (CHC_MR_DATA.VALID n) 0 (put (CHC_MR_DATA.RESULT n) result s)) := rfl

theorem mrDone_busy (n result : Nat) (s : State) : on (CHC_MR_CMD.BUSY n) (mrDone n result s) = true := by
  apply on_of_rd_eq_one
  rw [mrDone_eq, rd_put_same _ _ _ (nofun : Acc.ro ≠ Acc.rws)]
  rfl

theorem rd_mrDone_ne {f : Fld} (result : Nat) (s : State) (hbusy : f.key ≠ (CHC_MR_CMD.BUSY n).key)
    (hvalid : f.key ≠ (CHC_MR_DATA.VALID n).key) : rd f (mrDone n result s) = rd f (put (CHC_MR_DATA.RESULT n) result s) := by
  rw [mrDone_eq, rd_put_ne _ _ _ _ hbusy, rd_put_ne _ _ _ _ hvalid]

theorem mrResult_key_ne (n : Nat) : (CHC_MR_DATA.RESULT n).key ≠ (CHC_MR_CMD.BUSY n).key ∧
    (CHC_MR_DATA.RESULT n).key ≠ (CHC_MR_DATA.VALID n).key := by
  simp only [Fld.key, CHC_MR_CMD.BUSY, CHC_MR_DATA.VALID, CHC_MR_DATA.RESULT]
  omega

theorem mrData_key_ne (n : Nat) : (CHC_MR_DATA.DATA n).key ≠ (CHC_MR_CMD.BUSY n).key ∧
    (CHC_MR_DATA.DATA n).key ≠ (CHC_MR_DATA.VALID n).key ∧ (CHC_MR_DATA.DATA n).key ≠ (CHC_MR_DATA.RESULT n).key := by
  simp only [Fld.key, CHC_MR_CMD.BUSY, CHC_MR_DATA.VALID, CHC_MR_DATA.RESULT, CHC_MR_DATA.DATA]
  omega

theorem mrDone_result (n result : Nat) (s : State) : rd (CHC_MR_DATA.RESULT n) (mrDone n result s) = result % 2 ^ 3 := by
  rw [rd_mrDone_ne _ _ (mrResult_key_ne n).1 (mrResult_key_ne n).2, rd_put_same _ _ _ (nofun : Acc.ro ≠ Acc.rws)]
  rfl

theorem mrDone_data (n result : Nat) (s : State) : rd (CHC_MR_DATA.DATA n) (mrDone n result s) = rd (CHC_MR_DATA.DATA n) s := by
  obtain ⟨hbusy, hvalid, hresult⟩ := mrData_key_ne n
  rw [rd_mrDone_ne _ _ hbusy hvalid, rd_put_ne _ _ _ _ hresult]

theorem modeRegisterRead_answers (value : Byte) (hon : hOn n s = true) (hn : n < 16) (hidle : on (CHC_MR_CMD.BUSY n) s = false)
    (hnamed : mrChannels n (mrStart 0 n s) ≠ []) :
    modeRegisterRead n true value s = mrDone n 0 (put (CHC_MR_DATA.DATA n) value.toNat (mrStart 0 n s)) := by
  unfold modeRegisterRead
  dsimp only
  rw [if_neg (by simp [hon, hn]), if_neg (by simp [hidle]), if_neg (by decide), if_neg (by simpa using hnamed)]

theorem modeRegisterWrite_performs (hon : hOn n s = true) (hn : n < 16) (hidle : on (CHC_MR_CMD.BUSY n) s = false)
    (hfactory : factoryState s = true) : modeRegisterWrite n true s = mrDone n 0 (mrStart 1 n s) := by
  unfold modeRegisterWrite
  rw [if_neg (by simp [hon, hn]), if_neg (by simp [hidle]), if_neg (by simp [hfactory]), if_pos rfl]

end

/-- Settles O17: each clause is what the command's operation leaves in the pseudo-channel or in the hive's registers. -/
theorem channelCommands : Obligations.ChannelCommands := by
  unfold Obligations.ChannelCommands
  refine ⟨?refresh, ?neighbour, ?idleRow, ?powerDown, ?selfRefresh, ?wakes, ?cacheError, ?commit, ?resume, ?mrRead, ?mrWrite⟩
  case refresh =>
    intro n c p s hused hon hawake hnone
    rw [exec_refreshInterval, refreshInterval_owes hused hon hawake hnone]
  case neighbour =>
    intro n c p a b r st ms s h
    rw [exec_neighbourRefreshMandatory, neighbourMandatory_oldest h]
  case idleRow =>
    intro n c p bank r s hopen hused hmiss hidle hpre
    exact ⟨_, exec_rowCloseIdle .., rowCloseIdle_closes hopen hused hmiss hidle hpre⟩
  case powerDown =>
    intro n c p s hused hactive hidle htimer
    rw [exec_powerDownEntry, powerDownEntry_enters hused hactive hidle htimer]
  case selfRefresh =>
    intro n c p s hused hdown htimer
    obtain ⟨q, hq⟩ := selfRefreshEntry_enters hused hdown htimer
    refine ⟨_, exec_selfRefreshEntry .., ?_⟩
    rw [hq]
    exact ⟨rfl, rfl, writeBackAll_clean q⟩
  case wakes =>
    intro n c p s hused hrun hsleep
    refine ⟨_, exec_pseudoChannelWake .., ?_⟩
    rw [pseudoChannelWake, if_pos hused, pcOf_wake hrun, wakePc, hsleep]
    exact ⟨rfl, rfl⟩
  case cacheError =>
    intro n c p i e s hused hentry hdirty
    exact ⟨_, exec_checkCacheParityError .., cacheParity_rebuilds hused hentry hdirty⟩
  case commit =>
    intro n s hon hn
    exact ⟨_, exec_chcCommit .., chcCommit_pends hon hn⟩
  case resume =>
    intro n c p errs parityError s hused hquiet hover _
    refine ⟨_, exec_chcCommandIssue .., ?_⟩
    rw [commandIssue_resumes errs parityError hused hquiet hover]
    exact resumeHive_ends ..
  case mrRead =>
    intro n value s hon hn hidle hnamed
    refine ⟨_, exec_modeRegisterRead .., ?_⟩
    rw [modeRegisterRead_answers value hon hn hidle hnamed, mrDone_data, mrDone_result, rd_put_same _ _ _ (nofun : Acc.rw ≠ Acc.rws)]
    exact ⟨Nat.mod_eq_of_lt value.isLt, rfl⟩
  case mrWrite =>
    intro n s hon hn hidle hfactory
    refine ⟨_, exec_modeRegisterWrite .., ?_⟩
    rw [modeRegisterWrite_performs hon hn hidle hfactory]
    exact ⟨mrDone_result .., mrDone_busy ..⟩

end Sys2Proof.Machine
end

section
/-! Proofs for training and the start of a stack (10_phy_calibration.md, 12_data_integrity.md): the canonical form of device memory at
reset, the pseudo-channels that training leaves, the checker self-test and the fill. -/

namespace Sys2Proof.Machine

open Reg

/-! ### Device memory at reset (R298) -/

/-- Settles O3: the block comes out of reset with no byte of device memory listed. -/
theorem resetMemoryCanonical : Obligations.ResetMemoryCanonical := by
  have hnone : State.reset.mem = [] := rfl
  show memWf State.reset.mem = true
  rw [hnone]
  rfl

/-! ### The pseudo-channels of a trained hive (R298, R299) -/

theorem mem_allPcs {n c p : Nat} {s : State} : (c, p) ∈ allPcs n s ↔ c < usedCh n s ∧ p < 2 := by
  simp only [allPcs, List.mem_flatMap, List.mem_range, List.mem_cons, List.not_mem_nil, or_false, Prod.mk.injEq]
  constructor
  · rintro ⟨a, ha, ⟨rfl, rfl⟩ | ⟨rfl, rfl⟩⟩
    · exact ⟨ha, by decide⟩
    · exact ⟨ha, by decide⟩
  · rintro ⟨hc, hp⟩
    exact ⟨c, hc, by omega⟩

theorem usedCh_of_gen {n g : Nat} {s : State} (h : rd (CHC_HIVE_CFG.GEN n) s = g) (hlo : 1 ≤ g) (hhi : g ≤ 3) :
    usedCh n s = if g = 3 then 32 else 16 := by
  unfold usedCh
  rw [h]
  split
  · rfl
  · omega
  next h3 _ => rw [if_neg h3]

theorem rd_gen_trainIdentity (n : Nat) (obs : TrainObs) (s : State) :
    rd (CHC_HIVE_CFG.GEN n) (trainIdentity n obs s) = obs.gen % 4 := by
  have hkeys : (CHC_HIVE_CFG.GEN n).key ≠ (PHY_CFG.TARGET n).key ∧ (CHC_HIVE_CFG.GEN n).key ≠ (CHC_HIVE_CFG.ROWBITS n).key ∧
      (CHC_HIVE_CFG.GEN n).key ≠ (CHC_HIVE_CFG.NSID n).key := by
    simp only [Fld.key, CHC_HIVE_CFG.GEN, CHC_HIVE_CFG.NSID, CHC_HIVE_CFG.ROWBITS, PHY_CFG.TARGET]
    omega
  obtain ⟨htarget, hrow, hnsid⟩ := hkeys
  rw [trainIdentity, rd_put_ne _ _ _ _ htarget, putAll_cons, putAll_cons, putAll_cons, putAll_nil, rd_put_ne _ _ _ _ hrow,
    rd_put_ne _ _ _ _ hnsid, rd_put_same _ _ _ (nofun : Acc.ro ≠ Acc.rws)]
  rfl

/-- The channels that an identity which R298 knows puts in use. -/
theorem usedCh_trainIdentity {n : Nat} {obs : TrainObs} (s : State) (h : knownStack obs = true) :
    usedCh n (trainIdentity n obs s) = if obs.gen = 3 then 32 else 16 := by
  obtain ⟨hlo, hhi, -⟩ := of_decide_eq_true h
  exact usedCh_of_gen ((rd_gen_trainIdentity n obs s).trans (Nat.mod_eq_of_lt (Nat.lt_succ_of_le hhi))) hlo hhi

/-! ### A training in which no pseudo-channel fails (R298) -/

/-- Two names of pseudo-channels that share a key name the same one. -/
theorem pcOf_setPc (n c p m d o : Nat) (q : Pc) (s : State) :
    pcOf n c p (setPc m d o q s) = if pcKey n c p = pcKey m d o then q else pcOf n c p s := by
  unfold pcOf mgetD
  rw [setPc_pcs, mfind_mset, apply_ite (fun x : Option Pc => x.getD Pc.init)]
  rfl

/-- A pseudo-channel that is listed, or holds the value before, holds it once every listed one has been set to it. -/
theorem pcOf_foldl_setPc {n c p : Nat} {q : Pc} {l : List (Nat × Nat)} {s : State} (h : (c, p) ∈ l ∨ pcOf n c p s = q) :
    pcOf n c p (l.foldl (fun t x => setPc n x.1 x.2 q t) s) = q := by
  induction l generalizing s with
  | nil => exact h.resolve_left List.not_mem_nil
  | cons x l ih =>
    refine ih ?_
    by_cases hmem : (c, p) ∈ l
    · exact .inl hmem
    · right
      rw [pcOf_setPc]
      split
      · rfl
      next hkey =>
        refine h.resolve_left fun hx => hkey ?_
        obtain rfl := (List.mem_cons.mp hx).resolve_right hmem
        rfl

/-- After the pseudo-channels are set up, the rest of a training that passes changes none of them. -/
theorem pcOf_trainPass {n c p : Nat} {obs : TrainObs} {rate : Nat} {s : State} (h : (c, p) ∈ allPcs n s) :
    pcOf n c p (trainPass n obs rate s) = { Pc.init with st := .active } := by
  unfold trainPass
  extract_lets g pcs lanes bads laned q active vrefs accepted taps total timed shown railed tested
  have htested : Frame 0x100001E800080004 railed tested := by
    clear_value railed
    exact Frame.ite (Frame.foldl (fun t c => fr_testOutcome n c (cellTestOf c obs) t) .refl) .refl
  have hvrefs : Frame 0x4 active vrefs := by
    clear_value active
    exact Frame.foldl (fun t c => fr_putAll _ t) .refl
  rw [(fr_showCells ..).pcOf_eq n c p rfl, (fr_reinstallRemaps ..).pcOf_eq n c p rfl, (fr_stageTest ..).pcOf_eq n c p rfl,
    htested.pcOf_eq n c p rfl, (fr_narrowRail ..).pcOf_eq n c p rfl, (fr_putAll ..).pcOf_eq n c p rfl,
    (fr_setTiming ..).pcOf_eq n c p rfl, hvrefs.pcOf_eq n c p rfl]
  exact pcOf_foldl_setPc (.inl h)

/-- The state in which the steps of a training run: the start has reached step 5, the settings are taken and the identity is known. -/
def trainReady (n : Nat) (obs : TrainObs) (s : State) : State := trainIdentity n obs (takePhy n (put GLB_STATUS.PHASE 2 s))

theorem hOn_takePhy_phase (n v : Nat) (s : State) : hOn n (takePhy n (put GLB_STATUS.PHASE v s)) = hOn n s := by
  unfold hOn
  rw [(fr_takePhy ..).rd_eq _ rfl rfl, rd_put_ne _ _ _ _ (by decide)]

theorem trainSteps_passes {n : Nat} {obs : TrainObs} {s : State} (hsteps : obs.failStep = 0) (hlost : lanesLost n obs s = []) :
    trainSteps n obs s = trainPass n obs (rd (PHY_CFG.TARGET n) s) s := by
  unfold trainSteps
  rw [hsteps, hlost]
  rfl

theorem hiveTraining_passes {n : Nat} {obs : TrainObs} {s : State} (hdue : trainDue n s = true) (hon : hOn n s = true)
    (hanswers : obs.answers = true) (hknown : knownStack obs = true) (hsteps : obs.failStep = 0)
    (hlost : lanesLost n obs (trainReady n obs s) = []) :
    hiveTraining n obs s = trainPass n obs (rd (PHY_CFG.TARGET n) (trainReady n obs s)) (trainReady n obs s) := by
  rw [← trainSteps_passes hsteps hlost]
  unfold hiveTraining
  dsimp only
  rw [hOn_takePhy_phase, hdue, hon, hanswers, hknown]
  rfl

/-! ### Switching a hive off writes no register below the power registers -/

section
variable {f : Fld} (hlow : f.key < 8 * 0x20100)
include hlow

theorem rd_showCells_below (n : Nat) (s : State) : rd f (showCells n s) = rd f s := by
  have hne (c : Nat) : f.key ≠ (CEL_STATUS.STATE n c).key := by simp only [Fld.key, CEL_STATUS.STATE] at hlow ⊢; omega
  exact List.foldlRecOn (motive := fun t => rd f t = rd f s) _ _ rfl fun t ht c _ => (rd_put_ne _ _ _ _ (hne c)).trans ht

theorem rd_isolate_below (d : Nat) (s : State) : rd f (isolate d s) = rd f s := by
  have hpower {g : Fld} (v : Nat) (t : State) (hg : 8 * 0x20100 ≤ g.key) : rd f (put g v t) = rd f t :=
    rd_put_ne _ _ _ _ (Nat.ne_of_lt (Nat.lt_of_lt_of_le hlow hg))
  have hcells (n : Nat) (t : State) : rd f (cellsOff n t) = rd f t := (rd_showCells_below hlow n _).trans (rd_congr f rfl rfl)
  unfold isolate
  dsimp only
  split
  · rw [hcells, (fr_poisonHive ..).rd_eq f rfl rfl, hpower _ _ (by decide), hpower _ _ (by decide)]
  · split
    · rw [hcells, hpower _ _ (by decide)]
    · exact hpower _ _ (by decide)

theorem rd_requestOff_below (d : Nat) (s : State) : rd f (requestOff d s) = rd f s := by
  have hpower (p : Power) (t : State) : rd f (setPower p t) = rd f t := rd_congr f rfl rfl
  unfold requestOff
  dsimp only
  rw [apply_ite (rd f), hpower, ite_self, apply_ite (rd f), rd_isolate_below hlow, ite_self]

theorem rd_hiveOff_below (n : Nat) (s : State) : rd f (hiveOff n s) = rd f s := by
  unfold hiveOff
  dsimp only
  rw [apply_ite (rd f), rd_requestOff_below hlow, ite_self, rd_isolate_below hlow, rd_requestOff_below hlow]
  exact rd_congr f rfl rfl

end

/-! ### The checker self-test (R370) -/

/-- The self-test of a hive writes the hive's own registers, those of an event and those of its power-down: none of GLB_STATUS. -/
theorem rd_phase_checkHive (fails : List (Nat × Bool × Nat × Nat)) (n : Nat) (s : State) :
    rd GLB_STATUS.PHASE (checkHive fails s n) = rd GLB_STATUS.PHASE s := by
  have hcap : GLB_STATUS.PHASE.key ≠ (GLB_HIVE_CAP.CAP n).key := by simp only [Fld.key, GLB_STATUS.PHASE, GLB_HIVE_CAP.CAP]; omega
  have hresult (a b c d e : Nat) : ∀ x ∈ [(ECC_ST_SUMMARY.ENC_OK n, a), (ECC_ST_SUMMARY.DEC_OK n, b), (ECC_ST_SUMMARY.FAIL_CH n, c),
      (ECC_ST_SUMMARY.FAIL_PC n, d), (ECC_ST_SUMMARY.VALID n, e)], GLB_STATUS.PHASE.key ≠ x.1.key := by
    simp only [List.forall_mem_cons, Fld.key, GLB_STATUS.PHASE, ECC_ST_SUMMARY.ENC_OK, ECC_ST_SUMMARY.DEC_OK, ECC_ST_SUMMARY.FAIL_CH,
      ECC_ST_SUMMARY.FAIL_PC, ECC_ST_SUMMARY.VALID]
    refine ⟨by omega, by omega, by omega, by omega, by omega, nofun⟩
  unfold checkHive
  extract_lets mine enc dec first tested
  have htested : rd GLB_STATUS.PHASE tested = rd GLB_STATUS.PHASE s := rd_putAll_ne _ _ _ (hresult _ _ _ _ _)
  split
  · rfl
  · split
    · exact htested
    · rw [rd_postEvent _ _ _ _ _ _ (by decide) (by decide) (by decide), rd_hiveOff_below (by decide), rd_put_ne _ _ _ _ hcap, htested]

theorem rd_phase_checkerSelfTest {s : State} (fails : List (Nat × Bool × Nat × Nat)) (hphase : rd GLB_STATUS.PHASE s = 2)
    (hended : trainingEnded s = true) : rd GLB_STATUS.PHASE (checkerSelfTest fails s) = 3 := by
  unfold checkerSelfTest
  rw [if_neg (by simp [hphase, hended])]
  exact List.foldlRecOn (motive := fun t => rd GLB_STATUS.PHASE t = 3) _ _ (rd_put_same _ _ _ nofun)
    fun t ht n _ => (rd_phase_checkHive fails n t).trans ht

/-! ### The fill (R371) -/

theorem mfind_mkeep_some {α : Type} {m : AMap α} {p : Nat → Bool} {k : Nat} (h : p k = true) : mfind (mkeep m p) k = mfind m k := by
  unfold mkeep
  induction m with
  | nil => rfl
  | cons x m ih =>
    rw [List.filter_cons, mfind]
    split
    · rw [mfind, ih]
    next hx =>
      have hne : x.1 ≠ k := fun e => hx (e ▸ h)
      rw [if_neg hne, ih]

/-- The fill drops every byte of a hive that is up: an unlisted byte reads as zero. -/
theorem fill_mem {s : State} (hphase : rd GLB_STATUS.PHASE s = 3) :
    (fill s).mem = mkeep s.mem fun a => !hiveUp (a / 2 ^ 40) s := by
  unfold fill
  rw [if_neg (by simp [hphase])]
  rfl

theorem rd_phase_fill {s : State} (hphase : rd GLB_STATUS.PHASE s = 3) : rd GLB_STATUS.PHASE (fill s) = 4 := by
  unfold fill
  rw [if_neg (by simp [hphase])]
  dsimp only
  rw [rd_put_ne _ _ _ _ (by decide)]
  exact rd_put_same GLB_STATUS.PHASE 4 s nofun

theorem memByte_mkeep (m : List Host.Cell) (p : Nat → Bool) (k : Nat) : memByte (mkeep m p) k = if p k then memByte m k else 0 := by
  unfold memByte mgetD
  split
  next h => rw [mfind_mkeep_some h]
  next h => rw [mfind_mkeep_none (Bool.eq_false_iff.mpr h), Option.getD_none]

/-! ### The commands -/

theorem exec_hiveTraining (n : Nat) (obs : TrainObs) (s : State) :
    exec (.hiveTraining n obs) s = .next (settled (hiveTraining n obs s)) := rfl
theorem exec_checkerSelfTest (fails : List (Nat × Bool × Nat × Nat)) (s : State) :
    exec (.checkerSelfTest fails) s = .next (settled (checkerSelfTest fails s)) := rfl
theorem exec_fill (s : State) : exec .fill s = .next (fill s) := rfl

/-- Settles O10: each clause is what the step of the start leaves, before the units settle. -/
theorem trainingCommands : Obligations.TrainingCommands := by
  unfold Obligations.TrainingCommands
  refine ⟨?training, ?selfTest, ?fills⟩
  case training =>
    intro n obs s hdue hon hanswers hknown hsteps hlost
    refine ⟨_, exec_hiveTraining .., fun c p hc hp => ?_⟩
    have hmem : (c, p) ∈ allPcs n (trainReady n obs s) := mem_allPcs.mpr ⟨(usedCh_trainIdentity _ hknown).symm ▸ hc, hp⟩
    rw [hiveTraining_passes hdue hon hanswers hknown hsteps hlost, pcOf_trainPass hmem]
  case selfTest =>
    intro fails s hphase hended
    exact ⟨_, exec_checkerSelfTest .., rd_phase_checkerSelfTest fails hphase hended⟩
  case fills =>
    intro s hphase
    refine ⟨_, exec_fill s, rd_phase_fill hphase, fun k => ?_⟩
    rw [fill_mem hphase, memByte_mkeep]
    cases hiveUp (k / 2 ^ 40) s <;> rfl

end Sys2Proof.Machine
end

section
/-! Proofs for calibration (10_phy_calibration.md): the rounds of recalibration, the move of a lane onto its spare and the ramp of the
live delays. -/

namespace Sys2Proof.Machine

open Reg

/-! ### A round that starts (R306) -/

/-- The pseudo-channels of a hive that a round would recalibrate, as a round names them. -/
def activeParts (n : Nat) (s : State) : List Nat :=
  ((allPcs n s).filter fun x => (pcOf n x.1 x.2 s).st == .active).map fun x => 2 * x.1 + x.2

theorem activeParts_ne_nil {n : Nat} {s : State} (h : ((allPcs n s).any fun x => (pcOf n x.1 x.2 s).st == .active) = true) :
    activeParts n s ≠ [] := by
  obtain ⟨x, hx, hactive⟩ := List.any_eq_true.mp h
  exact List.ne_nil_of_mem (List.mem_map_of_mem (List.mem_filter.mpr ⟨hx, hactive⟩))

theorem startRecal_waits (n : Nat) (s : State) :
    ∃ r, mfind (startRecal n (allPcs n s) s).recal n = some r ∧ r.waiting = activeParts n s :=
  ⟨_, mfind_mset_same .., rfl⟩

theorem endRecal_waiting {n : Nat} {r : Recal} {s : State} (h : mfind s.recal n = some r) (hwaits : r.waiting ≠ []) :
    endRecal n s = s := by
  unfold endRecal
  rw [h]
  dsimp only
  rw [if_pos (by simp [hwaits])]

/-- A round over the pseudo-channels of a hive goes on while one of them is active. -/
theorem endRecal_startRecal {n : Nat} {s : State} (h : ((allPcs n s).any fun x => (pcOf n x.1 x.2 s).st == .active) = true) :
    endRecal n (startRecal n (allPcs n s) s) = startRecal n (allPcs n s) s := by
  obtain ⟨r, hr, hwaiting⟩ := startRecal_waits n s
  exact endRecal_waiting hr (hwaiting ▸ activeParts_ne_nil h)

/-- Without a result no sweep ends. -/
theorem recalPc_none (n : Nat) (s : State) (k : Nat) : recalPc n [] s k = s := by
  unfold recalPc
  split
  · rfl
  · rfl

theorem foldl_recalPc_none (n : Nat) (ks : List Nat) (s : State) : ks.foldl (recalPc n []) s = s :=
  List.foldlRecOn (motive := fun t => t = s) _ _ rfl fun t ht k _ => (recalPc_none n t k).trans ht

section
variable {n : Nat} {s : State} (hon : hOn n s = true) (hkeeper : keeperReady n s = true) (hpassed : rd (PHY_TRAIN_SUMMARY.RESULT n) s = 0)
  (hvalid : on (PHY_TRAIN_SUMMARY.VALID n) s = true)
include hon hkeeper hpassed hvalid

theorem recalRound_starts (hnone : mfind s.recal n = none) (hnext : mgetD s.recalNext n [] = []) (hdue : recalDue n s = true)
    (hactive : ((allPcs n s).any fun x => (pcOf n x.1 x.2 s).st == .active) = true) :
    recalRound n [] s = startRecal n (allPcs n s) s := by
  unfold recalRound
  rw [if_neg (by simp [hon, hkeeper, hpassed, hvalid])]
  dsimp only
  rw [hnone, hnext, hdue]
  exact (congrArg (endRecal n) (foldl_recalPc_none n _ _)).trans (endRecal_startRecal hactive)

theorem recalNow_starts (hnone : mfind s.recal n = none)
    (hactive : ((allPcs n s).any fun x => (pcOf n x.1 x.2 s).st == .active) = true) :
    recalNow n s = startRecal n (allPcs n s) s := by
  unfold recalNow
  rw [if_neg (by simp [hon, hkeeper, hpassed, hvalid, hnone]), endRecal_startRecal hactive]

theorem recalRound_runs {r : Recal} (obs : List LaneObs) (hrun : mfind s.recal n = some r) :
    recalRound n obs s = endRecal n (r.waiting.foldl (recalPc n obs) s) := by
  unfold recalRound
  rw [if_neg (by simp [hon, hkeeper, hpassed, hvalid])]
  dsimp only
  rw [hrun, Option.isSome_some, if_pos rfl, hrun, Option.elim_some]

end

/-! ### A round that ends (R304, R307, R311) -/

/-- Whether the result of a lane is accepted or not, the round waits for the same pseudo-channels. -/
theorem recalLane_waiting {n : Nat} {r : Recal} {ks : List Nat} {s : State} (o : LaneObs) (h : mfind s.recal n = some r)
    (hwaiting : r.waiting = ks) : ∃ r', mfind (recalLane n s o).recal n = some r' ∧ r'.waiting = ks := by
  unfold recalLane
  rw [h]
  dsimp -zeta only
  extract_lets held lim v
  split
  · exact ⟨r, h, hwaiting⟩
  · split
    · split
      · exact ⟨_, mfind_mset_same .., hwaiting⟩
      · exact ⟨_, mfind_mset_same .., hwaiting⟩
    · exact ⟨_, mfind_mset_same .., hwaiting⟩

/-- The one sweep whose result is listed ends: its pseudo-channel no longer waits. -/
theorem recalPc_ends {n c p : Nat} {r : Recal} {o : LaneObs} {s : State} (hrun : mfind s.recal n = some r) (hp : p < 2)
    (hwaits : 2 * c + p ∈ r.waiting) (hactive : (pcOf n c p s).st = .active) (hswept : probing n c p s = false) (hch : o.ch = c)
    (hpc : o.pc = p) :
    ∃ r', mfind (recalPc n [o] s (2 * c + p)).recal n = some r' ∧ r'.waiting = r.waiting.erase (2 * c + p) := by
  have hc : (2 * c + p) / 2 = c := by omega
  have hmod : (2 * c + p) % 2 = p := by omega
  have hmine : [o].filter (fun o => o.ch == c && o.pc == p) = [o] := by simp [hch, hpc]
  unfold recalPc
  rw [hrun, hc, hmod, hmine]
  dsimp only
  rw [if_neg (by simp [hwaits, hactive, hswept]), List.foldl_cons, List.foldl_nil]
  exact recalLane_waiting o (mfind_mset_same ..) rfl

theorem endRecal_valid {n : Nat} {r : Recal} {s : State} (h : mfind s.recal n = some r) (hdone : r.waiting = []) :
    on (PHY_CAL_SUMMARY.VALID n) (endRecal n s) = true := by
  unfold endRecal
  rw [h]
  dsimp only
  rw [hdone, if_neg (by simp)]
  exact on_of_rd_eq_one (rd_putAll_mem (PHY_CAL_SUMMARY.VALID n) 1 [_, _, _, _] [] _ nofun rfl)

/-! ### A part that is abandoned (R309) -/

theorem rd_bump_same (f : Fld) (k : Nat) (s : State) (hf : f.acc ≠ .rws) : rd f (bump f k s) = min (rd f s + k) (2 ^ f.w - 1) := by
  rw [bump, rd_put_same _ _ _ hf]
  exact Nat.mod_eq_of_lt (Nat.lt_of_le_of_lt (Nat.min_le_right _ _) (Nat.sub_one_lt (Nat.ne_of_gt (Nat.two_pow_pos f.w))))

/-- The end of a round writes PHY_CAL_SUMMARY, not PHY_CAL_STAT. -/
theorem rd_abandoned_endRecal (n : Nat) (s : State) :
    rd (PHY_CAL_STAT.ABANDONED n) (endRecal n s) = rd (PHY_CAL_STAT.ABANDONED n) s := by
  have hkeys (a b c d e : Nat) : ∀ x ∈ [(PHY_CAL_SUMMARY.PCS_DONE n, a), (PHY_CAL_SUMMARY.PCS_SKIPPED n, b),
      (PHY_CAL_SUMMARY.MAX_SHIFT n, c), (PHY_CAL_SUMMARY.REJECTS n, d), (PHY_CAL_SUMMARY.VALID n, e)],
      (PHY_CAL_STAT.ABANDONED n).key ≠ x.1.key := by
    simp only [List.forall_mem_cons, Fld.key, PHY_CAL_STAT.ABANDONED, PHY_CAL_SUMMARY.PCS_DONE, PHY_CAL_SUMMARY.PCS_SKIPPED,
      PHY_CAL_SUMMARY.MAX_SHIFT, PHY_CAL_SUMMARY.REJECTS, PHY_CAL_SUMMARY.VALID]
    refine ⟨by omega, by omega, by omega, by omega, by omega, nofun⟩
  unfold endRecal
  split
  · rfl
  · split
    · rfl
    · rw [rd_putAll_ne _ _ _ (hkeys _ _ _ _ _), (fr_noteTemp ..).rd_eq _ rfl rfl]
      exact rd_congr _ rfl rfl

theorem recalDeadline_counts {n c p : Nat} {r : Recal} {s : State} (hrun : mfind s.recal n = some r)
    (hwaits : r.waiting.contains (2 * c + p) = true) :
    rd (PHY_CAL_STAT.ABANDONED n) (recalDeadline n c p s) =
      min (rd (PHY_CAL_STAT.ABANDONED n) s + 1) (2 ^ (PHY_CAL_STAT.ABANDONED n).w - 1) := by
  have hprobe : rd (PHY_CAL_STAT.ABANDONED n) (setProbe n c p 0 s) = rd (PHY_CAL_STAT.ABANDONED n) s := (fr_setProbe ..).rd_eq _ rfl rfl
  unfold recalDeadline
  rw [hrun]
  dsimp only
  rw [if_pos hwaits, rd_abandoned_endRecal, rd_bump_same _ _ _ (nofun : Acc.ro ≠ Acc.rws), ← hprobe]
  rfl

/-! ### The move of a lane (R305) -/

@[simp] theorem laneAt_setLane_same (n c p lane : Nat) (v : Lane) (s : State) : laneAt n c p lane (setLane n c p lane v s) = v :=
  mgetD_mset_same _ _ _ _

/-- A lane stays as it is under an operation that changes no lane. -/
theorem Frame.laneAt_eq {m : Nat} {s t : State} (h : Frame m s t) (n c p lane : Nat) (hm : m.testBit 23 = false) :
    laneAt n c p lane t = laneAt n c p lane s := by
  rw [laneAt, h.f_lanes hm, laneAt]

section
variable {n c p lane : Nat} {s : State} (hused : pcUsed n c p s = true) (hkeeper : keeperReady n s = true)
  (hlane : lane < logLanes (rd (CHC_HIVE_CFG.GEN n) s)) (hlimit : (hive n s).phy.rejLimit ≠ 0)
  (hrejects : (hive n s).phy.rejLimit ≤ (laneAt n c p (physLane n c p lane s) s).rejects)
include hused hkeeper hlane hlimit hrejects

theorem laneAt_laneMove_spare (o : LaneObs) (hfree : spareFree n c p lane s = true)
    (hok : moveOk n c p lane (heldObs o) (quiesce 0 n [c] s) = true) :
    laneAt n c p (logLanes (rd (CHC_HIVE_CFG.GEN n) s) + spareOf (rd (CHC_HIVE_CFG.GEN n) s) lane) (laneMove n c p lane o s) =
      ⟨(heldObs o).rx1, (heldObs o).rx1, (heldObs o).rxEye, (heldObs o).tx1, (heldObs o).tx1, (heldObs o).txEye, true, false, 0⟩ := by
  have hclear (t : State) (l : List Nat) : Frame 0x4 t (l.foldl (fun t i => eraseSlotClear n c p i lane t) t) :=
    Frame.foldl (fun u i => fr_eraseSlotClear n c p i lane u) .refl
  unfold laneMove
  dsimp only
  rw [if_neg (by simp [hused, hkeeper, hlane, hlimit, hrejects]), if_pos hfree, if_pos hok, (hclear _ _).laneAt_eq _ _ _ _ rfl,
    (fr_putAll ..).laneAt_eq _ _ _ _ rfl, laneAt_setLane_same]

/-- A lane whose spare carries another lane stays where it is: its count begins anew and an event tells it. -/
theorem laneMove_stays (o : LaneObs) (htaken : spareFree n c p lane s = false) :
    laneMove n c p lane o s = postEvent 3 n 1 [c, p, lane]
      (setLane n c p (physLane n c p lane s) { laneAt n c p (physLane n c p lane s) s with rejects := 0 } s) := by
  unfold laneMove
  dsimp only
  rw [if_neg (by simp [hused, hkeeper, hlane, hlimit, hrejects]), htaken]
  rfl

end

/-! ### The commands -/

theorem exec_recalRound (n : Nat) (obs : List LaneObs) (s : State) : exec (.recalRound n obs) s = .next (recalRound n obs s) := rfl
theorem exec_recalNow (n : Nat) (s : State) : exec (.recalNow n) s = .next (recalNow n s) := rfl
theorem exec_recalDeadline (n c p : Nat) (s : State) : exec (.recalDeadline n c p) s = .next (recalDeadline n c p s) := rfl
theorem exec_laneMove (n c p lane : Nat) (o : LaneObs) (s : State) :
    exec (.laneMove n c p lane o) s = .next (laneMove n c p lane o s) := rfl
theorem exec_dlyRampStep (n c p : Nat) (s : State) : exec (.dlyRampStep n c p) s = .next (dlyRamp n c p s) := rfl

/-- Settles O22: each clause is what the command's operation leaves of the round, the lane or the counter that it names. -/
theorem phyCommands : Obligations.PhyCommands := by
  unfold Obligations.PhyCommands
  refine ⟨?starts, ?ends, ?now, ?deadline, ?moves, ?stays, ?ramp⟩
  case starts =>
    intro n s hon hkeeper hpassed hvalid hnone hnext hdue hactive
    refine ⟨_, exec_recalRound .., ?_⟩
    rw [recalRound_starts hon hkeeper hpassed hvalid hnone hnext hdue hactive]
    exact startRecal_waits n s
  case ends =>
    intro n c p r o s hon hkeeper hpassed hvalid hrun hp hwaiting hactive hswept hch hpc
    have hlast : r.waiting.erase (2 * c + p) = [] := by simp [hwaiting]
    obtain ⟨r', hr', hleft⟩ := recalPc_ends hrun hp (hwaiting ▸ List.mem_singleton_self _) hactive hswept hch hpc
    refine ⟨_, exec_recalRound .., ?_⟩
    rw [recalRound_runs hon hkeeper hpassed hvalid [o] hrun, hwaiting]
    exact endRecal_valid hr' (hleft.trans hlast)
  case now =>
    intro n s hon hkeeper hpassed hvalid hnone hactive
    refine ⟨_, exec_recalNow .., ?_⟩
    rw [recalNow_starts hon hkeeper hpassed hvalid hnone hactive]
    exact startRecal_waits n s
  case deadline =>
    intro n c p r s hrun hwaits
    exact ⟨_, exec_recalDeadline .., recalDeadline_counts hrun hwaits⟩
  case moves =>
    intro n c p lane o s hused hkeeper hlane hlimit hrejects hfree hok
    exact ⟨_, exec_laneMove .., laneAt_laneMove_spare hused hkeeper hlane hlimit hrejects o hfree hok⟩
  case stays =>
    intro n c p lane o s hused hkeeper hlane hlimit hrejects htaken
    refine ⟨_, exec_laneMove .., ?_⟩
    rw [laneMove_stays hused hkeeper hlane hlimit hrejects o htaken, (fr_postEvent ..).laneAt_eq _ _ _ _ rfl, laneAt_setLane_same,
      postEvent_eventSeq]
    exact ⟨rfl, rfl⟩
  case ramp =>
    intro n c p s hused hawake hon
    refine ⟨_, exec_dlyRampStep .., ?_⟩
    rw [dlyRamp, if_neg (by simp [hused, hawake, hon])]

end Sys2Proof.Machine
end

section
/-! Proofs for arbitration and regulation (11_arbitration_and_regulation.md): the buckets (R323), the commits of the arbitration and
window registers with the guarantee factors and the miss windows (R342 to R344, R389), and the hive gates (R321 to R338). -/

namespace Sys2Proof.Machine

open Reg

/-! ### Buckets (R319 to R323) -/

/-- A committed field follows what is in force alone. -/
theorem rd_rws_congr {f : Fld} {s t : State} (hf : f.acc = .rws) (h : t.force = s.force) : rd f t = rd f s := by
  rw [rd_rws t hf, rd_rws s hf, h]

theorem bucketEn_congr {s t : State} (b : Nat) (h : t.force = s.force) : bucketEn b t = bucketEn b s := by
  unfold bucketEn on
  rw [rd_rws_congr (f := QOS_CIR.EN (b / 2)) rfl h, rd_rws_congr (f := QOS_PIR.EN (b / 2)) rfl h]

theorem bucketRate_congr {s t : State} (b : Nat) (h : t.force = s.force) : bucketRate b t = bucketRate b s := by
  unfold bucketRate
  rw [rd_rws_congr (f := QOS_CIR.RATE (b / 2)) rfl h, rd_rws_congr (f := QOS_PIR.RATE (b / 2)) rfl h]

theorem bucketSize_congr {s t : State} (b : Nat) (h : t.force = s.force) : bucketSize b t = bucketSize b s := by
  unfold bucketSize
  rw [rd_rws_congr (f := QOS_CBS.SIZE (b / 2)) rfl h, rd_rws_congr (f := QOS_PBS.SIZE (b / 2)) rfl h]

theorem bucketSize_nonneg (b : Nat) (s : State) : 0 ≤ bucketSize b s := Int.natCast_nonneg _

theorem setBucket_tokens (b : Nat) (v : Int) (s : State) :
    (setBucket b v s).tokens = mset s.tokens b (max (-bucketSize b s) (min (bucketSize b s) v)) := rfl

theorem setBucket_force (b : Nat) (v : Int) (s : State) : (setBucket b v s).force = s.force := rfl

/-- The bucket's count is its size. -/
def bucketFull (b : Nat) (s : State) : Prop := bucketCount b s = bucketSize b s

/-- Fill a bucket to its size in force. -/
def fillBucket (s : State) (b : Nat) : State := setBucket b (bucketSize b s) s

theorem foldl_fillBucket_force (bs : List Nat) (s : State) : (bs.foldl fillBucket s).force = s.force :=
  (Frame.foldl (m := 0x8004) (fun u b => fr_setBucket b _ u) .refl).f_force rfl

theorem bucketFull_fillBucket_same (b : Nat) (s : State) : bucketFull b (fillBucket s b) := by
  have hpos := bucketSize_nonneg b s
  have hclamp : max (-bucketSize b s) (min (bucketSize b s) (bucketSize b s)) = bucketSize b s := by omega
  unfold bucketFull fillBucket bucketCount
  rw [setBucket_tokens, hclamp, mgetD_mset_same, bucketSize_congr b (setBucket_force ..)]

theorem bucketFull_fillBucket {a b : Nat} {s : State} (h : a = b ∨ bucketFull a s) : bucketFull a (fillBucket s b) := by
  by_cases hab : a = b
  · subst hab
    exact bucketFull_fillBucket_same a s
  · have hfull : bucketFull a s := h.resolve_left hab
    unfold bucketFull fillBucket bucketCount at *
    rw [setBucket_tokens, mgetD_mset_ne _ _ _ hab, hfull, bucketSize_congr a (setBucket_force ..)]

theorem bucketFull_foldl_fillBucket {b : Nat} {bs : List Nat} {s : State} (h : b ∈ bs ∨ bucketFull b s) :
    bucketFull b (bs.foldl fillBucket s) := by
  induction bs generalizing s with
  | nil => exact h.resolve_left List.not_mem_nil
  | cons a bs ih =>
    refine ih ?_
    obtain hmem | hfull := h
    · obtain rfl | hmem := List.mem_cons.mp hmem
      · exact .inr (bucketFull_fillBucket_same b s)
      · exact .inl hmem
    · exact .inr (bucketFull_fillBucket (.inr hfull))

/-! ### ARB_COMMIT (R323, R342) -/

/-- The shadow copies of the arbitration area in force, and the buckets full whose rate, size or enable they change. -/
def arbApplied (s : State) : State :=
  (changedBuckets s (commitRange 0x10000 0x20000 s)).foldl fillBucket (commitRange 0x10000 0x20000 s)

theorem arbApplied_force (s : State) : (arbApplied s).force = (commitRange 0x10000 0x20000 s).force := foldl_fillBucket_force _ _

theorem arbCommit_applies {s : State} (hidle : on ARB_COMMIT.BUSY s = false) (hopen : portsOpen s = true ∨ guarShadow s = 0)
    (hadmitted : admitted s = true) :
    arbCommit s = putAll [(ARB_COMMIT.STATUS, 1), (ARB_COMMIT.VALID, 0), (ARB_COMMIT.BUSY, 1)] (arbApplied s) := by
  have hready : (!portsOpen s && guarShadow s != 0) = false := by
    obtain h | h := hopen
    · rw [h]; rfl
    · rw [h, bne_self_eq_false, Bool.and_false]
  unfold arbCommit
  rw [hidle, hready, hadmitted]
  rfl

/-- The commit may be applied, so it fills what it changes. -/
theorem bucketFull_arbApplied {b : Nat} {s t : State} (hb : b < 64) (ht : t.force = (commitRange 0x10000 0x20000 s).force)
    (hchange : bucketRate b t ≠ bucketRate b s ∨ bucketSize b t ≠ bucketSize b s ∨ bucketEn b t ≠ bucketEn b s) :
    bucketFull b (arbApplied s) := by
  refine bucketFull_foldl_fillBucket (.inl (List.mem_filter.mpr ⟨List.mem_range.mpr hb, ?_⟩))
  rw [bucketRate_congr b ht, bucketSize_congr b ht, bucketEn_congr b ht] at hchange
  simp only [Bool.or_eq_true, bne_iff_ne]
  obtain hrate | hsize | hen := hchange
  · exact .inl (.inr hrate.symm)
  · exact .inr hsize.symm
  · exact .inl (.inl hen.symm)

theorem exec_arbCommit (s : State) : exec .arbCommit s = .next (arbCommit s) := rfl

/-! ### QOS_TOKEN_RESET and the reset (R323) -/

theorem refillClass_eq (c : Nat) (s : State) : refillClass c s = [2 * c, 2 * c + 1].foldl fillBucket s := by
  have hsize : bucketSize (2 * c + 1) (fillBucket s (2 * c)) = bucketSize (2 * c + 1) s := bucketSize_congr _ (setBucket_force ..)
  rw [List.foldl_cons, List.foldl_cons, List.foldl_nil, fillBucket, hsize]
  rfl

theorem qosTokenReset_eq (mask : BitVec 32) (s : State) :
    qosTokenReset mask s = ((onesBelow 32 mask.toNat).flatMap fun c => [2 * c, 2 * c + 1]).foldl fillBucket s := by
  simp only [qosTokenReset, refillClass_eq, List.foldl_flatMap]

theorem bucketFull_qosTokenReset {mask : BitVec 32} {c b : Nat} (s : State) (hc : c < 32) (hbit : mask.toNat.testBit c = true)
    (hb : b = 2 * c ∨ b = 2 * c + 1) : bucketCount b (qosTokenReset mask s) = bucketSize b s := by
  have hmem : c ∈ onesBelow 32 mask.toNat := List.mem_filter.mpr ⟨List.mem_range.mpr hc, hbit⟩
  have hfull : bucketFull b (qosTokenReset mask s) := by
    rw [qosTokenReset_eq]
    exact bucketFull_foldl_fillBucket (.inl (List.mem_flatMap.mpr ⟨c, hmem, by simpa using hb⟩))
  exact hfull.trans (bucketSize_congr b ((fr_qosTokenReset mask s).f_force rfl))

theorem exec_qosTokenReset (mask : BitVec 32) (s : State) : exec (.qosTokenReset mask) s = .next (qosTokenReset mask s) := rfl

/-- The reset keeps of the registers the seeds alone. -/
theorem rd_resetOp_rws {f : Fld} (porst : Bool) (s : State) (hf : f.acc = .rws)
    (hseed : (seedFields.any fun g => g.key == f.key) = false) : rd f (resetOp porst s) = f.rst := by
  have hforce : (resetOp porst s).force = mkeep s.regs fun k => seedFields.any fun g => g.key == k :=
    (fr_resetOp_base porst s).f_force rfl
  rw [rd_rws _ hf, hforce, mfind_mkeep_none hseed, Option.getD_none]

/-- The bucket sizes stand at BAR_0 offsets 0x11000 to 0x113FF, where no seed does. -/
theorem seedFields_key_ne {f : Fld} (hlo : 8 * 0x11000 ≤ f.key) (hhi : f.key < 8 * 0x11400) :
    (seedFields.any fun g => g.key == f.key) = false := by
  simp only [seedFields, List.any_cons, List.any_map, Bool.or_eq_false_iff, List.any_eq_false, Function.comp_apply, beq_iff_eq,
    beq_eq_false_iff_ne]
  constructor
  · exact Nat.ne_of_lt (Nat.lt_of_lt_of_le (by decide) hlo)
  · intro n _
    simp only [Fld.key, CHC_NR_SEED.SEED] at hhi ⊢
    omega

theorem bucketSize_resetOp {b : Nat} (porst : Bool) (s : State) (hb : b < 64) : bucketSize b (resetOp porst s) = 262144 := by
  have hcbs : rd (QOS_CBS.SIZE (b / 2)) (resetOp porst s) = 0x100 :=
    rd_resetOp_rws porst s rfl (seedFields_key_ne (by simp only [Fld.key, QOS_CBS.SIZE]; omega)
      (by simp only [Fld.key, QOS_CBS.SIZE]; omega))
  have hpbs : rd (QOS_PBS.SIZE (b / 2)) (resetOp porst s) = 0x100 :=
    rd_resetOp_rws porst s rfl (seedFields_key_ne (by simp only [Fld.key, QOS_PBS.SIZE]; omega)
      (by simp only [Fld.key, QOS_PBS.SIZE]; omega))
  rw [bucketSize, hcbs, hpbs, ite_self]
  rfl

theorem bucketCount_resetOp (b : Nat) (porst : Bool) (s : State) : bucketCount b (resetOp porst s) = 262144 := by
  rw [bucketCount, (fr_resetOp_base porst s).f_tokens rfl]
  rfl

/-- Settles O43: each clause fills the buckets that it names, and no later write of the command changes what is in force or a count. -/
theorem bucketCounts : Obligations.BucketCounts := by
  unfold Obligations.BucketCounts
  refine ⟨?commit, ?tokens, ?reset⟩
  case commit =>
    intro s hidle hopen hadmitted
    refine ⟨_, exec_arbCommit s, fun b hb hchange => ?_⟩
    rw [arbCommit_applies hidle hopen hadmitted] at hchange ⊢
    have hshown := fr_putAll [(ARB_COMMIT.STATUS, 1), (ARB_COMMIT.VALID, 0), (ARB_COMMIT.BUSY, 1)] (arbApplied s)
    have hfull := bucketFull_arbApplied hb ((hshown.f_force rfl).trans (arbApplied_force s)) hchange
    rw [bucketCount, hshown.f_tokens rfl, bucketSize_congr b (hshown.f_force rfl)]
    exact hfull
  case tokens =>
    intro mask c s hc hbit
    exact ⟨_, exec_qosTokenReset mask s, bucketFull_qosTokenReset s hc hbit (.inl rfl),
      bucketFull_qosTokenReset s hc hbit (.inr rfl)⟩
  case reset =>
    intro porst s
    exact ⟨_, exec_reset porst s, fun b hb => (bucketCount_resetOp b porst s).trans (bucketSize_resetOp porst s hb).symm⟩

/-! ### The commits of the arbitration and window registers (R342, R389) -/

theorem rd_status_arbCommit {s : State} (hidle : on ARB_COMMIT.BUSY s = false) (hopen : portsOpen s = true)
    (hadmitted : admitted s = true) : rd ARB_COMMIT.STATUS (arbCommit s) = 1 := by
  rw [arbCommit_applies hidle (.inl hopen) hadmitted]
  exact rd_putAll_mem ARB_COMMIT.STATUS 1 [] _ _ nofun rfl

theorem arbCommit_force {s : State} (hidle : on ARB_COMMIT.BUSY s = false) (hopen : portsOpen s = true)
    (hadmitted : admitted s = true) : (arbCommit s).force = (commitRange 0x10000 0x20000 s).force := by
  rw [arbCommit_applies hidle (.inl hopen) hadmitted, putAll_force, arbApplied_force]

/-- The next window generation: it never is 0 (R389). -/
def nextGen (g : Nat) : Nat := if g = 0xFFFF then 1 else g + 1

/-- The shadow copies of the window area in force, the next generation, and what WIN_COMMIT shows of it. -/
def winApplied (s : State) : State :=
  putAll [(WIN_COMMIT.STATUS, 1), (WIN_COMMIT.ENTRY, 0), (WIN_COMMIT.TREE, 0), (WIN_COMMIT.VALID, 0), (WIN_COMMIT.BUSY, 1)]
    (put WIN_GEN.GEN (nextGen (rd WIN_GEN.GEN s)) (commitRange 0x50000 0x60000 s))

theorem winCommit_applies {s : State} (hpeer : peerPresent s = true) (hidle : on WIN_COMMIT.BUSY s = false)
    (hwindows : badWindow s = none) (htrees : badTree s = none) (hnode : nodeBusy s = false) :
    winCommit s = ppOpen (winApplied s) := by
  have hgen : rd WIN_GEN.GEN (commitRange 0x50000 0x60000 s) = rd WIN_GEN.GEN s := rd_commitRange_out s (.inl nofun)
  unfold winCommit
  simp only [hpeer, hidle, hwindows, htrees, hnode, hgen]
  rfl

theorem rd_ppOpen (f : Fld) (s : State) (h : f.key ≠ PEER_STATUS.READY.key) : rd f (ppOpen s) = rd f s := by
  unfold ppOpen
  dsimp only
  split
  · rw [rd_put_ne _ _ _ _ h, (fr_openPort ..).rd_eq f rfl rfl]
    rfl
  · rfl

theorem winApplied_force (s : State) : (ppOpen (winApplied s)).force = (commitRange 0x50000 0x60000 s).force := by
  rw [(fr_ppOpen _).f_force rfl, winApplied, putAll_force]
  rfl

theorem rd_status_winApplied (s : State) : rd WIN_COMMIT.STATUS (ppOpen (winApplied s)) = 1 :=
  (rd_ppOpen _ _ (by decide)).trans (rd_putAll_mem WIN_COMMIT.STATUS 1 [] _ _ nofun rfl)

theorem rd_gen_winApplied (s : State) : rd WIN_GEN.GEN (ppOpen (winApplied s)) = nextGen (rd WIN_GEN.GEN s) % 2 ^ WIN_GEN.GEN.w := by
  rw [rd_ppOpen _ _ (by decide), winApplied, rd_putAll_of_all _ _ _ rfl, rd_put_same _ _ _ (nofun : Acc.ro ≠ Acc.rws)]

theorem exec_winCommit (s : State) : exec .winCommit s = .next (winCommit s) := rfl

/-! ### Guarantee factors and miss windows (R343, R344) -/

/-- The factor is written first; what tells of a degradation lies in QOS_DEGRADE_STATUS and the FWM/INT area. -/
theorem rd_factor_guarFactor {n : Nat} {s : State} (hn : n < 16) (hpresent : hivePresent n s = true) :
    rd (ARB_GUAR_FACTOR.FACTOR n) (guarFactor n s) = factorOf n s % 2 ^ (ARB_GUAR_FACTOR.FACTOR n).w := by
  have hfwm : (ARB_GUAR_FACTOR.FACTOR n).inFwm = false := by
    rw [inFwm_eq_false_iff]
    simp only [Fld.key, ARB_GUAR_FACTOR.FACTOR]
    omega
  have hkeys : (ARB_GUAR_FACTOR.FACTOR n).key ≠ QOS_DEGRADE_STATUS.HIVES.key ∧
      (ARB_GUAR_FACTOR.FACTOR n).key ≠ QOS_DEGRADE_STATUS.GUAR_DEGRADED.key := by
    simp only [Fld.key, ARB_GUAR_FACTOR.FACTOR, QOS_DEGRADE_STATUS.HIVES, QOS_DEGRADE_STATUS.GUAR_DEGRADED]
    omega
  have hacc : (ARB_GUAR_FACTOR.FACTOR n).acc ≠ .rws := nofun
  obtain ⟨hhives, hdegraded⟩ := hkeys
  unfold guarFactor
  rw [if_neg (by simp [hpresent, hn])]
  dsimp only
  split
  · rw [rd_postEvent_outside hfwm, rd_raiseInt _ _ _ (key_ne_of_inFwm hfwm rfl), rd_put_ne _ _ _ _ hdegraded,
      rd_put_ne _ _ _ _ hhives, rd_put_same _ _ _ hacc]
  · rw [rd_put_ne _ _ _ _ hhives, rd_put_same _ _ _ hacc]

theorem exec_guarFactorRecompute (n : Nat) (s : State) : exec (.guarFactorRecompute n) s = .next (guarFactor n s) := rfl

@[simp] theorem gate_setGate_same (n : Nat) (g : Gate) (s : State) : gate n (setGate n g s) = g := by
  rw [gate, setGate_gates, mfind_mset_same, Option.getD_some]

theorem gate_qosMissWindow {n : Nat} {s : State} (hn : n < 16) (hon : hOn n s = true) :
    (gate n (qosMissWindow n s)).winBytes = [] ∧ (gate n (qosMissWindow n s)).winBusy = [] := by
  unfold qosMissWindow
  rw [if_neg (by simp [hon, hn]), gate_setGate_same]
  exact ⟨rfl, rfl⟩

theorem exec_qosMissWindow (n : Nat) (s : State) : exec (.qosMissWindow n) s = .next (qosMissWindow n s) := rfl

/-- Settles O42: each clause reads what its command writes, past the later writes of other registers. -/
theorem commitCommands : Obligations.CommitCommands := by
  unfold Obligations.CommitCommands
  refine ⟨?arb, ?win, ?factor, ?misses⟩
  case arb =>
    intro s hidle hopen hadmitted
    exact ⟨_, exec_arbCommit s, arbCommit_force hidle hopen hadmitted, rd_status_arbCommit hidle hopen hadmitted⟩
  case win =>
    intro s hpeer hidle hwindows htrees hnode
    refine ⟨_, exec_winCommit s, ?_⟩
    rw [winCommit_applies hpeer hidle hwindows htrees hnode]
    exact ⟨winApplied_force s, rd_status_winApplied s, rd_gen_winApplied s⟩
  case factor =>
    intro n s hn hpresent
    exact ⟨_, exec_guarFactorRecompute n s, rd_factor_guarFactor hn hpresent⟩
  case misses =>
    intro n s hn hon
    exact ⟨_, exec_qosMissWindow n s, gate_qosMissWindow hn hon⟩

/-! ### REGULATION_CHECK and the watchdog of a curtain (R321, R338) -/

theorem rotation_regulationCheck (urg : BitVec 32) (s : State) :
    (regulationCheck urg s).rotation = s.rotation - s.rotation % 18 + 18 + (s.rotation % 18 + 1) % 18 := by
  unfold regulationCheck
  dsimp only
  rw [apply_ite State.rotation, (fr_emit ..).f_rotation rfl, ite_self]

theorem exec_regulationCheck (urg : BitVec 32) (s : State) :
    exec (.regulationCheck urg) s = .next (settled (rspCreditCycle (regulationCheck urg s))) := rfl

/-- A curtain that its watchdog tears leaves its mark at the port, whatever the curtain was. -/
theorem tornNext_tearCurtain (k u : Nat) (s : State) : (port k (tearCurtain k u true s)).tornNext = true := by
  unfold tearCurtain
  dsimp only
  rw [port_congr k (emit_ports ..), port_congr k ((fr_portErr ..).f_ports rfl), port_setPort_same, Bool.or_true]

/-- While a curtain of the port gathers at a gate, the watchdog has one to tear. -/
theorem curtainWatchdog_tears {k : Nat} {x : Nat × Gate} {st : Stage} {s : State} (hx : x ∈ s.gates)
    (hstage : mfind x.2.stage k = some st) (hgathers : st.complete = false) :
    ∃ u, curtainWatchdog k s = tearCurtain k u true s := by
  unfold curtainWatchdog
  dsimp only
  split
  next hnone =>
    have hskips := List.filterMap_eq_nil_iff.mp hnone x hx
    simp [hstage, hgathers] at hskips
  · exact ⟨_, rfl⟩

theorem exec_curtainWatchdogExpiry (k : Nat) (s : State) :
    exec (.curtainWatchdogExpiry k) s = .next (settled (curtainWatchdog k s)) := rfl

/-! ### A complete curtain enters the lottery (R335) -/

/-- The part that stands for a complete curtain in the lottery. -/
def curtainPart (n k : Nat) (st : Stage) : Part :=
  ⟨st.uid, n, k, true, .wr, st.parts.flatMap fun x => x.beats, (st.parts.map fun x => x.level).foldl max 0,
    st.parts.any fun x => x.excess, false, false, 0, none, st.uid⟩

theorem curtainComplete_enters {n k : Nat} {st : Stage} {s : State} (hstage : mfind (gate n s).stage k = some st)
    (hgathers : st.complete = false)
    (hlast : (st.parts.any fun a => (mfind s.live a.uid).any fun l => l.req.curt == 3 || l.req.curt == 4) = true) :
    curtainComplete n k s = setGate n { gate n s with
      stage := mset (gate n s).stage k { st with complete := true }, parts := (gate n s).parts ++ [curtainPart n k st] } s := by
  unfold curtainComplete
  dsimp only
  rw [hstage]
  dsimp only
  rw [hgathers, hlast]
  rfl

theorem exec_curtainComplete (n k : Nat) (s : State) :
    exec (.curtainComplete n k false) s = .next (settled (curtainComplete n k s)) := rfl

/-! ### The locked sequence of a curtain runs to its end (R336) -/

theorem mfind_mmap {α : Type} (f : Nat → α → α) (m : AMap α) (k : Nat) : mfind (mmap f m) k = (mfind m k).map (f k) := by
  induction m with
  | nil => rfl
  | cons x m ih =>
    obtain ⟨j, v⟩ := x
    unfold mmap at *
    rw [List.map_cons, mfind, mfind, ih]
    split
    next hj => rw [hj, Option.map_some]
    · rfl

/-- A gate at reset holds no lock, so the lock is what the map of gates says. -/
theorem gate_lock (n : Nat) (s : State) : (gate n s).lock = (mfind s.gates n).bind Gate.lock := by
  unfold gate
  cases mfind s.gates n <;> rfl

theorem gate_lock_congr (n : Nat) {s t : State} (h : t.gates = s.gates) : (gate n t).lock = (gate n s).lock := by
  rw [gate_lock, gate_lock, h]

/-- What the end of a grant of hive n leaves of the gate at key i: the part is no longer among the transferred ones. -/
def withdrawn (n uid i : Nat) (g : Gate) : Gate := if i = n then { g with flying := g.flying.filter fun x => x.part.uid != uid } else g

theorem withdrawn_lock (n uid i : Nat) (g : Gate) : (withdrawn n uid i g).lock = g.lock := by
  unfold withdrawn
  split <;> rfl

theorem retireGrant_gates (n uid : Nat) (s : State) :
    (retireGrant n uid s).gates = s.gates ∨ (retireGrant n uid s).gates = mmap (withdrawn n uid) s.gates := by
  have hdone (l : Live) (t : State) : (sampleDone n uid (partRtype l) t).gates = t.gates := (fr_sampleDone ..).f_gates rfl
  unfold retireGrant
  split
  · exact .inl rfl
  refine .inr ?_
  dsimp only
  split
  next l _ => split <;> exact hdone l _
  · rfl

theorem gate_lock_retireGrant (n m uid : Nat) (s : State) : (gate n (retireGrant m uid s)).lock = (gate n s).lock := by
  obtain h | h := retireGrant_gates m uid s
  · exact gate_lock_congr n h
  · rw [gate_lock, gate_lock, h, mfind_mmap, Option.bind_map]
    congr 1
    exact funext (withdrawn_lock m uid n)

theorem gate_lock_ackWrite (n m uid : Nat) (ok : Bool) (s : State) : (gate n (ackWrite m uid ok s)).lock = (gate n s).lock := by
  unfold ackWrite
  split
  · exact gate_lock_retireGrant ..
  · rw [gate_lock_retireGrant]
    exact gate_lock_congr n ((fr_tryFinish ..).f_gates rfl)

theorem gate_lock_foldl_ackWrite (n : Nat) (us : List Nat) (s : State) :
    (gate n (us.foldl (fun u x => ackWrite n x true u) s)).lock = (gate n s).lock := by
  induction us generalizing s with
  | nil => rfl
  | cons u us ih => rw [List.foldl_cons, ih, gate_lock_ackWrite]

theorem gate_lock_endLock (n : Nat) (l : Lock) (s : State) : (gate n (endLock n l s)).lock = none := by
  unfold endLock
  rw [gate_lock_congr n ((fr_emit ..).f_gates rfl), gate_lock_foldl_ackWrite, gate_setGate_same]

/-- The beats that a locked sequence still moves, and its end. -/
def lockLeft (lock : Option Lock) : Nat := lock.elim 0 fun l => l.moves.length + 1

theorem lockLeft_eq_zero {lock : Option Lock} : lockLeft lock = 0 ↔ lock = none := by
  cases lock <;> simp [lockLeft]

/-- Each move of a locked sequence brings it one nearer to its end, or ends it. -/
theorem lockLeft_lockBeat (n : Nat) (s : State) : lockLeft (gate n (lockBeat n s)).lock ≤ lockLeft (gate n s).lock - 1 := by
  have hended {t : State} {k : Nat} (h : (gate n t).lock = none) : lockLeft (gate n t).lock ≤ k := by
    rw [lockLeft_eq_zero.mpr h]
    exact Nat.zero_le k
  unfold lockBeat
  split
  next hnone => exact hended hnone
  next l hlock =>
    split
    · exact hended (gate_lock_endLock ..)
    next u w b ms hmoves =>
      have hleft : lockLeft (gate n s).lock - 1 = ms.length + 1 := by
        rw [hlock, lockLeft, Option.elim_some, hmoves, List.length_cons, Nat.add_sub_cancel]
      rw [hleft]
      split
      · rw [gate_setGate_same]
        exact Nat.le_refl _
      · dsimp only
        split
        · exact hended (gate_lock_endLock ..)
        · rw [gate_lock_congr n ((fr_queueBeat ..).f_gates rfl), gate_setGate_same]
          exact Nat.le_refl _

theorem lockLeft_foldl_lockBeat {α : Type} (n : Nat) (l : List α) (s : State) :
    lockLeft (gate n (l.foldl (fun u _ => lockBeat n u) s)).lock ≤ lockLeft (gate n s).lock - l.length := by
  induction l generalizing s with
  | nil => exact Nat.le_refl _
  | cons x l ih =>
    have hstep := lockLeft_lockBeat n s
    have hrest := ih (lockBeat n s)
    rw [List.foldl_cons, List.length_cons]
    omega

theorem gate_lock_curtainCommit {n : Nat} {l : Lock} {s : State} (hlock : (gate n s).lock = some l) :
    (gate n (curtainCommit n s)).lock = none := by
  have hruns := lockLeft_foldl_lockBeat n (List.range (l.moves.length + 1)) s
  rw [hlock, lockLeft, lockLeft, Option.elim_some, List.length_range, Nat.sub_self] at hruns
  unfold curtainCommit
  rw [hlock]
  exact lockLeft_eq_zero.mp (Nat.le_zero.mp hruns)

theorem exec_curtainCommit (n : Nat) (s : State) : exec (.curtainCommit n) s = .next (settled (curtainCommit n s)) := rfl

/-! ### Back-off (R330) -/

theorem backoffExpiry_ends {n m c : Nat} {s : State} (h : mfind (gate n s).backoff m = some c) :
    backoffExpiry n m s = setGate n { gate n s with backoff := mdel (gate n s).backoff m } s := by
  unfold backoffExpiry
  dsimp only
  rw [h]
  rfl

theorem exec_backoffExpiry (n m : Nat) (s : State) : exec (.backoffExpiry n m) s = .next (backoffExpiry n m s) := rfl

/-! ### One draw among one part (R324 to R328) -/

/-- Only one requester offers a part. -/
theorem filterMap_range_find {a : Part} (k : Nat) :
    (List.range k).filterMap (fun m => [a].find? fun x => x.m == m) = if a.m < k then [a] else [] := by
  induction k with
  | zero => rfl
  | succ k ih =>
    rw [List.range_succ, List.filterMap_append, ih]
    by_cases hk : a.m = k
    · simp [hk]
    · have hiff : a.m < k + 1 ↔ a.m < k := by omega
      simp [hk, hiff]

theorem drawOne_single {a : Part} (g : Gate) (urg : BitVec 32) (s : State) (hm : a.m < 18) :
    drawOne g urg [a] s = (some a, g.lfsr, false) := by
  have hoffers : (List.range 18).filterMap (fun m => [a].find? fun x => x.m == m) = [a] := by rw [filterMap_range_find, if_pos hm]
  have hbest : [a].filter (fun x => rankOf g urg x == [a].foldl (fun k x => max k (rankOf g urg x)) 0) = [a] := by simp
  unfold drawOne
  dsimp only
  rw [hbest, hoffers]

theorem drawOne_nil (g : Gate) (urg : BitVec 32) (s : State) : drawOne g urg [] s = (none, g.lfsr, false) := by
  have hoffers : (List.range 18).filterMap (fun m => ([] : List Part).find? fun x => x.m == m) = [] := by simp
  unfold drawOne
  dsimp only
  rw [List.filter_nil, hoffers]

theorem fits_first (a : Part) : fits 0 true a = true := by
  unfold fits
  split
  · rfl
  · exact decide_eq_true (by omega)

/-- The gate after a grant. -/
def grantedGate (n : Nat) (urg : BitVec 32) (a : Part) (s : State) : Gate :=
  { gate n s with
    parts := (gate n s).parts.filter fun x => x.uid != a.uid,
    chosen := (gate n s).chosen ++ [⟨a, rankOf (gate n s) urg a, rankOf (gate n s) urg a == 3 && a.level == 3⟩],
    loss := mset (gate n s).loss a.m 0,
    guar := mset (gate n s).guar a.m (mgetD (gate n s).guar a.m 0 - Int.ofNat (guarUnit s * partCharge a s)),
    winBytes := mset (gate n s).winBytes a.m (mgetD (gate n s).winBytes a.m 0 + partCharge a s) }

theorem gate_grantPart (n : Nat) (urg : BitVec 32) (a : Part) (s : State) : gate n (grantPart n urg a s) = grantedGate n urg a s := by
  have hgates : (grantPart n urg a s).gates = (setGate n (grantedGate n urg a s) s).gates := by
    unfold grantPart
    dsimp only
    rw [(Frame.foldl (m := 0x80000000000) (fun u x => fr_sampleGrant n x u) .refl).f_gates rfl, apply_ite State.gates,
      (fr_emit ..).f_gates rfl, (fr_emit ..).f_gates rfl, ite_self]
    rfl
  rw [gate, hgates, setGate_gates, mfind_mset_same, Option.getD_some]

section
variable {n : Nat} {a : Part} {old : List Part} {s : State}

/-- The first draw takes the only part that waits. -/
theorem drawLoop_takes (urg : BitVec 32) (k : Nat) (hparts : (gate n s).parts = [a]) (hm : a.m < 18)
    (heligible : eligible n (gate n s) old a s = true) :
    drawLoop n urg old (k + 1) [] s = drawLoop n urg old k [a] (grantPart n urg a s) := by
  have hcands : [a].filter (fun x => eligible n (gate n s) (old ++ []) x s && fits 0 true x) = [a] := by
    rw [List.append_nil, List.filter_cons_of_pos (by rw [heligible, fits_first]; rfl), List.filter_nil]
  rw [drawLoop, List.any_nil, if_neg Bool.false_ne_true, List.foldl_nil, List.isEmpty_nil]
  dsimp only
  rw [hparts, hcands, drawOne_single _ _ _ hm]
  rfl

/-- With no part left the draws end. -/
theorem drawLoop_ends (urg : BitVec 32) (k : Nat) (won : List Part) (hparts : (gate n s).parts = []) :
    drawLoop n urg old k won s = (won, s) := by
  cases k with
  | zero => rfl
  | succ k =>
    unfold drawLoop
    dsimp only
    rw [hparts, List.filter_nil, drawOne_nil]
    exact ite_self _

theorem lossStep_idle {won : List Part} (hparts : (gate n s).parts = []) (hwon : won.length < 8) : lossStep n old won s = s := by
  unfold lossStep
  dsimp only
  rw [hparts, List.filter_nil]
  exact if_pos (by simp [hwon])

/-- A part that is eligible lacks no room. -/
theorem not_stalled (h : eligible n (gate n s) old a s = true) (p : Bool) :
    (a.op != .push && p && eligibleButRoom n (gate n s) old a s && !roomFor n (gate n s) old a s) = false := by
  rw [eligible, Bool.and_eq_true, Bool.or_eq_true] at h
  obtain ⟨-, hpush | hroom⟩ := h
  · rw [bne, hpush]
    rfl
  · rw [hroom, Bool.not_true, Bool.and_false]

theorem roomStalls_idle (h : ∀ x ∈ (gate n s).parts, eligible n (gate n s) old x s = true) : roomStalls n old s = s := by
  have hnone : (List.range 18).filter (fun m => (gate n s).parts.any fun x =>
      x.m == m && x.op != .push && eligibleButRoom n (gate n s) old x s && !roomFor n (gate n s) old x s) = [] := by
    refine List.filter_eq_nil_iff.mpr fun m _ => ?_
    rw [Bool.not_eq_true, List.any_eq_false]
    intro x hx
    rw [Bool.and_comm (x.m == m), not_stalled (h x hx)]
    exact Bool.false_ne_true
  unfold roomStalls
  dsimp only
  rw [hnone]
  rfl

theorem preempt_idle (urg : BitVec 32) (h : ∀ x ∈ (gate n s).parts, eligible n (gate n s) old x s = true) :
    preempt n urg old s = s := by
  have hnone : (gate n s).parts.filter (fun x =>
      x.op != .push && rankOf (gate n s) urg x == 3 && eligibleButRoom n (gate n s) old x s && !roomFor n (gate n s) old x s) = [] :=
    List.filter_eq_nil_iff.mpr fun x hx => by rw [not_stalled (h x hx)]; exact Bool.false_ne_true
  unfold preempt
  dsimp only
  rw [hnone]
  rfl

/-- The gate when a draw begins: the grants of the draw before have left the list of the chosen. -/
def drawBegun (n : Nat) (s : State) : State := setGate n { gate n s with chosen := [], skip := false } s

theorem gate_drawBegun (n : Nat) (s : State) : gate n (drawBegun n s) = { gate n s with chosen := [], skip := false } :=
  gate_setGate_same ..

/-- Whether a part is eligible does not hang on what is chosen. -/
theorem eligible_drawBegun (n : Nat) (old : List Part) (a : Part) (s : State) :
    eligible n (gate n (drawBegun n s)) old a (drawBegun n s) = eligible n (gate n s) old a s := by
  rw [gate_drawBegun]
  rfl

/-- The grants that a draw chooses stand in the list of the chosen when it ends. -/
theorem chosen_gateDraw (urg : BitVec 32) (hn : n < 16) (hon : hOn n s = true) (hskip : (gate n s).skip = false)
    (hold : (gate n s).chosen.map (fun x => x.part) = old) {t : State} {won : List Part}
    (hdraw : drawLoop n urg old 8 [] (preempt n urg old (roomStalls n old (drawBegun n s))) = (won, t)) :
    (gate n (gateDraw n urg s)).chosen = (gate n (lossStep n old won t)).chosen := by
  unfold drawBegun at hdraw
  unfold gateDraw
  rw [if_neg (by simp [hon, hn])]
  simp only [hskip, hold, hdraw, Bool.false_eq_true, if_false]
  rw [gate_setGate_same]

/-- The only part that waits, when it is eligible, is chosen. -/
theorem chosen_gateDraw_single (urg : BitVec 32) (hn : n < 16) (hon : hOn n s = true) (hparts : (gate n s).parts = [a])
    (hchosen : (gate n s).chosen = []) (hskip : (gate n s).skip = false) (hm : a.m < 18)
    (heligible : eligible n (gate n s) [] a s = true) : (gate n (gateDraw n urg s)).chosen.map (fun x => x.part) = [a] := by
  have hbegun : (gate n (drawBegun n s)).parts = [a] := by rw [gate_drawBegun]; exact hparts
  have hfirst : eligible n (gate n (drawBegun n s)) [] a (drawBegun n s) = true := (eligible_drawBegun ..).trans heligible
  have hall : ∀ x ∈ (gate n (drawBegun n s)).parts, eligible n (gate n (drawBegun n s)) [] x (drawBegun n s) = true := by
    rw [hbegun]
    intro x hx
    rw [List.mem_singleton.mp hx, hfirst]
  have hgate := gate_grantPart n urg a (drawBegun n s)
  have hempty : (gate n (grantPart n urg a (drawBegun n s))).parts = [] := by
    rw [hgate, grantedGate, hbegun]
    simp
  have hdraw : drawLoop n urg [] 8 [] (preempt n urg [] (roomStalls n [] (drawBegun n s))) =
      ([a], grantPart n urg a (drawBegun n s)) := by
    rw [roomStalls_idle hall, preempt_idle urg hall, drawLoop_takes urg 7 hbegun hm hfirst, drawLoop_ends urg 7 [a] hempty]
  have hold : (gate n s).chosen.map (fun x => x.part) = [] := by rw [hchosen, List.map_nil]
  rw [chosen_gateDraw urg hn hon hskip hold hdraw, lossStep_idle hempty (by simp), hgate, grantedGate, gate_drawBegun]
  rfl

end

theorem exec_gateDraw (n : Nat) (urg : BitVec 32) (s : State) : exec (.gateDraw n urg) s = .next (settled (gateDraw n urg s)) := rfl

/-- Settles O15: each clause is what the command's operation leaves at the gate or at the port before the units settle. -/
theorem gateCommands : Obligations.GateCommands := by
  unfold Obligations.GateCommands
  refine ⟨?regulation, ?complete, ?watchdog, ?commit, ?backoff, ?draw⟩
  case regulation =>
    intro urg s
    refine ⟨_, exec_regulationCheck urg s, ?_⟩
    rw [(fr_rspCreditCycle _).f_rotation rfl, rotation_regulationCheck]
    omega
  case complete =>
    intro n k st s hstage hgathers hlast
    refine ⟨_, exec_curtainComplete n k s, ?_⟩
    rw [curtainComplete_enters hstage hgathers hlast, gate_setGate_same]
    exact ⟨⟨curtainPart n k st, rfl, rfl⟩, mfind_mset_same ..⟩
  case watchdog =>
    intro k x st s hx hstage hgathers
    obtain ⟨u, hu⟩ := curtainWatchdog_tears hx hstage hgathers
    exact ⟨_, exec_curtainWatchdogExpiry k s, hu ▸ tornNext_tearCurtain k u s⟩
  case commit =>
    intro n l s hlock
    exact ⟨_, exec_curtainCommit n s, gate_lock_curtainCommit hlock⟩
  case backoff =>
    intro n m c s h
    rw [exec_backoffExpiry, backoffExpiry_ends h]
  case draw =>
    intro n urg a s hn hon _ hparts hchosen hskip hm heligible
    exact ⟨_, exec_gateDraw n urg s, chosen_gateDraw_single urg hn hon hparts hchosen hskip hm heligible⟩

end Sys2Proof.Machine
end

section
/-! Proofs for data integrity (12_data_integrity.md): the blocks of device memory and their marks (R354, R357). -/

namespace Sys2Proof.Machine

open Reg

/-! ### Bytes and beats -/

theorem leNat_leBytes (k v : Nat) : leNat (leBytes k v) = v % 256 ^ k := by
  induction k generalizing v with
  | zero => rw [leBytes, leNat, Nat.pow_zero, Nat.mod_one]
  | succ k ih =>
    rw [leBytes, leNat, ih, BitVec.toNat_ofNat, Nat.pow_succ' (n := k)]
    exact Nat.mod_mul.symm

theorem beatOf_beatBytes (b : Beat) : beatOf (beatBytes b) = b := by
  rw [beatOf, beatBytes, leNat_leBytes]
  exact BitVec.eq_of_toNat_eq (by rw [BitVec.toNat_ofNat]; have := b.isLt; omega)

theorem length_leBytes (k v : Nat) : (leBytes k v).length = k := by
  induction k generalizing v with
  | zero => rfl
  | succ k ih => rw [leBytes, List.length_cons, ih]

theorem length_beatBytes (b : Beat) : (beatBytes b).length = 64 := length_leBytes ..

theorem leNat_zeros (k : Nat) : leNat (zeros k) = 0 := by
  induction k with
  | zero => rfl
  | succ k ih => rw [zeros, List.replicate_succ, leNat, ← zeros, ih]; rfl

theorem length_zeros (k : Nat) : (zeros k).length = k := List.length_replicate

theorem beatOf_zeros (k : Nat) : beatOf (zeros k) = 0 := congrArg (BitVec.ofNat 512) (leNat_zeros k)

/-! ### Reads of consecutive bytes -/

theorem memBytes_congr {m m' : List Host.Cell} {k len : Nat} (h : ∀ i < len, memByte m' (k + i) = memByte m (k + i)) :
    memBytes m' k len = memBytes m k len := by
  induction len generalizing k with
  | zero => rfl
  | succ len ih =>
    have hrest : ∀ i < len, memByte m' (k + 1 + i) = memByte m (k + 1 + i) := fun i hi => by
      rw [Nat.add_assoc, Nat.add_comm 1]
      exact h (i + 1) (Nat.succ_lt_succ hi)
    rw [memBytes, memBytes, ih hrest]
    exact congrArg (· :: _) (h 0 (Nat.succ_pos len))

theorem memBytes_memWrite_same {m : List Host.Cell} {len : Nat} {bs : List Byte} (k : Nat) (hlen : bs.length = len)
    (h : memWf m = true) : memBytes (memWrite m k bs) k len = bs := by
  subst hlen
  induction bs generalizing m k with
  | nil => rfl
  | cons b bs ih =>
    rw [List.length_cons, memBytes, memWrite, ih (k + 1) (memWf_put k b h), memByte_write_out _ _ _ _ (.inl (Nat.lt_succ_self k)),
      memByte_put_same k b ((memWf_iff m).mp h).1]

/-! ### The list of marks -/

theorem mem_insertRising {l : List Nat} {j k : Nat} : j ∈ insertRising l k ↔ j = k ∨ j ∈ l := by
  induction l with
  | nil => simp [insertRising]
  | cons i l ih =>
    unfold insertRising
    split
    · exact List.mem_cons
    · split
      next hk => subst hk; simp
      · rw [List.mem_cons, ih, List.mem_cons]
        exact or_left_comm

/-! ### A block that is stored (R354) -/

/-- Both a write and a mark of a block store 64 bytes at it. -/
theorem memByte_storedBlock {m : List Host.Cell} {b k : Nat} {bs : List Byte} (hlen : bs.length = 64)
    (h : k < 64 * b ∨ 64 * b + 64 ≤ k) : memByte (memWrite m (64 * b) bs) k = memByte m k :=
  memByte_write_out m (64 * b) k bs (hlen ▸ h)

theorem beatOf_storedBlock_same {m : List Host.Cell} {bs : List Byte} (b : Nat) (hlen : bs.length = 64) (h : memWf m = true) :
    beatOf (memBytes (memWrite m (64 * b) bs) (64 * b) 64) = beatOf bs :=
  congrArg beatOf (memBytes_memWrite_same (64 * b) hlen h)

theorem beatOf_storedBlock_ne {m : List Host.Cell} {a b : Nat} {bs : List Byte} (hlen : bs.length = 64) (h : a ≠ b) :
    beatOf (memBytes (memWrite m (64 * b) bs) (64 * a) 64) = beatOf (memBytes m (64 * a) 64) :=
  congrArg beatOf (memBytes_congr fun i hi => memByte_storedBlock hlen (by omega))

section
variable {n c off : Nat} {s : State}

theorem readBlock_writeBlock_same (d : Beat) (h : Inv s) : readBlock n c off (writeBlock n c off d s) = d :=
  (beatOf_storedBlock_same _ (length_beatBytes d) h).trans (beatOf_beatBytes d)

theorem readBlock_writeBlock_ne {n' c' off' : Nat} (d : Beat) (h : blockKey n' c' off' ≠ blockKey n c off) :
    readBlock n' c' off' (writeBlock n c off d s) = readBlock n' c' off' s := beatOf_storedBlock_ne (length_beatBytes d) h

theorem isMarked_writeBlock_ne {n' c' off' : Nat} (d : Beat) (h : blockKey n' c' off' ≠ blockKey n c off) :
    isMarked n' c' off' (writeBlock n c off d s) = isMarked n' c' off' s := by
  rw [isMarked, isMarked, writeBlock, Bool.eq_iff_iff, List.contains_iff_mem, List.contains_iff_mem]
  exact List.mem_erase_of_ne h

theorem readBlock_markBlock_same (h : Inv s) : readBlock n c off (markBlock n c off s) = 0 := by
  rw [readBlock, markBlock, beatOf_storedBlock_same _ (length_zeros 64) h, beatOf_zeros]

theorem readBlock_markBlock_ne {n' c' off' : Nat} (h : blockKey n' c' off' ≠ blockKey n c off) :
    readBlock n' c' off' (markBlock n c off s) = readBlock n' c' off' s := by
  rw [readBlock, markBlock, beatOf_storedBlock_ne (length_zeros 64) h, readBlock]

theorem isMarked_markBlock {n' c' off' : Nat} :
    isMarked n' c' off' (markBlock n c off s) = true ↔ blockKey n' c' off' = blockKey n c off ∨ isMarked n' c' off' s = true := by
  rw [isMarked, isMarked, markBlock, List.contains_iff_mem, List.contains_iff_mem, mem_insertRising]

end

/-- Settles O60: both operations store 64 bytes at the block and change the list of marks at its number alone. -/
theorem deviceMemory : Obligations.DeviceMemory := by
  unfold Obligations.DeviceMemory
  refine ⟨fun n c off d s hinv => ⟨readBlock_writeBlock_same d hinv, (fr_writeBlock n c off d s).memOk hinv, fun k hk => ?byte,
    fun n' c' off' hne => ⟨readBlock_writeBlock_ne d hne, isMarked_writeBlock_ne d hne⟩⟩,
    fun n c off s hinv => ⟨readBlock_markBlock_same hinv, isMarked_markBlock.mpr (.inl rfl),
      fun n' c' off' hne => ⟨readBlock_markBlock_ne hne, ?mark⟩⟩⟩
  case byte => exact memByte_storedBlock (length_beatBytes d) hk
  case mark => rw [Bool.eq_iff_iff, isMarked_markBlock, or_iff_right hne]

end Sys2Proof.Machine
end

section
/-! Proofs for data integrity: the report of an uncorrectable block (R361). -/

namespace Sys2Proof.Machine

open Reg

/-! ### Fields written together -/

/-- Writes of fields whose keys differ: each field holds its own value. -/
theorem rd_putAll_of_nodup {l : List (Fld × Nat)} {x : Fld × Nat} (s : State) (hl : (l.map fun y => y.1.key).Nodup) (hx : x ∈ l)
    (hacc : x.1.acc ≠ .rws) : rd x.1 (putAll l s) = x.2 % 2 ^ x.1.w := by
  induction l generalizing s with
  | nil => cases hx
  | cons y l ih =>
    obtain ⟨hnew, hrest⟩ := List.nodup_cons.mp hl
    obtain rfl | hx := List.mem_cons.mp hx
    · rw [putAll_cons, rd_putAll_ne _ _ _ fun z hz h => hnew (List.mem_map.mpr ⟨z, hz, h.symm⟩), rd_put_same _ _ _ hacc]
    · rw [putAll_cons, ih _ hrest hx]

/-! ### An interrupt that is signalled (R361, R449, R508) -/

theorem portsOpen_congr {s t : State} (h : rd GLB_STATUS.PORTS_OPEN t = rd GLB_STATUS.PORTS_OPEN s) : portsOpen t = portsOpen s := by
  rw [portsOpen, on, h, portsOpen, on]

theorem msgBlocked_congr (v : Nat) {s t : State} (hhost : t.host = s.host) (hpower : t.power = s.power)
    (hopen : rd GLB_STATUS.PORTS_OPEN t = rd GLB_STATUS.PORTS_OPEN s) : msgBlocked v t = msgBlocked v s := by
  have hcfg (off k : Nat) (ht : cfgReset off t = k) (hs : cfgReset off s = k) : cfgD off t = cfgD off s := by
    rw [cfgD, cfgD, hhost, ht, hs]
  unfold msgBlocked busMaster hasOpened
  rw [hcfg 0x04 0x00100000 rfl rfl, hcfg 0x44 0x8 rfl rfl, hcfg 0xB0 0x003F0011 rfl rfl, hhost, hpower, portsOpen_congr hopen]

theorem mailboxAway_congr {s t : State} (hset : rd FWM_MBX_REQ_CFG.HSET t = rd FWM_MBX_REQ_CFG.HSET s)
    (hstate : rd (CTX_HB_STATUS.STATE (rd FWM_MBX_REQ_CFG.HSET s)) t = rd (CTX_HB_STATUS.STATE (rd FWM_MBX_REQ_CFG.HSET s)) s) :
    mailboxAway t = mailboxAway s := by
  rw [mailboxAway, setAway, hset, hstate, mailboxAway, setAway]

theorem intField_acc (b : Nat) : (intField b).acc = .w1c := by
  unfold intField
  split <;> rfl

theorem on_raiseInt_same (b : Nat) (s : State) : on (intField b) (raiseInt b s) = true := by
  have hacc : (intField b).acc ≠ .rws := by rw [intField_acc]; nofun
  have hw : (intField b).w = 1 := by unfold intField; split <;> rfl
  have hput : rd (intField b) (put (intField b) 1 s) = 1 := by rw [rd_put_same _ _ _ hacc, hw]; rfl
  unfold raiseInt
  split
  next h => exact h
  · dsimp only
    split
    · exact on_of_rd_eq_one hput
    · exact on_of_rd_eq_one (((fr_sendMsg ..).rd_eq _ rfl rfl).trans hput)

/-- The rise of an interrupt that is not masked, of a mailbox that is there, leaves on its vector if a message can be sent. -/
theorem raiseInt_signals {b : Nat} {s : State} (hclear : on (intField b) s = false)
    (hmask : (rd INT_MASK.MASK (put (intField b) 1 s)).testBit b = false) (haway : mailboxAway (put (intField b) 1 s) = false)
    (hfree : msgBlocked 0 (put (intField b) 1 s) = false) : raiseInt b s = sendMsgNow 0 (put (intField b) 1 s) := by
  rw [raiseInt, hclear, if_neg Bool.false_ne_true]
  dsimp only
  rw [hmask, haway, Bool.or_self, if_neg Bool.false_ne_true, sendMsg, hfree, if_neg Bool.false_ne_true]

/-! ### Event bits of the hives -/

theorem rd_hiveEvent_ne {f g : Fld} (i : Nat) (s : State) (hg : f.key ≠ g.key) (hint : f.key ≠ (intField 3).key) :
    rd f (hiveEvent g i s) = rd f s := by
  unfold hiveEvent
  split
  · rfl
  · rw [rd_raiseInt _ _ _ hint, rd_put_ne _ _ _ _ hg]

theorem testBit_setBit_same (v i : Nat) : (setBit v i).testBit i = true := by
  rw [setBit, Nat.testBit_or, Nat.testBit_two_pow_self, Bool.or_true]

theorem testBit_hiveEvent {f : Fld} {i : Nat} (s : State) (hacc : f.acc ≠ .rws) (hint : f.key ≠ (intField 3).key) (hi : i < f.w) :
    (rd f (hiveEvent f i s)).testBit i = true := by
  unfold hiveEvent
  split
  next h => exact h
  · rw [rd_raiseInt _ _ _ hint, rd_put_same _ _ _ hacc, Nat.testBit_mod_two_pow, testBit_setBit_same, decide_eq_true hi]
    rfl

/-! ### What an uncorrectable block shows -/

/-- The row of a block that is not marked is noted: it may call for a remap entry. -/
def ueNoted (n c off : Nat) (marked : Bool) (s : State) : State :=
  if marked then s
  else setPc n c (splitOff n off s).p
    { pcOf n c (splitOff n off s).p s with ueRows := insertRising (pcOf n c (splitOff n off s).p s).ueRows (rowKey (splitOff n off s)) } s

/-- The block is counted. -/
def ueCounted (n : Nat) (marked : Bool) (s : State) : State :=
  if marked then bump (ECC_UE_CNT.MARKED n) 1 (bump (ECC_UE_CNT.COUNT n) 1 s) else bump (ECC_UE_CNT.COUNT n) 1 s

/-- The fields of a record: the place v of the block, its DRAM row and its source. -/
def ueFields (n c src row : Nat) (v : Split) : List (Fld × Nat) :=
  [(ECC_UE_INFO_LO.ROW n, row), (ECC_UE_INFO_LO.BANK n, v.bank), (ECC_UE_INFO_LO.SID n, v.sid), (ECC_UE_INFO_LO.PC n, v.p),
    (ECC_UE_INFO_LO.CH n, c), (ECC_UE_INFO_HI.SRC n, src), (ECC_UE_INFO_HI.VALID n, 1)]

/-- The block is recorded unless a record stands. -/
def ueRecorded (n c src row : Nat) (v : Split) (s : State) : State :=
  if on (ECC_UE_INFO_HI.VALID n) s then put (ECC_UE_INFO_HI.OVERFLOW n) 1 s else putAll (ueFields n c src row v) s

/-- All that a report does but for the hive's event bit. -/
def ueShown (n c off src : Nat) (marked : Bool) (s : State) : State :=
  emit 0x501 1 (some n) none none (some c)
    (ueRecorded n c src (placeRow n (splitOff n off s).row s) (splitOff n off s) (ueCounted n marked (ueNoted n c off marked s)))

theorem fr_ueNoted (n c off : Nat) (marked : Bool) (s : State) : Frame 0x100000 s (ueNoted n c off marked s) := by
  unfold ueNoted
  exact Frame.ite .refl (fr_setPc ..)

theorem placeRow_congr (n row : Nat) {s t : State} (h : t.regs = s.regs) (k : t.force = s.force) : placeRow n row t = placeRow n row s := by
  unfold placeRow
  rw [inlineCheck_congr n h k]

theorem uncorrectable_eq (n c off src : Nat) (marked : Bool) (s : State) :
    uncorrectable n c off src marked s = hiveEvent ECC_HIVE_EVENT.UE n (ueShown n c off src marked s) := by
  have hframe := fr_ueNoted n c off marked s
  rw [ueShown, ← placeRow_congr n (splitOff n off s).row (hframe.f_regs rfl) (hframe.f_force rfl)]
  rfl

section
variable {n c off src row : Nat} {marked : Bool} {v : Split} {s : State}

theorem rd_ueCounted_ne {f : Fld} (hcount : f.key ≠ (ECC_UE_CNT.COUNT n).key) (hmarked : f.key ≠ (ECC_UE_CNT.MARKED n).key) :
    rd f (ueCounted n marked s) = rd f s := by
  have hbump : rd f (bump (ECC_UE_CNT.COUNT n) 1 s) = rd f s := rd_put_ne _ _ _ _ hcount
  unfold ueCounted
  split
  · exact (rd_put_ne _ _ _ _ hmarked).trans hbump
  · exact hbump

theorem rd_count_ueCounted : rd (ECC_UE_CNT.COUNT n) (ueCounted n marked s) =
    min (rd (ECC_UE_CNT.COUNT n) s + 1) (2 ^ (ECC_UE_CNT.COUNT n).w - 1) := by
  have hbump := rd_bump_same (ECC_UE_CNT.COUNT n) 1 s nofun
  have hkey : (ECC_UE_CNT.COUNT n).key ≠ (ECC_UE_CNT.MARKED n).key := by
    simp only [Fld.key, ECC_UE_CNT.COUNT, ECC_UE_CNT.MARKED]
    omega
  unfold ueCounted
  split
  · exact (rd_put_ne _ _ _ _ hkey).trans hbump
  · exact hbump

theorem ueFields_nodup (n c src row : Nat) (v : Split) : ((ueFields n c src row v).map fun x => x.1.key).Nodup := by
  simp only [ueFields, List.map_cons, List.map_nil, Fld.key, ECC_UE_INFO_LO.ROW, ECC_UE_INFO_LO.BANK, ECC_UE_INFO_LO.SID,
    ECC_UE_INFO_LO.PC, ECC_UE_INFO_LO.CH, ECC_UE_INFO_HI.SRC, ECC_UE_INFO_HI.VALID, List.nodup_cons, List.mem_cons, List.not_mem_nil,
    or_false, not_or, List.nodup_nil, not_false_eq_true, and_true]
  omega

theorem ueFields_acc {x : Fld × Nat} (h : x ∈ ueFields n c src row v) : x.1.acc ≠ .rws := by
  fin_cases h <;> nofun

theorem ueFields_key {x : Fld × Nat} (h : x ∈ ueFields n c src row v) :
    8 * 0x110414 ≤ x.1.key ∧ x.1.key < (ECC_UE_CNT.COUNT n).key ∧ x.1.key ≠ (ECC_UE_INFO_HI.OVERFLOW n).key := by
  have hall : ∀ x ∈ ueFields n c src row v,
      8 * 0x110414 ≤ x.1.key ∧ x.1.key < (ECC_UE_CNT.COUNT n).key ∧ x.1.key ≠ (ECC_UE_INFO_HI.OVERFLOW n).key := by
    simp only [ueFields, List.forall_mem_cons, Fld.key, ECC_UE_INFO_LO.ROW, ECC_UE_INFO_LO.BANK, ECC_UE_INFO_LO.SID,
      ECC_UE_INFO_LO.PC, ECC_UE_INFO_LO.CH, ECC_UE_INFO_HI.SRC, ECC_UE_INFO_HI.VALID, ECC_UE_INFO_HI.OVERFLOW, ECC_UE_CNT.COUNT]
    refine ⟨by omega, by omega, by omega, by omega, by omega, by omega, by omega, nofun⟩
  exact hall x h

theorem rd_ueRecorded_ne {f : Fld} (hoverflow : f.key ≠ (ECC_UE_INFO_HI.OVERFLOW n).key)
    (hfields : ∀ x ∈ ueFields n c src row v, f.key ≠ x.1.key) : rd f (ueRecorded n c src row v s) = rd f s := by
  unfold ueRecorded
  split
  · exact rd_put_ne _ _ _ _ hoverflow
  · exact rd_putAll_ne _ _ _ hfields

/-- A record that stands stays, and OVERFLOW tells of the block. -/
theorem ueRecorded_stands (h : on (ECC_UE_INFO_HI.VALID n) s = true) :
    on (ECC_UE_INFO_HI.OVERFLOW n) (ueRecorded n c src row v s) = true ∧
      ∀ x ∈ ueFields n c src row v, rd x.1 (ueRecorded n c src row v s) = rd x.1 s := by
  unfold ueRecorded
  rw [if_pos h]
  exact ⟨on_of_rd_eq_one (rd_put_same _ _ _ nofun), fun x hx => rd_put_ne _ _ _ _ (ueFields_key hx).2.2⟩

theorem ueRecorded_records (h : on (ECC_UE_INFO_HI.VALID n) s = false) :
    rd (ECC_UE_INFO_HI.OVERFLOW n) (ueRecorded n c src row v s) = rd (ECC_UE_INFO_HI.OVERFLOW n) s ∧
      ∀ x ∈ ueFields n c src row v, rd x.1 (ueRecorded n c src row v s) = x.2 % 2 ^ x.1.w := by
  unfold ueRecorded
  rw [if_neg (Bool.eq_false_iff.mp h)]
  exact ⟨rd_putAll_ne _ _ _ fun x hx => (ueFields_key hx).2.2.symm,
    fun x hx => rd_putAll_of_nodup s (ueFields_nodup n c src row v) hx (ueFields_acc hx)⟩

/-- The counts and the record lie in the hive's area, the event bit and the interrupt below it. -/
theorem rd_uncorrectable {f : Fld} (h : 8 * 0x110414 ≤ f.key) :
    rd f (uncorrectable n c off src marked s) = rd f (ueRecorded n c src (placeRow n (splitOff n off s).row s) (splitOff n off s)
      (ueCounted n marked (ueNoted n c off marked s))) := by
  rw [uncorrectable_eq, rd_hiveEvent_ne _ _ (Nat.ne_of_gt (Nat.lt_of_lt_of_le (by decide) h))
    (Nat.ne_of_gt (Nat.lt_of_lt_of_le (by decide) h))]
  exact (fr_emit ..).rd_eq f rfl rfl

theorem ueCount_key (n : Nat) : 8 * 0x110414 ≤ (ECC_UE_CNT.COUNT n).key ∧ (ECC_UE_CNT.COUNT n).key < (ECC_UE_CNT.MARKED n).key ∧
    8 * 0x110414 ≤ (ECC_UE_INFO_HI.OVERFLOW n).key ∧ (ECC_UE_INFO_HI.OVERFLOW n).key < (ECC_UE_CNT.COUNT n).key := by
  simp only [Fld.key, ECC_UE_CNT.COUNT, ECC_UE_CNT.MARKED, ECC_UE_INFO_HI.OVERFLOW]
  omega

/-- The counts lie above the record. -/
theorem rd_ueCounted_ueNoted {f : Fld} (h : f.key < (ECC_UE_CNT.COUNT n).key) :
    rd f (ueCounted n marked (ueNoted n c off marked s)) = rd f s :=
  (rd_ueCounted_ne (Nat.ne_of_lt h) (Nat.ne_of_lt (h.trans (ueCount_key n).2.1))).trans ((fr_ueNoted ..).rd_eq f rfl rfl)

theorem rd_count_uncorrectable (n c off src : Nat) (marked : Bool) (s : State) :
    rd (ECC_UE_CNT.COUNT n) (uncorrectable n c off src marked s) =
      min (rd (ECC_UE_CNT.COUNT n) s + 1) (2 ^ (ECC_UE_CNT.COUNT n).w - 1) := by
  obtain ⟨hlow, -, -, hoverflow⟩ := ueCount_key n
  rw [rd_uncorrectable hlow, rd_ueRecorded_ne (Nat.ne_of_gt hoverflow) fun x hx => Nat.ne_of_gt (ueFields_key hx).2.1,
    rd_count_ueCounted, (fr_ueNoted ..).rd_eq _ rfl rfl]

/-- The record's VALID before the block is recorded. -/
theorem on_valid_ueCounted (n c off : Nat) (marked : Bool) (s : State) :
    on (ECC_UE_INFO_HI.VALID n) (ueCounted n marked (ueNoted n c off marked s)) = on (ECC_UE_INFO_HI.VALID n) s := by
  have hvalid : (ECC_UE_INFO_HI.VALID n).key < (ECC_UE_CNT.COUNT n).key := by
    simp only [Fld.key, ECC_UE_CNT.COUNT, ECC_UE_INFO_HI.VALID]
    omega
  rw [on, rd_ueCounted_ueNoted hvalid, on]

theorem uncorrectable_stands (h : on (ECC_UE_INFO_HI.VALID n) s = true) :
    on (ECC_UE_INFO_HI.OVERFLOW n) (uncorrectable n c off src marked s) = true ∧
      ∀ x ∈ ueFields n c src (placeRow n (splitOff n off s).row s) (splitOff n off s),
        rd x.1 (uncorrectable n c off src marked s) = rd x.1 s := by
  obtain ⟨hoverflow, hkept⟩ := ueRecorded_stands (c := c) (src := src) (row := placeRow n (splitOff n off s).row s)
    (v := splitOff n off s) ((on_valid_ueCounted n c off marked s).trans h)
  obtain ⟨-, -, hlow, -⟩ := ueCount_key n
  refine ⟨?_, fun x hx => ?_⟩
  · rw [on, rd_uncorrectable hlow]
    exact hoverflow
  · obtain ⟨hlow, hcount, -⟩ := ueFields_key hx
    rw [rd_uncorrectable hlow, hkept x hx, rd_ueCounted_ueNoted hcount]

theorem uncorrectable_records (h : on (ECC_UE_INFO_HI.VALID n) s = false) :
    rd (ECC_UE_INFO_HI.OVERFLOW n) (uncorrectable n c off src marked s) = rd (ECC_UE_INFO_HI.OVERFLOW n) s ∧
      ∀ x ∈ ueFields n c src (placeRow n (splitOff n off s).row s) (splitOff n off s),
        rd x.1 (uncorrectable n c off src marked s) = x.2 % 2 ^ x.1.w := by
  obtain ⟨hkept, hfields⟩ := ueRecorded_records (c := c) (src := src) (row := placeRow n (splitOff n off s).row s)
    (v := splitOff n off s) ((on_valid_ueCounted n c off marked s).trans h)
  obtain ⟨-, -, hlow, hcount⟩ := ueCount_key n
  refine ⟨?_, fun x hx => (rd_uncorrectable (ueFields_key hx).1).trans (hfields x hx)⟩
  rw [rd_uncorrectable hlow, hkept, rd_ueCounted_ueNoted hcount]

/-- Neither the counts nor the record of a hive touch a field below them. -/
theorem rd_ueShown_below {f : Fld} (h : f.key < 8 * 0x110414) : rd f (ueShown n c off src marked s) = rd f s := by
  have hfields : ∀ x ∈ ueFields n c src (placeRow n (splitOff n off s).row s) (splitOff n off s), f.key ≠ x.1.key :=
    fun x hx => Nat.ne_of_lt (Nat.lt_of_lt_of_le h (ueFields_key hx).1)
  have hothers : f.key ≠ (ECC_UE_INFO_HI.OVERFLOW n).key ∧ f.key ≠ (ECC_UE_CNT.COUNT n).key ∧ f.key ≠ (ECC_UE_CNT.MARKED n).key := by
    simp only [Fld.key, ECC_UE_INFO_HI.OVERFLOW, ECC_UE_CNT.COUNT, ECC_UE_CNT.MARKED] at h ⊢
    omega
  obtain ⟨hoverflow, hcount, hmarked⟩ := hothers
  rw [ueShown, (fr_emit ..).rd_eq f rfl rfl, rd_ueRecorded_ne hoverflow hfields, rd_ueCounted_ne hcount hmarked,
    (fr_ueNoted ..).rd_eq f rfl rfl]

theorem fr_ueShown (n c off src : Nat) (marked : Bool) (s : State) : Frame 0x40000100004 s (ueShown n c off src marked s) := by
  have hcounted (t : State) : Frame 0x4 t (ueCounted n marked t) :=
    Frame.ite ((fr_bump ..).seq (fr_bump ..) rfl) (fr_bump ..)
  have hrecorded (row : Nat) (v : Split) (t : State) : Frame 0x4 t (ueRecorded n c src row v t) := Frame.ite (fr_put ..) (fr_putAll ..)
  exact ((((fr_ueNoted ..).mono rfl).seq (hcounted _) rfl).seq (hrecorded ..) rfl).seq (fr_emit ..) rfl

/-- The event bit of a hive has risen and the integrity interrupt with it; no message has left yet. -/
def ueRisen (n c off src : Nat) (marked : Bool) (s : State) : State :=
  put (intField 3) 1 (put ECC_HIVE_EVENT.UE (setBit (rd ECC_HIVE_EVENT.UE s) n) (ueShown n c off src marked s))

theorem rd_ueRisen {f : Fld} (hlow : f.key < 8 * 0x110414) (hevent : f.key ≠ ECC_HIVE_EVENT.UE.key) (hint : f.key ≠ (intField 3).key) :
    rd f (ueRisen n c off src marked s) = rd f s := by
  rw [ueRisen, rd_put_ne _ _ _ _ hint, rd_put_ne _ _ _ _ hevent, rd_ueShown_below hlow]

theorem fr_ueRisen (n c off src : Nat) (marked : Bool) (s : State) : Frame 0x40000100004 s (ueRisen n c off src marked s) :=
  ((fr_ueShown ..).seq (fr_put ..) rfl).seq (fr_put ..) rfl

/-- The hive's event bit rises: the integrity interrupt is raised where it was not, and signalled unless something holds it back. -/
theorem uncorrectable_signals (hclear : (rd ECC_HIVE_EVENT.UE s).testBit n = false) (hset : rd FWM_MBX_REQ_CFG.HSET s < 64)
    (hint : on (intField 3) s = false) (hmask : (rd INT_MASK.MASK s).testBit 3 = false) (haway : mailboxAway s = false)
    (hfree : msgBlocked 0 s = false) :
    uncorrectable n c off src marked s = sendMsgNow 0 (ueRisen n c off src marked s) := by
  have hframe := fr_ueRisen n c off src marked s
  have hevent : rd ECC_HIVE_EVENT.UE (ueShown n c off src marked s) = rd ECC_HIVE_EVENT.UE s := rd_ueShown_below (by decide)
  have hstate : rd (CTX_HB_STATUS.STATE (rd FWM_MBX_REQ_CFG.HSET s)) (ueRisen n c off src marked s) =
      rd (CTX_HB_STATUS.STATE (rd FWM_MBX_REQ_CFG.HSET s)) s := by
    generalize rd FWM_MBX_REQ_CFG.HSET s = h at hset
    exact rd_ueRisen (by simp only [Fld.key, CTX_HB_STATUS.STATE]; omega)
      (by simp only [Fld.key, CTX_HB_STATUS.STATE, ECC_HIVE_EVENT.UE]; omega)
      (by simp only [Fld.key, CTX_HB_STATUS.STATE, intField, INT_STATUS.INTEGRITY]; omega)
  have hdown : on (intField 3) (put ECC_HIVE_EVENT.UE (setBit (rd ECC_HIVE_EVENT.UE s) n) (ueShown n c off src marked s)) = false := by
    rw [on, rd_put_ne _ _ _ _ (by decide), rd_ueShown_below (by decide)]
    exact hint
  rw [uncorrectable_eq, hiveEvent, hevent, hclear, if_neg Bool.false_ne_true]
  refine raiseInt_signals hdown ?mask ?away ?free
  case mask => exact (congrArg (Nat.testBit · 3) (rd_ueRisen (by decide) (by decide) (by decide))).trans hmask
  case away => exact (mailboxAway_congr (rd_ueRisen (by decide) (by decide) (by decide)) hstate).trans haway
  case free =>
    exact (msgBlocked_congr 0 (hframe.f_host rfl) (hframe.f_power rfl) (rd_ueRisen (by decide) (by decide) (by decide))).trans hfree

end

/-- Settles O19: the report is counted and recorded in the hive's area, and the rise of its event bit is signalled. -/
theorem uncorrectableReport : Obligations.UncorrectableReport := by
  unfold Obligations.UncorrectableReport
  intro n c off src marked s hn
  refine ⟨rd_count_uncorrectable n c off src marked s, fun hvalid => ?stands, fun hvalid => ?records, ?event,
    fun hclear hset hint hmask haway hfree => ?signal⟩
  case stands =>
    obtain ⟨hoverflow, hkept⟩ := uncorrectable_stands (c := c) (off := off) (src := src) (marked := marked) hvalid
    exact ⟨hoverflow, (List.forall_mem_map (f := Prod.fst) (l := ueFields ..) (P := fun f => rd f _ = rd f s)).mpr hkept⟩
  case records =>
    obtain ⟨hoverflow, hfields⟩ := uncorrectable_records (c := c) (off := off) (src := src) (marked := marked) hvalid
    exact ⟨on_of_rd_eq_one (hfields (ECC_UE_INFO_HI.VALID n, 1) (List.mem_append_right [_, _, _, _, _, _] (List.mem_singleton_self _))),
      hoverflow, fun x hx => hfields x (List.mem_append_left [_] hx)⟩
  case event =>
    rw [uncorrectable_eq]
    exact testBit_hiveEvent _ nofun (by decide) hn
  case signal =>
    have hframe := fr_ueRisen n c off src marked s
    rw [uncorrectable_signals hclear hset hint hmask haway hfree, ← hframe.f_host rfl, ← hframe.f_out rfl]
    exact ⟨on_of_rd_eq_one (((fr_sendMsgNow ..).rd_eq _ rfl rfl).trans (rd_put_same _ _ _ nofun)), rfl⟩

end Sys2Proof.Machine
end

section
/-! Proofs for data integrity: the runs of scrub (R372 to R374). -/

namespace Sys2Proof.Machine

open Reg

/-! ### A run that starts, goes on and ends -/

theorem scrubEnd_ends (s : State) : (scrubEnd s).scrubRun = none ∧ on ECC_SCRUB_CTRL.BUSY (scrubEnd s) = false :=
  ⟨rfl, on_eq_false_of_rd (rd_putAll_mem ECC_SCRUB_CTRL.BUSY 0 [(ECC_SCRUB_SUMMARY.VALID, 1)] [] s nofun rfl)⟩

theorem rd_result_scrubEnd (s : State) : rd ECC_SCRUB_SUMMARY.RESULT (scrubEnd s) = rd ECC_SCRUB_SUMMARY.RESULT s :=
  (rd_congr _ rfl rfl).trans (rd_putAll_of_all ECC_SCRUB_SUMMARY.RESULT [(ECC_SCRUB_SUMMARY.VALID, 1), (ECC_SCRUB_CTRL.BUSY, 0)] s rfl)

/-- What the run before has left in the registers goes. -/
def scrubCleared : List (Fld × Nat) :=
  [(ECC_SCRUB_SUMMARY.VALID, 0), (ECC_SCRUB_SUMMARY.CORRECTED, 0), (ECC_SCRUB_SUMMARY.RESULT, 0), (ECC_SCRUB_UE.COUNT, 0),
    (ECC_SCRUB_UE_ADDR.ADDR, 0), (ECC_SCRUB_PROGRESS.PROGRESS, 0)]

/-- The state in which a run from block b to block l begins. -/
def scrubBegun (b l : Nat) (s : State) : State :=
  { putAll (scrubCleared ++ [(ECC_SCRUB_CTRL.BUSY, 1)]) s with scrubRun := some (b, b, l) }

theorem on_busy_scrubBegun (b l : Nat) (s : State) : on ECC_SCRUB_CTRL.BUSY (scrubBegun b l s) = true :=
  on_of_rd_eq_one ((rd_congr _ rfl rfl).trans (rd_putAll_mem ECC_SCRUB_CTRL.BUSY 1 scrubCleared [] s nofun rfl))

/-- A run that may start queues its first block. -/
theorem scrubGo_starts {s : State} (hidle : on ECC_SCRUB_CTRL.BUSY s = false) (hbooted : s.fw.stage ≠ 0)
    (htop : rd ECC_SCRUB_LIMIT.ADDR s / 64 * 64 < rd GLB_MEM_TOP.TOP s * 2 ^ 20)
    (hrange : rd ECC_SCRUB_BASE.ADDR s / 64 * 64 ≤ rd ECC_SCRUB_LIMIT.ADDR s / 64 * 64) :
    scrubGo s = queueScrub (rd ECC_SCRUB_BASE.ADDR s / 64 * 64)
      (scrubBegun (rd ECC_SCRUB_BASE.ADDR s / 64 * 64) (rd ECC_SCRUB_LIMIT.ADDR s / 64 * 64) s) := by
  have hok : ¬ (rd GLB_MEM_TOP.TOP s * 2 ^ 20 ≤ rd ECC_SCRUB_LIMIT.ADDR s / 64 * 64 ∨
      rd ECC_SCRUB_LIMIT.ADDR s / 64 * 64 < rd ECC_SCRUB_BASE.ADDR s / 64 * 64) :=
    not_or.mpr ⟨Nat.not_le.mpr htop, Nat.not_lt.mpr hrange⟩
  unfold scrubGo
  rw [if_neg (by simp [hidle, hbooted])]
  dsimp only
  rw [if_neg (by simpa only [Bool.or_eq_true, decide_eq_true_eq] using hok)]
  rfl

theorem scrubNext_run (b a l : Nat) (s : State) : (scrubNext b a l s).scrubRun = some (b, a + 64, l) := by
  unfold scrubNext
  dsimp only
  split
  · rw [(fr_queueScrub ..).f_scrubRun rfl]
  · rfl

theorem scrubRead_advances {b a l : Nat} {x : Place} {s : State} (errs : ErrPat) (hrun : s.scrubRun = some (b, a, l)) (hal : a ≤ l)
    (hplace : mapAddr a s = some x) (hused : pcUsed x.n x.c (workPc x.n x.c x.off s) s = true)
    (hread : (pcOf x.n x.c (workPc x.n x.c x.off s) s).scrubs.contains x.off = true) :
    (scrubRead errs s).scrubRun = some (b, a + 64, l) := by
  unfold scrubRead
  rw [hrun]
  dsimp only
  rw [if_neg (Nat.not_lt.mpr hal), hplace]
  dsimp only
  rw [if_neg (by simp [hused]), if_neg (by simp only [hread]; decide)]
  exact scrubNext_run ..

theorem scrubRunEnd_ends {b a l : Nat} {s : State} (hrun : s.scrubRun = some (b, a, l)) (hpast : l < a) (hsettled : scrubSettled s = true) :
    scrubRunEnd s = scrubEnd s := by
  unfold scrubRunEnd
  rw [hrun]
  dsimp only
  rw [if_pos (by simp [hpast, hsettled])]

/-! ### A run that is stopped (R372) -/

/-- What `dropScrubs` leaves of a pseudo-channel. -/
theorem mem_dropScrubs {x : Nat × Pc} {s : State} (h : x ∈ (dropScrubs s).pcs) :
    ∃ y ∈ s.pcs, x.2.retries = y.2.retries ∧ x.2.scrubs = y.2.scrubs := by
  obtain ⟨y, hy, rfl⟩ := List.mem_map.mp h
  exact ⟨y, hy, rfl, rfl⟩

theorem scrubStop_ends {b a l : Nat} {s : State} (hrun : s.scrubRun = some (b, a, l)) (hal : a ≤ l)
    (hquiet : ∀ x ∈ s.pcs, x.2.retries = [] ∧ x.2.scrubs = []) :
    scrubStop s = scrubEnd (dropScrubs (put ECC_SCRUB_SUMMARY.RESULT 2 s)) := by
  have hleft : ∀ x ∈ (dropScrubs (put ECC_SCRUB_SUMMARY.RESULT 2 s)).pcs, x.2.retries = [] ∧ x.2.scrubs = [] := by
    intro x hx
    obtain ⟨y, hy, hretries, hscrubs⟩ := mem_dropScrubs hx
    obtain ⟨hnoRetry, hnoScrub⟩ := hquiet y hy
    exact ⟨hretries.trans hnoRetry, hscrubs.trans hnoScrub⟩
  have hflying : scrubFlying (dropScrubs (put ECC_SCRUB_SUMMARY.RESULT 2 s)) = false :=
    List.any_eq_false.mpr fun x hx => by simp [(hleft x hx).2]
  have hsettled : scrubSettled (dropScrubs (put ECC_SCRUB_SUMMARY.RESULT 2 s)) = true :=
    List.all_eq_true.mpr fun x hx => by simp [(hleft x hx).1]
  unfold scrubStop
  rw [hrun]
  dsimp only
  rw [if_neg (Nat.not_lt.mpr hal), if_neg (by simp [hflying]), if_pos hsettled]

/-! ### The commands -/

theorem exec_scrubGo (s : State) : exec .scrubGo s = .next (scrubGo s) := rfl
theorem exec_scrubRead (errs : ErrPat) (s : State) : exec (.scrubRead errs) s = .next (scrubRead errs s) := rfl
theorem exec_scrubRunEnd (s : State) : exec .scrubRunEnd s = .next (scrubRunEnd s) := rfl
theorem exec_scrubStop (s : State) : exec .scrubStop s = .next (scrubStop s) := rfl

/-- Settles O21: each clause reads the run and the registers that the command leaves. -/
theorem scrubCommands : Obligations.ScrubCommands := by
  unfold Obligations.ScrubCommands
  refine ⟨?go, ?read, ?ends, ?stops⟩
  case go =>
    intro s hidle hbooted htop hrange
    refine ⟨_, exec_scrubGo s, ?_⟩
    rw [scrubGo_starts hidle hbooted htop hrange, on, (fr_queueScrub ..).rd_eq _ rfl rfl, (fr_queueScrub ..).f_scrubRun rfl]
    exact ⟨on_busy_scrubBegun .., rfl⟩
  case read =>
    intro b a l x errs s hrun hal hplace hused hread
    exact ⟨_, exec_scrubRead errs s, scrubRead_advances errs hrun hal hplace hused hread⟩
  case ends =>
    intro b a l s hrun hpast hsettled
    refine ⟨_, exec_scrubRunEnd s, ?_⟩
    rw [scrubRunEnd_ends hrun hpast hsettled]
    exact scrubEnd_ends s
  case stops =>
    intro b a l s hrun hal hquiet
    refine ⟨_, exec_scrubStop s, ?_⟩
    rw [scrubStop_ends hrun hal hquiet, rd_result_scrubEnd, (fr_dropScrubs ..).rd_eq _ rfl rfl, rd_put_same ECC_SCRUB_SUMMARY.RESULT 2 s nofun]
    obtain ⟨hnone, hidle⟩ := scrubEnd_ends (dropScrubs (put ECC_SCRUB_SUMMARY.RESULT 2 s))
    exact ⟨hnone, hidle, rfl⟩

end Sys2Proof.Machine
end

section
/-! Proofs for data integrity (12_data_integrity.md): a parity error that a job meets stops the job before the command does anything else
(R190, R259, R362). -/

namespace Sys2Proof.Machine

open Reg

/-! ### The sequencers at a job boundary -/

/-- No sequencer changes. -/
structure CuesKept (s t : State) : Prop where
  cue_eq : ∀ n, (hive n t).cue = (hive n s).cue

theorem CuesKept.refl {s : State} : CuesKept s s := ⟨fun _ => rfl⟩

theorem CuesKept.trans {s t u : State} (h : CuesKept s t) (k : CuesKept t u) : CuesKept s u :=
  ⟨fun n => (k.cue_eq n).trans (h.cue_eq n)⟩

/-- An operation that changes no hive keeps the sequencers. -/
theorem Frame.cuesKept {m : Nat} {s t : State} (h : Frame m s t) (hm : m.testBit 24 = false) : CuesKept s t :=
  ⟨fun n => congrArg Hive.cue (h.hive_eq n hm)⟩

theorem CuesKept.foldl {α : Type} {f : State → α → State} (hf : ∀ u x, CuesKept u (f u x)) (l : List α) (s : State) :
    CuesKept s (l.foldl f s) :=
  List.foldlRecOn (motive := CuesKept s) _ _ .refl fun u hu x _ => hu.trans (hf u x)

theorem hive_setHive_ne {m n : Nat} (h : Hive) (s : State) (hne : m ≠ n) : hive m (setHive n h s) = hive m s :=
  mgetD_mset_ne _ _ _ hne

theorem cuesKept_setHive {n : Nat} {h : Hive} {s : State} (hcue : h.cue = (hive n s).cue) : CuesKept s (setHive n h s) := by
  refine ⟨fun m => ?_⟩
  by_cases hm : m = n
  · rw [hm, hive_setHive_same, hcue]
  · rw [hive_setHive_ne _ _ hm]

theorem cuesKept_writeColBeat (n c scl col beat : Nat) (d : List Byte) (s : State) : CuesKept s (writeColBeat n c scl col beat d s) :=
  cuesKept_setHive rfl

theorem cuesKept_performBeats (n : Nat) (r : Req) (bs : List PBeat) (s : State) : CuesKept s (performBeats n r bs s) :=
  .foldl (fun _ _ => .foldl (fun _ _ => cuesKept_writeColBeat ..) _ _) _ _

theorem cuesKept_tryPush (n : Nat) (a : Part) (s : State) : CuesKept s (tryPush n a s) := by
  unfold tryPush
  split
  · exact .refl
  · split
    · exact (fr_ackWrite ..).cuesKept (by decide)
    · split
      · exact cuesKept_setHive rfl
      · exact (cuesKept_performBeats ..).trans ((fr_ackWrite ..).cuesKept (by decide))

theorem cuesKept_releaseHeld (n : Nat) (s : State) : CuesKept s (releaseHeld n s) := by
  unfold releaseHeld
  split
  · exact .refl
  · exact (cuesKept_setHive (h := { hive n s with held := [] }) rfl).trans (.foldl (fun u a => cuesKept_tryPush n a u) _ _)

theorem cuesKept_boundary (n : Nat) (s : State) : CuesKept s (boundary n s) := by
  have htakeovers : CuesKept s (endTakeovers n s) :=
    (cuesKept_setHive (h := { hive n s with takeover := [] }) rfl).trans
      (.foldl (fun u c => (fr_replaceCell n c u).cuesKept (by decide)) _ _)
  have htests (u : State) : CuesKept u (startTests n (applyRetire n u)) :=
    ((fr_applyRetire n u).cuesKept (by decide)).trans ((fr_startTests ..).cuesKept (by decide))
  exact htakeovers.trans ((htests _).trans (cuesKept_releaseHeld ..))

/-! ### The sequencers when a job stops (R197) -/

/-- The sequencer of hive n goes on as it was, or runs no job any more. -/
def CueStops (n : Nat) (s t : State) : Prop := (hive n t).cue = (hive n s).cue ∨ (hive n t).cue = none

theorem CueStops.trans {n : Nat} {s t u : State} (h : CueStops n s t) (k : CueStops n t u) : CueStops n s u := by
  obtain k | k := k
  · obtain h | h := h
    · exact .inl (k.trans h)
    · exact .inr (k.trans h)
  · exact .inr k

theorem CuesKept.cueStops {s t : State} (h : CuesKept s t) (n : Nat) : CueStops n s t := .inl (h.cue_eq n)

theorem cueStops_setHive {n m : Nat} {h : Hive} {s : State} (hcue : h.cue = (hive m s).cue ∨ h.cue = none) :
    CueStops n s (setHive m h s) := by
  by_cases hn : n = m
  · subst hn
    unfold CueStops
    rwa [hive_setHive_same]
  · exact .inl (by rw [hive_setHive_ne _ _ hn])

theorem cueStops_unplace (n j m : Nat) (s : State) : CueStops n s (unplace j m s) := by
  unfold unplace
  extract_lets h runs placed preloaded stopped
  have hplaced : CueStops n s placed := cueStops_setHive (by cases runs <;> simp [h])
  have hpreloaded : CuesKept placed preloaded := by
    unfold preloaded
    split
    · exact (fr_put ..).cuesKept (by decide)
    · exact .refl
  have hstopped : CuesKept preloaded stopped := by
    unfold stopped
    split
    · exact (((fr_clearStreams ..).cuesKept (by decide)).trans ((fr_sampleJob ..).cuesKept (by decide))).trans (cuesKept_boundary ..)
    · exact .refl
  exact hplaced.trans ((hpreloaded.trans (hstopped.trans ((fr_showCue ..).cuesKept (by decide)))).cueStops n)

theorem cueStops_foldl_unplace (n j : Nat) (ms : List Nat) (s : State) : CueStops n s (ms.foldl (fun u m => unplace j m u) s) :=
  List.foldlRecOn (motive := CueStops n s) _ _ (.inl rfl) fun _ hu _ _ => hu.trans (cueStops_unplace ..)

theorem cueStops_failJob (n j status info : Nat) (s : State) : CueStops n s (failJob j status info s) := by
  have hstops (u : State) : CueStops n u (stopUnits j u) := by
    unfold stopUnits
    dsimp only
    split
    · exact .inl rfl
    · exact cueStops_foldl_unplace n j _ { u with host := _, ports := _ }
  unfold failJob
  split
  · exact .inl rfl
  · split
    · exact .inl rfl
    · dsimp only
      split
      · exact (hstops (setJob j _ s)).trans (((fr_haltCtx ..).cuesKept (by decide)).cueStops n)
      · exact hstops (setJob j _ s)

/-! ### A word whose job has failed does not issue (R218) -/

/-- A word issues for the job in the hive's sequencer. -/
theorem cue_of_issue {op n w : Nat} {c : Cue} {v : Job} {s : State} (h : issue op n s = some (c, v, w)) : (hive n s).cue = some c := by
  unfold issue at h
  split at h
  · cases h
  next x hx =>
    rw [hx]
    split at h
    · cases h
    · dsimp only at h
      split at h
      · cases h
      · cases h
        rfl

theorem issue_eq_none {n : Nat} {s : State} (op : Nat)
    (h : ∀ c, (hive n s).cue = some c → ∃ v, mfind s.jobs c.job = some v ∧ v.stopped = true) : issue op n s = none := by
  unfold issue
  split
  · rfl
  next c hc =>
    obtain ⟨v, hv, hstopped⟩ := h c hc
    rw [hv]
    dsimp only
    rw [hstopped]
    rfl

section
variable {n w u : Nat} {c : Cue} {v : Job} {s : State}

/-- What a job is once a parity error has failed it. -/
def FailedBy (u j : Nat) (t : State) : Prop := ∃ w, mfind t.jobs j = some w ∧ w.status = stParity ∧ w.info = u ∧ w.stopped = true

theorem failedBy_failJob {j : Nat} (u : Nat) (hjob : mfind s.jobs j = some v) (hok : v.status = 0) (hdone : v.done = false)
    (htimed : v.timedOut = false) : FailedBy u j (failJob j stParity u s) :=
  ⟨_, failJob_fails j stParity u v s hjob hok hdone htimed, rfl, rfl, rfl⟩

/-- Where the sequencer's job has failed, it goes on with that job, stopped, or with none: no word issues. -/
theorem issue_failJob (op : Nat) (hcue : (hive n s).cue = some c) (hfails : FailedBy u c.job (failJob c.job stParity u s)) :
    issue op n (failJob c.job stParity u s) = none := by
  obtain ⟨j, hj, -, -, hstopped⟩ := hfails
  refine issue_eq_none op fun d hd => ?_
  obtain h | h := cueStops_failJob n c.job stParity u s
  · obtain rfl : c = d := Option.some.inj (hcue.symm.trans (h.symm.trans hd))
    exact ⟨j, hj, hstopped⟩
  · rw [h] at hd
    cases hd

/-- A parity error of another unit than the program store fails the word's job. -/
theorem meetAtIssue_fails {p : Parity} (hunit : parityUnit p = some u) :
    meetAtIssue p n (some (c, v, w)) s = failJob c.job stParity u s := by
  have hstore : (p == .store) = false := beq_eq_false_iff_ne.mpr fun h => by rw [h] at hunit; cases hunit
  unfold meetAtIssue refetch meetParity
  dsimp only
  rw [hstore, hunit]
  rfl

/-- What each word does when it issues. -/
def wordOps : List (Nat → State → State) :=
  [nopOp, endOp, waitOp, lsetOp, loopOp, asetOp, amovOp, aaddOp, amadOp, modeOp, scaleOp, ldactOp, clrcOp, passOp, zrbOp, redOp, gatherOp,
    emitOp, kstreamOp, vstreamOp, smaxMaxOp, smaxExpOp, smaxCloseOp]

/-- A word that does not issue does nothing. -/
theorem wordOps_idle (h : ∀ op, issue op n s = none) : ∀ f ∈ wordOps, f n s = s := by
  have hafter (op : Nat) : issueAfter op n s = none := by rw [issueAfter, h]
  have hsmax (stage : Nat) : issueSmax stage n s = none := by rw [issueSmax, hafter]; rfl
  simp only [wordOps, List.forall_mem_cons, nopOp, endOp, waitOp, lsetOp, loopOp, asetOp, amovOp, aaddOp, amadOp, modeOp, scaleOp,
    ldactOp, clrcOp, passOp, zrbOp, redOp, gatherOp, emitOp, kstreamOp, vstreamOp, smaxMaxOp, smaxExpOp, smaxCloseOp, h, hafter, hsmax,
    List.not_mem_nil, false_imp_iff, implies_true, and_self]

/-- The job of a word that a parity error strikes fails, and the word does nothing. -/
theorem word_fails {p : Parity} {f : Nat → State → State} (hf : f ∈ wordOps) (hunit : parityUnit p = some u)
    (hcue : (hive n s).cue = some c) (hjob : mfind s.jobs c.job = some v) (hok : v.status = 0) (hdone : v.done = false)
    (htimed : v.timedOut = false) : FailedBy u c.job (f n (meetAtIssue p n (some (c, v, w)) s)) := by
  have hfails := failedBy_failJob u hjob hok hdone htimed
  rw [meetAtIssue_fails hunit, wordOps_idle (fun op => issue_failJob op hcue hfails) f hf]
  exact hfails

end

/-- The instruction of each opcode meets the parity error of its word before it does what the word says. -/
theorem exec_word {n op : Nat} {p : Parity} {i : Instr} (s : State)
    (h : (op, i) ∈ [(opNop, Instr.cueNop n p), (opEnd, .cueEnd n p), (opWait, .cueWait n p), (opLset, .cueLset n p), (opLoop, .cueLoop n p),
      (opAset, .cueAset n p), (opAmov, .cueAmov n p), (opAadd, .cueAadd n p), (opAmad, .cueAmad n p), (opMode, .cueMode n p),
      (opScale, .cueScale n p), (opLdact, .cueLdact n p), (opClrc, .cueClrc n p), (opPass, .cuePass n p), (opZrb, .cueZrb n p),
      (opRed, .cueRed n p), (opGather, .cueGather n p), (opEmit, .cueEmit n p), (opKstream, .cueKstream n p),
      (opVstream, .cueVstream n p)]) :
    ∃ f ∈ wordOps, exec i s = .next (f n (meetAtIssue p n (issue op n s) s)) := by
  fin_cases h
  all_goals refine ⟨_, ?_, rfl⟩
  all_goals simp [wordOps]

theorem exec_stage {n stage : Nat} {p : Parity} {i : Instr} (s : State)
    (h : (stage, i) ∈ [(0, Instr.smaxStageMax n p), (1, .smaxStageExp n p), (2, .smaxStageClose n p)]) :
    ∃ f ∈ wordOps, exec i s = .next (f n (meetAtIssue p n (issueStage stage n s) s)) := by
  fin_cases h
  all_goals refine ⟨_, ?_, rfl⟩
  all_goals simp [wordOps]

/-! ### A job whose start or exchange meets a parity error -/

section
variable {j u type : Nat} {p : Parity} {v : Job} {s : State}

/-- A stopped job is ready for no work. -/
theorem ready_stopped (type : Nat) (hjob : mfind s.jobs j = some v) (hstopped : v.stopped = true) : ready j type s = none := by
  unfold ready
  rw [hjob]
  dsimp only
  rw [hstopped, if_neg (by simp)]

/-- What each descriptor does when its work starts. -/
def startOps : List (Nat → State → State) :=
  [jobNop, copyJob, fillJob, placeCue 3, placeCue 4, reduceSend, reduceGather, broadcastJob]

theorem startOps_idle (h : ∀ type, ready j type s = none) : ∀ f ∈ startOps, f j s = s := by
  have hmove (type : Nat) : beginMove type j s = s := by rw [beginMove, h]
  have hplace (type : Nat) : placeCue type j s = s := by rw [placeCue, h]
  simp only [startOps, List.forall_mem_cons, jobNop, copyJob, fillJob, reduceSend, reduceGather, broadcastJob, h, hmove, hplace,
    List.not_mem_nil, false_imp_iff, implies_true, and_self]

theorem parityOf_fails (hunit : parityUnit p = some u) (hready : ready j type s = some v) :
    parityOf p j type s = failJob j stParity u s := by
  rw [parityOf, hready, Option.isSome_some, if_pos rfl, meetParity, hunit]

theorem parityAtWork_fails (hunit : parityUnit p = some u) (hjob : mfind s.jobs j = some v) (hstarted : v.started = true)
    (hruns : v.stopped = false) (hwait : v.waitRecord = false) : parityAtWork p j s = failJob j stParity u s := by
  rw [parityAtWork, hjob, Option.any_some, hstarted, hruns, hwait, meetParity, hunit]
  rfl

theorem start_fails {f : Nat → State → State} (hf : f ∈ startOps) (hunit : parityUnit p = some u) (hready : ready j type s = some v)
    (hok : v.status = 0) (hdone : v.done = false) (htimed : v.timedOut = false) : FailedBy u j (f j (parityOf p j type s)) := by
  obtain ⟨hjob, -⟩ := ready_eq_some hready
  have hfails := failedBy_failJob u hjob hok hdone htimed
  obtain ⟨w, hw, hparity, hinfo, hstopped⟩ := hfails
  rw [parityOf_fails hunit hready, startOps_idle (fun type => ready_stopped type hw hstopped) f hf]
  exact ⟨w, hw, hparity, hinfo, hstopped⟩

theorem spanSync_stopped (hjob : mfind s.jobs j = some v) (hstopped : v.stopped = true) : spanSync j s = s := by
  unfold spanSync
  rw [hjob]
  dsimp only
  rw [hstopped]
  rfl

theorem gatherApply_stopped (hjob : mfind s.jobs j = some v) (hstopped : v.stopped = true) : gatherApply j s = s := by
  unfold gatherApply
  rw [hjob]
  split
  next w _ hw =>
    obtain rfl := Option.some.inj hw
    rw [hstopped]
    rfl
  · rfl

end

theorem exec_start {j type : Nat} {p : Parity} {i : Instr} (s : State)
    (h : (type, i) ∈ [(0, Instr.jobNop j p), (1, .copy j p), (2, .fillRange j p), (3, .runCue j p), (4, .attnStream j p),
      (5, .peerReduceSend j p), (5, .peerReduceGather j p), (6, .broadcast j p)]) :
    ∃ f ∈ startOps, exec i s = .next (f j (parityOf p j type s)) := by
  fin_cases h
  all_goals refine ⟨_, ?_, rfl⟩
  all_goals simp [startOps]

theorem exec_exchange {j : Nat} {p : Parity} {i : Instr} (s : State) (h : i ∈ [Instr.spanSyncComplete j p, .gatherApply j p]) :
    ∃ f ∈ [spanSync, gatherApply], exec i s = .next (f j (parityAtWork p j s)) := by
  fin_cases h
  · exact ⟨spanSync, by simp, rfl⟩
  · exact ⟨gatherApply, by simp, rfl⟩

/-- Settles O35: the job fails before the command's operation, which finds nothing left to do. -/
theorem parityFailures : Obligations.ParityFailures := by
  unfold Obligations.ParityFailures
  refine ⟨?word, ?stage, ?start, ?exchange⟩
  case word =>
    intro n u op p i c v w s hunit hissue hi hok hdone htimed
    obtain ⟨f, hf, hexec⟩ := exec_word s hi
    rw [hissue] at hexec
    obtain ⟨j, hj⟩ := word_fails hf hunit (cue_of_issue hissue) (job_of_issue hissue) hok hdone htimed
    exact ⟨_, j, hexec, hj⟩
  case stage =>
    intro n u stage p i c v w s hunit hissue hi hok hdone htimed
    obtain ⟨f, hf, hexec⟩ := exec_stage s hi
    have hword : issue opSmax n s = some (c, v, w) := (Option.filter_eq_some_iff.mp hissue).1
    rw [hissue] at hexec
    obtain ⟨j, hj⟩ := word_fails hf hunit (cue_of_issue hword) (job_of_issue hword) hok hdone htimed
    exact ⟨_, j, hexec, hj⟩
  case start =>
    intro j u type p i v s hunit hready hi hok hdone htimed
    obtain ⟨f, hf, hexec⟩ := exec_start s hi
    obtain ⟨w, hw⟩ := start_fails hf hunit hready hok hdone htimed
    exact ⟨_, w, hexec, hw⟩
  case exchange =>
    intro j u p i v s hunit hjob hi hstarted hruns hwait hok hdone htimed
    obtain ⟨f, hf, hexec⟩ := exec_exchange s hi
    have hfails := failedBy_failJob u hjob hok hdone htimed
    obtain ⟨w, hw, hparity, hinfo, hstopped⟩ := hfails
    have hidle : f j (failJob j stParity u s) = failJob j stParity u s := by
      fin_cases hf
      · exact spanSync_stopped hw hstopped
      · exact gatherApply_stopped hw hstopped
    rw [parityAtWork_fails hunit hjob hstarted hruns hwait, hidle] at hexec
    exact ⟨_, w, hexec, hw, hparity, hinfo, hstopped⟩

end Sys2Proof.Machine
end

section
/-! Proofs for data integrity (12_data_integrity.md): re-reads and partial writes (R355, R359), and what the keeper does with the
corrections that it counts (R353, R360, R366). -/

namespace Sys2Proof.Machine

open Reg

/-! ### Re-reads (R355) -/

theorem erasedSymbols_setPc (n c p m d o : Nat) (q : Pc) (s : State) : erasedSymbols n c p (setPc m d o q s) = erasedSymbols n c p s :=
  erasedSymbols_congr n c p rfl rfl

section
variable {n c p : Nat} {r : Retry} {errs : ErrPat} {s : State}

/-- The oldest re-read in flight decodes uncorrectable. -/
theorem reread_uncorrectable (hused : pcUsed n c p s = true)
    (hfind : (pcOf n c p s).retries.find? (fun r => r.asked || !mayReread n (pcOf n c p s) r s) = some r) (hasked : r.asked = true)
    (herrs : decodeErr errs (erasedSymbols n c p s) = .uncorrectable) :
    reread n c p errs s =
      if mayReread n (pcOf n c p s) r s then
        setPc n c p { pcOf n c p s with
          retries := (pcOf n c p s).retries.map fun x => if x.ent.seq = r.ent.seq then { x with asked := false } else x } s
      else rereadFails n c p r
        (setPc n c p { pcOf n c p s with retries := (pcOf n c p s).retries.filter fun x => x.ent.seq != r.ent.seq } s) := by
  unfold reread
  dsimp only
  rw [hfind]
  dsimp only
  rw [hused, hasked, erasedSymbols_setPc, herrs]
  rfl

/-- The request of a read of the queue is answered that the block is lost. -/
theorem rereadFails_request (hsrc : r.src = 1) :
    rereadFails n c p r s = deliver n r.ent.uid r.ent.beat none (uncorrectable n c r.ent.off 1 false s) := by
  unfold rereadFails
  rw [hsrc, if_neg (by decide)]
  exact answerRead_request n c p r.ent none _ (.inr rfl)

/-! ### Partial writes (R359) -/

/-- The read of a partial write that decodes clean gives the bytes that its mask leaves out. -/
theorem readModifyWrite_merges {e : QEnt} {left : ErrPat} (hused : pcUsed n c p s = true)
    (hfind : ((pcOf n c p s).wrq.find? fun e => e.mask.isSome && e.asked && !(pcOf n c p s).retries.any fun r => r.ent.seq == e.seq) = some e)
    (hclear : isMarked n c e.off s = false) (hclean : decodeErr errs (erasedSymbols n c p s) = .clean left) :
    readModifyWrite n c p errs s = answerPart n c p e (some (applyErr left (readBlock n c e.off s))) s := by
  unfold readModifyWrite
  dsimp only
  rw [hfind]
  dsimp only
  rw [if_pos hused, finishRead]
  dsimp only
  rw [if_pos rfl, hclear, Bool.false_and, if_neg Bool.false_ne_true, hclean]
  rfl

theorem wrq_answerPart (e : QEnt) (b : Beat) :
    (pcOf n c p (answerPart n c p e (some b) s)).wrq = (pcOf n c p s).wrq.map fun x =>
      if x.seq = e.seq then { x with data := some (mergeBytes (x.mask.getD 0) b (x.data.getD 0)), mask := none, asked := false }
      else x := by
  unfold answerPart
  dsimp only
  rw [(fr_ackWrite ..).pcOf_eq n c p rfl, pcOf_setPc_same]

/-! ### The leak of the bucket (R360) and the erasure of lanes (R353) -/

theorem ceLeak_leaks (hon : hOn n s = true) (htimer : on (ECC_CE_LEAK.LEAK_US n) s = true) :
    ceLeak n s = put (ECC_CE_BUCKET.LEVEL n) (rd (ECC_CE_BUCKET.LEVEL n) s - 1) s := by
  unfold ceLeak
  rw [if_pos (by simp [hon, htimer])]

theorem laneErasure_erases {lane i : Nat} (hused : pcUsed n c p s = true) (hkeeper : keeperReady n s = true)
    (hthr : rd (ECC_LOCAL_CFG.ERASE_THR n) s ≠ 0)
    (hcount : rd (ECC_LOCAL_CFG.ERASE_THR n) s ≤ mgetD (pcOf n c p s).laneCnt lane 0)
    (hkept : (erasedLanes n c p s).contains lane = false) (hfree : (List.range 4).find? (fun i => !on (eraseFld n c p i).2 s) = some i) :
    laneErasure n c p lane s = putAll [((eraseFld n c p i).1, lane), ((eraseFld n c p i).2, 1)] s := by
  unfold laneErasure
  dsimp only
  rw [if_neg (by simp only [hused, hkeeper, hkept]; simp [hthr, hcount]), hfree]

/-! ### The keeper installs an entry (R365, R366) -/

theorem remapInstall_installs {sid bank row i : Nat} (errs : List (Nat × ErrPat)) (hused : pcUsed n c p s = true)
    (hkeeper : keeperReady n s = true) (hrow : badRow n c sid row s = false) (hbank : bank < 16)
    (hnew : remapHit n c p sid bank row s = none)
    (hfails : rowFails (on (ECC_LOCAL_CFG.AUTO_REMAP n) s) n c p (placedKey n sid bank row s) s = true)
    (hfree : freeEntry n c s = some i) :
    remapInstall n c p sid bank row errs s = setEntry n c i p sid bank row 1 (copyRow n c p sid bank row i errs s) := by
  unfold remapInstall
  rw [if_neg (by simp [hused, hkeeper, hrow, hbank, hnew, hfails]), hfree]

end

/-! ### The commands -/

theorem exec_reread (n c p : Nat) (errs : ErrPat) (s : State) : exec (.reread n c p errs) s = .next (settled (reread n c p errs s)) := rfl
theorem exec_readModifyWrite (n c p : Nat) (errs : ErrPat) (s : State) :
    exec (.readModifyWrite n c p errs) s = .next (settled (readModifyWrite n c p errs s)) := rfl
theorem exec_ceLeak (n : Nat) (s : State) : exec (.ceLeak n) s = .next (ceLeak n s) := rfl
theorem exec_laneErasure (n c p lane : Nat) (s : State) : exec (.laneErasure n c p lane) s = .next (laneErasure n c p lane s) := rfl
theorem exec_remapInstall (n c p sid bank row : Nat) (errs : List (Nat × ErrPat)) (s : State) :
    exec (.remapInstall n c p sid bank row errs) s = .next (remapInstall n c p sid bank row errs s) := rfl

/-- Settles O18: each clause is the branch of the command's operation that its premises select. -/
theorem rereadCommands : Obligations.RereadCommands := by
  unfold Obligations.RereadCommands
  refine ⟨?again, ?last, ?merges, ?leaks, ?erases, ?installs⟩
  case again =>
    intro n c p r errs s hused hfind hasked hmay herrs
    rw [exec_reread, reread_uncorrectable hused hfind hasked herrs, if_pos hmay]
  case last =>
    intro n c p r errs t s hused hfind hasked ht herrs hmay hsrc
    rw [ht, erasedSymbols_setPc] at herrs
    rw [exec_reread, reread_uncorrectable hused hfind hasked herrs, if_neg (Bool.eq_false_iff.mp hmay), ← ht, rereadFails_request hsrc]
  case merges =>
    intro n c p e errs left s hused hfind hclear hclean
    exact ⟨_, by rw [exec_readModifyWrite, readModifyWrite_merges hused hfind hclear hclean], wrq_answerPart ..⟩
  case leaks =>
    intro n s hon htimer
    exact ⟨_, by rw [exec_ceLeak, ceLeak_leaks hon htimer], rd_put_same _ _ _ nofun⟩
  case erases =>
    intro n c p lane i s hused hkeeper hthr hcount hkept hfree
    rw [exec_laneErasure, laneErasure_erases hused hkeeper hthr hcount hkept hfree]
  case installs =>
    intro n c p sid bank row i s hused hkeeper hrow hbank hnew hfails hfree
    rw [exec_remapInstall, remapInstall_installs [] hused hkeeper hrow hbank hnew hfails hfree]

end Sys2Proof.Machine
end

section
/-! Proofs for data integrity (12_data_integrity.md): the commands INSTALL and REPAIR and the move of a remap entry (R365 to R369). -/

namespace Sys2Proof.Machine

open Reg

/-! ### A remap command begins (R380) -/

/-- A remap command shows its OP. -/
def rmpStarted (n op : Nat) (s : State) : State := put (ECC_RMP_CMD.OP n) op s

section
variable (n op : Nat) (s : State)

theorem rd_rmpStarted {f : Fld} (h : f.key ≠ (ECC_RMP_CMD.OP n).key) : rd f (rmpStarted n op s) = rd f s := rd_put_ne _ _ _ _ h

/-- The shape of the hive's stack. -/
theorem rd_hiveCfg_rmpStarted : rd (CHC_HIVE_CFG.GEN n) (rmpStarted n op s) = rd (CHC_HIVE_CFG.GEN n) s ∧
    rd (CHC_HIVE_CFG.NSID n) (rmpStarted n op s) = rd (CHC_HIVE_CFG.NSID n) s ∧
    rd (CHC_HIVE_CFG.ROWBITS n) (rmpStarted n op s) = rd (CHC_HIVE_CFG.ROWBITS n) s := by
  refine ⟨?_, ?_, ?_⟩ <;> apply rd_rmpStarted <;>
    simp only [Fld.key, ECC_RMP_CMD.OP, CHC_HIVE_CFG.GEN, CHC_HIVE_CFG.NSID, CHC_HIVE_CFG.ROWBITS] <;> omega

theorem badRow_rmpStarted (c sid row : Nat) : badRow n c sid row (rmpStarted n op s) = badRow n c sid row s := by
  obtain ⟨hgen, hnsid, hrowbits⟩ := rd_hiveCfg_rmpStarted n op s
  have hinline : inlineCheck n (rmpStarted n op s) = inlineCheck n s := by unfold inlineCheck; rw [hgen]
  have hused : usedCh n (rmpStarted n op s) = usedCh n s := by unfold usedCh; rw [hgen]
  have hrows : dRows n (rmpStarted n op s) = dRows n s := by unfold dRows; rw [hinline, hrowbits]
  have hrow : unplaceRow n row (rmpStarted n op s) = unplaceRow n row s := by unfold unplaceRow; rw [hinline]
  rw [badRow, hinline, hused, hrows, hrow, hnsid, badRow]

theorem rmpRow_key_ne (c i : Nat) {k : Nat} (h : 8 * (0x112000 + 0x40000 * n + 0x100 * c + 0x8 * i) ≤ k) :
    k ≠ (ECC_RMP_CMD.OP n).key := by
  simp only [Fld.key, ECC_RMP_CMD.OP]
  omega

theorem remapHit_rmpStarted (c p sid bank row : Nat) :
    remapHit n c p sid bank row (rmpStarted n op s) = remapHit n c p sid bank row s := by
  have hrow (i : Nat) {f : Fld} (h : 8 * (0x112000 + 0x40000 * n + 0x100 * c + 0x8 * i) ≤ f.key) :
      rd f (rmpStarted n op s) = rd f s := rd_rmpStarted n op s (rmpRow_key_ne n c i h)
  unfold remapHit on
  congr 1
  funext i
  rw [hrow i (f := ECC_RMP_ROW.VALID n c i) (Nat.le_add_right ..), hrow i (f := ECC_RMP_ROW.ROW n c i) (Nat.le_add_right ..),
    hrow i (f := ECC_RMP_ROW.BANK n c i) (Nat.le_add_right ..), hrow i (f := ECC_RMP_ROW.SID n c i) (Nat.le_add_right ..),
    hrow i (f := ECC_RMP_ROW.PC n c i) (Nat.le_add_right ..)]

theorem freeEntry_rmpStarted (c : Nat) : freeEntry n c (rmpStarted n op s) = freeEntry n c s := by
  have hvalid (i : Nat) : (ECC_RMP_ROW.VALID n c i).key ≠ (ECC_RMP_CMD.OP n).key := rmpRow_key_ne n c i (Nat.le_add_right ..)
  have hretired (i : Nat) : (ECC_RMP_STAT.RETIRED n c i).key ≠ (ECC_RMP_CMD.OP n).key :=
    rmpRow_key_ne n c i (by simp only [Fld.key, ECC_RMP_STAT.RETIRED]; omega)
  unfold freeEntry on
  congr 1
  funext i
  rw [rd_rmpStarted n op s (hvalid i), rd_rmpStarted n op s (hretired i)]

theorem rdMap_rmpStarted {f : Fld} (h : f.key ≠ (ECC_RMP_CMD.OP n).key) : rdMap f (rmpStarted n op s) = rdMap f s := by
  rw [rdMap, rd_rmpStarted n op s h, rdMap]
  rfl

theorem setsInUse_rmpStarted : setsInUse (rmpStarted n op s) = setsInUse s := by
  have hvalid (i : Nat) : (GLB_ISET.VALID i).key ≠ (ECC_RMP_CMD.OP n).key := by
    simp only [Fld.key, GLB_ISET.VALID, ECC_RMP_CMD.OP]
    omega
  unfold setsInUse
  congr 1
  funext i
  rw [rdMap_rmpStarted n op s (hvalid i)]

/-- The hives of an interleave set that exists stand in the memory map, far below the hive's registers. -/
theorem setHives_rmpStarted {i : Nat} (hi : i ∈ setsInUse s) : setHives i (rmpStarted n op s) = setHives i s := by
  have hlt : i < 8 := List.mem_range.mp (List.takeWhile_subset _ hi)
  have hhives : (GLB_ISET.HIVES i).key ≠ (ECC_RMP_CMD.OP n).key := by
    simp only [Fld.key, GLB_ISET.HIVES, ECC_RMP_CMD.OP]
    omega
  rw [setHives, rdMap_rmpStarted n op s hhives, setHives]

/-- A hive that stands in an interleave set does so when the command has begun. -/
theorem mapped_rmpStarted (h : ((setsInUse s).any fun i => (setHives i s).contains n) = true) :
    ((setsInUse (rmpStarted n op s)).any fun i => (setHives i (rmpStarted n op s)).contains n) = true := by
  obtain ⟨i, hi, hives⟩ := List.any_eq_true.mp h
  rw [setsInUse_rmpStarted]
  exact List.any_eq_true.mpr ⟨i, hi, by rwa [setHives_rmpStarted n op s hi]⟩

theorem factoryState_rmpStarted : factoryState (rmpStarted n op s) = factoryState s := by
  have hstate : rd LCS_STATE.STATE (rmpStarted n op s) = rd LCS_STATE.STATE s :=
    rd_rmpStarted n op s (by simp only [Fld.key, LCS_STATE.STATE, ECC_RMP_CMD.OP]; omega)
  rw [factoryState, hstate, factoryState]

end

/-- The row that ECC_RMP_ADDR names (R380). -/
structure NamesRow (n c p sid bank row : Nat) (s : State) : Prop where
  ch : rd (ECC_RMP_ADDR.CH n) s = c
  pc : rd (ECC_RMP_ADDR.PC n) s = p
  sid : rd (ECC_RMP_ADDR.SID n) s = sid
  bank : rd (ECC_RMP_ADDR.BANK n) s = bank
  row : rd (ECC_RMP_ADDR.ROW n) s = row

theorem NamesRow.started {n c p sid bank row : Nat} {s : State} (h : NamesRow n c p sid bank row s) (op : Nat) :
    NamesRow n c p sid bank row (rmpStarted n op s) := by
  have hkeep {f : Fld} (hf : f.key < (ECC_RMP_CMD.OP n).key) : rd f (rmpStarted n op s) = rd f s :=
    rd_rmpStarted n op s (Nat.ne_of_lt hf)
  constructor
  · rw [hkeep (by simp only [Fld.key, ECC_RMP_ADDR.CH, ECC_RMP_CMD.OP]; omega), h.ch]
  · rw [hkeep (by simp only [Fld.key, ECC_RMP_ADDR.PC, ECC_RMP_CMD.OP]; omega), h.pc]
  · rw [hkeep (by simp only [Fld.key, ECC_RMP_ADDR.SID, ECC_RMP_CMD.OP]; omega), h.sid]
  · rw [hkeep (by simp only [Fld.key, ECC_RMP_ADDR.BANK, ECC_RMP_CMD.OP]; omega), h.bank]
  · rw [hkeep (by simp only [Fld.key, ECC_RMP_ADDR.ROW, ECC_RMP_CMD.OP]; omega), h.row]

/-! ### The record of the entries (R368) -/

/-- The fields of entry i of a channel when it becomes valid for a row. -/
def entryFields (n c i p sid bank row source : Nat) : List (Fld × Nat) :=
  [(ECC_RMP_ROW.ROW n c i, row), (ECC_RMP_ROW.BANK n c i, bank), (ECC_RMP_ROW.SID n c i, sid), (ECC_RMP_ROW.PC n c i, p),
    (ECC_RMP_ROW.VALID n c i, 1), (ECC_RMP_STAT.SOURCE n c i, source)]

/-- The entry is valid and waits to be recorded. -/
def entrySet (n c i p sid bank row source : Nat) (s : State) : State :=
  { putAll (entryFields n c i p sid bank row source) s with remapWant := s.remapWant ++ [[n, c, i, p, sid, bank, row]] }

theorem setEntry_eq (n c i p sid bank row source : Nat) (s : State) :
    setEntry n c i p sid bank row source s = reroute n c (recordRemaps (entrySet n c i p sid bank row source s)) := rfl

theorem setEntry_want (n c i p sid bank row source : Nat) (s : State) :
    (setEntry n c i p sid bank row source s).remapWant = s.remapWant ++ [[n, c, i, p, sid, bank, row]] := by
  rw [setEntry_eq, (fr_reroute ..).f_remapWant rfl, (fr_recordRemaps ..).f_remapWant rfl]
  rfl

/-- The table of entries stands among the hive's registers. -/
theorem rd_entrySet_below {f : Fld} (hlow : f.key < 8 * 0x100000) (n c i p sid bank row source : Nat) (s : State) :
    rd f (entrySet n c i p sid bank row source s) = rd f s := by
  have hkeys : ∀ x ∈ entryFields n c i p sid bank row source, f.key ≠ x.1.key := by
    simp only [entryFields, List.forall_mem_cons, Fld.key, ECC_RMP_ROW.ROW, ECC_RMP_ROW.BANK, ECC_RMP_ROW.SID, ECC_RMP_ROW.PC,
      ECC_RMP_ROW.VALID, ECC_RMP_STAT.SOURCE] at hlow ⊢
    refine ⟨by omega, by omega, by omega, by omega, by omega, by omega, nofun⟩
  have hset : rd f (entrySet n c i p sid bank row source s) = rd f (putAll (entryFields n c i p sid bank row source) s) :=
    rd_congr f rfl rfl
  rw [hset, rd_putAll_ne _ _ _ hkeys]

theorem freeEntryOf_want (n c i : Nat) (s : State) :
    (freeEntryOf n c i s).remapWant = s.remapWant.filter fun e => e.take 3 != [n, c, i] := by
  unfold freeEntryOf
  rw [(fr_reroute ..).f_remapWant rfl, (fr_recordRemaps ..).f_remapWant rfl]
  rfl

theorem flashOk_congr {s t : State} (h : rd THM_STATE.HOTTEST t = rd THM_STATE.HOTTEST s) : flashOk t = flashOk s := by
  rw [flashOk, hottest, h, flashOk, hottest]

theorem recordRemaps_log {s : State} (h : flashOk s = true) : (recordRemaps s).remapLog = s.remapWant := by
  unfold recordRemaps
  rw [if_pos h]

/-- While flash may be programmed, an entry is recorded as it is installed. -/
theorem setEntry_log {n c i p sid bank row source : Nat} {s : State} (h : flashOk s = true) :
    (setEntry n c i p sid bank row source s).remapLog = (setEntry n c i p sid bank row source s).remapWant := by
  rw [setEntry_eq, (fr_reroute ..).f_remapLog rfl, (fr_reroute ..).f_remapWant rfl, (fr_recordRemaps ..).f_remapWant rfl]
  exact recordRemaps_log ((flashOk_congr (rd_entrySet_below (by decide) ..)).trans h)

/-! ### What the copy of a row writes of the registers (R282, R361, R366) -/

section
variable {f : Fld} (hlow : f.key < 8 * 0x100000) (hevent : f.key ≠ ECC_HIVE_EVENT.UE.key) (hint : f.key ≠ (intField 3).key)
include hlow

theorem rd_put_hive {g : Fld} (v : Nat) (s : State) (hg : 8 * 0x100000 ≤ g.key) : rd f (put g v s) = rd f s :=
  rd_put_ne _ _ _ _ (Nat.ne_of_lt (Nat.lt_of_lt_of_le hlow hg))

theorem rd_stepChannelLfsr_below (n c p sid bank row : Nat) (s : State) : rd f (stepChannelLfsr n c p sid bank row s) = rd f s := by
  unfold stepChannelLfsr
  dsimp only
  split
  · rfl
  · split
    · exact rd_put_hive hlow _ _ (by simp only [Fld.key, CHC_NR_STAT.DROPPED]; omega)
    · rfl

theorem rd_homeActs_below (n c : Nat) (x : Nat × Nat × Nat × Nat) (s : State) : rd f (homeActs n c x s) = rd f s :=
  List.foldlRecOn (motive := fun t => rd f t = rd f s) _ _ rfl fun _ ht _ _ =>
    (rd_stepChannelLfsr_below hlow ..).trans (((fr_emit ..).rd_eq f rfl rfl).trans ht)

/-- A correction outside the bucket is counted in the hive's registers. -/
theorem rd_corrected_below (n c off : Nat) (changed : List Nat) (onlyErased : Bool) (s : State) :
    rd f (corrected n c off changed onlyErased false s) = rd f s := by
  have hcounted (t : State) : rd f (bump (ECC_CE_CNT.BLOCKS n) 1 t) = rd f t :=
    rd_put_hive hlow _ _ (by simp only [Fld.key, ECC_CE_CNT.BLOCKS]; omega)
  have herased (t : State) : rd f (bump (ECC_CE_ERASED.BLOCKS n) 1 t) = rd f t :=
    rd_put_hive hlow _ _ (by simp only [Fld.key, ECC_CE_ERASED.BLOCKS]; omega)
  unfold corrected
  dsimp only
  rw [Bool.false_and, if_neg Bool.false_ne_true, (fr_emit ..).rd_eq f rfl rfl, apply_ite (rd f), herased, ite_self, hcounted]
  rfl

include hevent hint

theorem rd_uncorrectable_below (n c off src : Nat) (marked : Bool) (s : State) : rd f (uncorrectable n c off src marked s) = rd f s := by
  rw [uncorrectable_eq, rd_hiveEvent_ne _ _ hevent hint, rd_ueShown_below (Nat.lt_trans hlow (by decide))]

theorem rd_copyBlock_below (n c off : Nat) (errs : ErrPat) (s : State) : rd f (copyBlock n c off errs s) = rd f s := by
  have hsettle : rd f (settle n c off s) = rd f s := (fr_settle ..).rd_eq f rfl rfl
  have hwrite (d : Beat) (t : State) : rd f (writeBlock n c off d t) = rd f t := (fr_writeBlock ..).rd_eq f rfl rfl
  have hmark (marked : Bool) (t : State) : rd f (markBlock n c off (uncorrectable n c off 5 marked t)) = rd f t :=
    ((fr_markBlock ..).rd_eq f rfl rfl).trans (rd_uncorrectable_below hlow hevent hint ..)
  unfold copyBlock
  dsimp only
  split
  · rw [hmark, hsettle]
  · split
    · rw [hwrite, hsettle]
    · rw [hwrite, rd_corrected_below hlow, hsettle]
    · rw [hmark, hsettle]

theorem rd_copyRow_below (n c p sid bank row i : Nat) (errs : List (Nat × ErrPat)) (s : State) :
    rd f (copyRow n c p sid bank row i errs s) = rd f s := by
  have hblocks (t : State) : rd f (copyBlocks n c p sid bank row errs t) = rd f t :=
    List.foldlRecOn (motive := fun u => rd f u = rd f t) _ _ rfl fun _ hu _ _ => (rd_copyBlock_below hlow hevent hint ..).trans hu
  unfold copyRow
  dsimp only
  rw [(fr_setPc ..).rd_eq f rfl rfl, hblocks, rd_homeActs_below hlow, rd_homeActs_below hlow]

end

/-! ### The result of a command (R380) -/

theorem rmpDone_eq (n result entry : Nat) (s : State) : rmpDone n result entry s =
    putAll [(ECC_RMP_CMD.RESULT n, result), (ECC_RMP_CMD.ENTRY n, entry), (ECC_RMP_CMD.VALID n, 0), (ECC_RMP_CMD.BUSY n, 1)] s := rfl

theorem rd_rmpDone (n result entry : Nat) (s : State) :
    rd (ECC_RMP_CMD.RESULT n) (rmpDone n result entry s) = result % 8 ∧ rd (ECC_RMP_CMD.ENTRY n) (rmpDone n result entry s) = entry % 32 := by
  have hkeys (a b c d : Nat) : (([(ECC_RMP_CMD.RESULT n, a), (ECC_RMP_CMD.ENTRY n, b), (ECC_RMP_CMD.VALID n, c),
      (ECC_RMP_CMD.BUSY n, d)] : List (Fld × Nat)).map fun x => x.1.key).Nodup := by
    simp [Fld.key, ECC_RMP_CMD.RESULT, ECC_RMP_CMD.ENTRY, ECC_RMP_CMD.VALID, ECC_RMP_CMD.BUSY]
  exact ⟨rd_putAll_of_nodup (x := (ECC_RMP_CMD.RESULT n, result)) s (hkeys ..) (by simp) nofun,
    rd_putAll_of_nodup (x := (ECC_RMP_CMD.ENTRY n, entry)) s (hkeys ..) (by simp) nofun⟩

/-! ### The commands -/

section
variable {n c p sid bank row i : Nat} {errs : List (Nat × ErrPat)} {s : State}

theorem install_installs (hon : hOn n s = true) (hn : n < 16) (hkeeper : keeperReady n s = true) (hidle : on (ECC_RMP_CMD.BUSY n) s = false)
    (hmapped : ((setsInUse s).any fun i => (setHives i s).contains n) = true) (hnames : NamesRow n c p sid bank row s)
    (hgood : badRow n c sid row s = false) (hnew : remapHit n c p sid bank row s = none) (hfree : freeEntry n c s = some i) :
    install n errs s = rmpDone n 0 i (setEntry n c i p sid bank row 2 (copyRow n c p sid bank row i errs (rmpStarted n 1 s))) := by
  obtain ⟨hc, hp, hsid, hbank, hrow⟩ := hnames.started 1
  have hstart : put (ECC_RMP_CMD.OP n) 1 s = rmpStarted n 1 s := rfl
  unfold install
  rw [if_neg (by simp [hon, hn, hkeeper]), if_neg (by simp [hidle])]
  dsimp only
  rw [hstart, hc, hp, hsid, hbank, hrow, badRow_rmpStarted, hgood, mapped_rmpStarted n 1 s hmapped, remapHit_rmpStarted, hnew,
    if_neg (by decide)]
  dsimp only
  rw [freeEntry_rmpStarted, hfree]

/-- The state in which the contents of a row have come back from its spare. -/
def rowReturned (n c p sid bank row i : Nat) (errs : List (Nat × ErrPat)) (s : State) : State :=
  copyBlocks n c p sid bank row errs (homeActs n c (p, sid, bank, row) (homeActs n c (spareRow n i s) s))

theorem repair_repairs (hon : hOn n s = true) (hn : n < 16) (hkeeper : keeperReady n s = true) (hidle : on (ECC_RMP_CMD.BUSY n) s = false)
    (hfactory : factoryState s = true) (hcool : ((mfind s.thermal.stack n).any fun t => decide (t ≤ 85)) = true)
    (hnames : NamesRow n c p sid bank row s) (hgood : badRow n c sid row s = false)
    (hentry : remapHit n c p sid bank row s = some i) :
    repair n true errs s =
      rmpDone n 0 i (freeEntryOf n c i (rowReturned n c p sid bank row i errs (quiesce 0 n [c] (rmpStarted n 2 s)))) := by
  obtain ⟨hc, hp, hsid, hbank, hrow⟩ := hnames.started 2
  have hstart : put (ECC_RMP_CMD.OP n) 2 s = rmpStarted n 2 s := rfl
  have hthermal : (rmpStarted n 2 s).thermal = s.thermal := rfl
  unfold repair
  rw [if_neg (by simp [hon, hn, hkeeper]), if_neg (by simp [hidle])]
  dsimp only
  rw [hstart, hc, hp, hsid, hbank, hrow, factoryState_rmpStarted, hfactory, hthermal, hcool, badRow_rmpStarted, hgood,
    if_neg (by decide), if_neg (by decide), if_neg (by decide), remapHit_rmpStarted, hentry]
  rfl

theorem remapMove_moves {j : Nat} (hp : rd (ECC_RMP_ROW.PC n c i) s = p) (hsid : rd (ECC_RMP_ROW.SID n c i) s = sid)
    (hbank : rd (ECC_RMP_ROW.BANK n c i) s = bank) (hrow : rd (ECC_RMP_ROW.ROW n c i) s = row) (hused : pcUsed n c p s = true)
    (hi : i < 32) (hkeeper : keeperReady n s = true) (hvalid : on (ECC_RMP_ROW.VALID n c i) s = true)
    (hfails : rowFails true n c p (placedKey n sid bank row s) s = true) (hfree : freeEntry n c s = some j) :
    remapMove n c i errs s = setEntry n c j p sid bank row 1
      (put (ECC_RMP_STAT.RETIRED n c i) 1 (freeEntryOf n c i (copyRow n c p sid bank row j errs s))) := by
  unfold remapMove
  rw [hp, hsid, hbank, hrow]
  dsimp only
  rw [if_neg (by simp [hused, hi, hkeeper, hvalid, hfails]), hfree]

theorem rowReturned_want : (rowReturned n c p sid bank row i errs s).remapWant = s.remapWant := by
  unfold rowReturned
  rw [(fr_copyBlocks ..).f_remapWant rfl, (fr_homeActs ..).f_remapWant rfl, (fr_homeActs ..).f_remapWant rfl]

end

theorem exec_install (n : Nat) (errs : List (Nat × ErrPat)) (s : State) : exec (.install n errs) s = .next (install n errs s) := rfl
theorem exec_repair (n : Nat) (stackOk : Bool) (errs : List (Nat × ErrPat)) (s : State) :
    exec (.repair n stackOk errs) s = .next (repair n stackOk errs s) := rfl
theorem exec_remapMove (n c i : Nat) (errs : List (Nat × ErrPat)) (s : State) :
    exec (.remapMove n c i errs) s = .next (remapMove n c i errs s) := rfl

/-- Settles O20: each command ends with its result, and what it has added to the record and taken from it. -/
theorem remapCommands : Obligations.RemapCommands := by
  unfold Obligations.RemapCommands
  refine ⟨?installs, ?repairs, ?moves⟩
  case installs =>
    intro n i s hon hn hkeeper hidle hgood hmapped hnew hfree
    refine ⟨_, exec_install n [] s, ?_⟩
    rw [install_installs hon hn hkeeper hidle hmapped ⟨rfl, rfl, rfl, rfl, rfl⟩ hgood hnew hfree]
    obtain ⟨hresult, hentry⟩ := rd_rmpDone n 0 i (setEntry n _ i _ _ _ _ 2 (copyRow n _ _ _ _ _ i [] (rmpStarted n 1 s)))
    refine ⟨hresult, hentry, ?_, fun hflash => ?_⟩
    · rw [(fr_rmpDone ..).f_remapWant rfl, setEntry_want, (fr_copyRow ..).f_remapWant rfl]
      rfl
    · rw [(fr_rmpDone ..).f_remapWant rfl, (fr_rmpDone ..).f_remapLog rfl]
      have hcopied := rd_copyRow_below (f := THM_STATE.HOTTEST) (by decide) (by decide) (by decide)
      have hstarted : rd THM_STATE.HOTTEST (rmpStarted n 1 s) = rd THM_STATE.HOTTEST s :=
        rd_rmpStarted n 1 s (by simp only [Fld.key, THM_STATE.HOTTEST, ECC_RMP_CMD.OP]; omega)
      exact setEntry_log ((flashOk_congr ((hcopied ..).trans hstarted)).trans hflash)
  case repairs =>
    intro n i errs s hon hn hkeeper hidle hfactory hcool hgood hentry
    refine ⟨_, exec_repair n true errs s, ?_⟩
    rw [repair_repairs hon hn hkeeper hidle hfactory hcool ⟨rfl, rfl, rfl, rfl, rfl⟩ hgood hentry]
    refine ⟨(rd_rmpDone ..).1, ?_⟩
    rw [(fr_rmpDone ..).f_remapWant rfl, freeEntryOf_want, rowReturned_want, (fr_quiesce ..).f_remapWant rfl]
    rfl
  case moves =>
    intro n c i j s hused hi hkeeper hvalid hfails hfree
    refine ⟨_, exec_remapMove n c i [] s, ?_⟩
    rw [remapMove_moves rfl rfl rfl rfl hused hi hkeeper hvalid hfails hfree, setEntry_want, put_remapWant, freeEntryOf_want,
      (fr_copyRow ..).f_remapWant rfl]

end Sys2Proof.Machine
end

section
/-! Proofs for data integrity (12_data_integrity.md): what a parity error between a port and the gates takes (R362). -/

namespace Sys2Proof.Machine

open Reg

/-! ### What waits at ingress -/

theorem ing_setPort {j k : Nat} {p : Port} {s : State} (h : p.ing = (port j s).ing) : (port k (setPort j p s)).ing = (port k s).ing := by
  by_cases hk : k = j
  · rw [hk, port_setPort_same, h]
  · rw [port_setPort_ne p s hk]

section
variable (k : Nat) (s : State)

theorem ing_oweCredits (j hdr data : Nat) : (port k (oweCredits j hdr data s)).ing = (port k s).ing := ing_setPort rfl

theorem ing_disown (j uid : Nat) : (port k (disown j uid s)).ing = (port k s).ing := ing_setPort rfl

theorem ing_returnCredits (r : Req) : (port k (returnCredits r s)).ing = (port k s).ing := by
  unfold returnCredits
  dsimp only
  split
  · exact ing_oweCredits ..
  · exact ing_oweCredits ..
  · rfl

theorem ing_egressPut (j : Nat) (e : Egr) : (port k (egressPut j e s)).ing = (port k s).ing := by
  unfold egressPut
  dsimp only
  split
  · exact ing_setPort rfl
  · split
    · exact ing_setPort rfl
    · rfl

/-- A final response takes nothing from ingress. -/
theorem ing_tryFinish (uid : Nat) : (port k (tryFinish uid s)).ing = (port k s).ing := by
  unfold tryFinish
  dsimp only
  split
  · rfl
  · split
    · rfl
    · split
      · split
        · rfl
        · split
          · exact ing_egressPut ..
          · exact congrArg Port.ing (port_congr k ((fr_sendCompletion ..).f_ports rfl))
          · exact congrArg Port.ing (port_congr k ((fr_ppRespond ..).f_ports rfl))
          · exact congrArg Port.ing (port_congr k ((fr_arrive ..).f_ports rfl))
      · split
        · rfl
        · split
          · exact ing_egressPut ..
          · rfl
          · split
            · split
              · exact congrArg Port.ing (port_congr k ((fr_bcastWrote ..).f_ports rfl))
              · exact congrArg Port.ing (port_congr k ((fr_bcastWrote ..).f_ports rfl))
            · exact congrArg Port.ing (port_congr k ((fr_ppRespond ..).f_ports rfl))
          · exact congrArg Port.ing (port_congr k ((fr_arrive ..).f_ports rfl))

theorem ing_pumpRsp (n : Nat) : (port k (pumpRsp n s)).ing = (port k s).ing := by
  induction n generalizing s with
  | zero => rfl
  | succ n ih =>
    unfold pumpRsp
    dsimp only
    split
    · rfl
    · split
      · rfl
      · rw [ih]
        exact ing_setPort rfl

theorem ing_pumpPp : (port k (pumpPp s)).ing = (port k s).ing := by
  rw [pumpPp, ing_pumpRsp, port_congr k ((fr_pumpPeer ..).f_ports rfl)]

end

/-! ### A lost write leaves ingress (R362) -/

theorem find?_append_self {ing : List Req} {r : Req} (hnew : ∀ x ∈ ing, x.uid ≠ r.uid) :
    (ing ++ [r]).find? (fun x => x.uid == r.uid) = some r := by
  rw [List.find?_append, List.find?_eq_none.mpr fun x hx => by simpa using hnew x hx]
  simp

theorem filter_append_self {ing : List Req} {r : Req} (hnew : ∀ x ∈ ing, x.uid ≠ r.uid) :
    (ing ++ [r]).filter (fun x => x.uid != r.uid) = ing := by
  rw [List.filter_append, List.filter_eq_self.mpr fun x hx => by simpa using hnew x hx]
  simp

/-- A request without a curtain that is lost leaves ingress, and nothing else does. -/
theorem ing_loseWrite {m uid : Nat} {s : State} (hcurt : ∀ r ∈ (port m s).ing, r.uid = uid → r.curtUid = 0) :
    (port m (loseWrite m s uid)).ing = (port m s).ing.filter fun x => x.uid != uid := by
  unfold loseWrite
  dsimp only
  split
  next hnone =>
    exact (List.filter_eq_self.mpr fun x hx => by simpa using List.find?_eq_none.mp hnone x hx).symm
  next r hfind =>
    have huid : r.uid = uid := by simpa using List.find?_some hfind
    rw [if_neg (not_not.mpr (hcurt r (List.mem_of_find?_eq_some hfind) huid))]
    refine (ing_tryFinish ..).trans ((ing_returnCredits ..).trans ((ing_disown ..).trans ?_))
    rw [port_setPort_same]

/-- Every lost write without a curtain leaves ingress, and nothing else does. -/
theorem ing_losePath {m : Nat} {uids : List Nat} {s : State} (hcurt : ∀ r ∈ (port m s).ing, r.uid ∈ uids → r.curtUid = 0) :
    (port m (losePath true m uids s)).ing = (port m s).ing.filter fun x => !uids.contains x.uid := by
  rw [losePath, if_pos rfl]
  induction uids generalizing s with
  | nil => simp
  | cons uid uids ih =>
    have hone := ing_loseWrite (m := m) (uid := uid) (s := s) fun r hr h => hcurt r hr (by simp [h])
    rw [List.foldl_cons, ih, hone, List.filter_filter]
    · refine List.filter_congr fun x _ => ?_
      rw [List.contains_cons, Bool.not_or, Bool.and_comm]
      rfl
    · intro r hr hmem
      rw [hone] at hr
      exact hcurt r (List.mem_filter.mp hr).1 (List.mem_cons_of_mem _ hmem)

theorem mem_losePath (parityError : Bool) (m : Nat) (uids : List Nat) (s : State) : (losePath parityError m uids s).mem = s.mem :=
  (fr_losePath ..).f_mem rfl

/-! ### A lost request of a compute port (R362) -/

/-- The live entry of a request that a parity error took. -/
def lostLive (r : Req) (s : State) : State := { s with live := mset s.live r.uid ⟨r, [], 0, [], 0, true, false⟩ }

theorem port_lostLive (k : Nat) (r : Req) (s : State) : port k (lostLive r s) = port k s := port_congr k rfl

theorem port_egressPut {k : Nat} (e : Egr) {s : State} (hready : (port k s).ready = true) :
    port k (egressPut k e s) = { port k s with egress := (port k s).egress ++ [e] } := by
  unfold egressPut answers
  dsimp only
  rw [hready, Bool.true_or, if_pos rfl, port_setPort_same]

/-- A lost write or push is answered with POISON at its ready port. -/
theorem port_tryFinish_lost {k : Nat} {r : Req} {s : State} (hop : r.op ≠ .rd) (hsrc : r.src = .cp k) (hready : (port k s).ready = true) :
    port k (tryFinish r.uid (lostLive r s)) =
      { port k s with egress := (port k s).egress ++ [.hdr rtPoison r.tag 0 0 (ones r.beats) true] } := by
  have hread : (r.op == .rd) = false := by simpa using hop
  unfold tryFinish
  rw [lostLive, mfind_mset_same]
  dsimp only
  rw [hsrc, hread, if_neg Bool.false_ne_true, if_neg Bool.false_ne_true, if_neg (not_not.mpr rfl)]
  dsimp only
  exact port_egressPut _ hready

theorem port_returnCredits_cp {k : Nat} {r : Req} (s : State) (hsrc : r.src = .cp k) :
    ∃ hdue ddue, port k (returnCredits r s) = { port k s with hdue := hdue, ddue := ddue } := by
  unfold returnCredits
  rw [hsrc]
  exact ⟨_, _, port_setPort_same ..⟩

/-- The lost request is answered with POISON, and its credits become due. -/
theorem port_loseWrite_cp {k : Nat} {r : Req} {s : State} (hfind : (port k s).ing.find? (fun x => x.uid == r.uid) = some r)
    (hcurt : r.curtUid = 0) (hop : r.op ≠ .rd) (hsrc : r.src = .cp k) (hready : (port k s).ready = true) :
    ∃ owed hdue ddue, port k (loseWrite k s r.uid) = { port k s with
      ing := (port k s).ing.filter fun x => x.uid != r.uid, owed := owed, hdue := hdue, ddue := ddue,
      egress := (port k s).egress ++ [.hdr rtPoison r.tag 0 0 (ones r.beats) true] } := by
  unfold loseWrite
  rw [hfind]
  dsimp only
  rw [if_neg (not_not.mpr hcurt), ← lostLive]
  obtain ⟨owed, howed⟩ := port_disown k r.uid (setPort k { port k s with ing := (port k s).ing.filter fun x => x.uid != r.uid } s)
  rw [port_setPort_same] at howed
  obtain ⟨hdue, ddue, hcredits⟩ := port_returnCredits_cp (disown k r.uid
    (setPort k { port k s with ing := (port k s).ing.filter fun x => x.uid != r.uid } s)) hsrc
  refine ⟨owed, hdue, ddue, (port_congr k rfl).trans ((port_tryFinish_lost hop hsrc ?_).trans ?_)⟩
  · rw [hcredits, howed]
    exact hready
  · rw [hcredits, howed]

/-- A request that is decoded and lost at once: its header has been taken, its answer is POISON, and ingress is as before. -/
theorem port_decode_lost {k : Nat} {r : Req} {rest : List Req} {s : State} (hrx : (port k s).rx = r :: rest) (hk : k < 16)
    (hop : r.op ≠ .rd) (hsrc : r.src = .cp k) (hformat : formatAt k r s = 0) (hopen : openOn r.ctx k s = true) (hcurt : r.curt = 0)
    (huid : r.curtUid = 0) (hclean : ∀ x ∈ (port k s).ing ++ [r], x.parityBad = false)
    (hnew : ∀ x ∈ (port k s).ing, x.uid ≠ r.uid) (hready : (port k s).ready = true) :
    ∃ owed hdue ddue, port k (losePath true k (headUid k s) (decodeHead r.op k s)) = { port k s with
      rx := rest, owed := owed, hdue := hdue, ddue := ddue,
      egress := (port k s).egress ++ [.hdr rtPoison r.tag 0 0 (ones r.beats) true] } := by
  have hport : port k (waitIngress k r (headTaken k rest s)) = { port k s with rx := rest, ing := (port k s).ing ++ [r] } := by
    rw [port_waitIngress, port_headTaken]
  have hpath : losePath true k (headUid k s) (decodeHead r.op k s) = loseWrite k (waitIngress k r (headTaken k rest s)) r.uid := by
    rw [decodeHead_passes hrx hk hformat hopen hcurt hclean, headUid, hrx]
    rfl
  obtain ⟨owed, hdue, ddue, hlost⟩ := port_loseWrite_cp (s := waitIngress k r (headTaken k rest s))
    (by rw [hport]; exact find?_append_self hnew) huid hop hsrc (by rw [hport]; exact hready)
  refine ⟨owed, hdue, ddue, ?_⟩
  rw [hpath, hlost, hport]
  dsimp only
  rw [filter_append_self hnew]

/-- The commands that decode the header of a write or push, by its operation, where a parity error strikes it. -/
theorem exec_decode_lost {k : Nat} {op : Op} {c : Instr} (s : State)
    (h : (op, c) ∈ [(Op.wr, Instr.cpWr k true), (Op.push, Instr.cpActPush k true)]) :
    exec c s = .next (losePath true k (headUid k s) (decodeHead op k s)) ∧ op ≠ .rd := by
  simp only [List.mem_cons, Prod.mk.injEq, List.not_mem_nil, or_false] at h
  obtain ⟨rfl, rfl⟩ | ⟨rfl, rfl⟩ := h
  · exact ⟨rfl, nofun⟩
  · exact ⟨rfl, nofun⟩

/-! ### A lost request of PP (R362, R396) -/

theorem winMatch_congr (dir node off beats : Nat) {s t : State} (hrd : ∀ f, rd f t = rd f s) :
    winMatch dir node off beats t = winMatch dir node off beats s := by
  unfold winMatch winCovers on
  simp only [hrd]

/-- A packet that passes the checks of R395 goes on with the window that it matches; the checks read registers only. -/
theorem ppCheck_accepted {w : BitVec 256} {op x : Nat} {s t : State} (k : Option Nat → State → State) (hacc : ppAccepted op w x s)
    (hop : op ≠ 5) (hrd : ∀ f, rd f t = rd f s) : ppCheck w t k = k (some x) t := by
  obtain ⟨hkind, _, _, _, hformat, hnode, hgen, hwin, hon⟩ := hacc
  have hnode' : slotF w 64 20 = myNode t := hnode.trans (hrd _).symm
  have hon' : on (kindField op x) t = true := by rw [on, hrd, ← on, hon]
  unfold ppCheck
  dsimp only
  rw [hformat, ← hnode', hgen, hkind, winMatch_congr _ _ _ _ hrd, hwin]
  simp [hop, hon']

/-- A packet that PP accepts has taken its credits and is counted. -/
def ppTaken (w : BitVec 256) (s : State) : State :=
  emit 0x603 (256 * ppFlits w) none none none none (emit 0x601 1 none none none none
    (setPort 17 { port 17 s with reqHdr := (port 17 s).reqHdr - 1, reqData := (port 17 s).reqData - ppFlits w } s))

theorem fr_ppTaken (w : BitVec 256) (s : State) : Frame 0x40000002000 s (ppTaken w s) :=
  (((fr_setPort ..).mono rfl).seq (fr_emit ..) rfl).seq (fr_emit ..) rfl

theorem ing_ppTaken (w : BitVec 256) (s : State) : (port 17 (ppTaken w s)).ing = (port 17 s).ing := by
  rw [ppTaken, port_congr 17 (emit_ports ..), port_congr 17 (emit_ports ..), port_setPort_same]

theorem nextUid_ppTaken (w : BitVec 256) (s : State) : (ppTaken w s).nextUid = s.nextUid := (fr_ppTaken w s).f_nextUid rfl

theorem ppArrive_accepted {w : BitVec 256} {op x : Nat} {par : BitVec 32} {d : List Byte} {dpar : List Bool} {s : State}
    (k : State → State) (hacc : ppAccepted op w x s) (hpar : slotParity w = par) (hdpar : dpar = bytesParity d) :
    ppArrive op ⟨w, par, d, dpar⟩ s k =
      pumpPp (if (port 17 (k (ppTaken w s))).ing.any fun r => decide (s.nextUid ≤ r.uid) then k (ppTaken w s)
        else oweCredits 17 1 (ppFlits w) (k (ppTaken w s))) := by
  obtain ⟨hkind, hready, hhdr, hdata, _⟩ := hacc
  have hdataOk : dataOk ⟨w, par, d, dpar⟩ = true := by simp [dataOk, hdpar]
  have hflits : ppFlits w ≤ (port 17 s).reqData := by
    unfold ppFlits flitsOf
    split
    · exact Nat.zero_le _
    next hdataless =>
      rw [if_neg fun h => hdataless (by simp [hkind, h])] at hdata
      exact hdata
  unfold ppArrive
  dsimp only
  rw [if_neg (by simp [hkind]), if_neg (by simp [hready]), if_neg (not_not.mpr hpar), if_neg (by simp [hflits]; omega),
    ← ppTaken, nextUid_ppTaken, hdataOk, Bool.not_true, Bool.and_false, if_neg Bool.false_ne_true]

/-- A write that is performed waits at ingress of PP under the next identity. -/
theorem ing_ppPerform (w : BitVec 256) (op : Op) (x : Nat) (d : List Byte) (s : State) :
    ∃ r, (port 17 (ppPerform w op x d s)).ing = (port 17 s).ing ++ [r] ∧ r.uid = s.nextUid ∧ r.curtUid = 0 :=
  ⟨_, congrArg Port.ing (port_waitIngress ..), rfl, rfl⟩

/-- A write that PP accepts waits at ingress under the next identity. -/
theorem ing_ppInWrite {w : BitVec 256} {x : Nat} {par : BitVec 32} {d : List Byte} {dpar : List Bool} {s : State}
    (hacc : ppAccepted 2 w x s) (hpar : slotParity w = par) (hdpar : dpar = bytesParity d) :
    ∃ r, (port 17 (ppInWrite ⟨w, par, d, dpar⟩ s)).ing = (port 17 s).ing ++ [r] ∧ r.uid = s.nextUid ∧ r.curtUid = 0 := by
  have hrd : ∀ f, rd f (ppTaken w s) = rd f s := fun f => (fr_ppTaken w s).rd_eq f rfl rfl
  obtain ⟨r, hing, huid, hcurt⟩ := ing_ppPerform w .wr x d (ppTaken w s)
  refine ⟨r, ?_, huid.trans (nextUid_ppTaken w s), hcurt⟩
  rw [ppInWrite, ppArrive_accepted _ hacc hpar hdpar, ppCheck_accepted _ hacc (by decide) hrd, ing_pumpPp]
  dsimp only
  rw [apply_ite (fun t => (port 17 t).ing), ing_oweCredits, ite_self, hing, ing_ppTaken]

theorem exec_ppInWr (w : BitVec 256) (par : BitVec 32) (d : List Byte) (dpar : List Bool) (s : State) :
    exec (.ppInWr w par d dpar true) s = .next (losePath true 17 [s.nextUid] (ppInWrite ⟨w, par, d, dpar⟩ s)) := rfl

/-- A request that has just come to ingress without a curtain and is lost leaves ingress as it was. -/
theorem ing_losePath_arrived {m : Nat} {r : Req} {ing : List Req} {uids : List Nat} {s : State} (hing : (port m s).ing = ing ++ [r])
    (hcurt : r.curtUid = 0) (hmem : r.uid ∈ uids) (hnew : ∀ x ∈ ing, x.uid ∉ uids) : (port m (losePath true m uids s)).ing = ing := by
  rw [ing_losePath, hing, List.filter_append, List.filter_eq_self.mpr fun x hx => by simpa using hnew x hx]
  · simpa using hmem
  · intro x hx hxuid
    rw [hing, List.mem_append] at hx
    rcases hx with hx | hx
    · exact absurd hxuid (hnew x hx)
    · rw [List.mem_singleton.mp hx, hcurt]

/-! ### A lost write of HP (R362, R316) -/

/-- The write of one block through BAR_4 waits at ingress of HP. -/
theorem ing_hpRequest (src : Src) (op : Op) (a beats be : Nat) (d : List Beat) (s : State) :
    ∃ r, (port 16 (hpRequest src op a beats be d s)).ing = (port 16 s).ing ++ [r] ∧ r.uid = s.nextUid ∧ r.curtUid = 0 :=
  ⟨_, congrArg Port.ing (port_waitIngress ..), rfl, rfl⟩

theorem bar4Writes_nil (n a : Nat) (s : State) : bar4Writes n a [] s = s := by
  cases n with
  | zero => rfl
  | succ n => rfl

theorem bar4Writes_block {a : Nat} {d : List Byte} (n : Nat) (s : State) (ha : a % 64 = 0) (hlen : d.length = 64) :
    bar4Writes (n + 1) a d s = hpRequest (.hp 0 0 0) .wr a 1 (2 ^ 64 - 1) (beatsOf 1 d) s := by
  have hempty : d.isEmpty = false := List.isEmpty_eq_false_iff.mpr fun h => by simp [h] at hlen
  unfold bar4Writes
  rw [hempty]
  dsimp only
  rw [if_neg Bool.false_ne_true, if_pos (by simp [ha, hlen]), hlen, List.drop_of_length_le (by omega), bar4Writes_nil]

theorem hpMemWrite_block {off : Nat} {d : List Byte} {s : State} (hopened : hasOpened s = true) (hshut : s.power.shut = none)
    (henabled : memEnabled s = true) (hbar : inBar 4 off d.length s = true) (ha : bar4Addr off s % 64 = 0) (hlen : d.length = 64) :
    hpMemWrite 4 off d false s = hpRequest (.hp 0 0 0) .wr (bar4Addr off s) 1 (2 ^ 64 - 1) (beatsOf 1 d) s := by
  unfold hpMemWrite
  rw [henabled, hbar, if_neg (by decide), if_neg (by decide), if_neg (by decide), if_neg (by decide)]
  unfold bar4Write
  dsimp only
  rw [hopened, hshut, if_neg (by decide), if_neg (by simp), bar4Writes_block 3 s ha hlen]

theorem exec_hpMemWrite (bar : Nat) (off : BitVec 64) (d : List Byte) (s : State) :
    exec (.hpMemWrite bar off d false true) s =
      .next (losePath true 16 ((List.range 4).map fun i => s.nextUid + i) (hpMemWrite bar off.toNat d false s)) := rfl

/-! ### A beat that is lost on its way back (R362, R352) -/

theorem colTiming_retries (n : Nat) (o : POp) (q : Pc) (s : State) : (colTiming n o q s).retries = q.retries := by
  unfold colTiming
  dsimp only
  split <;> rfl

/-- The column command of a read whose beat is lost: the beat is delivered without data. -/
theorem doCol_read_lost {n c p k : Nat} {o : POp} {e : QEnt} (errs : ErrPat) {s : State} (hkind : o.kind = .read k)
    (hentry : (pcOf n c p s).rdq.find? (fun x => x.seq == k) = some e) :
    doCol n c p o errs true s = deliver n e.uid e.beat none (colStarted n c p o (some 0x201)
      { pcOf n c p s with rdq := (pcOf n c p s).rdq.filter fun x => x.seq != k } s) := by
  unfold doCol
  rw [hkind]
  dsimp only
  rw [hentry]
  rfl

/-! ### A curtain whose staging bank shows a parity error (R339) -/

theorem on_portErr {f : Fld} (hacc : f.acc = .w1c) (hw : f.w = 1) (hkey : f.key ≠ (intField 1).key) (s : State) :
    on f (portErr f s) = true := by
  have hone : rd f (bump f 1 s) = 1 := by
    rw [rd_bump_same f 1 s (by rw [hacc]; nofun), hw]
    omega
  unfold portErr
  dsimp only
  split
  · exact on_of_rd_eq_one hone
  · exact on_of_rd_eq_one ((rd_raiseInt f 1 _ hkey).trans hone)

/-- A curtain of a compute port that is torn leaves its mark in the port's errors. -/
theorem curtTorn_tearCurtain {k : Nat} (hk : k < 16) (u : Nat) (dog : Bool) (s : State) :
    on (ARB_PORT_ERR.CURT_TORN k) (tearCurtain k u dog s) = true := by
  have hkey : (ARB_PORT_ERR.CURT_TORN k).key ≠ (intField 1).key := by
    simp only [Fld.key, ARB_PORT_ERR.CURT_TORN, intField, INT_STATUS.PORT_ERR]
    omega
  unfold tearCurtain
  dsimp only
  rw [on, (fr_emit ..).rd_eq _ rfl rfl]
  exact on_portErr rfl rfl hkey _

theorem curtTorn_curtainComplete {n k : Nat} {st : Stage} {s : State} (hk : k < 16) (hstage : mfind (gate n s).stage k = some st) :
    on (ARB_PORT_ERR.CURT_TORN k) (curtainComplete n k (stageParityIf true n k s)) = true := by
  rw [on, (fr_curtainComplete ..).rd_eq _ rfl rfl, ← on, stageParityIf, if_pos rfl, stageParity, hstage]
  exact curtTorn_tearCurtain hk ..

theorem exec_curtainComplete_lost (n k : Nat) (s : State) :
    exec (.curtainComplete n k true) s = .next (settled (curtainComplete n k (stageParityIf true n k s))) := rfl

/-! ### The commands -/

/-- Settles O36: a lost request joins ingress under its identity and is taken out again by it, a lost beat is a column command that
delivers nothing, and the torn curtain's mark outlives the rest of the command. -/
theorem lostPortWrites : Obligations.LostPortWrites := by
  unfold Obligations.LostPortWrites
  refine ⟨?computePort, ?peer, ?host, ?beat, ?curtain⟩
  case computePort =>
    intro k r rest op c s hcmd hrx hop hk hsrc hformat hopen hcurt huid hclean hnew hready
    obtain ⟨hexec, hwrites⟩ := exec_decode_lost s hcmd
    subst hop
    obtain ⟨owed, hdue, ddue, hport⟩ := port_decode_lost hrx hk hwrites hsrc hformat hopen hcurt huid hclean hnew hready
    refine ⟨_, hexec, ?_, ?_, ?_, ?_⟩
    · rw [hport]
    · rw [hport]
    · rw [hport]
    · rw [mem_losePath, (fr_decodeHead ..).f_mem rfl]
  case peer =>
    intro w par d dpar x s hacc hpar hdpar hnew
    obtain ⟨r, hing, huid, hcurt⟩ := ing_ppInWrite hacc hpar hdpar
    refine ⟨_, exec_ppInWr w par d dpar s, ing_losePath_arrived hing hcurt ?_ ?_, ?_⟩
    · rw [huid]
      exact List.mem_singleton_self _
    · exact fun y hy h => hnew y hy (List.mem_singleton.mp h)
    · rw [mem_losePath, (fr_ppInWrite ..).f_mem rfl]
  case host =>
    intro off d s hopened hshut henabled hbar ha hlen hold
    have hwrite := hpMemWrite_block hopened hshut henabled hbar ha hlen
    obtain ⟨r, hing, huid, hcurt⟩ := ing_hpRequest (.hp 0 0 0) .wr (bar4Addr off.toNat s) 1 (2 ^ 64 - 1) (beatsOf 1 d) s
    refine ⟨_, exec_hpMemWrite 4 off d s, ?_, ?_⟩
    · rw [hwrite]
      refine ing_losePath_arrived hing hcurt ?_ ?_
      · rw [huid]
        exact List.mem_map.mpr ⟨0, by decide, rfl⟩
      · intro y hy hmem
        obtain ⟨i, _, hi⟩ := List.mem_map.mp hmem
        have := hold y hy
        omega
    · rw [mem_losePath, hwrite, (fr_hpRequest ..).f_mem rfl]
  case beat =>
    intro n c p k o e errs s u hused hactive hu hhold hrow hcol hkind hentry
    subst hu
    have hframe := ((fr_chargeShare n c p (beginCclk n c p s)).mono (m := 0x40000100000) rfl).seq (fr_colStarted n c p o (some 0x201)
      { pcOf n c p (chargeShare n c p (beginCclk n c p s)) with
        rdq := (pcOf n c p (chargeShare n c p (beginCclk n c p s))).rdq.filter fun x => x.seq != k } _) rfl
    refine ⟨_, _, ?_, rfl, hframe.f_live rfl, hframe.f_mem rfl, ?_⟩
    · rw [exec_chcCommandIssue, commandIssue_col hused hactive hhold hrow hcol, doCol_read_lost errs hkind hentry]
    · rw [(fr_deliver ..).pcOf_eq n c p rfl, pcOf_colStarted, colTiming_retries]
  case curtain =>
    intro n k st s hk hstage
    refine ⟨_, exec_curtainComplete_lost n k s, curtTorn_curtainComplete hk hstage, ?_⟩
    rw [(fr_curtainComplete ..).f_mem rfl, (fr_stageParityIf ..).f_mem rfl]

end Sys2Proof.Machine
end

section
/-! Proofs for the scope of the block (00_scope.md): the frame of every command. -/

namespace Sys2Proof.Machine

/-- The bit of the OTP words that debug access alone programs (R463): only a scan of the test access port has it. -/
def debugBit : Instr → Nat
  | .jtgAccess _ _ => 2 ^ 61
  | _ => 0

/-- The bits of what a command may change. -/
def frameMask (c : Instr) : Nat := (mayChange c).foldl (fun m p => m ||| 2 ^ p.ix) (debugBit c)

/-- An outcome that goes on keeps to the frame of a mask. -/
def Framed (m : Nat) (s : State) (o : Host.Outcome State Fault Refusal) : Prop := ∀ t, o = .next t → Frame m s t

/-- The frame of the operation that a command's meaning answers with; its mask is compared with the command's list of pieces. -/
theorem framed_next {c : Instr} {a : Nat} {s t : State} (h : Frame a s t)
    (ha : Within a (frameMask c) := by dsimp only [frameMask, mayChange, debugBit]; rfl) : Framed (frameMask c) s (.next t) := by
  intro u hu
  cases hu
  exact h.mono ha

theorem within_or_left (a b : Nat) : Within a (a ||| b) := by
  show Nat.beq (a ||| (a ||| b)) (a ||| b) = true
  rw [← Nat.or_assoc, Nat.or_self, Nat.beq_refl]

theorem within_or_right (a b : Nat) : Within b (a ||| b) := Nat.or_comm b a ▸ within_or_left b a

/-- The masks of two operations, one after the other, add up. -/
theorem Frame.then {a b : Nat} {s t u : State} (h : Frame a s t) (k : Frame b t u) : Frame (a ||| b) s u :=
  (h.mono (within_or_left a b)).seq k (within_or_right a b)

/-- Every command keeps to its frame: the frames of the operations that its meaning runs, one after the other. -/
theorem framed_exec (c : Instr) (s : State) : Framed (frameMask c) s (exec c s) := by
  cases c with
  | reset _ => exact framed_next (fr_resetOp ..)
  | romBoot _ => exact framed_next (fr_romBoot ..)
  | coreRelease => exact framed_next (fr_coreRelease ..)
  | domainSequence => exact framed_next (fr_domainSequence ..)
  | hiveTraining _ _ => exact framed_next ((fr_hiveTraining ..).then (fr_settled ..))
  | checkerSelfTest _ => exact framed_next ((fr_checkerSelfTest ..).then (fr_settled ..))
  | fill => exact framed_next (fr_fill ..)
  | portOpening _ _ => exact framed_next (fr_portOpening ..)
  | heldEventFlush => exact framed_next (fr_heldEventFlush ..)
  | housekeepingRound _ => exact framed_next (fr_housekeepingRound ..)
  | throttleLevelStep _ => exact framed_next (fr_levelStep ..)
  | shutdownRecordWrite => exact framed_next (fr_shutdownRecordWrite ..)
  | shutdownRecordClear => exact framed_next (fr_shutdownRecordClear ..)
  | orderlyShutdown => exact framed_next ((fr_orderlyShutdown ..).then (fr_settled ..))
  | shutdown => exact framed_next (fr_softShutdown ..)
  | pwrAckRise d =>
    intro t h
    have hrise : Framed (frameMask (.pwrAckRise d)) s (.next t) := framed_next (fr_ackRise d s t h)
    exact hrise t rfl
  | pwrAckFall _ => exact framed_next ((fr_ackFall ..).then (fr_settled ..))
  | pwrAckTimeout _ => exact framed_next ((fr_ackTimeout ..).then (fr_settled ..))
  | domainLoss _ => exact framed_next ((fr_domainLost ..).then (fr_settled ..))
  | pdCIdlePowerDown _ => exact framed_next (fr_idlePowerDown ..)
  | pdCWake _ => exact framed_next (fr_cellsWake ..)
  | cpLinkDown _ => exact framed_next ((fr_linkDown ..).then (fr_settled ..))
  | cpPortReopen _ => exact framed_next (fr_portReopen ..)
  | cpHeaderFlit _ _ _ => exact framed_next (fr_headerFlit ..)
  | cpRd _ => exact framed_next (fr_decodeHead ..)
  | cpWr _ _ => exact framed_next ((fr_decodeHead ..).then (fr_losePath ..))
  | cpActPush _ _ => exact framed_next ((fr_decodeHead ..).then (fr_losePath ..))
  | cpDataFlit _ _ _ => exact framed_next (fr_dataFlit ..)
  | cpRspCreditReturn _ _ _ => exact framed_next (fr_rspCredits ..)
  | responseSend _ => exact framed_next (fr_responseSend ..)
  | regulationCheck _ => exact framed_next (((fr_regulationCheck ..).then (fr_rspCreditCycle ..)).then (fr_settled ..))
  | curtainComplete _ _ _ => exact framed_next (((fr_stageParityIf ..).then (fr_curtainComplete ..)).then (fr_settled ..))
  | curtainWatchdogExpiry _ => exact framed_next ((fr_curtainWatchdog ..).then (fr_settled ..))
  | gateDraw _ _ => exact framed_next ((fr_gateDraw ..).then (fr_settled ..))
  | backoffExpiry _ _ => exact framed_next (fr_backoffExpiry ..)
  | curtainCommit _ => exact framed_next ((fr_curtainCommit ..).then (fr_settled ..))
  | chcCommandIssue _ _ _ _ _ => exact framed_next ((fr_commandIssue ..).then (fr_settled ..))
  | refreshInterval _ _ _ => exact framed_next (fr_refreshInterval ..)
  | neighbourRefreshMandatory _ _ _ => exact framed_next (fr_neighbourMandatory ..)
  | rowCloseIdle _ _ _ _ => exact framed_next (fr_rowCloseIdle ..)
  | powerDownEntry _ _ _ => exact framed_next (fr_powerDownEntry ..)
  | selfRefreshEntry _ _ _ => exact framed_next (fr_selfRefreshEntry ..)
  | pseudoChannelWake _ _ _ => exact framed_next (fr_pseudoChannelWake ..)
  | checkCacheParityError _ _ _ _ => exact framed_next (fr_cacheParity ..)
  | chcCommit _ => exact framed_next (fr_chcCommit ..)
  | modeRegisterRead _ _ _ => exact framed_next (fr_modeRegisterRead ..)
  | modeRegisterWrite _ _ => exact framed_next (fr_modeRegisterWrite ..)
  | reread _ _ _ _ => exact framed_next ((fr_reread ..).then (fr_settled ..))
  | readModifyWrite _ _ _ _ => exact framed_next ((fr_readModifyWrite ..).then (fr_settled ..))
  | ceLeak _ => exact framed_next (fr_ceLeak ..)
  | laneErasure _ _ _ _ => exact framed_next (fr_laneErasure ..)
  | remapInstall _ _ _ _ _ _ _ => exact framed_next (fr_remapInstall ..)
  | install _ _ => exact framed_next (fr_install ..)
  | repair _ _ _ => exact framed_next (fr_repair ..)
  | remapMove _ _ _ _ => exact framed_next (fr_remapMove ..)
  | scrubGo => exact framed_next (fr_scrubGo ..)
  | scrubStop => exact framed_next (fr_scrubStop ..)
  | scrubRead _ => exact framed_next (fr_scrubRead ..)
  | scrubRunEnd => exact framed_next (fr_scrubRunEnd ..)
  | recalRound _ _ => exact framed_next (fr_recalRound ..)
  | recalNow _ => exact framed_next (fr_recalNow ..)
  | recalDeadline _ _ _ => exact framed_next (fr_recalDeadline ..)
  | laneMove _ _ _ _ _ => exact framed_next (fr_laneMove ..)
  | dlyRampStep _ _ _ => exact framed_next (fr_dlyRamp ..)
  | hpMemRead _ _ _ _ => exact framed_next (fr_hpMemRead ..)
  | hpMemWrite _ _ _ _ _ => exact framed_next ((fr_hpMemWrite ..).then (fr_losePath ..))
  | hpConfigRead _ _ _ => exact framed_next (fr_hpConfigRead ..)
  | hpConfigWrite _ _ _ _ _ => exact framed_next (fr_hpConfigWrite ..)
  | hpUnsupportedRequest _ _ => exact framed_next (fr_hpUnsupported ..)
  | hpCompletion _ _ _ _ _ => exact framed_next (fr_hpCompletion ..)
  | hpCompletionTimeout _ => exact framed_next (fr_hpTimeout ..)
  | tagQuarantineExpiry _ _ => exact framed_next (fr_quarantineExpiry ..)
  | functionReset _ => exact framed_next (fr_functionResetOp ..)
  | msixPendingRelease _ => exact framed_next (fr_msixRelease ..)
  | descTail _ _ => exact framed_next (fr_descTail ..)
  | cplHead _ _ => exact framed_next (fr_cplHead ..)
  | heartbeat _ _ => exact framed_next (fr_heartbeat ..)
  | heartbeatTimeout _ => exact framed_next (fr_heartbeatTimeout ..)
  | ctxHbCfgWrite _ _ => exact framed_next (fr_hbCfgWrite ..)
  | ackDrain _ _ => exact framed_next (fr_ackWait ..)
  | ackDiscard _ _ => exact framed_next (fr_ackWait ..)
  | drainComplete _ => exact framed_next (fr_drainComplete ..)
  | ctxOpen => exact framed_next (fr_ctxCommand ..)
  | ctxClose => exact framed_next (fr_ctxCommand ..)
  | closeComplete _ => exact framed_next (fr_closeComplete ..)
  | ctxResume => exact framed_next (fr_ctxCommand ..)
  | ctxResumeDiscard => exact framed_next (fr_ctxCommand ..)
  | resumeCommit _ => exact framed_next (fr_commitResume ..)
  | ctxRead => exact framed_next (fr_ctxCommand ..)
  | ctxModify => exact framed_next (fr_ctxCommand ..)
  | descriptorFetch _ => exact framed_next (fr_descriptorFetch ..)
  | jobStart _ => exact framed_next (fr_jobStart ..)
  | jobNop _ _ => exact framed_next ((fr_parityOf ..).then (fr_jobNop ..))
  | copy _ _ => exact framed_next ((fr_parityOf ..).then (fr_copyJob ..))
  | fillRange _ _ => exact framed_next ((fr_parityOf ..).then (fr_fillJob ..))
  | runCue _ _ => exact framed_next ((fr_parityOf ..).then (fr_placeCue ..))
  | attnStream _ _ => exact framed_next ((fr_parityOf ..).then (fr_placeCue ..))
  | peerReduceSend _ _ => exact framed_next ((fr_parityOf ..).then (fr_reduceSend ..))
  | peerReduceGather _ _ => exact framed_next ((fr_parityOf ..).then (fr_reduceGather ..))
  | broadcast _ _ => exact framed_next ((fr_parityOf ..).then (fr_broadcastJob ..))
  | jobBeginOnHive _ => exact framed_next (fr_jobBegin ..)
  | jobDoneReport _ => exact framed_next (fr_jobDone ..)
  | jobTimeout _ _ => exact framed_next (fr_jobTimeout ..)
  | completionRecordWrite _ => exact framed_next (fr_recordWrite ..)
  | auditBatchClose => exact framed_next (fr_auditBatchClose ..)
  | cueNop _ _ => exact framed_next ((fr_meetAtIssue ..).then (fr_nopOp ..))
  | cueEnd _ _ => exact framed_next ((fr_meetAtIssue ..).then (fr_endOp ..))
  | cueWait _ _ => exact framed_next ((fr_meetAtIssue ..).then (fr_waitOp ..))
  | cueLset _ _ => exact framed_next ((fr_meetAtIssue ..).then (fr_lsetOp ..))
  | cueLoop _ _ => exact framed_next ((fr_meetAtIssue ..).then (fr_loopOp ..))
  | cueAset _ _ => exact framed_next ((fr_meetAtIssue ..).then (fr_asetOp ..))
  | cueAmov _ _ => exact framed_next ((fr_meetAtIssue ..).then (fr_amovOp ..))
  | cueAadd _ _ => exact framed_next ((fr_meetAtIssue ..).then (fr_aaddOp ..))
  | cueAmad _ _ => exact framed_next ((fr_meetAtIssue ..).then (fr_amadOp ..))
  | cueMode _ _ => exact framed_next ((fr_meetAtIssue ..).then (fr_modeOp ..))
  | cueScale _ _ => exact framed_next ((fr_meetAtIssue ..).then (fr_scaleOp ..))
  | cueLdact _ _ => exact framed_next ((fr_meetAtIssue ..).then (fr_ldactOp ..))
  | cueClrc _ _ => exact framed_next ((fr_meetAtIssue ..).then (fr_clrcOp ..))
  | cuePass _ _ => exact framed_next ((fr_meetAtIssue ..).then (fr_passOp ..))
  | cueZrb _ _ => exact framed_next ((fr_meetAtIssue ..).then (fr_zrbOp ..))
  | cueRed _ _ => exact framed_next ((fr_meetAtIssue ..).then (fr_redOp ..))
  | cueGather _ _ => exact framed_next ((fr_meetAtIssue ..).then (fr_gatherOp ..))
  | cueEmit _ _ => exact framed_next ((fr_meetAtIssue ..).then (fr_emitOp ..))
  | cueKstream _ _ => exact framed_next ((fr_meetAtIssue ..).then (fr_kstreamOp ..))
  | cueVstream _ _ => exact framed_next ((fr_meetAtIssue ..).then (fr_vstreamOp ..))
  | smaxStageMax _ _ => exact framed_next ((fr_meetAtIssue ..).then (fr_smaxMaxOp ..))
  | smaxStageExp _ _ => exact framed_next ((fr_meetAtIssue ..).then (fr_smaxExpOp ..))
  | smaxStageClose _ _ => exact framed_next ((fr_meetAtIssue ..).then (fr_smaxCloseOp ..))
  | spanSyncComplete _ _ => exact framed_next ((fr_parityAtWork ..).then (fr_spanSync ..))
  | activationWriteRelease _ => exact framed_next (fr_activationRelease ..)
  | residueFault _ _ _ _ => exact framed_next (fr_residueFault ..)
  | laneTestComplete _ _ _ => exact framed_next (fr_laneTest ..)
  | cellTakeover _ _ _ => exact framed_next (fr_cellTakeover ..)
  | cellParityError _ _ _ _ => exact framed_next (fr_cellParity ..)
  | cellRetire _ _ => exact framed_next (fr_retireWrite ..)
  | testStart _ _ => exact framed_next (fr_testStartWrite ..)
  | cellSelfTest _ _ _ => exact framed_next (fr_selfTest ..)
  | glbCommit => exact framed_next (fr_glbCommit ..)
  | arbCommit => exact framed_next (fr_arbCommit ..)
  | qosTokenReset _ => exact framed_next (fr_qosTokenReset ..)
  | guarFactorRecompute _ => exact framed_next (fr_guarFactor ..)
  | qosMissWindow _ => exact framed_next (fr_qosMissWindow ..)
  | winCommit => exact framed_next (fr_winCommit ..)
  | peerTimeoutWrite _ => exact framed_next (fr_peerTimeoutSet ..)
  | ppLinkDown => exact framed_next ((fr_ppLinkLost ..).then (fr_settled ..))
  | ppReadyRise => exact framed_next (fr_ppReadyRise ..)
  | peerOutboundRequest _ => exact framed_next ((fr_peerOutbound ..).then (fr_settled ..))
  | ppInRd _ _ => exact framed_next (fr_ppInRead ..)
  | ppInWr _ _ _ _ _ => exact framed_next ((fr_ppInWrite ..).then (fr_losePath ..))
  | ppInRed _ _ _ _ => exact framed_next (fr_ppInReduce ..)
  | ppInBcast _ _ _ _ _ => exact framed_next ((fr_ppInBroadcast ..).then (fr_losePath ..))
  | ppInRelay _ _ _ _ => exact framed_next (fr_ppInRelay ..)
  | ppInNop _ _ => exact framed_next (fr_ppInEmpty ..)
  | ppRspIn _ _ _ _ => exact framed_next ((fr_ppResponse ..).then (fr_settled ..))
  | peerRequestTimeout _ => exact framed_next ((fr_peerTimeout ..).then (fr_settled ..))
  | gatherApply _ _ => exact framed_next ((fr_parityAtWork ..).then (fr_gatherApply ..))
  | orphanExpiry _ => exact framed_next (fr_orphanExpiry ..)
  | bcastAck _ => exact framed_next (fr_bcastAck ..)
  | relayForward => exact framed_next (fr_relayForward ..)
  | relayResend _ => exact framed_next (fr_relayResend ..)
  | statusReq _ => exact framed_next (fr_statusReq ..)
  | updateBegin _ => exact framed_next (fr_updateBegin ..)
  | updateChunk _ => exact framed_next (fr_updateChunk ..)
  | updateEnd _ => exact framed_next (fr_updateEnd ..)
  | updateCheckDone => exact framed_next (fr_updateCheckDone ..)
  | updateApplyDone _ => exact framed_next (fr_updateApplyDone ..)
  | updateVerifyDone _ => exact framed_next (fr_updateVerifyDone ..)
  | updateLoadDone => exact framed_next (fr_updateLoadDone ..)
  | handover _ _ _ => exact framed_next (fr_handover ..)
  | bootRecordWrite => exact framed_next (fr_bootRecordWrite ..)
  | deferralTimeout => exact framed_next (fr_deferralTimeout ..)
  | debugChallengeReq _ => exact framed_next (fr_debugChallengeReq ..)
  | debugResponse _ => exact framed_next (fr_debugResponse ..)
  | auditFetch _ => exact framed_next (fr_auditFetch ..)
  | mbxReqTailWrite _ => exact framed_next (fr_mbxReqTailWrite ..)
  | mbxStatus => exact framed_next (fr_mbxStatus ..)
  | settingsRead => exact framed_next (fr_settingsRead ..)
  | settingsWrite _ => exact framed_next (fr_settingsWrite ..)
  | coreRestart _ _ => exact framed_next (fr_coreRestart ..)
  | coreWatchdogExpiry _ => exact framed_next (fr_coreWatchdog ..)
  | coreRestartDelayExpiry _ => exact framed_next (fr_coreDelayEnd ..)
  | updActivate => exact framed_next (fr_updActivate ..)
  | updAbort => exact framed_next (fr_updAbort ..)
  | eventRead => exact framed_next (fr_eventRead ..)
  | intMaskWrite _ => exact framed_next (fr_intMaskWrite ..)
  | advance _ _ => exact framed_next (fr_advanceCmd ..)
  | lcsResume _ => exact framed_next (fr_resumeLcs ..)
  | raiseFloor _ => exact framed_next (fr_raiseFloorCmd ..)
  | dbgClose => exact framed_next (fr_dbgCloseCmd ..)
  | revoke _ _ => exact framed_next (fr_revokeCmd ..)
  | pmcClear => exact framed_next (fr_pmcClear ..)
  | pmcCountUpdate => exact framed_next (fr_pmcCountUpdate ..)
  | bwWindowEnd => exact framed_next (fr_bwWindowEnd ..)
  | pmcBwCfgWrite _ => exact framed_next (fr_pmcBwCfgWrite ..)
  | pmcSmpEnable _ _ => exact framed_next (fr_pmcSmpWrite ..)
  | sampleRecordWrite _ => exact framed_next (fr_sampleRecordWrite ..)
  | registerWrite _ _ => exact framed_next (fr_registerWriteOp ..)
  | ppCreditReturn _ _ _ _ => exact framed_next (fr_ppCredits ..)
  | mbxEvtHeadWrite _ => exact framed_next (fr_mbxEvtHeadWrite ..)
  | jtgAccess _ _ => exact framed_next (fr_jtgScan ..)

theorem exec_frame {c : Instr} {s t : State} (h : exec c s = .next t) : Frame (frameMask c) s t := framed_exec c s t h

/-! ### What the frame says of a command and of a step -/

theorem debugBit_testBit {k : Nat} (c : Instr) (hk : k ≠ 61) : (debugBit c).testBit k = false := by
  unfold debugBit
  split
  · exact Nat.testBit_two_pow_of_ne hk.symm
  · exact Nat.zero_testBit k

theorem Piece.ix_lt (p : Piece) : p.ix < 61 := by cases p <;> decide

/-- A piece that is not listed for a command has no bit in its mask. -/
theorem frameMask_testBit {c : Instr} {p : Piece} (hp : p ∉ mayChange c) : (frameMask c).testBit p.ix = false :=
  testBit_maskOf _ _ _ (fun _ hq heq => hp (Piece.ix_inj heq ▸ hq)) (debugBit_testBit c p.ix_lt.ne)

theorem frameMask_testBit_debug {c : Instr} (hc : ∀ ir tdi, c ≠ .jtgAccess ir tdi) : (frameMask c).testBit 61 = false := by
  refine testBit_maskOf _ _ _ (fun p _ => p.ix_lt.ne) ?_
  unfold debugBit
  split
  · exact absurd rfl (hc _ _)
  · exact Nat.zero_testBit _

/-- Settles O6: the mask of a command's frame holds the bits of the pieces listed for it, and no other piece's. -/
theorem commandFrame : Obligations.CommandFrame := by
  unfold Obligations.CommandFrame
  intro c s t h p hp
  exact (exec_frame h).same p (frameMask_testBit hp)

/-- Settles O1: `step` takes a queue apart at its front. -/
theorem stepRunsFrontCommand : Obligations.StepRunsFrontCommand := fun _ _ _ => rfl

/-- A step idles, or runs the command at the front of the queue on the state with the rest of it. -/
theorem step_cases {s t : State} (h : step s = .next t) :
    (s.pending = [] ∧ idleTick s = t) ∨ ∃ c cs, s.pending = c :: cs ∧ exec c { s with pending := cs } = .next t := by
  unfold step at h
  split at h
  next hnone => exact .inl ⟨hnone, Host.Outcome.next.inj h⟩
  next c cs hcons => exact .inr ⟨c, cs, hcons, h⟩

/-- The OTP frame of a step: a scan of the test access port alone programs the words of debug access. -/
theorem step_otp {s t : State} (h : step s = .next t) : OtpKept s.otp t.otp ∧
    ((∀ ir tdi, s.pending.head? ≠ some (.jtgAccess ir tdi)) → OtpFixed s.otp t.otp) := by
  obtain ⟨-, hidle⟩ | ⟨c, cs, hcons, hexec⟩ := step_cases h
  · have hframe := hidle ▸ fr_idleTick s
    exact ⟨hframe.otpOk, fun _ => hframe.fixOk rfl⟩
  · have hframe := exec_frame hexec
    refine ⟨hframe.otpOk, fun hscan => hframe.fixOk (frameMask_testBit_debug fun ir tdi hc => hscan ir tdi ?_)⟩
    rw [hcons, hc, List.head?_cons]

/-- Settles O4: a command's frame, and the frame of an idle step, keep device memory canonical. -/
theorem stepKeepsInvariant : Obligations.StepKeepsInvariant := by
  unfold Obligations.StepKeepsInvariant
  intro s t hinv h
  obtain ⟨-, hidle⟩ | ⟨c, cs, -, hexec⟩ := step_cases h
  · exact (hidle ▸ fr_idleTick s).memOk hinv
  · exact (exec_frame hexec).memOk hinv

theorem mayChange_all (c : Instr) : ((mayChange c).all fun p => p != .pending && p != .env) = true := by cases c <;> rfl

/-- No command lists the queue or the straps. -/
theorem not_mem_mayChange (c : Instr) : .pending ∉ mayChange c ∧ .env ∉ mayChange c :=
  ⟨fun h => absurd (List.all_eq_true.mp (mayChange_all c) _ h) (by decide),
    fun h => absurd (List.all_eq_true.mp (mayChange_all c) _ h) (by decide)⟩

/-- Settles O7: no command lists the queue or the straps among what it may change, and neither does an idle step. -/
theorem stepConsumesOneCommand : Obligations.StepConsumesOneCommand := by
  unfold Obligations.StepConsumesOneCommand
  intro s t h
  obtain ⟨hnone, hidle⟩ | ⟨c, cs, hcons, hexec⟩ := step_cases h
  · have hframe := hidle ▸ fr_idleTick s
    exact ⟨by rw [hframe.f_pending rfl, hnone, List.tail_nil], hframe.f_env rfl⟩
  · have hframe := exec_frame hexec
    obtain ⟨hqueue, hstraps⟩ := not_mem_mayChange c
    refine ⟨?_, hframe.f_env (frameMask_testBit hstraps)⟩
    rw [hframe.f_pending (frameMask_testBit hqueue), hcons, List.tail_cons]

/-! ### Bits of OTP (R463, R464) -/

theorem bitsKept_of_or {a b : Nat} (h : a ||| b = b) : bitsKept a b := by
  intro i hi
  rw [← h, Nat.testBit_or, hi, Bool.true_or]

theorem copiesKept_of_tripleKept {a b : Nat × Nat × Nat} (h : TripleKept a b) : copiesKept a b := by
  obtain ⟨hA, hB, hC⟩ := h
  exact ⟨bitsKept_of_or hA, bitsKept_of_or hB, bitsKept_of_or hC⟩

/-- Settles O5: every command ORs bits into OTP, and the words of debug access change in no other frame than a scan's. -/
theorem otpBitsStay : Obligations.OtpBitsStay := by
  unfold Obligations.OtpBitsStay
  intro s t h
  obtain ⟨hkept, hfixed⟩ := step_otp h
  refine ⟨copiesKept_of_tripleKept hkept.lc, copiesKept_of_tripleKept hkept.kill, copiesKept_of_tripleKept hkept.floor,
    copiesKept_of_tripleKept hkept.revoke, copiesKept_of_tripleKept hkept.encReq, bitsKept_of_or hkept.encRoot,
    bitsKept_of_or hkept.idSeed, bitsKept_of_or hkept.serial, fun i => bitsKept_of_or (hkept.digests i), fun hscan => ?_⟩
  obtain ⟨henc, hdigests, hserial⟩ := hfixed hscan
  exact ⟨hserial, hdigests, henc⟩

end Sys2Proof.Machine
end

section
/-! Proofs for the peer port (13_peer_port.md): its link, its timeout, the requests it takes and the answers that settle its own. -/

namespace Sys2Proof.Machine

open Reg

/-! ### What sending leaves of the peer port (R393) -/

/-- The peer port without what is to be sent: its requests, its credits and its responses. -/
def unsent (p : Peer) : Peer := { p with reqs := [], queue := [], fwd := [], hdrCredit := 0, dataCredit := 0, egress := [] }

section
variable {p q : Peer} (h : unsent p = unsent q)
include h

theorem relay_of_unsent : p.relay = q.relay := (congrArg Peer.relay h :)
theorem staged_of_unsent : p.staged = q.staged := (congrArg Peer.staged h :)
theorem bcasts_of_unsent : p.bcasts = q.bcasts := (congrArg Peer.bcasts h :)

end

/-- Choosing the next request to leave takes it from its queue alone. -/
theorem nextOut_peer {r : PeerReq} {p : Peer} {s : State} (h : nextOut s = some (r, p)) :
    unsent p = unsent s.peer ∧ p.reqs = s.peer.reqs := by
  unfold nextOut at h
  dsimp only at h
  split at h
  · obtain ⟨rfl, rfl⟩ := h
    exact ⟨rfl, rfl⟩
  · split at h
    · obtain ⟨rfl, rfl⟩ := h
      exact ⟨rfl, rfl⟩
    · cases h

theorem unsent_pumpPeer (n : Nat) (s : State) : unsent (pumpPeer n s).peer = unsent s.peer := by
  induction n generalizing s with
  | zero => rfl
  | succ n ih =>
    unfold pumpPeer
    split
    · rfl
    · split
      next r p _ hnext _ =>
        rw [ih, (fr_emit ..).f_peer rfl, (fr_emit ..).f_peer rfl]
        exact (nextOut_peer hnext).1
      · rfl

theorem unsent_pumpRsp (n : Nat) (s : State) : unsent (pumpRsp n s).peer = unsent s.peer := by
  induction n generalizing s with
  | zero => rfl
  | succ n ih =>
    unfold pumpRsp
    dsimp only
    split
    · rfl
    · split
      · rfl
      · rw [ih]
        rfl

theorem unsent_pumpPp (s : State) : unsent (pumpPp s).peer = unsent s.peer := by
  rw [pumpPp, unsent_pumpRsp, unsent_pumpPeer]

theorem unsent_ppRespond (slot : BitVec 256) (rt len info fr node gen : Nat) (d : List Byte) (s : State) :
    unsent (ppRespond slot rt len info fr node gen d s).peer = unsent s.peer := by
  unfold ppRespond
  dsimp only
  split
  · rfl
  · rfl

theorem unsent_ppAnswer (w : BitVec 256) (rt info fr : Nat) (s : State) : unsent (ppAnswer w rt info fr s).peer = unsent s.peer :=
  unsent_ppRespond ..

/-! ### The link (R384, R383) -/

theorem exec_ppLinkDown (s : State) : exec .ppLinkDown s = .next (settled (ppLinkLost s)) := rfl
theorem exec_ppReadyRise (s : State) : exec .ppReadyRise s = .next (ppReadyRise s) := rfl
theorem exec_peerOutboundRequest (m : Nat) (s : State) : exec (.peerOutboundRequest m) s = .next (settled (peerOutbound m s)) := rfl

theorem exec_ppCreditReturn (rh rdt sh sd : Nat) (s : State) :
    exec (.ppCreditReturn rh rdt sh sd) s = .next (ppCredits rh rdt sh sd s) := rfl

/-- The link's loss clears the port and PEER_STATUS.READY, and drops the responses that wait. -/
theorem ppLinkLost_eq (s : State) :
    ∃ t, ppLinkLost s = trimGen (put PEER_STATUS.READY 0 (setPort 17 Port.init t)) ∧ t.peer.egress = [] := ⟨_, rfl, rfl⟩

theorem port_ppLinkLost (s : State) : port 17 (ppLinkLost s) = Port.init := by
  obtain ⟨t, hlost, -⟩ := ppLinkLost_eq s
  rw [hlost, port_congr 17 ((fr_trimGen _).f_ports rfl), port_congr 17 ((fr_put ..).f_ports rfl)]
  exact port_setPort_same ..

theorem ready_ppLinkLost (s : State) : on PEER_STATUS.READY (ppLinkLost s) = false := by
  obtain ⟨t, hlost, -⟩ := ppLinkLost_eq s
  refine on_eq_false_of_rd ?_
  rw [hlost, (fr_trimGen _).rd_eq _ rfl rfl]
  exact rd_put_same PEER_STATUS.READY 0 _ nofun

theorem egress_ppLinkLost (s : State) : (ppLinkLost s).peer.egress = [] := by
  obtain ⟨t, hlost, hegress⟩ := ppLinkLost_eq s
  rw [hlost]
  exact hegress

/-- The port opens under the conditions of R384. -/
theorem ppOpen_opens {s : State} (hup : (port 17 s).linkUp = true) (hready : (port 17 s).ready = false)
    (hparity : (port 17 s).parityClosed = false) (hopen : portsOpen s = true) (hpeer : peerPresent s = true)
    (hvalid : on PEER_NODE_ID.VALID s = true) :
    ∃ t, ppOpen s = put PEER_STATUS.READY 1 (openPort 17 t) := by
  unfold ppOpen
  dsimp only
  rw [hup, hready, hparity, hopen, hpeer, hvalid]
  exact ⟨_, rfl⟩

theorem ppReadyRise_opens {s : State} (hpeer : peerPresent s = true) (hopen : portsOpen s = true) (hvalid : on PEER_NODE_ID.VALID s = true)
    (hready : (port 17 s).ready = false) (hparity : (port 17 s).parityClosed = false)
    (hdrained : (s.live.any fun x => x.2.req.m == 17 && !x.2.answered) = false) :
    ∃ t, ppReadyRise s = put PEER_STATUS.READY 1 (openPort 17 t) := by
  have hport : port 17 (setPort 17 { port 17 s with linkUp := true } s) = { port 17 s with linkUp := true } := port_setPort_same ..
  unfold ppReadyRise
  rw [hpeer, Bool.not_true, if_neg Bool.false_ne_true]
  dsimp only
  rw [if_neg (by rw [(fr_setPort ..).f_live rfl, hdrained]; nofun)]
  exact ppOpen_opens (by rw [hport]) (by rw [hport]; exact hready) (by rw [hport]; exact hparity) hopen hpeer hvalid

/-- A matched request of a port enters the egress queue while PP is ready; its answer is awaited under its identity (R392). -/
theorem peerOutbound_passes {m : Nat} {r : Req} {q : PeerReq} {s : State}
    (hfind : (s.peer.inbox.find? fun x => x.1.m == m) = some (r, .ok q)) (hready : ppReady s = true) (hunit : unitReq r = false) :
    peerOutbound m s = sendPeer q { s with
      peer := { s.peer with inbox := s.peer.inbox.erase (r, .ok q) }, live := mset s.live r.uid ⟨r, [], 0, [], 0, false, false⟩ } := by
  unfold peerOutbound
  rw [hfind]
  refine (if_neg ?_).trans (if_neg ?_)
  · exact fun hsilent => Bool.false_ne_true ((congrArg not hready).symm.trans hsilent)
  · exact fun h => Bool.false_ne_true (hunit.symm.trans h)

/-- Settles O45: the loss and the rise of the link are their last writes of the port and of PEER_STATUS; credits and requests follow
the branch that the premises choose. -/
theorem peerLinkCommands : Obligations.PeerLinkCommands := by
  unfold Obligations.PeerLinkCommands
  refine ⟨fun s => ?down, ?rise, ?credits, ?request, ?refused⟩
  case down => exact ⟨_, exec_ppLinkDown s, port_ppLinkLost s, ready_ppLinkLost s, egress_ppLinkLost s⟩
  case rise =>
    intro s hpeer hopen hvalid hready hparity hdrained
    obtain ⟨t, hrise⟩ := ppReadyRise_opens hpeer hopen hvalid hready hparity hdrained
    refine ⟨_, exec_ppReadyRise s, ?_, ?_⟩
    · rw [hrise, port_congr 17 ((fr_put ..).f_ports rfl), openPort, port_setPort_same]
    · rw [hrise]
      exact on_of_rd_eq_one (rd_put_same PEER_STATUS.READY 1 _ nofun)
  case credits =>
    intro rh rdt sh sd s hanswers
    refine ⟨_, exec_ppCreditReturn rh rdt sh sd s, ?_⟩
    unfold ppCredits
    rw [hanswers, Bool.not_true, if_neg Bool.false_ne_true]
    rfl
  case request =>
    intro m r q s hfind hready hunit
    rw [exec_peerOutboundRequest, peerOutbound_passes hfind hready hunit]
  case refused =>
    intro m r window s hfind
    rw [exec_peerOutboundRequest]
    unfold peerOutbound
    rw [hfind]

/-! ### PEER_TIMEOUT (R398) -/

theorem exec_peerTimeoutWrite (v : BitVec 32) (s : State) : exec (.peerTimeoutWrite v) s = .next (peerTimeoutSet v.toNat s) := rfl

theorem peerTimeoutSet_refused {v : Nat} {s : State} (hpeer : peerPresent s = true)
    (hlow : v % 2 ^ 20 < 50 ∨ v % 2 ^ 20 ≤ retryBound s) : peerTimeoutSet v s = put PEER_STATUS.TMO_REFUSED 1 s := by
  unfold peerTimeoutSet
  dsimp only
  rw [hpeer, Bool.not_true, if_neg Bool.false_ne_true, if_pos (by simpa using hlow)]

theorem peerTimeoutSet_taken {v : Nat} {s : State} (hpeer : peerPresent s = true) (hlow : 50 ≤ v % 2 ^ 20)
    (hbound : retryBound s < v % 2 ^ 20) : peerTimeoutSet v s = put PEER_TIMEOUT.US (v % 2 ^ 20) s := by
  unfold peerTimeoutSet
  dsimp only
  rw [hpeer, Bool.not_true, if_neg Bool.false_ne_true, if_neg (by simp; omega)]

/-- After RESET the timeout stands above the retry bound of the straps. -/
theorem rd_timeout_resetOp (porst : Bool) (s : State) : rd PEER_TIMEOUT.US (resetOp porst s) = resetTimeout s.env := by
  have hregs : (resetBase s).regs = mset (keepFields trimFields s.regs) PEER_TIMEOUT.US.key (resetTimeout s.env) := rfl
  rw [resetOp_eq, rd_lcsShow_below _ _ (by decide), rd_putAll_of_all _ _ _ rfl, rd_variantRegs_ne _ _ rfl,
    rd_of_not_rws _ (nofun : Acc.rw ≠ Acc.rws), hregs,
    mgetD_mset_same]

/-- Settles O46: a refused value sets TMO_REFUSED alone, another sets US alone, and RESET writes the timeout of the straps. -/
theorem peerTimeoutRegister : Obligations.PeerTimeoutRegister := by
  unfold Obligations.PeerTimeoutRegister
  refine ⟨?refused, ?taken, fun porst s => ?reset⟩
  case refused =>
    intro v s hpeer hlow
    refine ⟨_, exec_peerTimeoutWrite v s, ?_⟩
    rw [peerTimeoutSet_refused hpeer hlow]
    exact ⟨rd_put_ne _ _ _ _ (by decide), on_of_rd_eq_one (rd_put_same PEER_STATUS.TMO_REFUSED 1 s nofun)⟩
  case taken =>
    intro v s hpeer hlow hbound
    refine ⟨_, exec_peerTimeoutWrite v s, ?_⟩
    rw [peerTimeoutSet_taken hpeer hlow hbound]
    exact ⟨(rd_put_same PEER_TIMEOUT.US _ s nofun).trans (Nat.mod_mod _ _), rd_put_ne _ _ _ _ (by decide)⟩
  case reset => exact ⟨_, exec_reset porst s, rd_timeout_resetOp porst s⟩

/-! ### A packet that PP takes (R383, R395) -/

section
variable (w : BitVec 256) (s : State)

/-- Taking a packet changes the ports and the occurrences alone. -/
theorem ppTaken_eq : ∃ ports occ, ppTaken w s = { s with ports := ports, occ := occ } := by
  unfold ppTaken emit
  split
  · exact ⟨_, _, rfl⟩
  · split
    · exact ⟨_, _, rfl⟩
    · exact ⟨_, _, rfl⟩

theorem rd_ppTaken (f : Fld) : rd f (ppTaken w s) = rd f s := (fr_ppTaken w s).rd_eq f rfl rfl

theorem peer_ppTaken : (ppTaken w s).peer = s.peer := (fr_ppTaken w s).f_peer rfl

theorem rounds_ppTaken : (ppTaken w s).rounds = s.rounds := (fr_ppTaken w s).f_rounds rfl

theorem inAddr_ppTaken (x off : Nat) : inAddr x off (ppTaken w s) = inAddr x off s := by
  simp only [inAddr, rd_ppTaken]

theorem permitted_ppTaken (dom : Nat) (write : Bool) (a n : Nat) : permitted dom write a n (ppTaken w s) = permitted dom write a n s := by
  obtain ⟨ports, occ, htaken⟩ := ppTaken_eq w s
  rw [htaken]
  rfl

theorem slotRound_ppTaken (r : Nat) : slotRound r (ppTaken w s) = slotRound r s := by
  obtain ⟨ports, occ, htaken⟩ := ppTaken_eq w s
  rw [htaken]
  rfl

theorem stageRefusal_ppTaken (c : Contribution) : stageRefusal c (ppTaken w s) = stageRefusal c s := by
  obtain ⟨ports, occ, htaken⟩ := ppTaken_eq w s
  rw [htaken]
  rfl

end

/-- What a packet leaves once it has taken its credits: the work `k` on it, then credits that go back and what can be sent. -/
theorem ppArrive_takes {w : BitVec 256} {op : Nat} {par : BitVec 32} {d : List Byte} {dpar : List Bool} {s : State} (k : State → State)
    (hkind : slotF w 0 4 = op) (hready : (port 17 s).ready = true) (hhdr : 0 < (port 17 s).reqHdr)
    (hflits : ppFlits w ≤ (port 17 s).reqData) (hpar : slotParity w = par) (hdpar : dpar = bytesParity d) :
    ∃ t, ppArrive op ⟨w, par, d, dpar⟩ s k = pumpPp t ∧ (t = k (ppTaken w s) ∨ t = oweCredits 17 1 (ppFlits w) (k (ppTaken w s))) := by
  have hdataOk : dataOk ⟨w, par, d, dpar⟩ = true := by simp [dataOk, hdpar]
  unfold ppArrive
  dsimp only
  rw [if_neg (by simp [hkind]), if_neg (by simp [hready]), if_neg (not_not.mpr hpar), if_neg (by simp [hflits]; omega),
    ← ppTaken, hdataOk, Bool.not_true, Bool.and_false, if_neg Bool.false_ne_true]
  split
  · exact ⟨_, rfl, .inl rfl⟩
  · exact ⟨_, rfl, .inr rfl⟩

/-- What waits at ingress, and what the peer port holds beside what is to be sent, is what the work on the packet left. -/
theorem ppArrive_leaves {w : BitVec 256} {op : Nat} {par : BitVec 32} {d : List Byte} {dpar : List Bool} {s : State} (k : State → State)
    (hkind : slotF w 0 4 = op) (hready : (port 17 s).ready = true) (hhdr : 0 < (port 17 s).reqHdr)
    (hflits : ppFlits w ≤ (port 17 s).reqData) (hpar : slotParity w = par) (hdpar : dpar = bytesParity d) :
    (port 17 (ppArrive op ⟨w, par, d, dpar⟩ s k)).ing = (port 17 (k (ppTaken w s))).ing ∧
      unsent (ppArrive op ⟨w, par, d, dpar⟩ s k).peer = unsent (k (ppTaken w s)).peer := by
  obtain ⟨t, harrive, rfl | rfl⟩ := ppArrive_takes k hkind hready hhdr hflits hpar hdpar
  · rw [harrive, ing_pumpPp, unsent_pumpPp]
    exact ⟨rfl, rfl⟩
  · rw [harrive, ing_pumpPp, unsent_pumpPp, ing_oweCredits]
    exact ⟨rfl, rfl⟩

theorem ppFlits_le {w : BitVec 256} {op x : Nat} {s : State} (hacc : ppAccepted op w x s) : ppFlits w ≤ (port 17 s).reqData := by
  obtain ⟨hkind, _, _, hdata, _⟩ := hacc
  unfold ppFlits flitsOf
  split
  · exact Nat.zero_le _
  next hdataless =>
    rw [if_neg fun h => hdataless (by simp [hkind, h])] at hdata
    exact hdata

/-- An accepted packet is worked on with the window that it matches. -/
theorem ppArrive_checked {w : BitVec 256} {op x : Nat} {par : BitVec 32} {d : List Byte} {dpar : List Bool} {s : State}
    (k : Option Nat → State → State) (hacc : ppAccepted op w x s) (hop : op ≠ 5) (hpar : slotParity w = par)
    (hdpar : dpar = bytesParity d) :
    (port 17 (ppArrive op ⟨w, par, d, dpar⟩ s fun t => ppCheck w t k)).ing = (port 17 (k (some x) (ppTaken w s))).ing ∧
      unsent (ppArrive op ⟨w, par, d, dpar⟩ s fun t => ppCheck w t k).peer = unsent (k (some x) (ppTaken w s)).peer := by
  have hflits := ppFlits_le hacc
  have hcheck := ppCheck_accepted k hacc hop (rd_ppTaken w s)
  obtain ⟨hkind, hready, hhdr, _⟩ := hacc
  rw [← hcheck]
  exact ppArrive_leaves (fun t => ppCheck w t k) hkind hready hhdr hflits hpar hdpar

/-! ### Requests performed here (R396, R401, R405) -/

/-- A permitted request waits at ingress with its operation, its length and its translated address. -/
theorem ppPerform_waits (w : BitVec 256) (op : Op) (x : Nat) (d : List Byte) (s : State) :
    ∃ r, (port 17 (ppPerform w op x d s)).ing = (port 17 s).ing ++ [r] ∧ r.op = op ∧ r.beats = ppBeats w ∧
      r.addr = inAddr x (ppOff w) s ∧ r.data = (if op == .wr then beatsOf (ppBeats w) d else []) :=
  ⟨_, congrArg Port.ing (port_waitIngress ..), rfl, rfl, rfl, rfl⟩

theorem exec_ppInRd (w : BitVec 256) (par : BitVec 32) (s : State) : exec (.ppInRd w par) s = .next (ppInRead ⟨w, par, [], []⟩ s) := rfl

theorem exec_ppInWr_sound (w : BitVec 256) (par : BitVec 32) (d : List Byte) (dpar : List Bool) (s : State) :
    exec (.ppInWr w par d dpar false) s = .next (ppInWrite ⟨w, par, d, dpar⟩ s) := rfl

theorem exec_ppInRed (w : BitVec 256) (par : BitVec 32) (d : List Byte) (dpar : List Bool) (s : State) :
    exec (.ppInRed w par d dpar) s = .next (ppInReduce ⟨w, par, d, dpar⟩ s) := rfl

theorem exec_ppInBcast_sound (w : BitVec 256) (par : BitVec 32) (d : List Byte) (dpar : List Bool) (s : State) :
    exec (.ppInBcast w par d dpar false) s = .next (ppInBroadcast ⟨w, par, d, dpar⟩ s) := rfl

theorem exec_ppInRelay (w : BitVec 256) (par : BitVec 32) (d : List Byte) (dpar : List Bool) (s : State) :
    exec (.ppInRelay w par d dpar) s = .next (ppInRelay ⟨w, par, d, dpar⟩ s) := rfl

theorem exec_ppInNop (w : BitVec 256) (par : BitVec 32) (s : State) : exec (.ppInNop w par) s = .next (ppInEmpty par w s) := rfl

section
variable {w : BitVec 256} {x : Nat} {par : BitVec 32} {d : List Byte} {dpar : List Bool} {s : State}

theorem ppInRead_waits (hacc : ppAccepted 1 w x s) (hpar : slotParity w = par) :
    ∃ r, (port 17 (ppInRead ⟨w, par, [], []⟩ s)).ing = (port 17 s).ing ++ [r] ∧ r.op = .rd ∧ r.beats = ppBeats w ∧
      r.addr = inAddr x (ppOff w) s := by
  obtain ⟨r, hing, hop, hbeats, haddr, -⟩ := ppPerform_waits w .rd x [] (ppTaken w s)
  rw [ing_ppTaken] at hing
  exact ⟨r, (ppArrive_checked _ hacc (by decide) hpar rfl).1.trans hing, hop, hbeats, haddr.trans (inAddr_ppTaken ..)⟩

theorem ppInWrite_waits (hacc : ppAccepted 2 w x s) (hpar : slotParity w = par) (hdpar : dpar = bytesParity d) :
    ∃ r, (port 17 (ppInWrite ⟨w, par, d, dpar⟩ s)).ing = (port 17 s).ing ++ [r] ∧ r.op = .wr ∧ r.data = beatsOf (ppBeats w) d ∧
      r.addr = inAddr x (ppOff w) s := by
  obtain ⟨r, hing, hop, -, haddr, hdata⟩ := ppPerform_waits w .wr x d (ppTaken w s)
  rw [ing_ppTaken] at hing
  exact ⟨r, (ppArrive_checked _ hacc (by decide) hpar hdpar).1.trans hing, hop, hdata, haddr.trans (inAddr_ppTaken ..)⟩

/-- A contribution that nothing refuses is staged. -/
theorem staged_ppInReduce {c : Contribution} (hacc : ppAccepted 3 w x s) (hpar : slotParity w = par) (hdpar : dpar = bytesParity d)
    (hperm : permitted (rd (WIN_CTL.DOMAIN x) s) true (inAddr x (ppOff w) s) (ppBeats w) s = true)
    (hc : c = ⟨slotF w 192 32, ppSrc w, inAddr x (ppOff w) s, slotF w 224 2, slotF w 226 2, (slotRound (slotF w 192 32) s).isNone,
      padTo (64 * ppBeats w) d, s.rounds⟩)
    (haccept : stageRefusal c s = 0) : (ppInReduce ⟨w, par, d, dpar⟩ s).peer.staged = s.peer.staged ++ [c] := by
  subst hc
  refine (staged_of_unsent (ppArrive_checked _ hacc (by decide) hpar hdpar).2).trans ?_
  dsimp only
  rw [rd_ppTaken, inAddr_ppTaken, permitted_ppTaken, hperm, slotRound_ppTaken, rounds_ppTaken, stageRefusal_ppTaken, haccept]
  rw [Bool.not_true, if_neg Bool.false_ne_true]
  refine (staged_of_unsent (unsent_ppAnswer ..)).trans ?_
  rw [← peer_ppTaken w s]
  rfl

/-- A broadcast packet on its last hop: it is written here, and its acknowledgement waits for that write alone (R405). -/
def lastHop (w : BitVec 256) (d : List Byte) (x : Nat) (v : State) : State :=
  { ppPerform w .wr x (padTo (64 * ppBeats w) d) v with
    peer := { (ppPerform w .wr x (padTo (64 * ppBeats w) d) v).peer with
      bcasts := (ppPerform w .wr x (padTo (64 * ppBeats w) d) v).peer.bcasts ++ [⟨v.nextUid, w, rd WIN_GEN.GEN v, false, 0, none⟩] } }

theorem ppInBroadcast_lastHop (hacc : ppAccepted 4 w x s) (hhops : slotF w 26 4 = 1) (hpar : slotParity w = par)
    (hdpar : dpar = bytesParity d)
    (hperm : permitted (rd (WIN_CTL.DOMAIN x) s) true (inAddr x (ppOff w) s) (ppBeats w) s = true) :
    (port 17 (ppInBroadcast ⟨w, par, d, dpar⟩ s)).ing = (port 17 (lastHop w d x (ppTaken w s))).ing ∧
      unsent (ppInBroadcast ⟨w, par, d, dpar⟩ s).peer = unsent (lastHop w d x (ppTaken w s)).peer := by
  have hperm' : (!permitted (rd (WIN_CTL.DOMAIN x) (ppTaken w s)) true (inAddr x (ppOff w) (ppTaken w s)) (ppBeats w)
      (ppTaken w s)) = false := by
    rw [rd_ppTaken, inAddr_ppTaken, permitted_ppTaken, hperm]
    rfl
  refine (ppArrive_checked _ hacc (by decide) hpar hdpar).imp (·.trans ?_) (·.trans ?_)
  all_goals
    dsimp only
    rw [hperm', if_neg Bool.false_ne_true, hhops]
    rfl

theorem ppInBroadcast_waits (hacc : ppAccepted 4 w x s) (hhops : slotF w 26 4 = 1) (hpar : slotParity w = par)
    (hdpar : dpar = bytesParity d)
    (hperm : permitted (rd (WIN_CTL.DOMAIN x) s) true (inAddr x (ppOff w) s) (ppBeats w) s = true) :
    (∃ r, (port 17 (ppInBroadcast ⟨w, par, d, dpar⟩ s)).ing = (port 17 s).ing ++ [r] ∧ r.op = .wr) ∧
      ∃ b, (ppInBroadcast ⟨w, par, d, dpar⟩ s).peer.bcasts = s.peer.bcasts ++ [b] ∧ b.left = 0 := by
  obtain ⟨hing, hpeer⟩ := ppInBroadcast_lastHop hacc hhops hpar hdpar hperm
  obtain ⟨r, hwaits, hop, -⟩ := ppPerform_waits w .wr x (padTo (64 * ppBeats w) d) (ppTaken w s)
  refine ⟨⟨r, ?_, hop⟩, ⟨(ppTaken w s).nextUid, w, rd WIN_GEN.GEN (ppTaken w s), false, 0, none⟩, (bcasts_of_unsent hpeer).trans ?_, rfl⟩
  · rw [hing, ← ing_ppTaken w s, ← hwaits]
    rfl
  · rw [← peer_ppTaken w s]
    rfl

/-- A RELAY packet to this node passes the checks of R395 where relaying is enabled. -/
theorem ppCheck_relay (k : Option Nat → State → State) (hkind : slotF w 0 4 = 5) (hformat : ppFormat w = 0)
    (hnode : slotF w 64 20 = myNode s) (hrelay : on PEER_CFG.RELAY_EN s = true) : ppCheck w s k = k none s := by
  unfold ppCheck
  dsimp only
  rw [hformat, hkind, hrelay, if_neg (not_not.mpr rfl), if_neg (not_not.mpr hnode), if_pos rfl, if_pos rfl]

/-- What buffering a packet leaves of the relay depends on the relay alone. -/
theorem relay_relayTake_congr (o : Nat) (d : List Byte) {t : State} (h : t.peer.relay = s.peer.relay) :
    (relayTake o d t).peer.relay = (relayTake o d s).peer.relay := by
  unfold relayTake setRelay relayOf
  rw [h]

/-- The work on a relayed packet while no package is forwarded (R406). -/
theorem relay_ppInRelay (hkind : slotF w 0 4 = 5) (hready : (port 17 s).ready = true) (hpar : slotParity w = par)
    (hdpar : dpar = bytesParity d) (hhdr : 0 < (port 17 s).reqHdr) (hdata : (ppBeats w + 3) / 4 ≤ (port 17 s).reqData)
    (hformat : ppFormat w = 0) (hnode : slotF w 64 20 = myNode s) (hrelay : on PEER_CFG.RELAY_EN s = true)
    (hsrc : on FWM_UPD_CFG.SRC s = true) (hidle : s.peer.relay.forwarding = false) :
    (ppInRelay ⟨w, par, d, dpar⟩ s).peer.relay = (relayTake (ppOff w) (d.take (64 * ppBeats w)) s).peer.relay := by
  have hnode' : slotF w 64 20 = myNode (ppTaken w s) := hnode.trans (rd_ppTaken ..).symm
  have hrelay' : on PEER_CFG.RELAY_EN (ppTaken w s) = true := by rw [on, rd_ppTaken, ← on, hrelay]
  have hsrc' : on FWM_UPD_CFG.SRC (ppTaken w s) = true := by rw [on, rd_ppTaken, ← on, hsrc]
  have hidle' : (relayOf (ppTaken w s)).forwarding = false := by rw [relayOf, peer_ppTaken, hidle]
  have hflits : ppFlits w ≤ (port 17 s).reqData := by
    rw [ppFlits, hkind]
    exact hdata
  have hleaves := fun k => relay_of_unsent (ppArrive_leaves k hkind hready hhdr hflits hpar hdpar).2
  rw [ppInRelay, hleaves]
  dsimp only
  rw [ppCheck_relay _ hkind hformat hnode' hrelay', hsrc', hidle', Bool.not_true, if_neg Bool.false_ne_true, if_neg Bool.false_ne_true]
  exact (relay_of_unsent (unsent_ppAnswer ..)).trans (relay_relayTake_congr _ _ (congrArg Peer.relay (peer_ppTaken w s)))

end

/-! ### A header slot that fails parity closes the port (R60, R63) -/

/-- Whether a port is ready, and whether a parity error has closed it. -/
def portGate (p : Port) : Bool × Bool := (p.ready, p.parityClosed)

theorem portGate_setPort {j k : Nat} {p : Port} {s : State} (h : portGate p = portGate (port j s)) :
    portGate (port k (setPort j p s)) = portGate (port k s) := by
  by_cases hk : k = j
  · rw [hk, port_setPort_same, h]
  · rw [port_setPort_ne p s hk]

theorem portGate_egressPut (j k : Nat) (e : Egr) (s : State) : portGate (port k (egressPut j e s)) = portGate (port k s) := by
  unfold egressPut
  dsimp only
  split
  · exact portGate_setPort rfl
  · split
    · exact portGate_setPort rfl
    · rfl

theorem portGate_returnCredits (k : Nat) (r : Req) (s : State) : portGate (port k (returnCredits r s)) = portGate (port k s) := by
  unfold returnCredits
  dsimp only
  split
  · exact portGate_setPort rfl
  · exact portGate_setPort rfl
  · rfl

theorem portGate_answerPoisonAll (k : Nat) (r : Req) (s : State) :
    portGate (port k (answerPoisonAll { r with op := .wr } s)) = portGate (port k s) := by
  unfold answerPoisonAll
  dsimp only
  split
  · exact portGate_egressPut ..
  · rfl

theorem portGate_poisonUnfed (k : Nat) (s : State) : portGate (port k (poisonUnfed k s)) = portGate (port k s) := by
  have hfold : ∀ (bad : List Req) (t : State),
      portGate (port k (bad.foldl (fun t r => returnCredits r (answerPoisonAll { r with op := .wr } t)) t)) = portGate (port k t) := by
    intro bad
    induction bad with
    | nil => exact fun t => rfl
    | cons r bad ih => exact fun t => (ih _).trans ((portGate_returnCredits ..).trans (portGate_answerPoisonAll ..))
  exact (hfold _ _).trans (portGate_setPort rfl)

theorem portGate_closeByParity (k : Nat) (s : State) : portGate (port k (closeByParity k s)) = (false, true) := by
  unfold closeByParity
  dsimp only
  rw [port_congr k ((fr_portErr ..).f_ports rfl), portGate_poisonUnfed, port_setPort_same]
  rfl

theorem portGate_ppParityClose (s : State) : portGate (port 17 (ppParityClose s)) = (false, true) := by
  rw [ppParityClose, port_congr 17 ((fr_put ..).f_ports rfl), portGate_closeByParity]

theorem ready_ppParityClose (s : State) : on PEER_STATUS.READY (ppParityClose s) = false :=
  on_eq_false_of_rd (rd_put_same PEER_STATUS.READY 0 _ nofun)

theorem ppInEmpty_sound {par : BitVec 32} {w : BitVec 256} (s : State) (hpar : slotParity w = par) : ppInEmpty par w s = s := by
  unfold ppInEmpty
  rw [hpar, bne_self_eq_false, Bool.and_false, Bool.false_and, if_neg Bool.false_ne_true]

theorem ppInEmpty_closes {par : BitVec 32} {w : BitVec 256} {s : State} (hready : (port 17 s).ready = true) (hkind : slotF w 0 4 = 0)
    (hpar : slotParity w ≠ par) : ppInEmpty par w s = ppParityClose s := by
  unfold ppInEmpty
  rw [hready, hkind, bne_iff_ne.mpr hpar]
  rfl

/-- Settles O47: an accepted packet passes the checks of R395 to the work of its type, and what follows that work changes neither what
waits at ingress nor what the peer port holds beside what is to be sent. -/
theorem peerRequestCommands : Obligations.PeerRequestCommands := by
  unfold Obligations.PeerRequestCommands
  refine ⟨?read, ?write, ?reduce, ?broadcast, ?relay, ?empty, ?closes⟩
  case read =>
    intro w par x s hacc hpar
    exact ⟨_, exec_ppInRd w par s, ppInRead_waits hacc hpar⟩
  case write =>
    intro w par d dpar x s hacc hpar hdpar
    exact ⟨_, exec_ppInWr_sound w par d dpar s, ppInWrite_waits hacc hpar hdpar⟩
  case reduce =>
    intro w par d dpar x c s hacc hpar hdpar hperm hc haccept
    exact ⟨_, exec_ppInRed w par d dpar s, staged_ppInReduce hacc hpar hdpar hperm hc haccept⟩
  case broadcast =>
    intro w par d dpar x s hacc hhops hpar hdpar hperm
    exact ⟨_, exec_ppInBcast_sound w par d dpar s, ppInBroadcast_waits hacc hhops hpar hdpar hperm⟩
  case relay =>
    intro w par d dpar s hkind hready hpar hdpar hhdr hdata hformat hnode hrelay hsrc hidle
    exact ⟨_, exec_ppInRelay w par d dpar s,
      relay_ppInRelay hkind hready hpar hdpar hhdr hdata hformat hnode hrelay hsrc hidle⟩
  case empty =>
    intro w par s hpar
    rw [exec_ppInNop, ppInEmpty_sound s hpar]
  case closes =>
    intro w par s hready hkind hpar
    obtain ⟨hfalls, hclosed⟩ := Prod.mk.inj (portGate_ppParityClose s)
    refine ⟨_, exec_ppInNop w par s, ?_⟩
    rw [ppInEmpty_closes hready hkind hpar]
    exact ⟨hfalls, hclosed, ready_ppParityClose s⟩

/-! ### Answers to this node's requests (R394, R399) -/

theorem exec_ppRspIn (w : BitVec 256) (par : BitVec 32) (d : List Byte) (dpar : List Bool) (s : State) :
    exec (.ppRspIn w par d dpar) s = .next (settled (ppResponse ⟨w, par, d, dpar⟩ s)) := rfl

theorem exec_peerRequestTimeout (tag : Nat) (s : State) : exec (.peerRequestTimeout tag) s = .next (settled (peerTimeout tag s)) := rfl

/-- A response has taken its credits, which go back (R383). -/
def rspTaken (flits : Nat) (s : State) : State :=
  { s with peer := { s.peer with
    rspInHdr := s.peer.rspInHdr - 1, rspInData := s.peer.rspInData - flits, rspDueHdr := s.peer.rspDueHdr + 1,
    rspDueData := s.peer.rspDueData + flits } }

/-- A final response without an error reaches the request of its tag. -/
theorem ppResponse_answers {w : BitVec 256} {par : BitVec 32} {d : List Byte} {dpar : List Bool} {r : PeerReq} {s : State}
    (hanswers : ppAnswers s = true) (hpar : slotParity w = par) (hdpar : dpar = bytesParity d) (hhdr : 0 < s.peer.rspInHdr)
    (hdata : (d.length + 255) / 256 ≤ s.peer.rspInData) (hback : slotF w 0 4 ≠ rtBackoff) (hrestart : slotF w 0 4 ≠ rtRestart)
    (hkind : slotF w 0 4 ≤ 9) (hquarantine : s.peer.quarantine.contains (slotF w 8 12) = false)
    (hfind : mfind s.peer.reqs (slotF w 8 12) = some r) :
    ppResponse ⟨w, par, d, dpar⟩ s = pumpPp (peerAnswer (slotF w 8 12) r (slotF w 0 4) (slotF w 64 64) (slotF w 140 20) (slotF w 180 4) d
      (rspTaken ((d.length + 255) / 256) s)) := by
  have hdataOk : dataOk ⟨w, par, d, dpar⟩ = true := by simp [dataOk, hdpar]
  have haccept : ∀ t : State, t.peer.quarantine = s.peer.quarantine → t.peer.reqs = s.peer.reqs → ppAccept w (slotF w 0 4) d t =
      pumpPp (peerAnswer (slotF w 8 12) r (slotF w 0 4) (slotF w 64 64) (slotF w 140 20) (slotF w 180 4) d t) := by
    intro t hq hreqs
    unfold ppAccept
    dsimp only
    rw [if_neg hback, hq, hquarantine, if_neg Bool.false_ne_true, hreqs, hfind]
    dsimp only
    rw [if_neg hrestart, if_neg (Nat.not_lt.mpr hkind)]
  rw [← haccept (rspTaken ((d.length + 255) / 256) s) rfl rfl]
  unfold ppResponse
  dsimp only
  rw [hanswers, Bool.not_true, if_neg Bool.false_ne_true, if_neg (not_not.mpr hpar), if_neg (by simp [hdata]; omega), hdataOk, if_pos rfl,
    ← rspTaken]

/-- The request of a broadcast copy that times out is quarantined and counted, and its tag is free of it (R399, R405). -/
theorem peerTimeout_bcast {tag u : Nat} {r : PeerReq} {s : State} (hfind : mfind s.peer.reqs tag = some r) (hdest : r.dest = .bcast u) :
    (peerTimeout tag s).peer.quarantine = tag :: s.peer.quarantine ∧ (peerTimeout tag s).peer.reqs = mdel s.peer.reqs tag ∧
      rd PEER_TMO_CNT.COUNT (peerTimeout tag s) = min (rd PEER_TMO_CNT.COUNT s + 1) (2 ^ PEER_TMO_CNT.COUNT.w - 1) := by
  have hcounted : Frame 0x40000000004 s (emit 0x605 1 none none none none (bump PEER_TMO_CNT.COUNT 1 s)) :=
    ((fr_bump ..).mono rfl).seq (fr_emit ..) rfl
  have hcount : rd PEER_TMO_CNT.COUNT (emit 0x605 1 none none none none (bump PEER_TMO_CNT.COUNT 1 s)) =
      min (rd PEER_TMO_CNT.COUNT s + 1) (2 ^ PEER_TMO_CNT.COUNT.w - 1) :=
    ((fr_emit ..).rd_eq _ rfl rfl).trans (rd_bump_same _ _ _ (nofun : Acc.ro ≠ Acc.rws))
  unfold peerTimeout
  rw [hfind]
  dsimp only
  rw [hdest]
  dsimp only [bcastFail]
  rw [hcounted.f_peer rfl]
  refine ⟨rfl, rfl, ?_⟩
  rw [rd_congr PEER_TMO_CNT.COUNT rfl rfl]
  exact hcount

/-! ### Gather rounds and broadcasts (R402, R403, R405) -/

theorem exec_gatherApply_clean (j : Nat) (s : State) : exec (.gatherApply j .clean) s = .next (gatherApply j s) :=
  congrArg (fun t => Host.Outcome.next (gatherApply j t)) (parityAtWork_clean j s)

theorem exec_orphanExpiry (r : Nat) (s : State) : exec (.orphanExpiry r) s = .next (orphanExpiry r s) := rfl
theorem exec_bcastAck (u : Nat) (s : State) : exec (.bcastAck u) s = .next (bcastAck u s) := rfl

section
variable {j : Nat} {g : GatherSlot} {v : Job} {s : State}
variable (hslot : (s.peer.slots.find? fun g => g.job == j) = some g) (hjob : mfind s.jobs j = some v) (hruns : v.stopped = false)
include hslot hjob hruns

/-- A complete round reads the first piece of DST. -/
theorem gatherApply_reads (hrecord : v.waitRecord = false) (hout : v.outstanding = 1) (hpos : v.pos = 0) (hbytes : v.bytes = [])
    (hround : roundComplete g s = true) (hlen : 0 < jLen v) :
    gatherApply j s = askJob j { v with pos := pieceAt v [jDst v] } (.gatherRead 0) 0 0 0 .rd (jDst v) (pieceAt v [jDst v] / 64)
      (2 ^ 64 - 1) [] s := by
  unfold gatherApply
  rw [hslot, hjob]
  dsimp only
  rw [if_neg (by simp [hruns, hrecord, hout, hpos, hbytes, hround]), gatherGet, hslot, hjob]
  dsimp only
  rw [if_neg (by simp [hruns]), hpos, if_neg (Nat.not_le.mpr hlen), Nat.zero_add, Nat.add_zero]

/-- Once DST has been read, the round is combined and written. -/
theorem gatherGet_combines (hread : jLen v ≤ v.pos) :
    gatherGet j s = gatherPut j (setJob j { v with bytes := (combineRound g v.bytes s).1, aflags := (combineRound g v.bytes s).2, pos := 0 }
      (fwRead .staging 0 (g.count * g.len) s)) := by
  unfold gatherGet
  rw [hslot, hjob]
  dsimp only
  rw [hruns, if_neg Bool.false_ne_true, if_pos hread]

end

/-- An acknowledged broadcast leaves the list. -/
theorem bcasts_bcastAck {u : Nat} {b : BcastWait} {s : State} (hfind : (s.peer.bcasts.find? fun b => b.uid == u) = some b)
    (hwrote : b.wrote = true) (hleft : b.left = 0) : (bcastAck u s).peer.bcasts = s.peer.bcasts.filter fun x => x.uid != u := by
  have htrim : ∀ t, (trimGen t).peer.bcasts = t.peer.bcasts := fun _ => rfl
  unfold bcastAck
  rw [hfind]
  dsimp only
  rw [hwrote, hleft, if_neg (by decide), bcasts_of_unsent (unsent_pumpPp _), htrim]
  split
  · exact bcasts_of_unsent (unsent_ppRespond ..)
  · exact bcasts_of_unsent (unsent_ppRespond ..)

/-- Settles O48: a response and a timeout reach the request of their tag, a gather round goes on by its job's position, and an
acknowledged broadcast leaves the list. -/
theorem peerResponseCommands : Obligations.PeerResponseCommands := by
  unfold Obligations.PeerResponseCommands
  refine ⟨?response, ?timeout, ?apply, ?combine, ?orphans, ?ack⟩
  case response =>
    intro w par d dpar r u s hanswers hpar hdpar hhdr hdata hkind hquarantine hfind hdest
    refine ⟨_, exec_ppRspIn w par d dpar s, ?_⟩
    rw [ppResponse_answers hanswers hpar hdpar hhdr hdata (by rw [hkind]; decide) (by rw [hkind]; decide) (by rw [hkind]; decide)
      hquarantine hfind, bcasts_of_unsent (unsent_pumpPp _), peerAnswer, hdest]
    dsimp only
    rw [hkind, if_pos rfl]
    rfl
  case timeout =>
    intro tag u r s hfind hdest
    exact ⟨_, exec_peerRequestTimeout tag s, peerTimeout_bcast hfind hdest⟩
  case apply =>
    intro j g v s hslot hjob hruns hrecord hout hpos hbytes hround hlen
    rw [exec_gatherApply_clean, gatherApply_reads hslot hjob hruns hrecord hout hpos hbytes hround hlen]
  case combine =>
    intro j g v s hslot hjob hruns hread
    exact gatherGet_combines hslot hjob hruns hread
  case orphans => exact fun r s => ⟨_, exec_orphanExpiry r s, rfl⟩
  case ack =>
    intro u b s hfind hwrote hleft
    exact ⟨_, exec_bcastAck u s, bcasts_bcastAck hfind hwrote hleft⟩

end Sys2Proof.Machine
end

section
/-! Proofs for thermal control and power (14_thermal_and_power.md): the round, the throttle levels, the shutdown records and the orderly
shutdown. -/

namespace Sys2Proof.Machine

open Reg

/-! ### The housekeeping round (R411) -/

theorem exec_housekeepingRound (obs : RoundObs) (s : State) : exec (.housekeepingRound obs) s = .next (housekeepingRound obs s) := rfl

/-- Of the parts of a round, only its first step counts it. -/
theorem rounds_thermalRound (obs : RoundObs) (s : State) : (thermalRound obs s).rounds = s.rounds + 1 := by
  have hstacks : ∀ (ns : List Nat) (t : State), (ns.foldl (fun t n =>
      if hOn n t then stackRound n (if stackRead n t then (obs.stack.getD n none) else none) t else t) t).rounds = t.rounds :=
    fun ns t => (Frame.foldl (m := 0x400000000004) (fun u n => .ite (fr_stackRound ..) .refl) .refl).f_rounds rfl
  have hgroups : ∀ (gs : List Nat) (t : State), (gs.foldl (fun t g =>
      if g = 16 || hOn g t then
        evalGroup g ((List.range (if g = 16 then 16 else 8)).map fun k => siteOf g k (obs.osc.getD (8 * g + k) (0, 0)) t)
          ((((List.range (if g = 16 then 16 else 8)).map fun k => siteOf g k (obs.osc.getD (8 * g + k) (0, 0)) t).zipIdx).foldl
            (fun u x => showSite g x.2 x.1 u) t)
      else t) t).rounds = t.rounds :=
    fun gs t => (Frame.foldl (m := 0x100041E800080004)
      (fun u g => .ite (.seq (.foldl (fun v x => (fr_showSite ..).mono rfl) .refl) (fr_evalGroup ..) rfl) .refl) .refl).f_rounds rfl
  have hlevels : ∀ (gs : List Nat) (t : State),
      (gs.foldl (fun t g => if emergHolds g t then putLevel g 7 t else t) t).rounds = t.rounds :=
    fun gs t => (Frame.foldl (m := 0x4) (fun u g => .ite (fr_putLevel ..) .refl) .refl).f_rounds rfl
  unfold thermalRound
  dsimp only
  rw [apply_ite State.rounds, (fr_startShutdown ..).f_rounds rfl, ite_self, (fr_blockRound ..).f_rounds rfl, hlevels,
    (fr_checkSupplies ..).f_rounds rfl, hgroups, hstacks]

theorem rounds_housekeepingRound (obs : RoundObs) (s : State) : (housekeepingRound obs s).rounds = s.rounds + 1 := by
  rw [housekeepingRound, (fr_readyRound ..).f_rounds rfl, (fr_firmwareRound ..).f_rounds rfl, (fr_roundEvents ..).f_rounds rfl,
    rounds_thermalRound, (fr_idleTick ..).f_rounds rfl, (fr_svcFlush ..).f_rounds rfl]

/-! ### Throttle levels (R416) -/

theorem exec_throttleLevelStep (g : Nat) (s : State) : exec (.throttleLevelStep g) s = .next (levelStep g s) := rfl

theorem levelOf_putLevel {v : Nat} (g : Nat) (s : State) (hv : v < 8) : levelOf g (putLevel g v s) = v := by
  unfold levelOf putLevel
  split
  · exact (rd_put_same THM_STATE.SHR_LEVEL v s nofun).trans (Nat.mod_eq_of_lt hv)
  · exact (rd_put_same (HIV_THM_STATE.LEVEL g) v s nofun).trans (Nat.mod_eq_of_lt hv)

theorem nextLevel_lt {g : Nat} {s : State} (hlevel : levelOf g s < 8) (hfloor : floorOf g s < 8) : nextLevel g s < 8 := by
  have hfall : max (floorOf g s) (levelOf g s - 1) < 8 := by omega
  unfold nextLevel
  dsimp only
  split
  · exact hfall
  · split
    · exact hlevel
    · exact hfall
  · omega
  · exact hlevel

/-- A step period that ends sets the next level. -/
theorem levelOf_levelStep {g : Nat} {s : State} (hg : g ≤ 16) (hon : g < 16 → hOn g s = true) (hemerg : emergHolds g s = false)
    (hends : stepEnds g s = true) (hlevel : levelOf g s < 8) (hfloor : floorOf g s < 8) : levelOf g (levelStep g s) = nextLevel g s := by
  have hoff : (decide (g < 16) && !hOn g s) = false := by
    by_cases h : g < 16
    · rw [hon h, Bool.not_true, Bool.and_false]
    · rw [decide_eq_false h, Bool.false_and]
  unfold levelStep
  rw [hemerg, hends, hoff, decide_eq_false (Nat.not_lt.mpr hg), if_neg (by decide)]
  exact levelOf_putLevel g _ (nextLevel_lt hlevel hfloor)

/-! ### Shutdown records (R424) -/

theorem exec_shutdownRecordWrite (s : State) : exec .shutdownRecordWrite s = .next (shutdownRecordWrite s) := rfl
theorem exec_shutdownRecordClear (s : State) : exec .shutdownRecordClear s = .next (shutdownRecordClear s) := rfl

/-- The event of a record leaves what the smoker keeps about records. -/
theorem thermal_recordEvent (f : Fld) (v : Nat) (s : State) : (thmEvent f (put THM_STATE.PENDING v s)).thermal = s.thermal := by
  rw [(fr_thmEvent ..).f_thermal rfl, (fr_put ..).f_thermal rfl]

theorem thermal_writeShutRec {r : ShutRec} {s : State} (hfree : freeSlots (eraseShut s) ≠ []) :
    (writeShutRec r s).thermal.due = none ∧ (writeShutRec r s).thermal.recClean = 0 := by
  unfold writeShutRec
  dsimp only
  split
  next hnone => exact absurd hnone hfree
  next i is hslots =>
    rw [thermal_recordEvent]
    exact ⟨rfl, rfl⟩

theorem shutdownRecordWrite_writes {r : ShutRec} {s : State} (hdue : s.thermal.due = some r) (hflash : flashOk s = true)
    (hcore : coreReady 1 s = true) (hpending : pendingSlot s = none) : shutdownRecordWrite s = writeShutRec r s := by
  unfold shutdownRecordWrite
  rw [hdue, hflash, hcore, hpending]
  rfl

theorem recClean_shutdownRecordClear {i : Nat} {s : State} (hpending : pendingSlot s = some i) (hclean : 100 ≤ s.thermal.recClean)
    (hflash : flashOk s = true) (hcore : coreReady 1 s = true) : (shutdownRecordClear s).thermal.recClean = 0 := by
  unfold shutdownRecordClear
  rw [hpending]
  dsimp only
  rw [hflash, hcore, decide_eq_false (Nat.not_lt.mpr hclean), if_neg (by decide), (fr_eraseShut ..).f_thermal rfl, thermal_recordEvent]

/-! ### The orderly shutdown (R427, R428) -/

theorem exec_shutdown (s : State) : exec .shutdown s = .next (softShutdown s) := rfl
theorem exec_orderlyShutdown (s : State) : exec .orderlyShutdown s = .next (settled (orderlyShutdown s)) := rfl

theorem shut_softShutdown {s : State} (hshut : s.power.shut = none) (hphase : rd GLB_STATUS.PHASE s ≠ 7) :
    (softShutdown s).power.shut = some ⟨false, portsOpen s, 1, 0⟩ := by
  have hstop : ∀ (l : List (Nat × Job)) (t : State), (l.foldl (fun u x => stopUnits x.1 u) t).power = t.power :=
    fun l t => (Frame.foldl (fun u (x : Nat × Job) => fr_stopUnits x.1 u) Frame.refl).f_power rfl
  unfold softShutdown startShutdown
  rw [hshut, if_neg (by simp [hphase])]
  dsimp only
  rw [if_neg Bool.false_ne_true, if_neg Bool.false_ne_true, (fr_postEvent ..).f_power rfl, hstop, setPower_power]

/-- Switching the cells of a hive off touches no request on its way. -/
theorem fr_requestOff_cells (n : Nat) (s : State) : Frame 0x1200001900004 s (requestOff (16 + n) s) := by
  have hisolate : Frame 0x1000001900004 s (isolate (16 + n) s) := by
    unfold isolate
    rw [if_neg (by omega)]
    exact .ite (.seq ((fr_put ..).mono rfl) (fr_cellsOff ..) rfl) ((fr_put ..).mono rfl)
  have hoff : Frame 0x1200001900004 s (if domainOn (16 + n) s then isolate (16 + n) s else s) := .ite (hisolate.mono rfl) .refl
  exact .ite (hoff.seq (fr_setPower ..) rfl) hoff

theorem orderlyShutdown_steps {sh : Shut} {s : State} (hshut : s.power.shut = some sh) (hstep : sh.step = 1) :
    ∃ t, orderlyShutdown s = setPower { t.power with shut := some { sh with step := 5, since := t.rounds } } t ∧
      t.live = [] ∧ t.gates = [] := by
  have hcells : ∀ (ns : List Nat) (t : State), Frame 0x1200001900004 t (ns.foldl (fun u n => requestOff (16 + n) u) t) :=
    fun ns t => .foldl (fun u n => fr_requestOff_cells n u) .refl
  unfold orderlyShutdown
  rw [hshut]
  dsimp only
  rw [if_pos hstep]
  refine ⟨_, rfl, ?_, ?_⟩
  · rw [(hcells _ _).f_live rfl, (fr_sleepStacks ..).f_live rfl]
    rfl
  · rw [(hcells _ _).f_gates rfl, (fr_sleepStacks ..).f_gates rfl]
    rfl

/-- Settles O11: each clause follows its command to the last operation that writes the field it names. -/
theorem powerStateCommands : Obligations.PowerStateCommands := by
  unfold Obligations.PowerStateCommands
  refine ⟨fun obs s => ?round, ?level, ?write, ?clear, ?shutdown, ?orderly⟩
  case round => exact ⟨_, exec_housekeepingRound obs s, rounds_housekeepingRound obs s⟩
  case level =>
    intro g s hg hon hemerg hends hlevel hfloor
    have hnext := levelOf_levelStep hg hon hemerg hends hlevel hfloor
    unfold nextLevel at hnext
    refine ⟨_, exec_throttleLevelStep g s, fun hstate => ?_, fun hstate => ?_, fun hstate => ?_⟩
    all_goals
      rw [hstate] at hnext
      exact hnext
  case write =>
    intro r s hdue hflash hcore hpending hfree
    refine ⟨_, exec_shutdownRecordWrite s, ?_⟩
    rw [shutdownRecordWrite_writes hdue hflash hcore hpending]
    exact thermal_writeShutRec hfree
  case clear =>
    intro i s hpending hclean hflash hcore
    exact ⟨_, exec_shutdownRecordClear s, recClean_shutdownRecordClear hpending hclean hflash hcore⟩
  case shutdown =>
    intro s hshut hphase
    exact ⟨_, exec_shutdown s, shut_softShutdown hshut hphase⟩
  case orderly =>
    intro sh s hshut hstep
    obtain ⟨t, horderly, hlive, hgates⟩ := orderlyShutdown_steps hshut hstep
    refine ⟨_, exec_orderlyShutdown s, ?_⟩
    rw [horderly]
    exact ⟨hlive, hgates, _, rfl, rfl⟩

end Sys2Proof.Machine
end

section
/-! Proofs for firmware and update (15_firmware_and_update.md): the swarm relay. -/

namespace Sys2Proof.Machine

open Reg

/-! ### The relay (R460) -/

theorem exec_relayForward (s : State) : exec .relayForward s = .next (relayForward s) := rfl
theorem exec_relayResend (tag : Nat) (s : State) : exec (.relayResend tag) s = .next (relayResend tag s) := rfl

/-- The end of the relay shows its result and forgets the package. -/
theorem relayEnd_shows (result : Nat) (s : State) :
    rd FWM_RELAY_STATUS.RESULT (relayEnd result s) = result % 2 ^ FWM_RELAY_STATUS.RESULT.w ∧
      on FWM_RELAY_STATUS.BUSY (relayEnd result s) = false ∧ (relayEnd result s).peer.relay.forwarding = false := by
  refine ⟨rd_putAll_mem FWM_RELAY_STATUS.RESULT result [] [_, _] _ nofun rfl,
    on_eq_false_of_rd (rd_putAll_mem FWM_RELAY_STATUS.BUSY 0 [_] [_] _ nofun rfl), ?_⟩
  rw [relayEnd, (fr_putAll ..).f_peer rfl]
  rfl

/-- A complete package of good form and signature is applied and forwarded. -/
theorem relayForward_forwards {s : State} (hidle : s.peer.relay.forwarding = false) (hlen : 0 < s.peer.relay.len)
    (hall : s.peer.relay.len ≤ s.peer.relay.bytes.length) (hform : deltaForm (relayBytes s.peer.relay.bytes 0 s.peer.relay.len) = true)
    (hsigned : (signedBy (relayBytes s.peer.relay.bytes 0 s.peer.relay.len)
      (deltaKey (relayBytes s.peer.relay.bytes 0 s.peer.relay.len)) s.otp).isSome = true)
    (hgoes : forwards (relayApply (relayBytes s.peer.relay.bytes 0 s.peer.relay.len) s) = true) :
    relayForward s = startForward (relayBytes s.peer.relay.bytes 0 s.peer.relay.len)
      (relayApply (relayBytes s.peer.relay.bytes 0 s.peer.relay.len) s) := by
  have hwhole : ¬ ((decide (s.peer.relay.len = 0) || decide (s.peer.relay.bytes.length < s.peer.relay.len)) = true) := by
    rw [Bool.or_eq_true, decide_eq_true_eq, decide_eq_true_eq]
    omega
  unfold relayForward relayOf
  dsimp only
  rw [hidle, if_neg Bool.false_ne_true, if_neg hwhole, hform, Bool.not_true, if_neg Bool.false_ne_true,
    Option.isNone_eq_false_iff.mpr hsigned, if_neg Bool.false_ne_true, hgoes, if_pos rfl]

theorem relayForward_ends {s : State} (hforwarding : s.peer.relay.forwarding = true) (hopen : relayOpen s = false) :
    ∃ t, relayForward s = relayEnd 1 t := by
  unfold relayForward relayOf
  dsimp only
  rw [hforwarding, hopen, if_pos rfl, if_neg Bool.false_ne_true]
  exact ⟨_, rfl⟩

/-- Settles O49: the two clauses are the branches of `relayForward` that start a forward and that end it. -/
theorem relayCommands : Obligations.RelayCommands := by
  unfold Obligations.RelayCommands
  refine ⟨?starts, ?ends⟩
  case starts =>
    intro s hidle hlen hall hform hsigned hgoes
    rw [exec_relayForward, relayForward_forwards hidle hlen hall hform hsigned hgoes]
  case ends =>
    intro s hforwarding hopen
    obtain ⟨t, hends⟩ := relayForward_ends hforwarding hopen
    exact ⟨_, exec_relayForward s, hends ▸ relayEnd_shows 1 t⟩

/-! ### A packet is sent again (R461) -/

/-- The tag of a new request is not in use. -/
theorem peerTag_free {t : Nat} {s : State} (h : peerTag s = some t) : mfind s.peer.reqs t = none := by
  unfold peerTag at h
  split at h
  · cases h
  · have hfree := List.find?_some h
    rw [Bool.and_eq_true, Option.isNone_iff_eq_none] at hfree
    exact hfree.1

/-- Sending takes nothing from the requests that are outstanding. -/
theorem mfind_reqs_pumpPeer {tag : Nat} {r : PeerReq} (n : Nat) {s : State} (h : mfind s.peer.reqs tag = some r) :
    mfind (pumpPeer n s).peer.reqs tag = some r := by
  induction n generalizing s with
  | zero => exact h
  | succ n ih =>
    unfold pumpPeer
    split
    · exact h
    · split
      next q p t hnext htag =>
        have hne : tag ≠ t := fun e => by
          rw [e, peerTag_free htag] at h
          cases h
        refine ih ?_
        rw [(fr_emit ..).f_peer rfl, (fr_emit ..).f_peer rfl]
        dsimp only
        rw [mfind_mset_ne _ _ hne, (nextOut_peer hnext).2, h]
      · exact h

theorem reqs_pumpRsp (n : Nat) (s : State) : (pumpRsp n s).peer.reqs = s.peer.reqs := by
  induction n generalizing s with
  | zero => rfl
  | succ n ih =>
    unfold pumpRsp
    dsimp only
    split
    · rfl
    · split
      · rfl
      · rw [ih]
        rfl

theorem mfind_reqs_pumpPp {tag : Nat} {r : PeerReq} {s : State} (h : mfind s.peer.reqs tag = some r) :
    mfind (pumpPp s).peer.reqs tag = some r := by
  rw [pumpPp, reqs_pumpRsp]
  exact mfind_reqs_pumpPeer 4096 h

theorem mfind_reqs_peerAnswer_relay {tag rt : Nat} {r : PeerReq} (info node fr : Nat) (d : List Byte) (s : State) (hdest : r.dest = .relay)
    (hfault : rt ≠ rtWrAck) : mfind (peerAnswer tag r rt info node fr d s).peer.reqs tag = some { r with got := [1] } := by
  unfold peerAnswer
  dsimp only
  rw [hdest]
  dsimp only
  rw [if_neg hfault]
  exact mfind_mset_same _ _ _

theorem mfind_reqs_peerTimeout_relay {tag : Nat} {r : PeerReq} {s : State} (hfind : mfind s.peer.reqs tag = some r)
    (hdest : r.dest = .relay) :
    mfind (peerTimeout tag s).peer.reqs tag = some { r with got := [1] } := by
  unfold peerTimeout
  rw [hfind]
  dsimp only
  rw [hdest]
  exact mfind_mset_same _ _ _

theorem relayResend_again {tag : Nat} {r : PeerReq} {s : State} (hfind : mfind s.peer.reqs tag = some r) (hdest : r.dest = .relay)
    (hmarked : r.got ≠ []) (hforwarding : s.peer.relay.forwarding = true) (htries : r.resent < 3) :
    relayResend tag s = sendPeer { r with got := [], resent := r.resent + 1 }
      { s with peer := { s.peer with reqs := mdel s.peer.reqs tag } } := by
  unfold relayResend relayOf
  rw [hfind]
  dsimp only
  rw [if_neg (by simp [hdest, hmarked]), hforwarding, Bool.not_true, if_neg Bool.false_ne_true, if_pos htries]

/-- After the third attempt the relay ends, and its packets leave the queue. -/
theorem relayResend_stops {tag : Nat} {r : PeerReq} {s : State} (hfind : mfind s.peer.reqs tag = some r) (hdest : r.dest = .relay)
    (hmarked : r.got ≠ []) (hforwarding : s.peer.relay.forwarding = true) (htries : 3 ≤ r.resent) :
    ∃ t, relayResend tag s = postEvent 11 0 1 [] (relayEnd 3 t) ∧ t.peer.queue = s.peer.queue.filter (fun x => x.dest != .relay) ∧
      t.eventSeq = s.eventSeq ∧ t.fw = s.fw ∧ updState t = updState s := by
  unfold relayResend relayOf
  rw [hfind]
  dsimp only
  rw [if_neg (by simp [hdest, hmarked]), hforwarding, Bool.not_true, if_neg Bool.false_ne_true, if_neg (Nat.not_lt.mpr htries)]
  exact ⟨_, rfl, rfl, rfl, rfl, rfl⟩

theorem queue_relayEnd (result : Nat) (s : State) : (relayEnd result s).peer.queue = s.peer.queue := by
  rw [relayEnd, (fr_putAll ..).f_peer rfl]
  rfl

theorem updState_relayEnd (result : Nat) (s : State) : updState (relayEnd result s) = updState s :=
  rd_putAll_of_all FWM_UPD_STATUS.STATE _ _ rfl

/-- Settles O50: a fault and a timeout mark the packet, and sending keeps the mark; a marked packet goes out again or ends the relay by
the number of its attempts. -/
theorem relayResends : Obligations.RelayResends := by
  unfold Obligations.RelayResends
  refine ⟨?fault, ?timeout, ?again, ?stops⟩
  case fault =>
    intro w par d dpar r s hanswers hpar hdpar hhdr hdata hlo hhi hquarantine hfind hdest
    have hne : ∀ k, k < 4 → slotF w 0 4 ≠ k := fun k hk => by omega
    refine ⟨_, exec_ppRspIn w par d dpar s, ?_⟩
    rw [ppResponse_answers hanswers hpar hdpar hhdr hdata (hne _ (by decide)) (hne _ (by decide)) hhi hquarantine hfind]
    exact mfind_reqs_pumpPp (mfind_reqs_peerAnswer_relay _ _ _ _ _ hdest (hne _ (by decide)))
  case timeout =>
    intro tag r s hfind hdest
    exact ⟨_, exec_peerRequestTimeout tag s, mfind_reqs_peerTimeout_relay hfind hdest⟩
  case again =>
    intro tag r s hfind hdest hmarked hforwarding htries
    rw [exec_relayResend, relayResend_again hfind hdest hmarked hforwarding htries]
  case stops =>
    intro tag r s hfind hdest hmarked hforwarding htries
    obtain ⟨t, hresend, hqueue, hseq, hfw, hstate⟩ := relayResend_stops hfind hdest hmarked hforwarding htries
    obtain ⟨hresult, hbusy, hended⟩ := relayEnd_shows 3 t
    refine ⟨_, exec_relayResend tag s, ?_⟩
    rw [hresend, on, rd_postEvent _ _ _ _ _ _ (by decide) (by decide) (by decide),
      rd_postEvent _ _ _ _ _ _ (by decide) (by decide) (by decide),
      ← on, (fr_postEvent ..).f_peer rfl, (fr_postEvent ..).f_fw rfl, postEvent_eventSeq, updState,
      rd_postEvent _ _ _ _ _ _ (by decide) (by decide) (by decide), ← updState, updState_relayEnd, queue_relayEnd, hqueue,
      (fr_relayEnd ..).f_eventSeq rfl, (fr_relayEnd ..).f_fw rfl]
    refine ⟨hresult, hbusy, hended, fun x hx => ?_, by rw [hseq], hfw, hstate⟩
    simpa using (List.mem_filter.mp hx).2

end Sys2Proof.Machine
end

section
/-! Proofs for firmware and update (15_firmware_and_update.md): the messages and the stages of an update (R451 to R454). -/

namespace Sys2Proof.Machine

open Reg

/-! ### The state of an update -/

theorem updState_put (v : Nat) (s : State) : updState (put FWM_UPD_STATUS.STATE v s) = v % 2 ^ FWM_UPD_STATUS.STATE.w :=
  rd_put_same FWM_UPD_STATUS.STATE v s nofun

/-- The progress word is no other field. -/
theorem rd_updProgress {f : Fld} (pct bytes : Nat) (s : State) (h : f.key ≠ FWM_UPD_PROGRESS.PROGRESS.key) :
    rd f (updProgress pct bytes s) = rd f s := rd_put_ne _ _ _ _ h

theorem updState_updProgress (pct bytes : Nat) (s : State) : updState (updProgress pct bytes s) = updState s :=
  rd_updProgress pct bytes s (by decide)

/-- The answer to a message and its holding leave the registers and the firmware complex alone. -/
theorem fr_svcHold_svcProgress (k : Nat) (result : Option Nat) (s : State) :
    Frame 0x1200000000000080 s (svcHold k (svcProgress result s)) :=
  ((fr_svcProgress ..).mono rfl).seq (fr_svcHold ..) rfl

theorem updState_startForward (p : List Byte) (s : State) : updState (startForward p s) = updState s := by
  unfold startForward updState
  dsimp only
  rw [(fr_pumpPp _).rd_eq _ rfl rfl]
  exact rd_putAll_of_all FWM_UPD_STATUS.STATE _ _ rfl

/-- What the relay does with a package that came by SVC does not touch the update. -/
theorem updState_relayOfSvc (s : State) : updState (relayOfSvc s) = updState s := by
  unfold relayOfSvc
  dsimp only
  split
  · rfl
  · split
    · exact rd_putAll_of_all FWM_UPD_STATUS.STATE _ _ rfl
    · split
      · exact updState_startForward ..
      · rfl

/-! ### The messages (R451, R452) -/

theorem exec_updateBegin (msg : List Byte) (s : State) : exec (.updateBegin msg) s = .next (updateBegin msg s) := rfl
theorem exec_updateChunk (msg : List Byte) (s : State) : exec (.updateChunk msg) s = .next (updateChunk msg s) := rfl
theorem exec_updateEnd (msg : List Byte) (s : State) : exec (.updateEnd msg) s = .next (updateEnd msg s) := rfl

theorem updateBegin_starts {msg : List Byte} {s : State} (h : svcArrives 2 msg s) (hsrc : on FWM_UPD_CFG.SRC s = false)
    (hlen : 9 ≤ (svcPayload msg).length) (hstate : updState s = 0 ∨ updState s = 6) (hfloor : raising s = false) :
    updateBegin msg s = svcHold s.out.svc.length (svcProgress none (updStart (leAt (svcPayload msg) 0 8)
      ((leAt (svcPayload msg) 8 1).testBit 0) ((leAt (svcPayload msg) 8 1).testBit 1) s)) := by
  have hready : ¬ ((decide (updState s ≠ 0) && decide (updState s ≠ 6) || raising s) = true) := by
    rw [hfloor, Bool.or_false, Bool.and_eq_true, decide_eq_true_eq, decide_eq_true_eq]
    omega
  unfold updateBegin
  rw [svcIn_serves _ _ h (by decide) (by decide)]
  rw [hsrc, Bool.false_and, if_neg Bool.false_ne_true, if_neg (Nat.not_lt.mpr hlen), if_neg hready]

/-- A chunk is staged at its offset. -/
theorem pkg_updateChunk {msg : List Byte} {s : State} (h : svcArrives 3 msg s) (hlen : 9 ≤ (svcPayload msg).length)
    (hstate : updState s = 1) :
    (updateChunk msg s).fw.pkg = stage s.fw.pkg s.fw.pkgLen (leAt (svcPayload msg) 0 8) ((svcPayload msg).drop 8) := by
  unfold updateChunk
  rw [svcIn_serves _ _ h (by decide) (by decide)]
  dsimp only
  rw [if_neg (Nat.not_lt.mpr hlen), if_neg (not_not_intro hstate), (fr_svcHold_svcProgress ..).f_fw rfl, (fr_updProgress ..).f_fw rfl]

theorem updState_updateEnd {msg : List Byte} {s : State} (h : svcArrives 4 msg s) (hstate : updState s = 1) :
    updState (updateEnd msg s) = 2 := by
  unfold updateEnd
  rw [svcIn_serves _ _ h (by decide) (by decide)]
  rw [if_pos hstate, updState, (fr_svcHold_svcProgress ..).rd_eq _ rfl rfl]
  exact updState_put 2 s

/-! ### The stages (R452 to R454) -/

theorem exec_updateCheckDone (s : State) : exec .updateCheckDone s = .next (updateCheckDone s) := rfl
theorem exec_updateApplyDone (flashError : Bool) (s : State) :
    exec (.updateApplyDone flashError) s = .next (updateApplyDone flashError s) := rfl
theorem exec_updateVerifyDone (flashError : Bool) (s : State) :
    exec (.updateVerifyDone flashError) s = .next (updateVerifyDone flashError s) := rfl
theorem exec_updateLoadDone (s : State) : exec .updateLoadDone s = .next (updateLoadDone s) := rfl

theorem updState_updateCheckDone {s : State} (hstate : updState s = 2) (hgood : (checkPackage (relayOfSvc s)).1 = 0) :
    updState (updateCheckDone s) = 3 := by
  unfold updateCheckDone updChecked
  dsimp only
  rw [if_pos hstate, if_neg (not_not_intro ((updState_relayOfSvc s).trans hstate)), if_neg (not_not_intro hgood), updState_updProgress,
    updState_put]
  rfl

theorem updateApplyDone_applies {s : State} (hstate : updState s = 3) (hflash : flashOk s = true) :
    ∃ t, updateApplyDone false s = updProgress 90 (checkPackage s).2.length (put FWM_UPD_STATUS.STATE 4 t) ∧ rd FWM_ALT_VER.VER t = 0 := by
  unfold updateApplyDone
  dsimp only
  rw [if_neg (by simp [hstate, hflash]), if_neg Bool.false_ne_true]
  refine ⟨_, rfl, ?_⟩
  rw [(fr_flProg ..).rd_eq _ rfl rfl]
  exact rd_put_same FWM_ALT_VER.VER 0 _ nofun

theorem updateVerifyDone_verifies {s : State} (hstate : updState s = 4)
    (hdigest : sha384 (flRead (slotBase (targetSlot s)) (wantedLen s) s) = wantedDigest s)
    (hverify : (imgVerify (flRead (slotBase (targetSlot s)) (wantedLen s) s) s.otp).isSome = true)
    (hnormal : on FWM_STATUS.RECOVERY s = false) :
    updateVerifyDone false s = updProgress 95 (flRead (slotBase (targetSlot s)) (wantedLen s) s).length
      (putAll [(FWM_ALT_VER.VER, imgVer (flRead (slotBase (targetSlot s)) (wantedLen s) s)), (FWM_UPD_STATUS.STATE, 5)] s) := by
  unfold updateVerifyDone
  dsimp only
  rw [if_neg (not_not_intro hstate), if_neg Bool.false_ne_true,
    if_neg (by simp [hdigest, Option.isNone_eq_false_iff.mpr hverify]), hnormal, if_neg Bool.false_ne_true]

theorem updState_updateLoadDone {s : State} (hstate : updState s = 5) (hbook : bookOk (runImage s) (slotImage (targetSlot s) s) = true) :
    updState (updateLoadDone s) = 6 := by
  have hloaded : ∀ (t : State) (w : Fw), updState { t with fw := w } = updState t := fun _ _ => rfl
  unfold updateLoadDone
  dsimp only
  rw [if_neg (not_not_intro hstate), hbook, Bool.not_true, if_neg Bool.false_ne_true, hloaded, updState_updProgress, updState_put]
  rfl

/-- Settles O51: a message is served by its operation, and each stage ends in the branch that sets the next STATE. -/
theorem updateCommands : Obligations.UpdateCommands := by
  unfold Obligations.UpdateCommands
  refine ⟨?start, ?chunk, ?finish, ?check, ?apply, ?verify, ?load⟩
  case start =>
    intro msg s h hsrc hlen hstate hfloor
    rw [exec_updateBegin, updateBegin_starts h hsrc hlen hstate hfloor]
  case chunk =>
    intro msg s h hlen hstate
    exact ⟨_, exec_updateChunk msg s, pkg_updateChunk h hlen hstate⟩
  case finish =>
    intro msg s h hstate
    exact ⟨_, exec_updateEnd msg s, updState_updateEnd h hstate⟩
  case check =>
    intro s hstate hgood
    exact ⟨_, exec_updateCheckDone s, updState_updateCheckDone hstate hgood⟩
  case apply =>
    intro s hstate hflash
    obtain ⟨t, happly, hver⟩ := updateApplyDone_applies hstate hflash
    refine ⟨_, exec_updateApplyDone false s, ?_, ?_⟩
    · rw [happly, updState_updProgress, updState_put]
      rfl
    · rw [happly, rd_updProgress _ _ _ (by decide), rd_put_ne _ _ _ _ (by decide), hver]
  case verify =>
    intro s hstate hdigest hverify hnormal
    refine ⟨_, exec_updateVerifyDone false s, ?_⟩
    rw [updateVerifyDone_verifies hstate hdigest hverify hnormal, updState_updProgress]
    exact rd_putAll_mem FWM_UPD_STATUS.STATE 5 [_] [] s nofun rfl
  case load =>
    intro s hstate hbook
    exact ⟨_, exec_updateLoadDone s, updState_updateLoadDone hstate hbook⟩

end Sys2Proof.Machine
end

section
/-! Proofs for firmware and update (15_firmware_and_update.md): the mailbox requests (R446, R447), the restart of a core (R433) and the
handover (R456, R458). -/

namespace Sys2Proof.Machine

open Reg

/-! ### The end of an update (R452) -/

theorem updState_updEnd (state result : Nat) (s : State) : updState (updEnd state result s) = state % 2 ^ FWM_UPD_STATUS.STATE.w := by
  unfold updState updEnd
  rw [rd_postEvent _ _ _ _ _ _ (by decide) (by decide) (by decide)]
  exact rd_putAll_mem FWM_UPD_STATUS.STATE state [] [_, _] s nofun rfl

theorem rd_result_updEnd (state result : Nat) (s : State) :
    rd FWM_UPD_STATUS.RESULT (updEnd state result s) = result % 2 ^ FWM_UPD_STATUS.RESULT.w := by
  unfold updEnd
  rw [rd_postEvent _ _ _ _ _ _ (by decide) (by decide) (by decide)]
  exact rd_putAll_mem FWM_UPD_STATUS.RESULT result [_] [_] s nofun rfl

theorem activate_updEnd (state result : Nat) (s : State) : (updEnd state result s).fw.activate = false := by
  unfold updEnd
  rw [(fr_postEvent ..).f_fw rfl]

/-! ### Mailbox requests (R446, R447) -/

theorem exec_mbxReqTailWrite (v : BitVec 32) (s : State) : exec (.mbxReqTailWrite v) s = .next (mbxReqTailWrite v.toNat s) := rfl
theorem exec_mbxEvtHeadWrite (v : BitVec 32) (s : State) : exec (.mbxEvtHeadWrite v) s = .next (mbxEvtHeadWrite v.toNat s) := rfl
theorem exec_mbxStatus (s : State) : exec .mbxStatus s = .next (mbxStatus s) := rfl
theorem exec_settingsRead (s : State) : exec .settingsRead s = .next (settingsRead s) := rfl
theorem exec_settingsWrite (flashError : Bool) (s : State) : exec (.settingsWrite flashError) s = .next (settingsWrite flashError s) := rfl
theorem exec_updActivate (s : State) : exec .updActivate s = .next (updActivate s) := rfl
theorem exec_updAbort (s : State) : exec .updAbort s = .next (updAbort s) := rfl
theorem exec_eventRead (s : State) : exec .eventRead s = .next (eventRead s) := rfl
theorem exec_deferralTimeout (s : State) : exec .deferralTimeout s = .next (deferralTimeout s) := rfl

/-- A request at the head with the TYPE of the command is served, and the mailbox goes on. -/
theorem mbxServe_serves {ty : Nat} {r : List Nat} {s : State} (f : List Nat → State → State) (hhead : mbxHead (mbxGo s) = some r)
    (hty : mbxType r = ty) : mbxServe ty f s = mbxGo (f r (mbxGo s)) := by
  unfold mbxServe
  dsimp only
  rw [hhead]
  dsimp only
  rw [if_pos hty]

section
variable {r : List Nat} {s : State} (hhead : mbxHead (mbxGo s) = some r)
include hhead

theorem settingsRead_answers (hty : mbxType r = 2) (hitem : (itemSize (mbxArg r % 2 ^ 16)).isSome = true) :
    settingsRead s =
      mbxGo (mbxAnswer mrOk (bytesToWords (itemBytes (mbxArg r % 2 ^ 16, itemOf (mbxArg r % 2 ^ 16) (mbxGo s)))) (mbxGo s)) := by
  rw [settingsRead, mbxServe_serves _ hhead hty]
  dsimp only
  rw [Option.isNone_eq_false_iff.mpr hitem, if_neg Bool.false_ne_true]

theorem settingsWrite_stores (hty : mbxType r = 3)
    (hitem : itemSize (leAt (wordBytes (r.drop 1)) 0 2) = some (leAt (wordBytes (r.drop 1)) 2 2)) (hflash : flashOk (mbxGo s) = true) :
    settingsWrite false s = mbxGo (mbxAnswer mrOk []
      (storeItem (leAt (wordBytes (r.drop 1)) 0 2) (slice (wordBytes (r.drop 1)) 4 (leAt (wordBytes (r.drop 1)) 2 2)) (mbxGo s))) := by
  rw [settingsWrite, mbxServe_serves _ hhead hty]
  dsimp only
  rw [hitem, bne_self_eq_false, if_neg Bool.false_ne_true, hflash, Bool.not_true, if_neg Bool.false_ne_true, if_neg Bool.false_ne_true]

theorem updActivate_warm (hty : mbxType r = 5) (hwarm : (mbxArg r).testBit 0 = false)
    (hstate : updState (mbxGo s) = 6 ∨ updState (mbxGo s) = 7) :
    updActivate s = mbxGo (mbxAnswer mrOk [] { mbxGo s with fw := { (mbxGo s).fw with activate := true } }) := by
  have hready : ¬ ((decide (updState (mbxGo s) ≠ 6) && decide (updState (mbxGo s) ≠ 7)) = true) := by
    rw [Bool.and_eq_true, decide_eq_true_eq, decide_eq_true_eq]
    omega
  rw [updActivate, mbxServe_serves _ hhead hty]
  dsimp only
  rw [hwarm, if_neg Bool.false_ne_true, if_neg hready]

theorem updActivate_cold (hty : mbxType r = 5) (hcold : (mbxArg r).testBit 0 = true)
    (hstate : updState (mbxGo s) = 6 ∨ updState (mbxGo s) = 7) (hflash : flashOk (mbxGo s) = true) :
    updActivate s = mbxGo (mbxAnswer mrOk [] (coldRecord (mbxGo s))) := by
  have hready : (decide (updState (mbxGo s) ≠ 6) && decide (updState (mbxGo s) ≠ 7)) = false := by
    rw [Bool.and_eq_false_iff, decide_eq_false_iff_not, decide_eq_false_iff_not]
    omega
  rw [updActivate, mbxServe_serves _ hhead hty]
  dsimp only
  rw [hcold, if_pos rfl, hready, Bool.false_and, if_neg Bool.false_ne_true, hflash, Bool.not_true, if_neg Bool.false_ne_true]

theorem updAbort_aborts (hty : mbxType r = 6) (hlo : 1 ≤ updState (mbxGo s)) (hhi : updState (mbxGo s) < 8) :
    updAbort s = mbxGo (mbxAnswer mrOk [] (updEnd 0 11 (mbxGo s))) := by
  rw [updAbort, mbxServe_serves _ hhead hty]
  dsimp only
  rw [if_neg (Nat.not_le.mpr hhi), if_neg (Nat.ne_of_gt hlo)]

theorem eventRead_answers {e : Event} (hty : mbxType r = 7) (hevent : (mbxGo s).evLog[mbxArg r]? = some e) :
    eventRead s = mbxGo (mbxAnswer mrOk (eventWords e 0 0) (mbxGo s)) := by
  rw [eventRead, mbxServe_serves _ hhead hty]
  rw [hevent]

end

theorem deferralTimeout_ends {r : Nat} {s : State} (hstate : updState s = 7) (hdeferred : s.fw.deferred = some r)
    (hlong : r + 600000 ≤ s.rounds) : deferralTimeout s = updEnd 6 10 s := by
  unfold deferralTimeout
  rw [hdeferred, Option.any_some, if_pos (by simp [hstate, hlong])]

/-- An answer takes the oldest request off the queue and leaves as two writes. -/
theorem mbxAnswer_leaves (result : Nat) (payload : List Nat) {r : List Nat} {rs : List (List Nat)} {s : State} (h : s.fw.mbxReq = r :: rs) :
    (mbxAnswer result payload s).fw.mbxReq = rs ∧ (mbxAnswer result payload s).out.hp.length = s.out.hp.length + 2 := by
  unfold mbxAnswer
  rw [h]
  dsimp only
  constructor
  · rw [(fr_evQueueWrite ..).f_fw rfl]
  · unfold evQueueWrite
    dsimp only
    rw [(fr_put ..).f_out rfl]
    simp [sendTlp, fwRead, askFw]

/-- Settles O53: a request of the command's TYPE is served in the branch that its argument chooses, and its answer takes it off the
queue. -/
theorem mailboxCommands : Obligations.MailboxCommands := by
  unfold Obligations.MailboxCommands
  refine ⟨exec_mbxReqTailWrite, exec_mbxEvtHeadWrite, ?status, ?read, ?write, ?warm, ?cold, ?abort, ?deferral, ?event, ?answer⟩
  case status =>
    intro r s hhead hty
    rw [exec_mbxStatus, mbxStatus, mbxServe_serves _ hhead hty]
  case read =>
    intro r s hhead hty hitem
    rw [exec_settingsRead, settingsRead_answers hhead hty hitem]
  case write =>
    intro r s hhead hty hitem hflash
    rw [exec_settingsWrite, settingsWrite_stores hhead hty hitem hflash]
  case warm =>
    intro r s hhead hty hwarm hstate
    rw [exec_updActivate, updActivate_warm hhead hty hwarm hstate]
  case cold =>
    intro r s hhead hty hcold hstate hflash
    rw [exec_updActivate, updActivate_cold hhead hty hcold hstate hflash]
  case abort =>
    intro r s hhead hty hlo hhi
    rw [exec_updAbort, updAbort_aborts hhead hty hlo hhi]
  case deferral =>
    intro r s hstate hdeferred hlong
    refine ⟨_, exec_deferralTimeout s, ?_⟩
    rw [deferralTimeout_ends hstate hdeferred hlong]
    exact ⟨updState_updEnd 6 10 s, rd_result_updEnd 6 10 s, activate_updEnd 6 10 s⟩
  case event =>
    intro r e s hhead hty hevent
    rw [exec_eventRead, eventRead_answers hhead hty hevent]
  case answer => exact fun result payload r rs s h => mbxAnswer_leaves result payload h

/-! ### Cores (R433) -/

theorem exec_coreRestart (core reason : Nat) (s : State) : exec (.coreRestart core reason) s = .next (coreRestart core reason s) := rfl
theorem exec_coreWatchdogExpiry (core : Nat) (s : State) : exec (.coreWatchdogExpiry core) s = .next (coreFail core 1 s) := rfl
theorem exec_coreRestartDelayExpiry (core : Nat) (s : State) : exec (.coreRestartDelayExpiry core) s = .next (coreDelayEnd core s) := rfl
theorem exec_handover (safe stageSafe : Bool) (ready : List Nat) (s : State) :
    exec (.handover safe stageSafe ready) s = .next (handover safe stageSafe ready s) := rfl
theorem exec_bootRecordWrite (s : State) : exec .bootRecordWrite s = .next (bootRecordWrite s) := rfl

theorem coreOf_setCore_same (i : Nat) (c : Core) (s : State) : coreOf i (setCore i c s) = c := mgetD_mset_same _ _ _ _

theorem coreOf_setCore_ne {i j : Nat} (c : Core) (s : State) (h : i ≠ j) : coreOf i (setCore j c s) = coreOf i s := mgetD_mset_ne _ _ _ h

theorem coreOf_congr (i : Nat) {s t : State} (h : t.cores = s.cores) : coreOf i t = coreOf i s := by rw [coreOf, h, ← coreOf]

theorem coreOf_coreLoad (i : Nat) (s : State) :
    coreOf i (coreLoad i s) = { coreOf i s with restarting := true, waiting := false, last := some s.rounds } := coreOf_setCore_same ..

/-- The first failure of a core reloads it at once. -/
theorem coreFail_reloads {i : Nat} (reason : Nat) {s : State} (hpresent : corePresent i s = true) (hreleased : released s = true)
    (hkept : (coreOf i s).retired = false) (hruns : (coreOf i s).waiting = false) (hfirst : (coreOf i s).last = none) :
    ∃ t, coreFail i reason s = coreLoad i t := by
  unfold coreFail
  dsimp only
  rw [hpresent, hreleased, hkept, hruns, hfirst, if_neg (by decide), Option.any_none, if_neg Bool.false_ne_true]
  exact ⟨_, rfl⟩

theorem coreFail_restarts {i : Nat} (reason : Nat) {s : State} (hpresent : corePresent i s = true) (hreleased : released s = true)
    (hkept : (coreOf i s).retired = false) (hruns : (coreOf i s).waiting = false) (hfirst : (coreOf i s).last = none) :
    (coreOf i (coreFail i reason s)).restarting = true ∧ (coreOf i (coreFail i reason s)).last = some (coreFail i reason s).rounds := by
  obtain ⟨t, hfail⟩ := coreFail_reloads reason hpresent hreleased hkept hruns hfirst
  rw [hfail, coreOf_coreLoad]
  exact ⟨rfl, rfl⟩

theorem coreRestart_fails {i reason : Nat} (s : State) (hlo : 1 ≤ reason) (hhi : reason ≤ 3) :
    coreRestart i reason s = coreFail i reason s := by
  unfold coreRestart
  rw [if_neg (by omega), if_pos (by simp [hlo, hhi])]

theorem coreRestart_asked {r : List Nat} {s : State} (core : Nat) (hhead : mbxHead (mbxGo s) = some r) (hty : mbxType r = 4)
    (hpresent : corePresent (mbxArg r) (mbxGo s) = true) (hkept : (coreOf (mbxArg r) (mbxGo s)).retired = false) :
    coreRestart core 4 s = mbxGo (coreAsked (mbxArg r) (mbxAnswer mrOk [] (mbxGo s))) := by
  unfold coreRestart
  rw [if_pos rfl, mbxServe_serves _ hhead hty]
  dsimp only
  rw [hpresent, hkept, if_neg (by decide)]

/-! ### The handover (R456, R458) -/

/-- Core i goes over to its other bank. -/
def switchCore (s : State) (i : Nat) : State := setCore i { coreOf i s with bank := 1 - (coreOf i s).bank } s

theorem coreOf_foldl_switchCore_not_mem {i : Nat} {l : List Nat} (s : State) (h : i ∉ l) :
    coreOf i (l.foldl switchCore s) = coreOf i s := by
  induction l generalizing s with
  | nil => rfl
  | cons j l ih =>
    obtain ⟨hj, hl⟩ := List.ne_and_not_mem_of_not_mem_cons h
    rw [List.foldl_cons, ih _ hl, switchCore, coreOf_setCore_ne _ _ hj]

/-- Each core of a list without repetition switches once. -/
theorem bank_foldl_switchCore {i : Nat} {l : List Nat} (s : State) (hnodup : l.Nodup) (h : i ∈ l) :
    (coreOf i (l.foldl switchCore s)).bank = 1 - (coreOf i s).bank := by
  induction l generalizing s with
  | nil => cases h
  | cons j l ih =>
    obtain ⟨hj, hl⟩ := List.nodup_cons.mp hnodup
    rw [List.foldl_cons]
    obtain rfl | hi := List.mem_cons.mp h
    · rw [coreOf_foldl_switchCore_not_mem _ hj, switchCore, coreOf_setCore_same]
    · have hne : i ≠ j := fun e => hj (e ▸ hi)
      rw [ih _ hl hi, switchCore, coreOf_setCore_ne _ _ hne]

theorem bank_switchBanks {i : Nat} (s : State) (hi : i < 21) : (coreOf i (switchBanks s)).bank = 1 - (coreOf i s).bank := by
  have hswitch := bank_foldl_switchCore (i := i) { s with fw := { s.fw with keySlot := keyOfImage (slotImage (1 - runSlot s) s) s } }
    List.nodup_range (List.mem_range.mpr hi)
  exact (congrArg Core.bank (coreOf_congr i ((fr_putAll ..).f_cores rfl))).trans hswitch

theorem runSlot_switchBanks (s : State) : runSlot (switchBanks s) = 1 - runSlot s := by
  have hslot : runSlot (switchBanks s) = (1 - runSlot s) % 2 ^ FWM_STATUS.RUN_SLOT.w :=
    rd_putAll_mem FWM_STATUS.RUN_SLOT (1 - runSlot s) [] [_, _] _ nofun rfl
  rw [hslot]
  exact Nat.mod_eq_of_lt (Nat.lt_succ_of_le (Nat.sub_le 1 _))

/-- With every core ready the handover ends in the switch of the banks. -/
theorem handover_switches {ready : List Nat} {s : State} (hstate : updState s = 8) (hfree : actHeld s = false)
    (hready : ∀ i < 21, 1 ≤ i → i ∈ ready) : handover true true ready s = put FWM_UPD_STATUS.STATE 9 (switchBanks s) := by
  have hnone : ((List.range 21).filter fun i =>
      decide (1 ≤ i) && !ready.contains i && coreReady i (put FWM_UPD_STATUS.STATE 9 (switchBanks s))) = [] := by
    refine List.filter_eq_nil_iff.mpr fun i hi => ?_
    have hmem := hready i (List.mem_range.mp hi)
    simp only [Bool.and_eq_true, Bool.not_eq_true', decide_eq_true_eq, List.contains_eq_mem, decide_eq_false_iff_not]
    exact fun h => h.1.2 (hmem h.1.1)
  unfold handover
  dsimp only
  rw [if_neg (not_not_intro hstate), if_neg (by decide), hfree, if_neg Bool.false_ne_true, hnone]
  rfl

theorem bootRecordWrite_writes {s : State} (hstate : updState s = 9) (hflash : flashOk s = true) (hcore : coreReady 0 s = true) :
    bootRecordWrite s = updEnd 0 1 (writeBoot (runSlot s) (runImage s) s) := by
  unfold bootRecordWrite
  rw [if_neg (by simp [hstate, hflash, hcore])]

/-- Settles O54: the first failure of a core reloads it, a handover without a hold switches the bank of each core once, and the boot
record ends the update. -/
theorem coreCommands : Obligations.CoreCommands := by
  unfold Obligations.CoreCommands
  refine ⟨?restart, ?asked, ?watchdog, ?delay, ?handover, ?record⟩
  case restart =>
    intro core reason s hlo hhi hpresent hreleased hkept hruns hfirst
    refine ⟨_, exec_coreRestart core reason s, ?_⟩
    rw [coreRestart_fails s hlo hhi]
    exact coreFail_restarts reason hpresent hreleased hkept hruns hfirst
  case asked =>
    intro r core s hhead hty hpresent hkept
    rw [exec_coreRestart, coreRestart_asked core hhead hty hpresent hkept]
  case watchdog =>
    intro core s hpresent hreleased hkept hruns hfirst
    exact ⟨_, exec_coreWatchdogExpiry core s, coreFail_restarts 1 hpresent hreleased hkept hruns hfirst⟩
  case delay =>
    intro core s hwaiting hends
    refine ⟨_, exec_coreRestartDelayExpiry core s, ?_⟩
    rw [coreDelayEnd, hwaiting, decide_eq_true hends, if_pos (by decide), coreOf_coreLoad]
  case handover =>
    intro ready s hstate hfree hready
    refine ⟨_, exec_handover true true ready s, ?_⟩
    rw [handover_switches hstate hfree hready]
    refine ⟨updState_put 9 _, ?_, fun i hi => ?_⟩
    · exact (rd_put_ne FWM_UPD_STATUS.STATE FWM_STATUS.RUN_SLOT 9 _ (by decide)).trans (runSlot_switchBanks s)
    · rw [coreOf_congr i ((fr_put ..).f_cores rfl), bank_switchBanks s hi]
  case record =>
    intro s hstate hflash hcore
    refine ⟨_, exec_bootRecordWrite s, ?_⟩
    rw [bootRecordWrite_writes hstate hflash hcore]
    refine ⟨updState_updEnd 0 1 _, rd_result_updEnd 0 1 _, ?_⟩
    unfold updEnd
    rw [(fr_postEvent ..).f_flash rfl]
    exact (fr_putAll ..).f_flash rfl

end Sys2Proof.Machine
end

section
/-! Proofs for the life cycle (16_lifecycle_and_security.md): the commands that program OTP words (R467, R468, R470, R471) and the end of a
debug session (R473). -/

namespace Sys2Proof.Machine

open Reg

theorem exec_advance (target : Nat) (run : OtpRun) (s : State) : exec (.advance target run) s = .next (advanceCmd target run s) := rfl
theorem exec_lcsResume (run : OtpRun) (s : State) : exec (.lcsResume run) s = .next (resumeLcs run s) := rfl
theorem exec_raiseFloor (run : OtpRun) (s : State) : exec (.raiseFloor run) s = .next (raiseFloorCmd run s) := rfl
theorem exec_dbgClose (s : State) : exec .dbgClose s = .next (dbgCloseCmd s) := rfl
theorem exec_revoke (slot : Nat) (run : OtpRun) (s : State) : exec (.revoke slot run) s = .next (revokeCmd slot run s) := rfl

/-! ### Words of OTP (R469) -/

/-- A run without an error programs every word that still has bits to set, and reports OK. -/
theorem otpRun_whole (ws : List OtpWord) {s : State} (hwindow : otpWindow s = true) :
    (otpRun .whole ws s).2 = 0 ∧ (otpRun .whole ws s).1.otp = (toProgram ws s.otp).foldl otpProg s.otp := by
  unfold otpRun
  dsimp only
  rw [hwindow, Bool.not_true, if_neg Bool.false_ne_true]
  split
  next hnone =>
    rw [List.isEmpty_iff.mp hnone]
    exact ⟨rfl, rfl⟩
  · exact ⟨rfl, rfl⟩

/-! ### The end of a command (R467) -/

theorem rd_result_lcsDone (r : State × Nat) : rd LCS_CMD_STATUS.RESULT (lcsDone r) = r.2 % 2 ^ LCS_CMD_STATUS.RESULT.w :=
  rd_putAll_mem LCS_CMD_STATUS.RESULT r.2 [] [_, _, _] r.1 nofun rfl

/-- Beside its own status a command's end leaves every field. -/
theorem rd_lcsDone_ne {f : Fld} (r : State × Nat)
    (h : ([LCS_CMD_STATUS.RESULT, LCS_CMD_STATUS.VALID, LCS_CMD.BUSY, LCS_CMD.CMD].all fun g => f.key != g.key) = true) :
    rd f (lcsDone r) = rd f r.1 := rd_putAll_of_all f _ _ h

theorem otp_lcsDone (r : State × Nat) : (lcsDone r).otp = r.1.otp := (fr_lcsDone r).f_otp rfl

section
variable {s : State} (hcore : coreReady 0 s = true) (hidle : on LCS_CMD.BUSY s = false)
include hcore hidle

/-- A command runs on a ready core while none shows BUSY and no transition is pending. -/
theorem lcsCommand_runs (f : State → State × Nat) (hpending : lcsPending s = false) : lcsCommand f s = lcsDone (f s) := by
  unfold lcsCommand
  rw [hcore, hidle, hpending]
  rfl

theorem advanceCmd_runs {target : Nat} (run : OtpRun) (hpending : lcsPending s = false) (hpermits : transitionOk target s = some true) :
    advanceCmd target run s = lcsDone (otpRun run (keySteps target ++ groupSteps (rd LCS_STATE.STATE s) target) s) := by
  rw [advanceCmd, lcsCommand_runs hcore hidle _ hpending, hpermits]

theorem resumeLcs_runs (run : OtpRun) (hpending : lcsPending s = true) :
    resumeLcs run s = lcsDone (otpRun run (groupSteps 0 (max (lcTarget s.otp.lc) (rd LCS_STATE.TARGET s)) ++
      keySteps (max (lcTarget s.otp.lc) (rd LCS_STATE.TARGET s))) s) := by
  unfold resumeLcs
  dsimp only
  rw [hcore, hidle, hpending]
  rfl

/-- RAISE_FLOOR stands in CMD while it shows BUSY. -/
theorem raiseFloorCmd_runs (run : OtpRun) (hpending : lcsPending s = false) (hstate : updState s = 0)
    (habove : secFloor s.otp < min 64 (imgSec (runImage s))) :
    raiseFloorCmd run s = put LCS_CMD.CMD 3 (lcsDone
      (showFloor (otpRun run (copies 2 (2 ^ min 64 (imgSec (runImage s)) - 1)) s).1,
        (otpRun run (copies 2 (2 ^ min 64 (imgSec (runImage s)) - 1)) s).2)) := by
  unfold raiseFloorCmd
  dsimp only
  rw [lcsCommand_runs hcore hidle _ hpending, hcore, hidle, if_pos (by decide), if_neg (not_not_intro hstate),
    if_neg (Nat.not_le.mpr habove)]

theorem revokeCmd_runs {slot : Nat} (run : OtpRun) (hpending : lcsPending s = false) (hslot : slot ≤ 5)
    (hunused : slotInUse slot s = false) :
    revokeCmd slot run s = lcsDone (showSlots (otpRun run (copies 3 (2 ^ slot)) s).1, (otpRun run (copies 3 (2 ^ slot)) s).2) := by
  rw [revokeCmd, lcsCommand_runs hcore hidle _ hpending, if_neg (Nat.not_lt.mpr hslot), hunused, if_neg Bool.false_ne_true]

theorem dbgCloseCmd_closes (hpending : lcsPending s = false) (hopen : on LCS_STATE.DBG_OPEN s = true) :
    dbgCloseCmd s = lcsDone (postEvent 9 0 6 [] (putAll [(LCS_STATE.DBG_OPEN, 0), (LCS_STATE.DBG_SCOPE, 0)] s), 0) := by
  rw [dbgCloseCmd, lcsCommand_runs hcore hidle _ hpending, hopen, Bool.not_true, if_neg Bool.false_ne_true]

end

/-- Settles O56: each command runs to its end, which shows the RESULT of the words that it programmed. -/
theorem lifeCycleCommands : Obligations.LifeCycleCommands := by
  unfold Obligations.LifeCycleCommands
  refine ⟨?advance, ?resume, ?floor, ?close, ?revoke⟩
  case advance =>
    intro target s hcore hidle hpending hpermits hwindow
    obtain ⟨hresult, hotp⟩ := otpRun_whole (keySteps target ++ groupSteps (rd LCS_STATE.STATE s) target) hwindow
    refine ⟨_, exec_advance target .whole s, ?_⟩
    rw [advanceCmd_runs hcore hidle .whole hpending hpermits, rd_result_lcsDone, hresult, otp_lcsDone, hotp]
    exact ⟨rfl, rfl⟩
  case resume =>
    intro s hcore hidle hpending hwindow
    obtain ⟨hresult, hotp⟩ := otpRun_whole (groupSteps 0 (max (lcTarget s.otp.lc) (rd LCS_STATE.TARGET s)) ++
      keySteps (max (lcTarget s.otp.lc) (rd LCS_STATE.TARGET s))) hwindow
    refine ⟨_, exec_lcsResume .whole s, ?_⟩
    rw [resumeLcs_runs hcore hidle .whole hpending, rd_result_lcsDone, hresult, otp_lcsDone, hotp]
    exact ⟨rfl, rfl⟩
  case floor =>
    intro s hcore hidle hpending hstate habove hwindow
    obtain ⟨hresult, hotp⟩ := otpRun_whole (copies 2 (2 ^ min 64 (imgSec (runImage s)) - 1)) hwindow
    refine ⟨_, exec_raiseFloor .whole s, ?_⟩
    rw [raiseFloorCmd_runs hcore hidle .whole hpending hstate habove, rd_put_ne _ _ _ _ (by decide), rd_result_lcsDone, hresult,
      (fr_put ..).f_otp rfl, otp_lcsDone, (fr_showFloor _).f_otp rfl, hotp]
    exact ⟨rfl, rfl⟩
  case close =>
    intro s hcore hidle hpending hopen
    refine ⟨_, exec_dbgClose s, ?_⟩
    rw [dbgCloseCmd_closes hcore hidle hpending hopen, rd_result_lcsDone, rd_lcsDone_ne _ rfl, on, rd_lcsDone_ne _ rfl,
      rd_postEvent _ _ _ _ _ _ (by decide) (by decide) (by decide), rd_postEvent _ _ _ _ _ _ (by decide) (by decide) (by decide), ← on]
    exact ⟨on_eq_false_of_rd (rd_putAll_mem LCS_STATE.DBG_OPEN 0 [] [_] s nofun rfl),
      rd_putAll_mem LCS_STATE.DBG_SCOPE 0 [_] [] s nofun rfl, rfl⟩
  case revoke =>
    intro slot s hcore hidle hpending hslot hunused hwindow
    obtain ⟨hresult, hotp⟩ := otpRun_whole (copies 3 (2 ^ slot)) hwindow
    refine ⟨_, exec_revoke slot .whole s, ?_⟩
    rw [revokeCmd_runs hcore hidle .whole hpending hslot hunused, rd_result_lcsDone, hresult, otp_lcsDone, (fr_showSlots _).f_otp rfl, hotp]
    exact ⟨rfl, rfl⟩

end Sys2Proof.Machine
end

section
/-! Proofs for the performance counters (17_performance_counters.md): clearing, one FCLK, the bandwidth windows and the samplers. -/

namespace Sys2Proof.Machine

open Reg

/-! ### Counters (R483, R485) -/

theorem rd_count_pmcClear {i : Nat} (s : State) (hi : i < 64) : rd (PMC_BCNT.COUNT i) (pmcClear s) = 0 := by
  have hkey : (!isCounterKey (PMC_BCNT.COUNT i).key) = false := by
    have hoff : (PMC_BCNT.COUNT i).key / 8 = 0x41000 + 0x8 * i := by
      simp only [Fld.key, PMC_BCNT.COUNT]
      omega
    have hlow : (decide (0x41000 ≤ 0x41000 + 0x8 * i) && decide (0x41000 + 0x8 * i < 0x41200)) = true := by
      rw [Bool.and_eq_true, decide_eq_true_eq, decide_eq_true_eq]
      omega
    rw [isCounterKey, hoff, hlow]
    rfl
  rw [rd_of_not_rws _ (nofun : Acc.rw ≠ Acc.rws), mgetD]
  exact congrArg (Option.getD · 0) (mfind_mkeep_none (p := fun k => !isCounterKey k) hkey)

/-- What one FCLK adds to the counters of the block and of the hives that are on. -/
def counted (occ : List Occ) (x : State × Bool) : State × Bool :=
  (List.range 16).foldl (fun x n => if hOn n x.1 then (List.range 32).foldl (countHive occ n) x else x)
    ((List.range 64).foldl (countBlock occ) x)

theorem fr_counted (occ : List Occ) (x : State × Bool) : Frame 0x4 x.1 (counted occ x).1 := by
  refine Frame.foldl_fst (fun y n => ?_) (Frame.foldl_fst (fun y i => fr_countBlock occ y i) .refl)
  split
  · exact Frame.foldl_fst (fun y i => fr_countHive occ n y i) .refl
  · exact .refl

theorem pmcCountUpdate_eq (s : State) : ∃ occ, pmcCountUpdate s =
    if on PMC_CTL.FREEZE s then { s with occ := [], fclk := s.fclk + 1 }
    else if (counted occ ({ s with occ := [], fclk := s.fclk + 1 }, false)).2 && on PMC_CTL.FRZ_ON_OVF s then
      put PMC_CTL.FREEZE 1 (counted occ ({ s with occ := [], fclk := s.fclk + 1 }, false)).1
    else (counted occ ({ s with occ := [], fclk := s.fclk + 1 }, false)).1 := ⟨_, rfl⟩

/-- The counters write registers only: the occurrences go, and FCLK advances by one. -/
theorem pmcCountUpdate_frame (s : State) : Frame 0x4 { s with occ := [], fclk := s.fclk + 1 } (pmcCountUpdate s) := by
  obtain ⟨occ, hupdate⟩ := pmcCountUpdate_eq s
  have hcounted : Frame 0x4 { s with occ := [], fclk := s.fclk + 1 } (counted occ ({ s with occ := [], fclk := s.fclk + 1 }, false)).1 :=
    fr_counted occ ({ s with occ := [], fclk := s.fclk + 1 }, false)
  rw [hupdate]
  exact .ite .refl (.ite (.seq hcounted (fr_put ..) rfl) hcounted)

/-! ### Bandwidth windows (R490, R491) -/

theorem rd_winUs_pmcBwCfgWrite (v : Nat) (s : State) : rd PMC_BW_CFG.WIN_US (pmcBwCfgWrite v s) = v % 2 ^ PMC_BW_CFG.WIN_US.w :=
  rd_put_same PMC_BW_CFG.WIN_US v s nofun

/-- The window's sums move to the registers, the sequence number advances and the sums start again. -/
theorem bwWindowEnd_eq {s : State} (hon : on PMC_BW_CFG.WIN_US s = true) :
    ∃ t, (bwWindowEnd s).regs = (put PMC_BW_SEQ.SEQ (rd PMC_BW_SEQ.SEQ s + 1) t).regs ∧
      (bwWindowEnd s).force = (put PMC_BW_SEQ.SEQ (rd PMC_BW_SEQ.SEQ s + 1) t).force ∧ (bwWindowEnd s).bwBytes = [] := by
  unfold bwWindowEnd
  rw [hon, if_neg (by simp)]
  dsimp only
  generalize (List.range 18).foldl _ s = t
  exact ⟨t, rfl, rfl, rfl⟩

theorem rd_seq_bwWindowEnd {s : State} (hon : on PMC_BW_CFG.WIN_US s = true) :
    rd PMC_BW_SEQ.SEQ (bwWindowEnd s) = (rd PMC_BW_SEQ.SEQ s + 1) % 2 ^ PMC_BW_SEQ.SEQ.w := by
  obtain ⟨t, hregs, hforce, -⟩ := bwWindowEnd_eq hon
  rw [rd_congr PMC_BW_SEQ.SEQ hregs hforce]
  exact rd_put_same PMC_BW_SEQ.SEQ (rd PMC_BW_SEQ.SEQ s + 1) t nofun

theorem bwBytes_bwWindowEnd {s : State} (hon : on PMC_BW_CFG.WIN_US s = true) : (bwWindowEnd s).bwBytes = [] := by
  obtain ⟨t, -, -, hbytes⟩ := bwWindowEnd_eq hon
  exact hbytes

/-! ### Sampling (R492 to R495) -/

/-- What a write of PMC_SMP_CFG sets. -/
def smpCfgFields (n v : Nat) : List (Fld × Nat) :=
  [(PMC_SMP_CFG.EN n, bits v 0 1), (PMC_SMP_CFG.KIND n, bits v 1 1), (PMC_SMP_CFG.WRAP n, bits v 2 1), (PMC_SMP_CFG.N n, bits v 3 20)]

theorem smpCfgFields_nodup (n v : Nat) : ((smpCfgFields n v).map fun x => x.1.key).Nodup := by
  simp [smpCfgFields, Fld.key, PMC_SMP_CFG.EN, PMC_SMP_CFG.KIND, PMC_SMP_CFG.WRAP, PMC_SMP_CFG.N]

/-- What the start of a sampler sets of its status. -/
def smpStartFields (n : Nat) : List (Fld × Nat) :=
  [(PMC_SMP_STATUS.WPTR n, 0), (PMC_SMP_STATUS.COUNT n, 0), (PMC_SMP_STATUS.FULL n, 0), (PMC_SMP_DROP.COUNT n, 0)]

theorem smpCfg_key_ne (n : Nat) {f : Fld} (hlo : (PMC_SMP_CFG.EN n).key ≤ f.key) (hhi : f.key ≤ (PMC_SMP_CFG.N n).key) :
    ∀ x ∈ smpStartFields n, f.key ≠ x.1.key := by
  simp only [Fld.key, PMC_SMP_CFG.EN, PMC_SMP_CFG.N] at hlo hhi
  simp only [smpStartFields, List.forall_mem_cons, Fld.key, PMC_SMP_STATUS.WPTR, PMC_SMP_STATUS.COUNT, PMC_SMP_STATUS.FULL,
    PMC_SMP_DROP.COUNT]
  refine ⟨?_, ?_, ?_, ?_, nofun⟩ <;> omega

theorem samplerStart_eq (n : Nat) (s : State) : samplerStart n s =
    { putAll (smpStartFields n) s with
      samplers := mset s.samplers n ({ samplerOf n s with count := max 1 (rd (PMC_SMP_CFG.N n) s), seq := 0, written := 0 }) } := by
  have hN : rd (PMC_SMP_CFG.N n) (putAll (smpStartFields n) s) = rd (PMC_SMP_CFG.N n) s :=
    rd_putAll_ne _ _ _ (smpCfg_key_ne n (by simp [Fld.key, PMC_SMP_CFG.EN, PMC_SMP_CFG.N]) le_rfl)
  have hsamplers : (putAll (smpStartFields n) s).samplers = s.samplers := (fr_putAll ..).f_samplers rfl
  unfold samplerStart
  dsimp only
  rw [← smpStartFields, hN, samplerOf, hsamplers, ← samplerOf]

theorem samplerOf_samplerStart (n : Nat) (s : State) : samplerOf n (samplerStart n s) =
    { samplerOf n s with count := max 1 (rd (PMC_SMP_CFG.N n) s), seq := 0, written := 0 } := by
  rw [samplerStart_eq]
  exact mgetD_mset_same _ _ _ _

theorem rd_samplerStart {n : Nat} {f : Fld} (s : State) (hlo : (PMC_SMP_CFG.EN n).key ≤ f.key) (hhi : f.key ≤ (PMC_SMP_CFG.N n).key) :
    rd f (samplerStart n s) = rd f s := by
  rw [samplerStart_eq]
  exact rd_putAll_ne _ _ _ (smpCfg_key_ne n hlo hhi)

/-- A write of EN to a sampler that stands starts it. -/
theorem pmcSmpWrite_starts {n v : Nat} {s : State} (hn : n < 16) (hpresent : hivePresent n s = true) (hon : hOn n s = true)
    (hoff : on (PMC_SMP_CFG.EN n) s = false) (hv : v.testBit 0 = true) :
    pmcSmpWrite n v s = samplerStart n (putAll (smpCfgFields n v) s) ∧
      rd (PMC_SMP_CFG.EN n) (putAll (smpCfgFields n v) s) = 1 ∧
      rd (PMC_SMP_CFG.N n) (putAll (smpCfgFields n v) s) = bits v 3 20 := by
  have hone : bits v 0 1 = 1 := by
    rw [Nat.testBit_zero, decide_eq_true_eq] at hv
    rw [bits, Nat.shiftRight_zero, Nat.pow_one, hv]
  have hEN : rd (PMC_SMP_CFG.EN n) (putAll (smpCfgFields n v) s) = 1 := by
    rw [rd_putAll_of_nodup s (smpCfgFields_nodup n v) (x := (PMC_SMP_CFG.EN n, bits v 0 1)) (by simp [smpCfgFields])
      (nofun : Acc.rw ≠ Acc.rws), hone]
    rfl
  have hN : rd (PMC_SMP_CFG.N n) (putAll (smpCfgFields n v) s) = bits v 3 20 := by
    rw [rd_putAll_of_nodup s (smpCfgFields_nodup n v) (x := (PMC_SMP_CFG.N n, bits v 3 20)) (by simp [smpCfgFields])
      (nofun : Acc.rw ≠ Acc.rws)]
    exact Nat.mod_mod _ _
  refine ⟨?_, hEN, hN⟩
  unfold pmcSmpWrite
  dsimp only
  rw [← smpCfgFields, hpresent, hon, hoff, on_of_rd_eq_one hEN, decide_eq_false (Nat.not_le.mpr hn)]
  rfl

/-- The oldest completed item writes its record into the slot of the write pointer (R493, R494). -/
theorem samplerOf_sampleRecordWrite {n : Nat} {x : Sample} {s : State} (hn : n < 16) (hon : hOn n s = true)
    (hitem : ((samplerOf n s).items.find? fun x => x.done) = some x)
    (hroom : on (PMC_SMP_CFG.WRAP n) s = true ∨ (samplerOf n s).written < 4096) :
    samplerOf n (sampleRecordWrite n s) = { samplerOf n s with
      items := (samplerOf n s).items.erase x, written := (samplerOf n s).written + 1,
      slots := mset (samplerOf n s).slots (rd (PMC_SMP_STATUS.WPTR n) s) (recordTime x.words s) } := by
  have hgoes : (!on (PMC_SMP_CFG.WRAP n) s && decide (4096 ≤ (samplerOf n s).written)) = false := by
    obtain hwrap | hfew := hroom
    · rw [hwrap]; rfl
    · rw [decide_eq_false (Nat.not_le.mpr hfew), Bool.and_false]
  unfold sampleRecordWrite
  dsimp only
  rw [hitem]
  dsimp only
  rw [hon, decide_eq_false (Nat.not_le.mpr hn), if_neg (by simp), hgoes, if_neg (by simp), samplerOf, (fr_putAll ..).f_samplers rfl]
  exact mgetD_mset_same _ _ _ _

/-! ### The commands -/

theorem exec_pmcClear (s : State) : exec .pmcClear s = .next (pmcClear s) := rfl
theorem exec_pmcCountUpdate (s : State) : exec .pmcCountUpdate s = .next (pmcCountUpdate s) := rfl
theorem exec_bwWindowEnd (s : State) : exec .bwWindowEnd s = .next (bwWindowEnd s) := rfl
theorem exec_pmcBwCfgWrite (v : BitVec 32) (s : State) : exec (.pmcBwCfgWrite v) s = .next (pmcBwCfgWrite v.toNat s) := rfl
theorem exec_pmcSmpEnable (n : Nat) (v : BitVec 32) (s : State) : exec (.pmcSmpEnable n v) s = .next (pmcSmpWrite n v.toNat s) := rfl
theorem exec_sampleRecordWrite (n : Nat) (s : State) : exec (.sampleRecordWrite n) s = .next (sampleRecordWrite n s) := rfl

/-- Settles O57: each clause reads what the command's operation leaves of the counters, the window or the sampler that it names. -/
theorem counterCommands : Obligations.CounterCommands := by
  unfold Obligations.CounterCommands
  refine ⟨fun s => ?clear, fun s => ?update, fun s hon => ?window, fun v s => ?config, ?enable, ?record⟩
  case clear => exact ⟨_, exec_pmcClear s, rfl, fun i hi => rd_count_pmcClear s hi⟩
  case update =>
    have hframe := pmcCountUpdate_frame s
    exact ⟨_, exec_pmcCountUpdate s, hframe.f_occ rfl, hframe.f_fclk rfl⟩
  case window => exact ⟨_, exec_bwWindowEnd s, bwBytes_bwWindowEnd hon, rd_seq_bwWindowEnd hon⟩
  case config => exact ⟨_, exec_pmcBwCfgWrite v s, rfl, rd_winUs_pmcBwCfgWrite _ s⟩
  case enable =>
    intro n v s hn hpresent hon hoff hv
    obtain ⟨hstarts, hEN, hN⟩ := pmcSmpWrite_starts hn hpresent hon hoff hv
    refine ⟨_, exec_pmcSmpEnable n v s, ?_⟩
    rw [hstarts, samplerOf_samplerStart, hN]
    refine ⟨on_of_rd_eq_one ?_, rfl, rfl, rfl⟩
    rw [rd_samplerStart _ le_rfl (by simp [Fld.key, PMC_SMP_CFG.EN, PMC_SMP_CFG.N]), hEN]
  case record =>
    intro n x s hn hon hitem hroom
    refine ⟨_, exec_sampleRecordWrite n s, ?_⟩
    rw [samplerOf_sampleRecordWrite hn hon hitem hroom]
    exact ⟨mfind_mset_same _ _ _, rfl, rfl⟩

end Sys2Proof.Machine
end

section
/-! Proofs for the host endpoint (18_host_endpoint.md): the BARs, configuration space and unsupported requests (R61, R498, R503, R509). -/

namespace Sys2Proof.Machine

open Reg

/-! ### What completions leave (R61) -/

theorem hp_foldl_sendTlp (l : List HpTlp) (s : State) : (l.foldl (fun t x => sendTlp x t) s).out.hp = s.out.hp ++ l := by
  induction l generalizing s with
  | nil => exact (List.append_nil _).symm
  | cons x l ih => rw [List.foldl_cons, ih, sendTlp, List.append_assoc, List.singleton_append]

theorem hp_sendCompletion (tag a : Nat) (d : List Byte) (poisoned : Bool) (s : State) :
    (sendCompletion tag a d poisoned s).out.hp = s.out.hp ++ completionTlps (maxPayload s) tag poisoned (d.length + 1) a d :=
  hp_foldl_sendTlp ..

/-- Max_Payload_Size stands in configuration space, and no register shows in its dword. -/
theorem maxPayload_congr {s t : State} (hhost : t.host = s.host) : maxPayload t = maxPayload s := by
  have hreset : ∀ u, cfgReset 0x58 u = 0x2810 := fun _ => rfl
  unfold maxPayload cfgD
  rw [hhost, hreset, hreset]

/-! ### Memory requests (R501, R503) -/

theorem exec_hpMemRead (bar : Nat) (off : BitVec 64) (len tag : Nat) (s : State) :
    exec (.hpMemRead bar off len tag) s = .next (hpMemRead bar off.toNat len tag s) := rfl

theorem exec_hpMemWrite_sound (bar : Nat) (off : BitVec 64) (d : List Byte) (poisoned : Bool) (s : State) :
    exec (.hpMemWrite bar off d poisoned false) s = .next (hpMemWrite bar off.toNat d poisoned s) :=
  congrArg Host.Outcome.next (losePath_false 16 ((List.range 4).map fun i => s.nextUid + i) _)

theorem exec_hpConfigRead (off be tag : Nat) (s : State) : exec (.hpConfigRead off be tag) s = .next (hpConfigRead off be tag s) := rfl

theorem exec_hpConfigWrite (off be tag : Nat) (v : BitVec 32) (poisoned : Bool) (s : State) :
    exec (.hpConfigWrite off be v tag poisoned) s = .next (hpConfigWrite off be v.toNat tag poisoned s) := rfl

theorem exec_hpUnsupportedRequest (kind : UrKind) (tag : Nat) (s : State) :
    exec (.hpUnsupportedRequest kind tag) s = .next (hpUnsupported kind tag s) := rfl

theorem inBar_zero {off len : Nat} (s : State) (h : off + len ≤ 2 ^ 24) : inBar 0 off len s = true := decide_eq_true h

theorem inBar_two {off len : Nat} (s : State) (h : off + len ≤ 2 ^ 30) : inBar 2 off len s = true := decide_eq_true h

section
variable {s : State} (henabled : memEnabled s = true)
include henabled

theorem hpMemRead_bar0 {off len : Nat} (tag : Nat) (h : off + len ≤ 2 ^ 24) :
    hpMemRead 0 off len tag s = sendCompletion tag off (bar0Read off len (idleTick s)).1 false (bar0Read off len (idleTick s)).2 := by
  unfold hpMemRead
  rw [henabled, inBar_zero s h]
  rfl

theorem hpMemRead_bar2 {off len : Nat} (tag : Nat) (h : off + len ≤ 2 ^ 30) :
    hpMemRead 2 off len tag s = sendCompletion tag off (bar2Read off len s) false s := by
  unfold hpMemRead
  rw [henabled, inBar_two s h]
  rfl

theorem hpMemWrite_bar0 {off : Nat} {d : List Byte} (h : off + d.length ≤ 2 ^ 24) :
    hpMemWrite 0 off d false s = bar0Write off d (settleBut off d.length s) := by
  unfold hpMemWrite
  rw [henabled, inBar_zero s h]
  rfl

theorem hpMemWrite_bar2 {off : Nat} {d : List Byte} (h : off + d.length ≤ 2 ^ 30) : hpMemWrite 2 off d false s = bar2Write off d s := by
  unfold hpMemWrite
  rw [henabled, inBar_two s h]
  rfl

end

/-- A read of BAR_0 is answered in completions of its bytes; what reading registers changes is not read here. -/
theorem hp_hpMemRead_bar0 {off len : Nat} (tag : Nat) {s : State} (henabled : memEnabled s = true) (h : off + len ≤ 2 ^ 24) :
    (hpMemRead 0 off len tag s).out.hp = s.out.hp ++
      completionTlps (maxPayload s) tag false ((bar0Read off len (idleTick s)).1.length + 1) off (bar0Read off len (idleTick s)).1 := by
  have hframe : Frame 0x100054 s (bar0Read off len (idleTick s)).2 := ((fr_idleTick s).mono rfl).seq (fr_bar0Read ..) rfl
  rw [hpMemRead_bar0 henabled tag h, hp_sendCompletion, hframe.f_out rfl, maxPayload_congr (hframe.f_host rfl)]

/-- DESC_TAIL stands first in the page of its context (R177). -/
theorem bar2Write_descTail {x : Nat} {d : List Byte} {s : State} (hlen : d.length = 4) (hhome : cHome (ctxOf x s) = 16)
    (hbelled : belled x s = true) : bar2Write (0x4000 * x) d s = descTail x (leNat d) s := by
  have hpage : 0x4000 * x / 0x4000 = x := Nat.mul_div_cancel_left x (by decide)
  have hfirst : 0x4000 * x % 0x4000 = 0 := Nat.mul_mod_right ..
  unfold bar2Write
  dsimp only
  rw [hpage, hfirst, if_neg (by simp [hlen]), if_neg (by simp [hhome, hbelled]), if_pos rfl]

/-! ### Configuration space (R498, R506) -/

theorem cfg_sendMsg (v : Nat) (s : State) : (sendMsg v s).host.cfg = s.host.cfg := by
  unfold sendMsg
  split
  · rfl
  · rw [(fr_sendMsgNow ..).f_host rfl]

theorem cfg_raiseInt (b : Nat) (s : State) : (raiseInt b s).host.cfg = s.host.cfg := by
  have hput : (put (intField b) 1 s).host = s.host := (fr_put ..).f_host rfl
  unfold raiseInt
  dsimp only
  split
  · rfl
  · split
    · rw [hput]
    · rw [cfg_sendMsg, hput]

theorem cfg_drainEvents (l : List Event) (s : State) : (drainEvents l s).host.cfg = s.host.cfg := by
  induction l generalizing s with
  | nil => rfl
  | cons e l ih =>
    unfold drainEvents
    split
    · rw [ih, cfg_raiseInt, (fr_evQueueWrite ..).f_host rfl, (fr_fwRead ..).f_host rfl]
    · rfl

theorem cfg_flushEvents (s : State) : (flushEvents s).host.cfg = s.host.cfg := by
  unfold flushEvents
  split
  · exact cfg_drainEvents ..
  · rfl

theorem cfg_pumpReads (n : Nat) (s : State) : (pumpReads n s).host.cfg = s.host.cfg := by
  induction n generalizing s with
  | zero => rfl
  | succ n ih =>
    unfold pumpReads
    split
    · rfl
    · split
      · rw [ih]
        rfl
      · rfl

theorem cfg_flushWrites (s : State) : (flushWrites s).host.cfg = s.host.cfg := by
  have hfold : ∀ (l : List (Nat × Nat × List Byte)) (t : State),
      (l.foldl (fun t x => sendHostWrite x.2.1 x.2.2 t) t).host = t.host :=
    fun l t => (Frame.foldl (fun u x => fr_sendHostWrite ..) .refl).f_host rfl
  unfold flushWrites
  split
  · rw [hfold]
  · rfl

/-- What goes out once the bus may be used again leaves configuration space. -/
theorem cfg_hostResume (s : State) : (hostResume s).host.cfg = s.host.cfg := by
  rw [hostResume, cfg_flushEvents, issueReads, cfg_pumpReads, cfg_flushWrites]

theorem hpConfigWrite_writes (off be v tag : Nat) {s : State} (hready : s.host.ready = true) :
    hpConfigWrite off be v tag false s = hostResume (sendTlp (.cfgCompletion tag 0) (cfgWrite (off / 4 * 4) be v s)) := by
  unfold hpConfigWrite
  rw [hready]
  rfl

theorem hpUnsupported_answers {kind : UrKind} (tag : Nat) (s : State) (hmessage : kind ≠ .message) (hbar : kind ≠ .barAccess) :
    hpUnsupported kind tag s = sendTlp (.unsupported tag) (aerSet aerUnsupported s) := by
  cases kind with
  | message => exact absurd rfl hmessage
  | barAccess => exact absurd rfl hbar
  | io => rfl
  | atomic => rfl
  | tlpPrefix => rfl

/-- Settles O23: each request takes the branch of its BAR, and what follows the access leaves the output and configuration space. -/
theorem hostAccessCommands : Obligations.HostAccessCommands := by
  unfold Obligations.HostAccessCommands
  refine ⟨?read0, ?read2, ?bell, ?write0, ?cfgRead, ?cfgWrite, ?unsupported⟩
  case read0 =>
    intro off len tag s henabled h
    exact ⟨_, exec_hpMemRead 0 off len tag s, hp_hpMemRead_bar0 tag henabled h⟩
  case read2 =>
    intro off len tag s henabled h
    rw [exec_hpMemRead, hpMemRead_bar2 henabled tag h]
  case bell =>
    intro off x d s henabled hx hoff hlen hhome hbelled
    rw [exec_hpMemWrite_sound, hpMemWrite_bar2 henabled (by omega), hoff, bar2Write_descTail hlen hhome hbelled]
  case write0 =>
    intro off d s henabled h
    rw [exec_hpMemWrite_sound, hpMemWrite_bar0 henabled h]
  case cfgRead =>
    intro off be tag s hready
    rw [exec_hpConfigRead, hpConfigRead, hready]
    rfl
  case cfgWrite =>
    intro off be tag v s hready
    refine ⟨_, exec_hpConfigWrite off be tag v false s, ?_⟩
    rw [hpConfigWrite_writes _ _ _ _ hready, cfg_hostResume, (fr_sendTlp ..).f_host rfl]
  case unsupported =>
    intro kind tag s hmessage hbar
    rw [exec_hpUnsupportedRequest, hpUnsupported_answers tag s hmessage hbar]

end Sys2Proof.Machine
end
